-- ==== Sys2Proof/Word.lean ====
section
/-! DEFINITION. The machine's word types and its one keyed-table type. -/

namespace Sys2Proof

/-- One byte of a memory, packet, command or record. -/
abbrev Byte := BitVec 8

/-- A 64-bit register of control space (R12). -/
abbrev Word := BitVec 64

/-- Sparse data by key: key and value pairs, keys strictly rising, each key at most once. -/
abbrev Tbl (α : Type) := List (Nat × α)

end Sys2Proof
end

