-- ==== Sys2Proof/Syntax.lean ====
section
/-! DEFINITION. Syntax.lean: the commands and events of the Tabec Selrorik, one constructor of Instr for each row of the
operation table, with the operands a row takes. -/

namespace Sys2Proof

/-- The route by which a command arrives (R199, R220): in a datagram of an open session, named by the session's
index, or by the doorbell of a ring queue. -/
inductive Route where
  | session (index : Nat)
  | ring (queue : Nat)
  deriving DecidableEq, Repr, Inhabited

/-- A command of Table 7-4 without its opcode, which the row of the table names. params holds the LENGTH parameter
bytes; paramsRsv is true when every reserved byte at and beyond LENGTH is zero. -/
structure Cmd where
  route : Route
  flags : Nat := 0
  crew : Nat := 0
  tag : Nat := 0
  tagGen : Nat := 1
  rsv7 : Nat := 0
  queue : Nat := 0
  qgen : Nat := 0
  rsv11 : Nat := 0
  length : Nat := 0
  padZero : Bool := true
  params : List Byte := []
  deriving DecidableEq, Repr, Inhabited

/-- Who makes a register access: an open session (R333), a fabric access under a crew's control key word (R101), the
service firmware of service core 0 or 1 (R418), or the device's own firmware (R431). -/
inductive Writer where
  | session (index : Nat)
  | fabric (crew requester : Nat)
  | service (core : Nat)
  | firmware
  deriving DecidableEq, Repr, Inhabited

/-- A request packet of Table 6-6 (TYPE 0x01 to 0x09, INV, DOWN, COPY_DATA): header (Table 6-4) and request body
(Table 6-7). vc is the channel it came on; rsvZero says that every reserved field is zero. -/
structure Req where
  port : Nat := 0
  vc : Nat := 1
  flags : Nat := 0
  length : Nat := 40
  dest : Nat := 0
  source : Nat := 0
  tag : Nat := 0
  tagGen : Nat := 0
  rsvZero : Bool := true
  addr : Nat := 0
  key : Nat := 0
  op : Nat := 0
  size : Nat := 0
  grantGen : Nat := 0
  regGen : Nat := 0
  entry : Nat := 0
  poison : Nat := 0
  operand : Nat := 0
  compare : Nat := 0
  data : List Byte := []
  deriving DecidableEq, Repr, Inhabited

/-- A response packet of Table 6-6 (TYPE 0x21 to 0x2A, COPY_ACK): header and response body (Table 6-8). For DONE,
requester holds bytes [2:0] of its body. -/
structure Rsp where
  port : Nat := 0
  vc : Nat := 2
  kind : Nat := 0x21
  length : Nat := 32
  dest : Nat := 0
  source : Nat := 0
  tag : Nat := 0
  tagGen : Nat := 0
  rsvZero : Bool := true
  status : Nat := 0
  load : Nat := 0
  credit : Nat := 0
  stroke : Nat := 0
  grantGen : Nat := 0
  regGen : Nat := 0
  requester : Nat := 0
  old : Nat := 0
  data : List Byte := []
  deriving DecidableEq, Repr, Inhabited

/-- A SYNC packet (Table 6-11) as it arrives. arrival is the moment of its first bit, in picoseconds from the boundary
that opened this module's present stroke. -/
structure SyncPkt where
  port : Nat := 0
  source : Nat := 0
  rsvZero : Bool := true
  stroke : Nat := 0
  txOffset : Nat := 0
  period : Nat := 0
  master : Nat := 0
  hops : Nat := 0
  hall : Nat := 0
  arrival : Int := 0
  deriving DecidableEq, Repr, Inhabited

/-- A DELAY_REQ or DELAY_RSP packet (R195) with its own moment of arrival in this module's timebase, in picoseconds. -/
structure DelayPkt where
  port : Nat := 0
  source : Nat := 0
  t1 : Nat := 0
  t2 : Nat := 0
  t3 : Nat := 0
  arrival : Nat := 0
  deriving DecidableEq, Repr, Inhabited

/-- A COMMANDS datagram (Table 7-2) of an open session. payload is the clear text of its records; auth says whether
its GCM tag verifies (R204); ce is the IP header's CE mark (R202). -/
structure Datagram where
  session : Nat := 0
  seq : Nat := 0
  ack : Nat := 0
  type : Nat := 2
  flags : Nat := 0
  count : Nat := 0
  auth : Bool := true
  ce : Bool := false
  dscp : Nat := 0
  payload : List Byte := []
  deriving DecidableEq, Repr, Inhabited

/-- Handshake message 1 (Table 12-3). wellFormed says that its zero bytes are zero and its MSG is 1; onCurve that
H_PUB is a point of the curve. -/
structure Hello1 where
  role : Nat := 0
  crew : Nat := 0
  cred : Nat := 0
  wellFormed : Bool := true
  onCurve : Bool := true
  body : List Byte := []
  deriving DecidableEq, Repr, Inhabited

/-- Handshake message 3 (Table 12-3): the pending session word it is sent under, and whether H_SIG and the tag of R344
verify. -/
structure Hello3 where
  session : Nat := 0
  tag : Nat := 0
  tagGen : Nat := 1
  wellFormed : Bool := true
  sigOk : Bool := true
  tagOk : Bool := true
  deriving DecidableEq, Repr, Inhabited

/-- What R200 examines of a received Ethernet frame. -/
structure Frame where
  fcsOk : Bool := true
  addressed : Bool := true
  tagged : Bool := false
  vid : Nat := 0
  ipBytes : Nat := 0
  fragment : Bool := false
  options : Bool := false
  checksumOk : Bool := true
  udp : Bool := true
  udpPort : Nat := 0
  pcp : Nat := 0
  deriving DecidableEq, Repr, Inhabited

/-- A PTP message (R199): its domain, whether it came over IPv6, and the master's time that it gives, with the path delay applied, for
the boundary that opened the present stroke; locked says whether the servo is locked after it. -/
structure PtpMsg where
  domain : Nat := 0
  ipv6 : Bool := false
  seconds : Nat := 0
  nanos : Nat := 0
  locked : Bool := true
  deriving DecidableEq, Repr, Inhabited

/-- A MIRROR packet (Table 14-1). -/
structure MirrorPkt where
  mseq : Nat := 0
  addr : Nat := 0
  requester : Nat := 0
  tag : Nat := 0
  tagGen : Nat := 0
  kind : Nat := 1
  line : List Byte := []
  old : Nat := 0
  deriving DecidableEq, Repr, Inhabited

/-- A REGION packet (Table 14-1). -/
structure RegionPkt where
  mseq : Nat := 0
  first : Nat := 0
  count : Nat := 0
  key : Nat := 0
  crew : Nat := 0
  flags : Nat := 0
  op : Nat := 1
  dgen : Nat := 0
  deriving DecidableEq, Repr, Inhabited

/-- A HEARTBEAT packet (Table 14-1) on one of the two pair ports. -/
structure Heartbeat where
  port : Nat := 14
  stroke : Nat := 0
  sent : Nat := 0
  applied : Nat := 0
  answered : Nat := 0
  epoch : Nat := 0
  state : Nat := 0
  deriving DecidableEq, Repr, Inhabited

/-- A JOIN packet (R404). The four conditions of R404 that need cryptography or the partner's record are given as
verdicts: the signature over the transcript, equal FW digests, the same witness record, each naming the other. -/
structure JoinPkt where
  msg : Nat := 1
  nonce : List Byte := []
  pub : List Byte := []
  sigOk : Bool := true
  fwEqual : Bool := true
  witnessEqual : Bool := true
  partnerOk : Bool := true
  deriving DecidableEq, Repr, Inhabited

/-- The answer of the witness's home to the CAS of R398: the value it returned. -/
structure WitnessAns where
  tag : Nat := 0
  tagGen : Nat := 0
  returned : Nat := 0
  deriving DecidableEq, Repr, Inhabited

/-- The verdict of an image check (R335) on the images that one boot phase loads, for bank A and bank B. -/
structure BankVerdict where
  aOk : Bool := true
  bOk : Bool := true
  deriving DecidableEq, Repr, Inhabited

/-- What training finds in phase 3 (Table 16-1): the fabric ports and the Ethernet port that come up, the stacks that
train, the PCIe links (DNS_LINKS), the bridge, and the silicon stepping. -/
structure TrainResult where
  ports : Nat := 0
  portsCrossed : Nat := 0
  eth : Bool := true
  stackMask : Nat := 0
  regionsPerStack : Nat := 0
  links : Nat := 0
  pciePorts : Nat := 0
  bridge : Bool := true
  stepping : Nat := 0
  deriving DecidableEq, Repr, Inhabited

/-- One NVMe namespace as Identify reports it in phase 6 (R165). readable is false when it cannot be read at all. -/
structure Namespace where
  link : Nat := 0
  nsid : Nat := 1
  zoned : Bool := false
  lba4k : Bool := true
  noMeta : Bool := true
  zoneAppend : Bool := true
  zoneCapOk : Bool := true
  regions : Nat := 0
  readable : Bool := true
  deriving DecidableEq, Repr, Inhabited

/-- The array in which a double-bit SRAM error is found (R368). -/
inductive SramArray where
  | homeCacheClean (line : Nat)
  | homeCacheModified (line : Nat)
  | directory (line : Nat)
  | descriptorCache (die context segment tile : Nat)
  | scratchCrew (core crew block : Nat)
  | operationArea (core item : Nat)
  | context (context : Nat)
  | catalogue (region : Nat)
  | deviceTable
  deriving DecidableEq, Repr, Inhabited

/-- What the sensors report over the last millisecond (R445), in degrees and watts. -/
structure Sensors where
  d0 : Nat := 0
  d1 : Nat := 0
  watts : Nat := 0
  vin : Nat := 4400
  iin : Nat := 0
  deriving DecidableEq, Repr, Inhabited

/-- The commands and events of the block: one constructor for each row of the operation table, in the table's order. -/
inductive Instr where
  | nop (c : Cmd)
  | sessionOpen (h : Hello1)
  | handshakeMsg3 (h : Hello3)
  | sessionClose (c : Cmd)
  | queueCreate (c : Cmd)
  | queueAttach (c : Cmd)
  | queueDelete (c : Cmd)
  | queueDeleteEnd (queue : Nat)
  | crewCreate (c : Cmd)
  | crewReset (c : Cmd)
  | crewResetDrainEnd (crew : Nat)
  | crewDelete (c : Cmd)
  | regRead (c : Cmd)
  | regWrite (c : Cmd)
  | registerWrite (who : Writer) (offset : Nat) (value : Word)
  | snapshotNow (c : Cmd)
  | snapshotAt (c : Cmd)
  | snapshotDisarm (c : Cmd)
  | snapshotAtTrigger
  | read (c : Cmd)
  | write (c : Cmd)
  | fill (c : Cmd)
  | copy (c : Cmd)
  | atomic (c : Cmd)
  | fence (c : Cmd)
  | regionRegister (c : Cmd)
  | regionRevokeRekey (c : Cmd)
  | regionRevokeRelease (c : Cmd)
  | revokeDrainEnd (revoke : Nat)
  | revokeDeadline (revoke : Nat)
  | regionScrubDone (region : Nat)
  | segmentSet (c : Cmd)
  | faultResolveReplay (c : Cmd)
  | faultResolveFail (c : Cmd)
  | placeToDense (c : Cmd)
  | placeToDram (c : Cmd)
  | placeDrainEnd (op : Nat)
  | sealExtent (c : Cmd)
  | sealLogCreate (c : Cmd)
  | sealKvAppend (c : Cmd)
  | tierEvict (c : Cmd)
  | windowCreate (c : Cmd)
  | windowAdvance (c : Cmd)
  | windowDelete (c : Cmd)
  | windowDeleteEnd (window : Nat)
  | countersRead (c : Cmd)
  | imageLoad (c : Cmd)
  | expert (c : Cmd)
  | attnPartial (c : Cmd)
  | combine (c : Cmd)
  | combineFire (item : Nat)
  | combineDeadline (item : Nat)
  | expand (c : Cmd)
  | factor (c : Cmd)
  | scratchLoad (c : Cmd)
  | scratchStore (c : Cmd)
  | pool (c : Cmd)
  | rowPublish (c : Cmd)
  | rowMove (c : Cmd)
  | rowConvert (c : Cmd)
  | rowFenceEnd (slot : Nat)
  | hotsetLoad (c : Cmd)
  | hotsetDrop (c : Cmd)
  | rowReplicateSet (c : Cmd)
  | rowReplicateClear (c : Cmd)
  | tableCreate (c : Cmd)
  | tableSwitch (c : Cmd)
  | tableDelete (c : Cmd)
  | tableDrainEnd (op : Nat)
  | search (c : Cmd)
  | listScan (index : Nat)
  | insert (c : Cmd)
  | delete (c : Cmd)
  | mergeAttach (c : Cmd)
  | mergeFold (c : Cmd)
  | mergeDetach (c : Cmd)
  | indexFree (index : Nat)
  | filterSet (c : Cmd)
  | filterClear (c : Cmd)
  | longopQuery (c : Cmd)
  | suspend (c : Cmd)
  | resume (c : Cmd)
  | cancel (c : Cmd)
  | attest (c : Cmd)
  | attestBatchClose
  | importKeyExpiry (index : Nat)
  | keyImport (c : Cmd)
  | keyRetire (c : Cmd)
  | fwStage (c : Cmd)
  | fwActivate (c : Cmd)
  | logRead (c : Cmd)
  | faultRead (c : Cmd)
  | faultAck (c : Cmd)
  | pairJoinSync (c : Cmd)
  | pairJoinSwitch (c : Cmd)
  | pairLeave (c : Cmd)
  | expel (c : Cmd)
  | ownerQuery (c : Cmd)
  | ownerClaim (c : Cmd)
  | ownerRenew (c : Cmd)
  | ownerOffer (c : Cmd)
  | ownerAccept (c : Cmd)
  | ownerAbort (c : Cmd)
  | ownerRelease (c : Cmd)
  | ownerTake (c : Cmd)
  | sqTail (who : Writer) (queue : Nat) (value : Word)
  | cqHead (who : Writer) (queue : Nat) (value : Word)
  | schQconfApply (who : Writer) (value : Word)
  | schQconfSelect (who : Writer) (value : Word)
  | schQshapeApply (who : Writer) (value : Word)
  | schQshapeSelect (who : Writer) (value : Word)
  | stkPeriodAt (who : Writer) (value : Word)
  | periodChange
  | engCrewSpad (who : Writer) (crew : Nat) (value : Word)
  | tirCrewCache (who : Writer) (crew : Nat) (value : Word)
  | wskMark (who : Writer) (value : Word)
  | wskUnmark (who : Writer) (value : Word)
  | wskMarkSelect (who : Writer) (value : Word)
  | wskProfPublish (who : Writer) (profile : Nat) (value : Word)
  | wskProfDisable (who : Writer) (profile : Nat) (value : Word)
  | profileRetire (profile : Nat)
  | snpFrozenRelease (who : Writer)
  | icuSoft (who : Writer) (target : Nat)
  | icuTgtClaim (target : Nat)
  | icuTgtComplete (target source : Nat)
  | icuTgtMode (who : Writer) (target : Nat) (value : Word)
  | icuRingConsumer (who : Writer) (target : Nat) (consumer : Nat)
  | icuSrc (who : Writer) (source : Nat) (value : Word)
  | watchdogKick (who : Writer) (target : Nat)
  | watchdogHalf (target : Nat)
  | watchdogMiss (target : Nat) (withinSecond : Bool)
  | pwrResetModule (who : Writer)
  | pwrResetDie (who : Writer) (die : Nat)
  | clusterResetEnd (die : Nat) (passed : Nat)
  | pwrStandbyEnter (who : Writer)
  | pwrStandbyLeave (who : Writer)
  | strokeBoundary (finished : List Nat)
  | waitDeadline (job : Nat)
  | clusterWake (cluster : Nat)
  | itemAbandon (item : Nat)
  | parkTimeout (job : Nat)
  | parkedResume (job : Nat)
  | deferredCompletionWrite (queue : Nat)
  | ledgerIntervalEnd
  | counterDecay
  | meterLatch
  | throttleStep (sensors : Sensors)
  | syncSend
  | delayReqSend (now : Nat)
  | syncLoss
  | sync (p : SyncPkt)
  | delayReq (p : DelayPkt) (leave : Nat)
  | delayRsp (p : DelayPkt)
  | portHello (port number : Nat) (hall : Nat)
  | redirect (source fromM toM epoch stroke : Nat)
  | redirectRepeat
  | redirectGraceEnd (module : Nat)
  | flit (port : Nat) (bytes : List Byte)
  | linkAckStall (port : Nat)
  | retrainFail (port : Nat)
  | portTrainEnd (port : Nat) (up : Bool)
  | rd (p : Req)
  | wr (p : Req)
  | atom (p : Req)
  | rdS (p : Req)
  | rdX (p : Req)
  | upg (p : Req)
  | wb (p : Req)
  | agentReg (p : Req)
  | agentBye (p : Req)
  | ack (p : Rsp)
  | ackD (p : Rsp)
  | pendingRetry (line : Nat)
  | agePromotion (line : Nat)
  | snoopLimitExpiry (line agent : Nat)
  | copyData (p : Req)
  | copyAck (p : Rsp)
  | done (p : Rsp)
  | rsp (p : Rsp)
  | relayedRequestTimeout (requester tag tagGen : Nat)
  | deviceRequestTimeout (job : Nat)
  | tierFillEnd (page : Nat) (result : Nat)
  | windowFillEnd (window count : Nat) (ok : Bool)
  | nvmeCompletion (link command : Nat) (ok : Bool)
  | nvmeCmdTimeout (link command : Nat)
  | namespaceReturn (link : Nat)
  | pcieAerEvent (link : Nat) (correctable : Bool) (detail : Nat)
  | patrolScrubRead (line : Nat) (symbols : Nat)
  | sramDoubleBitError (array : SramArray)
  | bridgeFailure
  | thermalTrip (die : Nat)
  | faultNPulseEnd
  | sessionDatagram (d : Datagram)
  | ackOnlyDatagram (d : Datagram)
  | ackTimer (session : Nat)
  | datagramResend (session seq : Nat)
  | sessionIdle (session : Nat)
  | pendingSessionExpiry (session : Nat)
  | ethFrame (f : Frame)
  | pfcFrame (priority : Nat) (paused : Bool)
  | arpRequest (address : Nat) (sender : Nat)
  | neighborSolicitation (address : Nat) (sender : Nat)
  | icmpEcho (ipv6 : Bool) (address : Nat) (sender : Nat) (data : List Byte)
  | ptpMessage (m : PtpMsg)
  | logBatchClose
  | mirror (p : MirrorPkt)
  | region (p : RegionPkt)
  | mirrorAck (applied : Nat)
  | lineReq (addr : Nat)
  | lineData (addr : Nat) (data : List Byte)
  | sample (number desc step part : Nat) (data : List Byte)
  | sampleVerdict (number : Nat) (failed : Bool)
  | heartbeat (h : Heartbeat)
  | faultNotice (stroke source : Nat)
  | serveMissLimit
  | mirrorMissLimit
  | witnessAnswer (w : WitnessAns)
  | witnessAskRetry
  | reconcileEnd
  | takeoverRecordExpiry
  | join (p : JoinPkt)
  | joinRepeat
  | crewKey (crew epoch : Nat) (wrapped : List Byte)
  | switch (stroke epoch : Nat)
  | powerEnRise
  | powerEnFall
  | inputOutOfRange (vin : Nat)
  | refclkLoss
  | warmReset
  | snapIn (cycle : Nat)
  | auxRise (slot : Nat)
  | bootRails (ok : Bool)
  | bootRom (identityOk : Bool) (serial : Nat) (v : BankVerdict)
  | bootLoader (v : BankVerdict)
  | training (r : TrainResult)
  | selfTest (passed : Nat) (sramOk : Bool)
  | strokeLock (p : SyncPkt)
  | masterListenEnd (heard : Option (Nat × Nat))
  | strokeLockWait
  | denseTierStart (found : List Namespace)
  | pairJoinPhase (joined : Bool)
  | joinTimeout (witness : Nat)
  | crewRestore
  | phaseBoundExceeded
  | i3cPrivateWrite (data : List Byte)
  | i3cPrivateRead
  | enec
  | disec
  | rstdaa
  | setdasa (address : Nat)
  | entdaa (address : Nat)
  | getpid
  | getbcr
  | getdcr
  | getstatus
  | ibiRetry (accepted : Bool)
  | writeEnable
  | status
  | provRead (address count : Nat)
  | program (address : Nat) (data : List Byte)
  | erase
  | expelWaitEnd
  | ethLinkDown
  | ethLinkUp
  | throttleThresholdCrossing (die : Nat) (above : Bool)
  | inputWarningCrossing (outside : Bool)
  | conversionFault
  | trivetCheckFailure
  | auxFall
  | provisioningBusyEnd
  | releaseToken (sigOk : Bool)
  deriving DecidableEq, Repr

end Sys2Proof
end

