-- ==== Sys2Proof/Decode.lean ====
section
/-! DEFINITION. Decode.lean: the commands of this block have no bit encoding in the operation table, so no word spells a
command. -/

namespace Sys2Proof

/-- The command that an nbits-wide word spells by the operation table's bits. The table gives no row any bits, so no word
spells a command. -/
def decodeTableWord (_nbits _w : Nat) : Option Instr := none

end Sys2Proof
end

