-- ==== Sys2Proof/Config.lean ====
section
/-! DEFINITION. Config.lean: what the manual leaves to the device, and the external standards it names without restating
them. Every constant here is opaque: it has no body, so no proof can lean on a value of it. -/

namespace Sys2Proof

/-- The permutation from which key values, DGENs and control keys are drawn (R96). The manual says only that it is a
permutation of the 32-bit counter. -/
opaque Config.keyPerm : Equiv.Perm (BitVec 32)

/-- A free byte: random draws, undefined bytes and unpredictable data (R4). Applied to the running count of draws. -/
opaque Config.freeByte : Nat → BitVec 8

/-- A free number: shares, delays and choices that the manual leaves to the device. Applied to the count of draws. -/
opaque Config.freeNat : Nat → Nat

/-- A free 64-bit word, applied to the count of draws. -/
opaque Config.freeWord : Nat → BitVec 64

/-- The device's own order of accumulation (R236, R238): a sort key for term i of the sum drawn as number n. -/
opaque Config.orderKey : Nat → Nat → Nat

/-- The vector unit's exponential away from −∞ (R236: within 2 units in the last place). -/
opaque Config.expF32 : BitVec 32 → BitVec 32

/-- The vector unit's hyperbolic tangent (R236). -/
opaque Config.tanhF32 : BitVec 32 → BitVec 32

/-- The vector unit's reciprocal (R236). -/
opaque Config.recipF32 : BitVec 32 → BitVec 32

/-- The vector unit's reciprocal square root (R236). -/
opaque Config.rsqrtF32 : BitVec 32 → BitVec 32

/-- The set hash of the coherence directory: R113 says the sets are indexed by a hash of the line address and gives none. -/
opaque Config.dirSet : Nat → Fin 131072

/-- The order in which the device visits the stacks of a region (R98), as a sort key: region, stack. -/
opaque Config.stackKey : Nat → Nat → Nat

/-- SHA-384, named by R332 and defined by its own standard. -/
opaque Config.sha384 : List (BitVec 8) → BitVec 384

/-- ECDSA P-384 verification over SHA-384 of the signed bytes (R332): public key, signed bytes, signature. -/
opaque Config.ecdsaVerify : List (BitVec 8) → List (BitVec 8) → List (BitVec 8) → Bool

/-- LMS verification (R335): public key, signed bytes, signature. -/
opaque Config.lmsVerify : List (BitVec 8) → List (BitVec 8) → List (BitVec 8) → Bool

/-- The vendor's ECDSA and LMS public keys, held in ROM as digests (R336). -/
opaque Config.vendorEcdsa : List (BitVec 8)

/-- The vendor's LMS public key (R336). -/
opaque Config.vendorLms : List (BitVec 8)

/-- A signature of Trivet with the device ECDSA key over the given bytes, 96 bytes (R332, R337). -/
opaque Config.deviceSign : List (BitVec 8) → BitVec 768

/-- A signature of Trivet with leaf q of the device LMS key, 2,828 bytes (R335, R339). -/
opaque Config.deviceLms : Nat → List (BitVec 8) → BitVec 22624

/-- Whether 96 bytes are a point of P-384 (R343, R349). -/
opaque Config.onCurve : List (BitVec 8) → Bool

/-- The public half of the import key drawn as number n (R347). -/
opaque Config.importPub : Nat → BitVec 768

/-- The key unwrap of R349: import-key draw, identifier, KEY_ID, PUB, WRAPPED and the report it was made for. -/
opaque Config.unwrapKey : Nat → Nat → List (BitVec 8) → List (BitVec 8) → List (BitVec 8) → List (BitVec 8) → Option (BitVec 256)

/-- AES-256-GCM opening (R204, R355): key, nonce, associated data, ciphertext, tag; none where the tag fails. -/
opaque Config.gcmOpen : BitVec 256 → List (BitVec 8) → List (BitVec 8) → List (BitVec 8) → List (BitVec 8) → Option (List (BitVec 8))

/-- XTS-AES-256 of one 128-byte line (R352): memory key, address, DGEN, line. -/
opaque Config.xtsEncrypt : Nat → Nat → Nat → List (BitVec 8) → BitVec 1024

/-- The inverse of Config.xtsEncrypt (R352, R393). -/
opaque Config.xtsDecrypt : Nat → Nat → Nat → List (BitVec 8) → BitVec 1024

/-- A crew's memory key as R351 derives it: HALL, MODULE, CREW, EPOCH. -/
opaque Config.memoryKey : Nat → Nat → Nat → Nat → Nat

/-- The unwrap of CREW_KEY's memory key under the pair wrap key (R404). -/
opaque Config.unwrapCrewKey : List (BitVec 8) → Nat

/-- The wrap of a crew's memory key under the pair wrap key (R404), 72 bytes. -/
opaque Config.wrapCrewKey : Nat → BitVec 576

/-- Zstandard decoding of one frame (R154): none where the frame is malformed or outside the limits of R154. -/
opaque Config.zstdDecode : List (BitVec 8) → Option (List (BitVec 8))

/-- The blocks that chunk i of a compressed extent takes, drawn as number n (R155: 1 to 16). -/
opaque Config.zstdBlocks : Nat → Nat → Fin 16

/-- The factors that FACTOR chooses by a method of its own (R286): draw, tile, element. -/
opaque Config.factorElem : Nat → Nat → Nat → BitVec 32

/-- The provisioned identifier of the I3C target (R455 names GETPID and gives no value). -/
opaque Config.i3cPid : BitVec 48

/-- The bus characteristics register of the I3C target (R455 gives no value). -/
opaque Config.i3cBcr : BitVec 8

/-- The device characteristics register of the I3C target (R455 gives no value). -/
opaque Config.i3cDcr : BitVec 8

end Sys2Proof
end

