-- ==== Sys2Proof/Machine/State.lean ====
section
/-! DEFINITION. Machine/State.lean: the state of the block as plain data: every register, table, buffer and pin the
manual gives the Selrorik, the replay-protected counters of its secure flash, and the queue of waiting commands. -/

namespace Sys2Proof.Machine

/-- Why a step stops. No command of this block stops, so no meaning raises it. -/
inductive Fault where
  /-- Reserved for a state that no rule describes. No meaning raises it; stopping there is safe. -/
  | undescribed
  deriving DecidableEq, Repr

/-- Why a command has no meaning. -/
inductive Refusal where
  /-- Raised only by an arm of exec whose row has no meaning yet. Safe: nothing is claimed of it. -/
  | notModelled (mnemonic : String)
  deriving DecidableEq, Repr

/-- A command as a queue holds it: its opcode (Table 7-9), the command, its stamp (R52), the crew generation its
session bore (R221 step 7) and the session's own generation (R228), the completion entries reserved for it (R217), the DSCP pre-colour (R71), and its finish tag with the cost that it
was tagged with, once it has one (R66, R67). -/
structure QCmd where
  id : Nat := 0
  opcode : Nat := 0
  cmd : Cmd := { route := .session 0 }
  stamp : Nat := 0
  crewGen : Nat := 0
  sessGen : Nat := 0
  dscp : Nat := 0
  admitted : Bool := true
  reserved : Nat := 0
  finish : Option Nat := none
  price : Nat := 0
  ringed : Bool := true
  deriving DecidableEq, Repr, Inhabited

/-- A completion (Table 7-5) with the queue it belongs to and its inline data (Table 7-3). -/
structure Completion where
  queue : Nat := 0
  qgen : Nat := 0
  tag : Nat := 0
  tagGen : Nat := 0
  status : Nat := 0
  load : Nat := 0
  credit : Nat := 0
  stroke : Nat := 0
  words : List Nat := []
  data : List Byte := []
  deriving DecidableEq, Repr, Inhabited

/-- A datagram that the device sends (Table 7-2). -/
structure OutDatagram where
  session : Nat := 0
  seq : Nat := 0
  ack : Nat := 0
  type : Nat := 3
  flags : Nat := 0
  count : Nat := 0
  payload : List Byte := []
  resends : Nat := 0
  deriving DecidableEq, Repr, Inhabited

/-- A session (R205 to R210). N of R206 is next; heldDg are the datagrams held by SEQ; openRec is the open record of
R210; waiting are the completion records beyond the 256 unacknowledged datagrams of R207. -/
structure Session where
  gen : Nat := 0
  isOpen : Bool := false
  isPending : Bool := false
  management : Bool := false
  crew : Nat := 0
  crewGen : Nat := 0
  cred : Nat := 0
  next : Nat := 1
  heldDg : Tbl Datagram := []
  hostAck : Nat := 0
  outSeq : Nat := 1
  ackSeq : Nat := 0
  unacked : List OutDatagram := []
  waiting : List (List Byte) := []
  sinceAck : Nat := 0
  ceEcho : Bool := false
  openRec : List Byte := []
  recOpen : Bool := false
  closedAt : Option Nat := none
  held : List QCmd := []
  fLast : Nat := 0
  deriving DecidableEq, Repr, Inhabited

/-- A ring queue (R214 to R219), its scheduling parameters (Tables 2-19, 2-20) and its shaper balance (R69). -/
structure Queue where
  present : Bool := false
  crew : Nat := 0
  gen : Nat := 0
  weight : Nat := 1
  doorbell : Bool := false
  notify : Option (Nat × Nat) := none
  sqLog : Nat := 8
  cqLog : Nat := 8
  sqBase : Nat := 0
  sqKey : Nat := 0
  cqBase : Nat := 0
  cqKey : Nat := 0
  sqTail : Nat := 0
  sqHead : Nat := 0
  cqHead : Nat := 0
  cqTail : Nat := 0
  reserved : Nat := 0
  fLast : Nat := 0
  held : List QCmd := []
  deferred : List Completion := []
  deleting : Option QCmd := none
  unwritten : Nat := 0
  readWait : Option Nat := none
  deletedAt : Option Nat := none
  polEn : Bool := false
  policer : Nat := 0
  shEn : Bool := false
  shRate : Nat := 0
  shBurst : Nat := 0
  balance : Int := 0
  deriving DecidableEq, Repr, Inhabited

/-- A crew (R28). state holds CRW_STATE.STATE; vtime is V of R67; the meters are those of R39, the cycle-weighted
ones for the ledger of R361. -/
structure Crew where
  state : Nat := 0
  gen : Nat := 0
  sealedCrew : Bool := false
  cores : Nat := 0
  stackMask : Nat := 0
  ethWeight : Nat := 0
  portWeights : List Nat := []
  qFirst : Nat := 0
  qCount : Nat := 0
  dramQuota : Nat := 0
  denseQuota : Nat := 0
  dramUsed : Nat := 0
  denseUsed : Nat := 0
  ctlKey : Nat := 0
  params : List Byte := []
  vtime : Nat := 0
  meterCore : Nat := 0
  meterStack : Nat := 0
  meterLink : Nat := 0
  cycCore : Nat := 0
  cycStack : Nat := 0
  cycLink : Nat := 0
  resetBy : Option QCmd := none
  deriving DecidableEq, Repr, Inhabited

/-- A segment descriptor (Table 3-5); lenU and baseU are in 2 MiB units. -/
structure Seg where
  hallBase : Nat := 0
  stream : Bool := false
  a : Bool := false
  w : Bool := false
  r : Bool := false
  p : Bool := false
  lenU : Nat := 0
  baseU : Nat := 0
  key : Nat := 0
  deriving DecidableEq, Repr, Inhabited

/-- A context: its header (Table 3-4) and its 64 descriptors. lost says that its table reads as poisoned (R368). -/
structure Context where
  en : Bool := false
  crew : Nat := 0
  reqMask : Nat := 0
  reqId : Nat := 0
  gen : Nat := 0
  faultEn : Bool := false
  faultQueue : Nat := 0
  segs : Tbl Seg := []
  lost : Bool := false
  deriving DecidableEq, Repr, Inhabited

/-- The state of a sealed-tier region (Table 5-2); a home-DRAM region in use is registered. FREE is the absence of an
entry in the region table. -/
inductive RegionState where
  | registered
  | reserved
  | opened
  | sealedExtent
  | revoking
  | scrubbing
  deriving DecidableEq, Repr, Inhabited

/-- An entry of the region table (R95): owner, key word, registration flags, data generation (R352), Whisk mark
(R272), quota charge (R273), and for a sealed-tier region its namespace and format (Table 5-6). -/
structure Region where
  crew : Nat := 0
  key : Nat := 0
  paired : Bool := false
  prot : Bool := false
  revert : Bool := false
  dgen : Nat := 0
  mark : Option (Nat × Nat) := none
  charge : Nat := 1
  state : RegionState := .registered
  ns : Nat := 0
  format : Nat := 0
  lost : Bool := false
  deriving DecidableEq, Repr, Inhabited

/-- A revocation in progress (R99 steps 2 to 4); q is none where the device itself releases the regions. -/
structure Revoke where
  first : Nat := 0
  count : Nat := 0
  release : Bool := false
  q : Option QCmd := none
  bumped : Nat := 0
  newKey : Nat := 0
  admitted : List Nat := []
  aborted : Nat := 0
  mseq : Nat := 0
  deriving DecidableEq, Repr, Inhabited

/-- One of the 1,024 fault slots (R93). -/
structure FaultSlot where
  gen : Nat := 0
  used : Bool := false
  context : Nat := 0
  segment : Nat := 0
  offset : Nat := 0
  access : Nat := 0
  requester : Nat := 0
  freedAt : Nat := 0
  deriving DecidableEq, Repr, Inhabited

/-- Why a line part waits (R54). -/
inductive Wait where
  /-- An agent's answer to a snoop of the line. -/
  | snoop (line : Nat)
  /-- A tier-cache fill of the page. -/
  | fill (page : Nat)
  /-- The requester's byte limit (R184), until the stroke given. -/
  | budget (until_ : Nat)
  /-- The response of another module to the request with this tag (R468), and the module to which it was sent. -/
  | remote (tag tagGen module : Nat)
  /-- The mirror's acknowledgement of this MSEQ (R391). -/
  | mirrored (mseq : Nat)
  /-- The drive's acknowledgement of an append (R150, R151). -/
  | append
  /-- The stern's copy of an uncorrectable line (R367). -/
  | repair (line : Nat)
  /-- A register of control space, to be accessed by the rest of the step (R101). -/
  | control
  /-- A register write that acts in step 4 and is answered after it (R272, R278). -/
  | register
  /-- Earlier requests of its requester: those that a release waits for, or one with acquire (R130). -/
  | order
  /-- The pair: paired requests are parked while the member asks or switches (Table 14-2). -/
  | pair
  deriving DecidableEq, Repr, Inhabited

/-- The state of a line part. -/
inductive PartState where
  | todo
  | waiting (why : Wait)
  | ended (status : Nat)
  deriving DecidableEq, Repr, Inhabited

/-- What a part does at its line. -/
inductive Act where
  | read
  | write
  | atomic (op size operand compare : Nat)
  deriving DecidableEq, Repr, Inhabited

/-- A line part of an access (R107): hall address and length within one line, offset in the access, the key word it
carries, what it does, its data (to write, or read), and its state. admitted is true once its key check has passed
(R97); deadline is that of R55. poisoned marks a destination line to be poisoned with the write (R126); clear
says that the data would leave the package in the clear, so that a protected region refuses it (R353). -/
structure Part where
  addr : Nat := 0
  len : Nat := 0
  off : Nat := 0
  key : Nat := 0
  act : Act := .read
  data : List Byte := []
  state : PartState := .todo
  admitted : Bool := false
  since : Nat := 0
  poisoned : Bool := false
  clear : Bool := false
  flags : Nat := 0
  deriving DecidableEq, Repr, Inhabited

/-- Where the bytes that a job has read go when all its parts have ended. -/
inductive Goal where
  /-- A fabric response. -/
  | respond
  /-- READ with DEST zero: inline data (R231). -/
  | inlineData
  /-- READ or COPY: the bytes are written on to dest under key. loose says that source and destination overlap, so that what is
  written is unpredictable (R193). -/
  | onward (dest key : Nat) (loose : Bool)
  /-- WRITE, FILL and the second half of READ and COPY: a count of bytes and the first failure (R230). -/
  | count
  /-- ATOMIC: the old value (R121). -/
  | oldValue
  /-- SCRATCH_LOAD into the crew's window on core at offset (R241). -/
  | scratch (core offset : Nat) (flags : Nat)
  /-- The output of an operation: complete with this status and these words once the writes are performed. -/
  | output (status : Nat) (words : List Nat)
  /-- The data lines of an output slot: its header follows them (R243), and then the command ends as with output. -/
  | slot (dest key : Nat) (header : List Byte) (status : Nat) (words : List Nat)
  /-- Retry the command itself once its data has arrived (R258). -/
  | retry
  /-- The witness's CAS (R398), and nothing more. -/
  | none_
  deriving DecidableEq, Repr, Inhabited

/-- Whom a job works for. -/
inductive Owner where
  | fabric (p : Req)
  | command (q : QCmd)
  | device
  deriving DecidableEq, Repr, Inhabited

/-- Work in flight: an access of a requester or a command with its line parts. slot is the fault slot on which the
whole access is parked before its translation (R93). resumed is false while it must wait for step 9 (R54). -/
structure Job where
  owner : Owner := .device
  crew : Nat := 0
  requester : Nat := 0
  stamp : Nat := 0
  parts : List Part := []
  goal : Goal := .none_
  slot : Option Nat := none
  context : Option Nat := none
  ready : Bool := true
  throttled : Bool := false
  parked : Bool := false
  deriving DecidableEq, Repr, Inhabited

/-- A long operation (R59, Table 2-4). The fields after final are its own: the objects it holds and the point it has
reached. -/
structure LongOp where
  gen : Nat := 0
  state : Nat := 5
  committed : Bool := false
  work : Nat := 0
  crew : Nat := 0
  opcode : Nat := 0
  progress : Nat := 0
  final : Nat := 0
  freedAt : Nat := 0
  q : QCmd := {}
  phase : Nat := 0
  first : Nat := 0
  count : Nat := 0
  dest : Nat := 0
  ns : Nat := 0
  blocks : Nat := 0
  rights : Nat := 0
  since : Nat := 0
  cut : Nat := 0
  marked : List Nat := []
  admitted : List Nat := []
  revoke : Option Nat := none
  words : List Nat := []
  newKey : Nat := 0
  deriving DecidableEq, Repr, Inhabited

/-- What an item of engine work is. -/
inductive ItemKind where
  | command (q : QCmd)
  | batch (descriptor : Nat) (tokens : List QCmd)
  deriving DecidableEq, Repr, Inhabited

/-- An item (Table 2-3): 0 READY, 1 RUNNING, 2 PARKED, 3 CUT. -/
structure Item where
  crew : Nat := 0
  kind : ItemKind := .command {}
  state : Nat := 0
  cuts : Nat := 0
  deriving DecidableEq, Repr, Inhabited

/-- An armed COMBINE (R260, R261). -/
structure Armed where
  q : QCmd := {}
  crew : Nat := 0
  deadline : Nat := 0
  deriving DecidableEq, Repr, Inhabited

/-- A directory entry (R114): state is the code of Table 4-1; coarse is the 64-bit vector when there is one;
holders are those that stay when the last answer is in; unanswered are the agents still to answer; heldWb is a write-back that crossed
a recall and is acknowledged after its owner's answer (R117). -/
structure DirEntry where
  state : Nat := 0
  gen : Nat := 0
  holders : List Nat := []
  coarse : Option Nat := none
  unanswered : List Nat := []
  heldWb : Option Req := none
  evicting : Bool := false
  allocated : Nat := 0
  deriving DecidableEq, Repr, Inhabited

/-- A snoop sent and not answered (R124). -/
structure Snoop where
  line : Nat := 0
  agent : Nat := 0
  tag : Nat := 0
  tagGen : Nat := 0
  sent : Nat := 0
  regGen : Nat := 0
  deriving DecidableEq, Repr, Inhabited

/-- A request in a die's pending buffer (R116, R123): a caching request or write-back, of TYPE kind, or the job of a cacheless access
that waits for the line. turn marks the request that the line's transient state serves; delayed, one that its requester's byte limit
holds, and throttled, one that it has held (R184). -/
structure Pending where
  line : Nat := 0
  kind : Nat := 0
  req : Req := {}
  job : Option Nat := none
  stamp : Nat := 0
  retries : Nat := 0
  promoted : Option Nat := none
  turn : Bool := false
  delayed : Bool := false
  throttled : Bool := false
  deriving DecidableEq, Repr, Inhabited

/-- A registration of a caching agent (R190). dies are the dies in whose agent tables it stands (R113). For an earlier registration
declared crashed, sweep are the lines that it held and the sweep has not reached, and since the stroke of the declaration while it
is recorded (R125); crashed are the registration generations declared crashed (R117). -/
structure Agent where
  regGen : Nat := 0
  registered : Bool := false
  dies : Nat := 0
  sweep : List Nat := []
  since : Option Nat := none
  crashed : List Nat := []
  deriving DecidableEq, Repr, Inhabited

/-- A tier-cache page (R138, R139). -/
structure Page where
  crew : Nat := 0
  used : Nat := 0
  doomed : Bool := false
  deriving DecidableEq, Repr, Inhabited

/-- A tier-cache fill in progress (R138); keep is false where the page is not to be installed. -/
structure Fill where
  crew : Nat := 0
  keep : Bool := true
  retried : Bool := false
  deriving DecidableEq, Repr, Inhabited

/-- A weight window (R159 to R161). counts gives, for a slot, the count it holds; filling are the counts in fill. -/
structure Win where
  gen : Nat := 0
  state : Nat := 0
  crew : Nat := 0
  slots : Nat := 0
  spans : Nat := 0
  source : Nat := 0
  ring : Nat := 0
  spanBytes : Nat := 0
  cursor : Nat := 0
  counts : Tbl Nat := []
  filling : List Nat := []
  deleteBy : Option QCmd := none
  deriving DecidableEq, Repr, Inhabited

/-- An NVMe namespace in use (R165, R166, R168). -/
structure Ns where
  en : Bool := false
  zoned : Bool := false
  link : Nat := 0
  nsid : Nat := 0
  total : Nat := 0
  free : Nat := 0
  available : Bool := true
  deriving DecidableEq, Repr, Inhabited

/-- The media that an extent or a log uses (R158, R167), in 4 KiB blocks: its regions are count from the key of its entry. An IMAGE
extent keeps the identifier and key under which its blocks were encrypted (R355). -/
structure Extent where
  count : Nat := 0
  ns : Nat := 0
  blocks : Nat := 0
  keyId : List Byte := []
  key : List Byte := []
  deriving DecidableEq, Repr, Inhabited

/-- What an NVMe command of the device works for (R166). -/
inductive NvmeWork where
  | pageFill (page : Nat)
  | windowFill (window count : Nat)
  | append (job : Nat)
  | other
  deriving DecidableEq, Repr, Inhabited

/-- An outstanding NVMe command on a link. -/
structure NvmeCmd where
  link : Nat := 0
  command : Nat := 0
  ns : Nat := 0
  work : NvmeWork := .other
  deriving DecidableEq, Repr, Inhabited

/-- An embedding table (R290). bound are the POOLs and HOTSET_LOADs bound to an earlier version. -/
structure EmbTable where
  gen : Nat := 0
  state : Nat := 0
  crew : Nat := 0
  version : Nat := 0
  dim : Nat := 0
  rows : Nat := 0
  descs : Nat := 0
  body : Nat := 0
  bodyRegions : Nat := 0
  replicas : List Nat := []
  deriving DecidableEq, Repr, Inhabited

/-- A hot copy of a row in a cluster's hot set (R299). -/
structure HotCopy where
  table : Nat := 0
  cluster : Nat := 0
  row : Nat := 0
  version : Nat := 0
  cls : Nat := 0
  body : List Byte := []
  deriving DecidableEq, Repr, Inhabited

/-- A replica of a row in a cluster (R301); filled is false until a body has been written into it. -/
structure Replica where
  table : Nat := 0
  cluster : Nat := 0
  row : Nat := 0
  size : Nat := 0
  version : Nat := 0
  cls : Nat := 0
  filled : Bool := false
  body : List Byte := []
  deriving DecidableEq, Repr, Inhabited

/-- One of the 1,024 row-move slots (R302): the ROW_PUBLISH it serves, and after its swap the fence (R304). -/
structure RowMove where
  table : Nat := 0
  row : Nat := 0
  crew : Nat := 0
  op : Nat := 0
  q : QCmd := {}
  oldBody : Nat := 0
  oldBytes : Nat := 0
  newBody : Nat := 0
  swapped : Option Nat := none
  deriving DecidableEq, Repr, Inhabited

/-- A POOL or HOTSET_LOAD that has bound a table version and not ended (R297, R306). -/
structure Bound where
  work : Nat := 0
  table : Nat := 0
  version : Nat := 0
  stamp : Nat := 0
  rows : Nat := 0
  descs : Nat := 0
  body : Nat := 0
  bodyRegions : Nat := 0
  deriving DecidableEq, Repr, Inhabited

/-- The device's copy of an index descriptor (Table 11-1). -/
structure IndexDesc where
  metric : Nat := 0
  vfmt : Nat := 0
  dim : Nat := 0
  m : Nat := 0
  degree : Nat := 0
  nlist : Nat := 0
  capK : Nat := 0
  sideSlots : Nat := 0
  centroids : Nat := 0
  codebook : Nat := 0
  directory : Nat := 0
  lists : Nat := 0
  listBytes : Nat := 0
  graph : Nat := 0
  codes : Nat := 0
  side : Nat := 0
  deriving DecidableEq, Repr, Inhabited

/-- A side-list entry (Table 11-5); retired is the stroke of the fold that retired it. -/
structure SideEntry where
  slot : Nat := 0
  publish : Nat := 0
  ordinal : Nat := 0
  isDelete : Bool := false
  retired : Option Nat := none
  deriving DecidableEq, Repr, Inhabited

/-- A filter slot (R324). -/
structure Filter where
  bound : Bool := false
  gen : Nat := 0
  bitmap : Nat := 0
  deriving DecidableEq, Repr, Inhabited

/-- A vector index (R312). -/
structure Index where
  gen : Nat := 0
  state : Nat := 0
  crew : Nat := 0
  version : Nat := 0
  desc : IndexDesc := {}
  sideList : List SideEntry := []
  sideNext : Nat := 0
  ignored : Nat := 0
  filters : Tbl Filter := []
  cut : Nat := 0
  deriving DecidableEq, Repr, Inhabited

/-- A candidate of a search (R322): ordinal, FP32 distance, and whether it is returnable. -/
structure Cand where
  ordinal : Nat := 0
  dist : BitVec 32 := 0
  returnable : Bool := true
  expanded : Bool := false
  deriving DecidableEq, Repr, Inhabited

/-- A SEARCH started and not ended (R320, R321); side are the side-list entries that it can see. stage 0 coarse, 1 scans waiting, 2 final. -/
structure Search where
  q : QCmd := {}
  crew : Nat := 0
  index : Nat := 0
  desc : IndexDesc := {}
  bitmap : Option Nat := none
  start : Nat := 0
  query : List (BitVec 32) := []
  visits : List Nat := []
  seen : List Nat := []
  cands : List Cand := []
  stage : Nat := 0
  side : List SideEntry := []
  deriving DecidableEq, Repr, Inhabited

/-- An expansion profile (R276 to R281). -/
structure Profile where
  en : Bool := false
  crew : Nat := 0
  gen : Nat := 0
  rank : Nat := 0
  ffmt : Nat := 0
  dfmt : Nat := 0
  last : Nat := 0
  oldGen : Nat := 0
  oldRank : Nat := 0
  oldFfmt : Nat := 0
  oldDfmt : Nat := 0
  since : Nat := 0
  deriving DecidableEq, Repr, Inhabited

/-- A key slot (R348): use 0 free, 1 IMAGE, 2 CREDENTIAL. -/
structure KeySlot where
  use : Nat := 0
  gen : Nat := 0
  crew : Nat := 0
  keyId : List Byte := []
  key : List Byte := []
  deriving DecidableEq, Repr, Inhabited

/-- A pending import key (R347); owner is none for management. report holds bytes [959:0] of its report once signed. -/
structure ImportKey where
  gen : Nat := 0
  live : Bool := false
  made : Nat := 0
  owner : Option Nat := none
  draw : Nat := 0
  signed : Bool := false
  report : List Byte := []
  deriving DecidableEq, Repr, Inhabited

/-- A report waiting in the attestation batch (R345). -/
structure Report where
  q : QCmd := {}
  body : List Byte := []
  import_ : Nat := 0
  leaf : Nat := 0
  deriving DecidableEq, Repr, Inhabited

/-- A signed image in a bank of the secure flash (Table 12-1, R336). -/
structure Image where
  svn : Nat := 0
  header : List Byte := []
  body : List Byte := []
  deriving DecidableEq, Repr, Inhabited

/-- A change-log record (Table 12-9). old and new are the first 12 bytes of the hashes. -/
structure LogRec where
  stroke : Nat := 0
  tod : Nat := 0
  seq : Nat := 0
  originKind : Nat := 0
  security : Bool := false
  origin : Nat := 0
  owner : Nat := 0
  objectKind : Nat := 0
  object : Nat := 0
  old : Nat := 0
  new : Nat := 0
  deriving DecidableEq, Repr, Inhabited

/-- A batch entry of the change log (R360): FIRST, LAST, STROKE, CHAIN and the signature. -/
structure LogBatch where
  number : Nat := 0
  first : Nat := 0
  last : Nat := 0
  stroke : Nat := 0
  chain : BitVec 384 := 0
  signature : BitVec 768 := 0
  deriving DecidableEq, Repr, Inhabited

/-- One entry of a ledger interval (R361). -/
structure LedgerEntry where
  finish : Nat := 0
  start : Nat := 0
  coreNs : Nat := 0
  stackNs : Nat := 0
  linkNs : Nat := 0
  crew : Nat := 0
  gen : Nat := 0
  salt : List Byte := []
  leaf : Nat := 0
  deriving DecidableEq, Repr, Inhabited

/-- A ledger interval that Trivet has signed (R361). -/
structure Ledger where
  finish : Nat := 0
  entries : List LedgerEntry := []
  draw : Nat := 0
  signature : BitVec 768 := 0
  deriving DecidableEq, Repr, Inhabited

/-- A fault record (Table 13-3). -/
structure FaultRec where
  seq : Nat := 0
  stroke : Nat := 0
  count : Nat := 1
  last : Nat := 0
  cls : Nat := 0
  source : Nat := 0
  status : Nat := 0
  flags : Nat := 0
  crew : Nat := 0
  crewGen : Nat := 0
  unit : Nat := 0
  addr : Nat := 0
  detail : Nat := 0
  tempD0 : Nat := 0
  tempD1 : Nat := 0
  vcoreD0 : Nat := 0
  vcoreD1 : Nat := 0
  vin : Nat := 0
  loadSig : Nat := 0
  tod : Nat := 0
  deriving DecidableEq, Repr, Inhabited

/-- A crew's fault ring and counts (R376, Table 13-9). -/
structure CrewRing where
  recs : List FaultRec := []
  next : Nat := 0
  lost : Nat := 0
  uc : Nat := 0
  ce : Nat := 0
  deriving DecidableEq, Repr, Inhabited

/-- The state of an interrupt source (Table 15-7). latched is the latch of an edge sense; once says that
one claim may still return the source although its EN has been cleared (R426). -/
structure Src where
  en : Bool := false
  prio : Nat := 0
  sense : Nat := 2
  target : Nat := 8
  wire : Bool := false
  latched : Bool := false
  active : Bool := false
  once : Bool := false
  deriving DecidableEq, Repr, Inhabited

/-- The per-target registers of the interrupt controller (Table 15-8). half says that half the watchdog period in progress has
passed (R420). -/
structure Tgt where
  ring : Bool := false
  size : Nat := 6
  base : Nat := 0
  producer : Nat := 0
  consumer : Nat := 0
  period : Nat := 0
  half : Bool := false
  misses : Nat := 0
  claims : Nat := 0
  badComplete : Nat := 0
  ringFull : Nat := 0
  deriving DecidableEq, Repr, Inhabited

/-- A fabric port's link layer (R173 to R175) and training state. credits are those held for sending on a channel, freed the receive
buffers of a channel not yet returned; partials are the bytes of an unfinished packet on a channel. -/
structure Port where
  up : Bool := false
  refused : Bool := false
  retraining : Bool := false
  idled : Bool := false
  expect : Nat := 0
  nakSent : Bool := false
  naks : Nat := 0
  nakFor : Nat := 0
  txSeq : Nat := 0
  acked : Nat := 1023
  retry : List (Nat × List Byte) := []
  resent : Nat := 0
  credits : Tbl Nat := []
  freed : Tbl Nat := []
  partials : Tbl (List Byte) := []
  delay : Nat := 0
  lastSync : Option Nat := none
  deriving DecidableEq, Repr, Inhabited

/-- A packet that the device sends on the fabric: TYPE, header and the bytes after the header. -/
structure OutPkt where
  kind : Nat := 0
  flags : Nat := 0
  dest : Nat := 0
  source : Nat := 0
  tag : Nat := 0
  tagGen : Nat := 0
  port : Option Nat := none
  body : List Byte := []
  deriving DecidableEq, Repr, Inhabited

/-- A frame that the device sends on Ethernet, other than a session datagram. -/
inductive EthOut where
  | datagram (d : OutDatagram)
  | message2 (session status : Nat) (body : List Byte)
  | arpReply (address target : Nat)
  | neighborAdvertisement (address target : Nat)
  | echoReply (ipv6 : Bool) (address target : Nat) (data : List Byte)
  deriving DecidableEq, Repr, Inhabited

/-- An entry of the redirect table (R192) and the end of its grace (R402). -/
structure Redirect where
  toModule : Nat := 0
  epoch : Nat := 0
  graceEnd : Option Nat := none
  deriving DecidableEq, Repr, Inhabited

/-- A request outstanding at this entry module (R187). -/
structure Outstanding where
  requester : Nat := 0
  tag : Nat := 0
  tagGen : Nat := 0
  stamp : Nat := 0
  relayedTo : Option Nat := none
  kind : Nat := 0
  req : Req := {}
  deriving DecidableEq, Repr, Inhabited

/-- A change of a paired region that the mirror has not acknowledged (R391). -/
structure MirrorWait where
  mseq : Nat := 0
  addr : Nat := 0
  line : List Byte := []
  job : Nat := 0
  deriving DecidableEq, Repr, Inhabited

/-- A response that a stern owes or has sent (R400). -/
structure Owed where
  mseq : Nat := 0
  requester : Nat := 0
  tag : Nat := 0
  tagGen : Nat := 0
  kind : Nat := 0
  old : Nat := 0
  deriving DecidableEq, Repr, Inhabited

/-- A deferred register write (Table 2-2 step 4): offset, value, its writer, and the REG_WRITE or the job that is answered
once the write has acted (R278). partly says that reserved bits or encodings were refused as it was made (R11, R15). -/
structure RegWrite where
  offset : Nat := 0
  value : Word := 0
  who : Writer := .firmware
  q : Option QCmd := none
  job : Option Nat := none
  stroke : Nat := 0
  partly : Bool := false
  deriving DecidableEq, Repr, Inhabited

/-- The pins and supplies of the module (R433, R449 to R452). -/
structure Pins where
  powerEn : Bool := false
  pwrGood : Bool := false
  aux : Bool := false
  slot : Nat := 0
  inputOk : Bool := true
  ethUp : Bool := false
  deriving DecidableEq, Repr, Inhabited

/-- Start-up, power and package state (Chapter 16). on says that the package has power; banksOk that the LOADER of the bank not chosen
first passed in phase 1. -/
structure Power where
  on : Bool := false
  phase : Nat := 0
  serving : Bool := false
  mode : Nat := 0
  clock : Nat := 850
  asleep : Nat := 0
  wakes : Nat := 0
  powerW : Nat := 0
  vin : Nat := 0
  iin : Nat := 0
  pin : Nat := 0
  d0 : Nat := 0
  d1 : Nat := 0
  dieResetting : List Nat := []
  phaseHeld : Bool := false
  banksOk : Bool := true
  deriving DecidableEq, Repr, Inhabited

/-- The stroke, its period and its alignment (Chapter 2). steer is the correction of the stroke in progress, in ps (R49). -/
structure Stroke where
  number : Nat := 0
  current : Nat := 0
  locked : Bool := false
  source : Nat := 0
  hops : Nat := 0
  master : Nat := 0
  offset : Int := 0
  lastSync : Nat := 0
  goodSyncs : Nat := 0
  tod : Nat := 0
  ptpLocked : Bool := false
  steer : Int := 0
  deriving DecidableEq, Repr, Inhabited

/-- The module's configuration and training (Table 16-2), read from the CONFIG image of the booted bank. -/
structure Cfg where
  loaded : Bool := false
  hall : Nat := 0
  module : Nat := 0
  role : Nat := 0
  master : Bool := false
  partnerKey : List Byte := []
  managers : List (List Byte) := []
  enrolled : Nat := 0
  mgmtCreds : List (List Byte) := []
  mgmtValid : Nat := 0
  crews : List (List Byte) := []
  nsConf : List Nat := []
  stepping : Nat := 0
  stackCount : Nat := 0
  pciePorts : Nat := 0
  passed : Nat := 0
  serial : Nat := 0
  deriving DecidableEq, Repr, Inhabited

/-- The pair state of a member (Chapter 14). -/
structure Pair where
  state : Nat := 0
  epoch : Nat := 0
  missed : Nat := 0
  heard : Bool := false
  mseq : Nat := 0
  acked : Nat := 0
  applied : Nat := 0
  answered : Nat := 0
  waits : List MirrorWait := []
  buffer : Tbl MirrorPkt := []
  regionBuffer : Tbl RegionPkt := []
  mirrored : Tbl Region := []
  owed : List Owed := []
  kept : List Owed := []
  keptUntil : Option Nat := none
  keys : Tbl Nat := []
  asking : Option (Nat × Nat) := none
  askedAt : Nat := 0
  askHolder : Nat := 0
  expelling : Bool := false
  expelUntil : Option Nat := none
  switching : Bool := false
  resync : Bool := false
  resyncAt : Option Nat := none
  resyncLast : Nat := 0
  joinMsg : Nat := 0
  joinTrans : List Byte := []
  redirectsLeft : Nat := 0
  redirectAt : Nat := 0
  noHeartbeat : Bool := false
  detectedAt : Nat := 0
  joinBy : Option QCmd := none
  samples : Tbl (Nat × Nat × List Byte) := []
  sampleNext : Nat := 0
  deriving DecidableEq, Repr, Inhabited

/-- The fault state, rings and pin (Chapter 13). -/
structure Flt where
  fatal : Bool := false
  ftSource : Nat := 0
  ftStroke : Nat := 0
  ring : List FaultRec := []
  next : Nat := 0
  lost : Nat := 0
  ceCount : Nat := 0
  ucCount : Nat := 0
  crews : Tbl CrewRing := []
  saved : List FaultRec := []
  pulse : Bool := false
  retired : Nat := 0
  residue : Tbl (List Nat) := []
  deriving DecidableEq, Repr, Inhabited

/-- The I3C target and the provisioning port (R455 to R459). -/
structure Side where
  index : Nat := 0
  events : Bool := false
  dynamic : Option Nat := none
  ibi : Option Nat := none
  sent : List (List Byte) := []
  wel : Bool := false
  busy : Bool := false
  out : List (List Byte) := []
  deriving DecidableEq, Repr, Inhabited

/-- The banks of the module secure flash and what the manual keeps beside them (R336, R340, R342). configA and configB
are the CONFIG areas of the banks, dense from address 0; a byte beyond the list reads as erased, 0xFF. booted is the bank from which this
start-up runs. -/
structure Banks where
  active : Nat := 0
  trial : Option Nat := none
  booted : Nat := 0
  onTrial : Bool := false
  fallback : Bool := false
  imagesA : Tbl Image := []
  imagesB : Tbl Image := []
  configA : List Byte := []
  configB : List Byte := []
  owner : Option (List Byte) := none
  measures : List (BitVec 384) := []
  lastStage : BitVec 384 := 0
  deriving DecidableEq, Repr, Inhabited

/-- The change log and the ledger (R359 to R362). -/
structure Log where
  next : Nat := 0
  recs : List LogRec := []
  secure : List LogRec := []
  batchFrom : Nat := 0
  chain : BitVec 384 := 0
  batches : List LogBatch := []
  batchNext : Nat := 0
  ledgers : List Ledger := []
  ended : List LedgerEntry := []
  ledgerStart : Nat := 0
  created : Tbl Nat := []
  deriving DecidableEq, Repr, Inhabited

/-- The registers and tables that a snapshot latches (R382), and all else the device holds but for the snapshot
itself, the replay-protected counters and the queue of waiting commands. -/
structure Dev where
  /-- The model's own: how many free values have been drawn (log entry 2). -/
  draws : Nat := 0
  /-- The model's own: the next identifier of a job, item or command. -/
  nextId : Nat := 1
  pins : Pins := {}
  power : Power := {}
  stk : Stroke := {}
  cfg : Cfg := {}
  banks : Banks := {}
  /-- Registers that no structured field holds: the last value written or counted (R14), by offset. -/
  regs : Tbl Word := []
  /-- Values in force of registers whose writes act in step 4 (Table 2-2). -/
  inForce : Tbl Word := []
  regQueue : List RegWrite := []
  locked : Bool := false
  /-- Selections for read-back (R79), by reader and selector. -/
  sels : Tbl Nat := []
  /-- Coarsened per-crew counters as latched (R356), by offset. -/
  latched : Tbl Word := []
  /-- Bytes of stacked DRAM and of the sealed tier by hall address; an unlisted byte reads as zero. -/
  mem : List Host.Cell := []
  /-- Poisoned lines by line number (R126). -/
  poison : List Nat := []
  scratch : List Host.Cell := []
  cspace : List Host.Cell := []
  serviceMem : List Host.Cell := []
  /-- Windows on scratchpads: crew × 128 + core to (first block, blocks) (R240). -/
  windows : Tbl (Nat × Nat) := []
  /-- Flagged blocks of windows (R354): (crew × 128 + core) × 32 + block. -/
  flagged : List Nat := []
  /-- Blocks of windows that hold an uncorrectable error (R368), numbered likewise. -/
  spadBad : List Nat := []
  spadSet : Tbl Nat := []
  crews : Tbl Crew := []
  queues : Tbl Queue := []
  sessions : Tbl Session := []
  contexts : Tbl Context := []
  dcache : List (Nat × Nat × Nat × Nat) := []
  regions : Tbl Region := []
  scrubbing : List Nat := []
  revokes : Tbl Revoke := []
  slots : Tbl FaultSlot := []
  jobs : Tbl Job := []
  longops : Tbl LongOp := []
  items : Tbl Item := []
  armed : Tbl Armed := []
  sealedDone : List (QCmd × Nat × List Nat × List Byte) := []
  dir : Tbl DirEntry := []
  agents : Tbl Agent := []
  snoops : List Snoop := []
  pendingBuf : List Pending := []
  pages : Tbl Page := []
  fills : Tbl Fill := []
  counters : Tbl Nat := []
  appended : List (Nat × Nat) := []
  wins : Tbl Win := []
  namespaces : Tbl Ns := []
  /-- Media in use by sealed-tier objects, by first region. -/
  extents : Tbl Extent := []
  nvme : List NvmeCmd := []
  nvmeTimeouts : Tbl Nat := []
  tables : Tbl EmbTable := []
  hot : List HotCopy := []
  hotOn : List (Nat × Nat) := []
  replicas : List Replica := []
  moves : Tbl RowMove := []
  bound : List Bound := []
  indexes : Tbl Index := []
  searches : Tbl Search := []
  profiles : Tbl Profile := []
  keySlots : Tbl KeySlot := []
  importKeys : Tbl ImportKey := []
  attest : List Report := []
  attestFrom : Option Nat := none
  log : Log := {}
  flt : Flt := {}
  icu : Tbl Src := []
  tgts : Tbl Tgt := []
  ports : Tbl Port := []
  outstanding : List Outstanding := []
  /-- Bytes charged in the present stroke to a requester (R184). -/
  charged : Tbl Nat := []
  redirects : Tbl Redirect := []
  nextTag : Nat := 0
  pausedPcp : List Nat := []
  pair : Pair := {}
  side : Side := {}
  /-- Packets released to the fabric, oldest first, until the link layer has cut them into flits; and what has been sent on Ethernet. -/
  fabTx : List OutPkt := []
  ethTx : List EthOut := []
  /-- Frames held while the link partner has paused their priority (R201), with the priority. -/
  ethHeld : List (Nat × EthOut) := []
  /-- Commands whose data has arrived and that start again in step 9 (R258), with the status their wait ended with. -/
  retry : List (QCmd × Nat) := []
  /-- Parts that other modules have answered for a command that starts again, by command. -/
  got : Tbl (List Part) := []
  /-- The model's own: snapshot triggers of this step not yet taken: 4 an FT, 5 a UC record (R383). -/
  trig : List Nat := []
  flitTx : List (Nat × List Byte) := []
  deriving DecidableEq, Repr, Inhabited

/-- The snapshot of Chapter 13: the latched state, if one is held, and the named trigger. skew is D1_SKEW plus two. -/
structure Snap where
  latched : Option Dev := none
  frozen : Bool := false
  source : Nat := 0
  missed : Nat := 0
  armedAt : Option Nat := none
  armedBy : Nat × Nat := (0, 0)
  stroke : Nat := 0
  cycle : Nat := 0
  skew : Nat := 2
  deriving DecidableEq, Repr, Inhabited

/-- The replay-protected area of the module secure flash and the key counter: what no reset and no power cycle takes
back (R96, R338, R339, R351, R407, Table 1-15). -/
structure Nv where
  /-- The 32-bit counter from which key values are drawn (R96), as a count of draws. -/
  keyCounter : Nat := 0
  /-- Crew creations by crew number; CRW_STATE.GEN is read from it (R225). -/
  crewCount : Tbl Nat := []
  /-- Memory-key EPOCH by crew number (R351). -/
  epochs : Tbl Nat := []
  /-- Anti-rollback counters by image type (R338). -/
  rollback : Tbl Nat := []
  /-- The LMS leaf counter (R339). -/
  lmsStored : Nat := 0
  /-- PAR_EXPEL.NEXT (R407). -/
  expelNext : Nat := 0
  deriving DecidableEq, Repr, Inhabited

/-- The state of the block: the replay-protected counters, the device, the snapshot, and the commands that wait,
first in, first out. -/
structure State where
  nv : Nv := {}
  dev : Dev := {}
  snap : Snap := {}
  pending : List Instr := []
  deriving DecidableEq, Repr, Inhabited

/-- The module before power is applied: AUX_3V3 absent, POWER_EN low, no CONFIG image, no owner (R340), every table
empty and every register at its Reset column, with "config" and "trained" fields zero until start-up fills them. -/
def State.reset : State := {}

end Sys2Proof.Machine
end

