-- ==== Sys2Proof/Machine/Bits.lean ====
section
/-! DEFINITION. Machine/Bits.lean: bit fields, little-endian bytes (R9), keyed tables, sparse memory in its canonical
form, and the cyclic redundancy codes of R173 and Chapter 5. -/

namespace Sys2Proof.Machine

/-- Bits [hi:lo] of a number (R8). -/
def bitsOf (w hi lo : Nat) : Nat := w / 2 ^ lo % 2 ^ (hi + 1 - lo)

/-- Bit i of a number. -/
def bitAt (w i : Nat) : Bool := w / 2 ^ i % 2 == 1

/-- A Bool as 0 or 1. -/
def b2n (b : Bool) : Nat := if b then 1 else 0

/-- A number with bits [hi:lo] replaced by v. -/
def putBits (w hi lo v : Nat) : Nat :=
  w - bitsOf w hi lo * 2 ^ lo + v % 2 ^ (hi + 1 - lo) * 2 ^ lo

/-- The number that little-endian bytes spell (R9). -/
def leNat : List Byte → Nat
  | [] => 0
  | b :: bs => b.toNat + 256 * leNat bs

/-- The n little-endian bytes of a number (R9). -/
def toLe : Nat → Nat → List Byte
  | 0, _ => []
  | n + 1, v => BitVec.ofNat 8 v :: toLe n (v / 256)

/-- The little-endian field of n bytes that begins at byte i. -/
def fieldLe (l : List Byte) (i n : Nat) : Nat := leNat ((l.drop i).take n)

/-- Exactly n bytes of a list from byte i on, padded with zeros. -/
def slice (l : List Byte) (i n : Nat) : List Byte := (List.range n).map fun k => l.getD (i + k) 0

/-- Whether every byte is zero. -/
def allZero (l : List Byte) : Bool := l.all (· == 0)

/-- n zero bytes. -/
def zeros (n : Nat) : List Byte := List.replicate n 0

/-- The list with byte i replaced. -/
def setByte (l : List Byte) (i : Nat) (v : Byte) : List Byte := l.set i v

/-- The bytes of new laid over old from byte i on. -/
def overlay (old : List Byte) (i : Nat) (new : List Byte) : List Byte :=
  (List.range old.length).map fun k => if i ≤ k ∧ k < i + new.length then new.getD (k - i) 0 else old.getD k 0

/-- Least n with b * n at or above a. -/
def ceilDiv (a b : Nat) : Nat := (a + b - 1) / b

/-- The next value of an 8-bit generation: 1 to 255, then 1 again (R225). -/
def nextGen8 (g : Nat) : Nat := if g ≥ 255 then 1 else g + 1

/-- Signed difference of two 32-bit counts (R215). -/
def diff32 (a b : Nat) : Int :=
  let d : Nat := (a + 2 ^ 32 - b % 2 ^ 32) % 2 ^ 32
  if d ≥ 2 ^ 31 then (d : Int) - 4294967296 else (d : Int)

/-- Whether tag a comes before tag b: 64-bit tags compare by the sign of their difference (R67). -/
def before64 (a b : Nat) : Bool := (a + 2 ^ 64 - b % 2 ^ 64) % 2 ^ 64 ≥ 2 ^ 63

/-- The value of key k in a table. -/
def tGet? {α : Type} : Tbl α → Nat → Option α
  | [], _ => none
  | (k, v) :: t, x => if x = k then some v else tGet? t x

/-- The value of key k in a table, or the default of its type. -/
def tGet {α : Type} [Inhabited α] (t : Tbl α) (k : Nat) : α := (tGet? t k).getD default

/-- A table with key k set to v. -/
def tSet {α : Type} : Tbl α → Nat → α → Tbl α
  | [], x, v => [(x, v)]
  | (k, w) :: t, x, v =>
    if x < k then (x, v) :: (k, w) :: t else if x = k then (x, v) :: t else (k, w) :: tSet t x v

/-- A table without key k. -/
def tDel {α : Type} (t : Tbl α) (k : Nat) : Tbl α := t.filter fun p => p.1 != k

/-- A table with the value of key k changed by f, where there is one. -/
def tMod {α : Type} (t : Tbl α) (k : Nat) (f : α → α) : Tbl α :=
  t.map fun p => if p.1 = k then (p.1, f p.2) else p

/-- A table with every value changed by f. -/
def tMap {α : Type} (t : Tbl α) (f : Nat → α → α) : Tbl α := t.map fun p => (p.1, f p.1 p.2)

/-- The byte at an address; an unlisted address reads as zero. -/
def memByte : List Host.Cell → Nat → Byte
  | [], _ => 0
  | (a, b) :: m, x => if x = a then b else if x < a then 0 else memByte m x

/-- The memory with one byte written, in canonical form: a zero byte is not listed. -/
def memPut : List Host.Cell → Nat → Byte → List Host.Cell
  | [], x, v => if v = 0 then [] else [(x, v)]
  | (a, b) :: m, x, v =>
    if x < a then (if v = 0 then (a, b) :: m else (x, v) :: (a, b) :: m)
    else if x = a then (if v = 0 then m else (x, v) :: m)
    else (a, b) :: memPut m x v

/-- n bytes from address a on. -/
def memRead (m : List Host.Cell) (a n : Nat) : List Byte := (List.range n).map fun i => memByte m (a + i)

/-- The memory with bytes written from address a on. -/
def memWrite : List Host.Cell → Nat → List Byte → List Host.Cell
  | m, _, [] => m
  | m, a, b :: bs => memWrite (memPut m a b) (a + 1) bs

/-- The memory with every byte of [a, a + n) zero. -/
def memClear (m : List Host.Cell) (a n : Nat) : List Host.Cell := m.filter fun c => c.1 < a || a + n ≤ c.1

/-- Addresses strictly rising and no listed zero: the one canonical form of a memory. -/
def Memory.wf : List Host.Cell → Bool
  | [] => true
  | [(_, b)] => b != 0
  | (a, b) :: (a', b') :: m => b != 0 && decide (a < a') && Memory.wf ((a', b') :: m)

/-- A list as a set: x added once, at the end. -/
def addTo (l : List Nat) (x : Nat) : List Nat := if x ∈ l then l else l ++ [x]

/-- A number's 128-byte line (R106). -/
def lineOf (a : Nat) : Nat := a / 128

/-- One step of CRC-32 in reflected form (R173): polynomial 0x04C1_1DB7 reflected is 0xEDB8_8320. -/
def crc32Bit (c : BitVec 32) : BitVec 32 := if c.getLsbD 0 then (c >>> 1) ^^^ 0xEDB88320#32 else c >>> 1

/-- CRC-32 over one byte. -/
def crc32Byte (c : BitVec 32) (b : Byte) : BitVec 32 :=
  (List.range 8).foldl (fun x _ => crc32Bit x) (c ^^^ b.setWidth 32)

/-- The CRC-32 of IEEE 802.3 (R173). -/
def crc32 (l : List Byte) : BitVec 32 := (l.foldl crc32Byte 0xFFFFFFFF#32) ^^^ 0xFFFFFFFF#32

/-- One step of the CRC-64 of R154 in reflected form. -/
def crc64Bit (c : BitVec 64) : BitVec 64 := if c.getLsbD 0 then (c >>> 1) ^^^ 0x9A6C9329AC4BC9B5#64 else c >>> 1

/-- CRC-64 over one byte. -/
def crc64Byte (c : BitVec 64) (b : Byte) : BitVec 64 :=
  (List.range 8).foldl (fun x _ => crc64Bit x) (c ^^^ b.setWidth 64)

/-- The CRC-64 of the NVM Express NVM Command Set (R154). -/
def crc64 (l : List Byte) : BitVec 64 :=
  (l.foldl crc64Byte 0xFFFFFFFFFFFFFFFF#64) ^^^ 0xFFFFFFFFFFFFFFFF#64

/-- Whether a number is a multiple of another. -/
def aligned (a n : Nat) : Bool := a % n == 0

/-- A signed number saturated to n bits, as its two's-complement pattern. -/
def satSigned (n : Nat) (v : Int) : Nat :=
  let top : Int := 2 ^ (n - 1)
  let c := if v ≥ top then top - 1 else if v < -top then -top else v
  (c % (2 ^ n : Int)).toNat

/-- The least of a list by a key, the first among equals; none of an empty list. -/
def leastBy {α : Type} (key : α → Nat) : List α → Option α
  | [] => none
  | x :: xs => match leastBy key xs with
    | none => some x
    | some y => if key y < key x then some y else some x

/-- A list inserted in order of a key, after its equals. -/
def insertBy {α : Type} (key : α → Nat) (x : α) : List α → List α
  | [] => [x]
  | y :: ys => if key x < key y then x :: y :: ys else y :: insertBy key x ys

/-- A list sorted by a key, equals in their first order. -/
def sortBy {α : Type} (key : α → Nat) (l : List α) : List α := l.foldl (fun acc x => insertBy key x acc) []

end Sys2Proof.Machine
end

