-- ==== Sys2Proof/Machine/RegTable.lean ====
section
/-! DEFINITION. Machine/RegTable.lean: the registers of control space as their tables give them: offset, count and stride,
and each field's bits, access type, value after module reset and valid encodings. A field whose reset the tables call
config, trained or kept stands here as zero and is set at start-up. Bits in no field are reserved. -/

namespace Sys2Proof.Machine

/-- Register access types (Table 0-4). -/
inductive Acc where
  | ro
  | rw
  | w1c
  | rwl
  deriving DecidableEq, Repr

/-- A field: bits [hi:lo], access type, reset value, and the ranges of valid encodings (empty: all are valid, R11). -/
structure RField where
  hi : Nat
  lo : Nat
  acc : Acc
  reset : Nat
  valid : List (Nat × Nat)
  deriving DecidableEq, Repr

/-- A run of count registers, stride bytes apart from base on, all with the same fields. -/
structure RegSpec where
  base : Nat
  count : Nat
  stride : Nat
  fields : List RField
  deriving DecidableEq, Repr

/-- ID block (Tables 1-9 to 1-12): ID_PART, ID_MODULE, ID_CAPS, ID_DRAM_REGIONS. -/
def regsId : List RegSpec :=
  [⟨0x00000000, 1, 0x8, [⟨63, 48, .ro, 0x4e5a, []⟩, ⟨47, 32, .ro, 0x5860, []⟩, ⟨31, 16, .ro, 0, []⟩]⟩,
   ⟨0x00000008, 1, 0x8, [⟨63, 32, .ro, 0, []⟩, ⟨15, 14, .ro, 0, []⟩, ⟨11, 0, .ro, 0, []⟩]⟩,
   ⟨0x00000010, 1, 0x8, [⟨63, 48, .ro, 0x8000, []⟩, ⟨39, 32, .ro, 0xff, []⟩, ⟨31, 24, .ro, 0x80, []⟩, ⟨23, 16, .ro, 0x10, []⟩, ⟨15, 8, .ro, 0x10, []⟩, ⟨7, 0, .ro, 0, []⟩]⟩,
   ⟨0x00000018, 1, 0x8, [⟨31, 0, .ro, 0, []⟩]⟩]

/-- STK block (Tables 2-8 to 2-17): STK_NUMBER, STK_PERIOD, STK_PERIOD_AT, STK_SYNC, STK_SYNC_PORTS, STK_TIMEOUT, STK_CUTOFF, STK_OVERRUNS, STK_TOD, STK_PTP. -/
def regsStk : List RegSpec :=
  [⟨0x00010000, 1, 0x8, [⟨63, 0, .ro, 0, []⟩]⟩,
   ⟨0x00010008, 1, 0x8, [⟨28, 16, .rw, 0, [(213, 6800)]⟩, ⟨12, 0, .ro, 0, []⟩]⟩,
   ⟨0x00010010, 1, 0x8, [⟨63, 0, .rw, 0, []⟩]⟩,
   ⟨0x00010018, 1, 0x8, [⟨31, 31, .ro, 0, []⟩, ⟨30, 30, .rwl, 0, []⟩, ⟨27, 24, .ro, 0, []⟩, ⟨23, 16, .ro, 0, []⟩, ⟨15, 0, .ro, 0, []⟩]⟩,
   ⟨0x00010020, 1, 0x8, [⟨31, 16, .ro, 0, []⟩, ⟨15, 0, .rw, 0xffff, []⟩]⟩,
   ⟨0x00010028, 1, 0x8, [⟨31, 16, .rw, 0x800, [(256, 65535)]⟩, ⟨7, 0, .rw, 0x40, [(8, 255)]⟩]⟩,
   ⟨0x00010030, 1, 0x8, [⟨12, 0, .ro, 0xa0, []⟩]⟩,
   ⟨0x00010038, 1, 0x8, [⟨63, 0, .ro, 0, []⟩]⟩,
   ⟨0x00010040, 1, 0x8, [⟨63, 30, .ro, 0, []⟩, ⟨29, 0, .ro, 0, []⟩]⟩,
   ⟨0x00010048, 1, 0x8, [⟨0, 0, .ro, 0, []⟩]⟩]

/-- CRW block (Tables 1-13 to 1-15): CRW_LEDGER, CRW_LEDGER_CTL, CRW_STATE, CRW_CORES_LO, CRW_CORES_HI, CRW_SHARES, CRW_PORTS_LO, CRW_PORTS_HI, CRW_QUEUES, CRW_QUOTA, CRW_USED, CRW_METER_CORE, CRW_METER_STACK, CRW_METER_LINK. -/
def regsCrw : List RegSpec :=
  [⟨0x00020000, 1, 0x8, [⟨8, 0, .ro, 0, []⟩]⟩,
   ⟨0x00020008, 1, 0x8, [⟨4, 0, .rw, 0, [(16, 26)]⟩]⟩,
   ⟨0x00028000, 256, 0x80, [⟨15, 8, .ro, 0, []⟩, ⟨2, 2, .ro, 0, []⟩, ⟨1, 0, .ro, 0, []⟩]⟩,
   ⟨0x00028008, 256, 0x80, [⟨63, 0, .ro, 0, []⟩]⟩,
   ⟨0x00028010, 256, 0x80, [⟨63, 0, .ro, 0, []⟩]⟩,
   ⟨0x00028018, 256, 0x80, [⟨23, 16, .ro, 0, []⟩, ⟨15, 0, .ro, 0, []⟩]⟩,
   ⟨0x00028020, 256, 0x80, [⟨63, 0, .ro, 0, []⟩]⟩,
   ⟨0x00028028, 256, 0x80, [⟨63, 0, .ro, 0, []⟩]⟩,
   ⟨0x00028030, 256, 0x80, [⟨31, 16, .ro, 0, []⟩, ⟨14, 0, .ro, 0, []⟩]⟩,
   ⟨0x00028038, 256, 0x80, [⟨63, 32, .ro, 0, []⟩, ⟨31, 0, .ro, 0, []⟩]⟩,
   ⟨0x00028040, 256, 0x80, [⟨63, 32, .ro, 0, []⟩, ⟨31, 0, .ro, 0, []⟩]⟩,
   ⟨0x00028048, 256, 0x80, [⟨63, 0, .ro, 0, []⟩]⟩,
   ⟨0x00028050, 256, 0x80, [⟨63, 0, .ro, 0, []⟩]⟩,
   ⟨0x00028058, 256, 0x80, [⟨63, 0, .ro, 0, []⟩]⟩]

/-- SCH block (Tables 2-18 to 2-23): SCH_CTL, SCH_QCONF, SCH_QSHAPE, SCH_QVIEW, SCH_CREW_CONF, SCH_CREW_OVERRUNS, SCH_CREW_LONGOPS, SCH_CREW_RED, SCH_CREW_YELLOW, SCH_CREW_PARKED, SCH_POL_RATE, SCH_POL_BURST, SCH_POL_CTL, SCH_POL_STATE. -/
def regsSch : List RegSpec :=
  [⟨0x00030000, 1, 0x8, [⟨15, 0, .rw, 0x40, []⟩]⟩,
   ⟨0x00030008, 1, 0x8, [⟨63, 63, .rw, 0, []⟩, ⟨62, 48, .rw, 0, []⟩, ⟨25, 16, .rw, 0, []⟩, ⟨15, 15, .rw, 0, []⟩, ⟨7, 0, .rw, 1, [(1, 255)]⟩]⟩,
   ⟨0x00030010, 1, 0x8, [⟨63, 63, .rw, 0, []⟩, ⟨62, 48, .rw, 0, []⟩, ⟨47, 47, .rw, 0, []⟩, ⟨46, 24, .rw, 0, []⟩, ⟨22, 0, .rw, 0, []⟩]⟩,
   ⟨0x00030018, 1, 0x8, [⟨46, 32, .ro, 0, []⟩, ⟨31, 0, .ro, 0, []⟩]⟩,
   ⟨0x00031000, 256, 0x40, [⟨31, 16, .rw, 0, []⟩, ⟨7, 0, .rw, 0x10, [(1, 255)]⟩]⟩,
   ⟨0x00031008, 256, 0x40, [⟨63, 0, .ro, 0, []⟩]⟩,
   ⟨0x00031010, 256, 0x40, [⟨12, 0, .ro, 0, []⟩]⟩,
   ⟨0x00031018, 256, 0x40, [⟨63, 0, .ro, 0, []⟩]⟩,
   ⟨0x00031020, 256, 0x40, [⟨63, 0, .ro, 0, []⟩]⟩,
   ⟨0x00031028, 256, 0x40, [⟨63, 0, .ro, 0, []⟩]⟩,
   ⟨0x00038000, 1024, 0x20, [⟨63, 32, .rw, 0, []⟩, ⟨31, 0, .rw, 0, []⟩]⟩,
   ⟨0x00038008, 1024, 0x20, [⟨63, 32, .rw, 0, []⟩, ⟨31, 0, .rw, 0, []⟩]⟩,
   ⟨0x00038010, 1024, 0x20, [⟨16, 16, .rw, 0, []⟩, ⟨15, 8, .rw, 0, []⟩, ⟨0, 0, .rw, 0, []⟩]⟩,
   ⟨0x00038018, 1024, 0x20, [⟨63, 32, .ro, 0, []⟩, ⟨31, 0, .ro, 0, []⟩]⟩]

/-- XLT block (Tables 3-14 to 3-24): XLT_CTL, XLT_SEG_SEL, XLT_SEG_VIEW, XLT_WALK, XLT_HITS, XLT_MISSES, XLT_PREFETCHES, XLT_FAULTS, XLT_KEY_MISMATCH, XLT_SCRUB, XLT_CONTEXTS. -/
def regsXlt : List RegSpec :=
  [⟨0x00050000, 1, 0x8, [⟨12, 8, .rw, 4, [(1, 16)]⟩, ⟨0, 0, .rw, 1, []⟩]⟩,
   ⟨0x00050008, 1, 0x8, [⟨29, 16, .rw, 0, []⟩, ⟨6, 0, .rw, 0, [(0, 64)]⟩]⟩,
   ⟨0x00050010, 4, 0x8, [⟨63, 0, .ro, 0, []⟩]⟩,
   ⟨0x00050030, 1, 0x8, [⟨15, 12, .ro, 0, []⟩, ⟨11, 8, .ro, 0, []⟩, ⟨7, 4, .ro, 0, []⟩, ⟨3, 0, .ro, 0, []⟩]⟩,
   ⟨0x00050038, 1, 0x8, [⟨63, 32, .ro, 0, []⟩, ⟨31, 0, .ro, 0, []⟩]⟩,
   ⟨0x00050040, 1, 0x8, [⟨63, 32, .ro, 0, []⟩, ⟨31, 0, .ro, 0, []⟩]⟩,
   ⟨0x00050048, 1, 0x8, [⟨63, 32, .ro, 0, []⟩, ⟨31, 0, .ro, 0, []⟩]⟩,
   ⟨0x00050050, 1, 0x8, [⟨63, 32, .ro, 0, []⟩, ⟨31, 16, .ro, 0, []⟩, ⟨10, 0, .ro, 0, []⟩]⟩,
   ⟨0x00050058, 1, 0x8, [⟨63, 0, .ro, 0, []⟩]⟩,
   ⟨0x00050060, 1, 0x8, [⟨31, 0, .ro, 0, []⟩]⟩,
   ⟨0x00050068, 1, 0x8, [⟨14, 0, .ro, 0x4000, []⟩]⟩]

/-- DIR block (Tables 4-10 to 4-24): DIR_CTL, DIR_AGE_LIMIT, DIR_CSPACE, DIR_OCCUPANCY, DIR_EVICTIONS, DIR_PROMOTED, DIR_AGENTS, DIR_CRASHED, DIR_STALE, DIR_LOST_LINES, DIR_PROBE_SEL, DIR_PROBE_VIEW0, DIR_PROBE_VIEW1, DIR_PROBE_VIEW2, DIR_CREW_CSPACE. -/
def regsDir : List RegSpec :=
  [⟨0x00060000, 1, 0x8, [⟨7, 0, .rw, 8, [(2, 32)]⟩]⟩,
   ⟨0x00060008, 1, 0x8, [⟨7, 0, .rw, 8, [(1, 255)]⟩]⟩,
   ⟨0x00060010, 1, 0x8, [⟨15, 8, .rw, 0, [(0, 4)]⟩, ⟨7, 0, .rw, 0, [(0, 4)]⟩]⟩,
   ⟨0x00060018, 1, 0x8, [⟨63, 32, .ro, 0, []⟩, ⟨31, 0, .ro, 0, []⟩]⟩,
   ⟨0x00060020, 1, 0x8, [⟨63, 32, .ro, 0, []⟩, ⟨31, 0, .ro, 0, []⟩]⟩,
   ⟨0x00060028, 1, 0x8, [⟨63, 32, .ro, 0, []⟩, ⟨31, 0, .ro, 0, []⟩]⟩,
   ⟨0x00060030, 1, 0x8, [⟨63, 32, .ro, 0, []⟩, ⟨28, 16, .ro, 0, []⟩, ⟨12, 0, .ro, 0, []⟩]⟩,
   ⟨0x00060038, 1, 0x8, [⟨63, 32, .ro, 0, []⟩, ⟨15, 8, .ro, 0, []⟩, ⟨7, 0, .ro, 0, []⟩]⟩,
   ⟨0x00060040, 1, 0x8, [⟨63, 0, .ro, 0, []⟩]⟩,
   ⟨0x00060048, 1, 0x8, [⟨63, 32, .ro, 0, []⟩, ⟨31, 0, .ro, 0, []⟩]⟩,
   ⟨0x00060050, 1, 0x8, [⟨63, 7, .rw, 0, []⟩]⟩,
   ⟨0x00060058, 1, 0x8, [⟨63, 48, .ro, 0, []⟩, ⟨11, 8, .ro, 0, []⟩, ⟨5, 5, .ro, 0, []⟩, ⟨4, 4, .ro, 0, []⟩, ⟨1, 0, .ro, 0, []⟩]⟩,
   ⟨0x00060060, 1, 0x8, [⟨63, 0, .ro, 0, []⟩]⟩,
   ⟨0x00060068, 1, 0x8, [⟨23, 0, .ro, 0, []⟩]⟩,
   ⟨0x00061000, 256, 0x8, [⟨15, 8, .rw, 0, [(0, 32)]⟩, ⟨7, 0, .rw, 0, [(0, 32)]⟩]⟩]

/-- TIR block (Tables 5-13 to 5-16): TIR_CTL, TIR_FILLS, TIR_ERRORS, TIR_CREW_CACHE, TIR_CREW_KV, TIR_CREW_MISSES, TIR_WIN_STATE, TIR_WIN_CURSOR, TIR_WIN_READY. -/
def regsTir : List RegSpec :=
  [⟨0x00070000, 1, 0x8, [⟨12, 8, .rw, 0x14, [(4, 30)]⟩, ⟨0, 0, .rw, 1, []⟩]⟩,
   ⟨0x00070008, 1, 0x8, [⟨63, 48, .ro, 0, []⟩, ⟨47, 32, .ro, 0, []⟩, ⟨31, 0, .ro, 0, []⟩]⟩,
   ⟨0x00070010, 1, 0x8, [⟨63, 32, .ro, 0, []⟩, ⟨31, 0, .ro, 0, []⟩]⟩,
   ⟨0x00071000, 256, 0x20, [⟨63, 32, .ro, 0, []⟩, ⟨31, 0, .rw, 0, []⟩]⟩,
   ⟨0x00071008, 256, 0x20, [⟨7, 0, .rw, 0x20, [(8, 8), (16, 16), (24, 24), (32, 32), (40, 40), (48, 48), (56, 56), (64, 64)]⟩]⟩,
   ⟨0x00071010, 256, 0x20, [⟨63, 0, .ro, 0, []⟩]⟩,
   ⟨0x00078000, 64, 0x20, [⟨63, 56, .ro, 0, []⟩, ⟨55, 48, .ro, 0, []⟩, ⟨47, 40, .ro, 0, []⟩, ⟨1, 0, .ro, 0, []⟩]⟩,
   ⟨0x00078008, 64, 0x20, [⟨63, 0, .ro, 0, []⟩]⟩,
   ⟨0x00078010, 64, 0x20, [⟨7, 0, .ro, 0, []⟩]⟩]

/-- FAB block (Tables 6-13 to 6-21): FAB_CTL, FAB_PORT_STATE, FAB_SYNC_PEER, FAB_ENTRY, FAB_DROPPED, FAB_THROTTLE, FAB_REDIRECTS, FAB_PORT_TX, FAB_PORT_RX, FAB_PORT_ERR, FAB_PORT_DELAY, FAB_LIMIT_MATCH, FAB_LIMIT_BYTES. -/
def regsFab : List RegSpec :=
  [⟨0x00080000, 1, 0x8, [⟨15, 12, .rwl, 0, []⟩, ⟨11, 8, .rwl, 0, []⟩]⟩,
   ⟨0x00080008, 1, 0x8, [⟨63, 0, .ro, 0, []⟩]⟩,
   ⟨0x00080010, 4, 0x8, [⟨63, 63, .rw, 0, []⟩, ⟨59, 48, .rw, 0, []⟩, ⟨47, 47, .rw, 0, []⟩, ⟨43, 32, .rw, 0, []⟩, ⟨31, 31, .rw, 0, []⟩, ⟨27, 16, .rw, 0, []⟩, ⟨15, 15, .rw, 0, []⟩, ⟨11, 0, .rw, 0, []⟩]⟩,
   ⟨0x00080030, 1, 0x8, [⟨63, 32, .ro, 0, []⟩, ⟨18, 0, .ro, 0, []⟩]⟩,
   ⟨0x00080038, 1, 0x8, [⟨63, 32, .ro, 0, []⟩, ⟨31, 0, .ro, 0, []⟩]⟩,
   ⟨0x00080040, 1, 0x8, [⟨63, 0, .ro, 0, []⟩]⟩,
   ⟨0x00080048, 1, 0x8, [⟨63, 32, .ro, 0, []⟩, ⟨12, 0, .ro, 0, []⟩]⟩,
   ⟨0x00081000, 16, 0x20, [⟨63, 0, .ro, 0, []⟩]⟩,
   ⟨0x00081008, 16, 0x20, [⟨63, 0, .ro, 0, []⟩]⟩,
   ⟨0x00081010, 16, 0x20, [⟨63, 32, .ro, 0, []⟩, ⟨31, 16, .ro, 0, []⟩, ⟨15, 0, .ro, 0, []⟩]⟩,
   ⟨0x00081018, 16, 0x20, [⟨31, 0, .ro, 0, []⟩]⟩,
   ⟨0x00082000, 64, 0x10, [⟨63, 63, .rw, 0, []⟩, ⟨47, 24, .rw, 0, []⟩, ⟨23, 0, .rw, 0, []⟩]⟩,
   ⟨0x00082008, 64, 0x10, [⟨19, 0, .rw, 0x800, [(2048, 1048575)]⟩]⟩]

/-- ETH block (Tables 7-19 and 7-20): ETH_CTL, ETH_MAC, ETH_IPV4, ETH_IPV4_GW, ETH_IPV6_HI, ETH_IPV6_LO, ETH_IPV6_CTL, ETH_IPV6_GW_HI, ETH_IPV6_GW_LO, ETH_UDP, ETH_SESSION_CTL, ETH_PFC, ETH_PTP, ETH_SESSIONS, ETH_RX_DROPS, ETH_RX_SEQ, ETH_RESENT, ETH_CREW_DISCARDS. -/
def regsEth : List RegSpec :=
  [⟨0x00090000, 1, 0x8, [⟨47, 32, .rw, 0, [(1280, 9000)]⟩, ⟨31, 29, .rw, 0, []⟩, ⟨28, 26, .rw, 0, []⟩, ⟨23, 16, .rw, 0, []⟩, ⟨12, 12, .rwl, 0, []⟩, ⟨11, 0, .rwl, 0, [(1, 4094)]⟩]⟩,
   ⟨0x00090008, 1, 0x8, [⟨47, 0, .rwl, 0, []⟩]⟩,
   ⟨0x00090010, 1, 0x8, [⟨63, 63, .rwl, 0, []⟩, ⟨37, 32, .rwl, 0, [(0, 32)]⟩, ⟨31, 0, .rwl, 0, []⟩]⟩,
   ⟨0x00090018, 1, 0x8, [⟨31, 0, .rwl, 0, []⟩]⟩,
   ⟨0x00090020, 1, 0x8, [⟨63, 0, .rwl, 0, []⟩]⟩,
   ⟨0x00090028, 1, 0x8, [⟨63, 0, .rwl, 0, []⟩]⟩,
   ⟨0x00090030, 1, 0x8, [⟨63, 63, .rwl, 0, []⟩, ⟨7, 0, .rwl, 0, [(0, 128)]⟩]⟩,
   ⟨0x00090038, 1, 0x8, [⟨63, 0, .rwl, 0, []⟩]⟩,
   ⟨0x00090040, 1, 0x8, [⟨63, 0, .rwl, 0, []⟩]⟩,
   ⟨0x00090048, 1, 0x8, [⟨15, 0, .rwl, 0, []⟩]⟩,
   ⟨0x00090050, 1, 0x8, [⟨47, 32, .rw, 0xea60, [(100, 65535)]⟩, ⟨31, 16, .rw, 0x32, [(10, 65535)]⟩, ⟨7, 0, .rw, 0x10, [(1, 255)]⟩]⟩,
   ⟨0x00090058, 1, 0x8, [⟨47, 32, .rw, 0x800, []⟩, ⟨15, 0, .rw, 0xc00, [(1, 4096)]⟩]⟩,
   ⟨0x00090060, 1, 0x8, [⟨15, 8, .rw, 0, []⟩, ⟨1, 1, .rw, 0, []⟩, ⟨0, 0, .rw, 0, []⟩]⟩,
   ⟨0x00090068, 1, 0x8, [⟨63, 32, .ro, 0, []⟩, ⟨12, 0, .ro, 0, []⟩]⟩,
   ⟨0x00090070, 1, 0x8, [⟨63, 32, .ro, 0, []⟩, ⟨31, 0, .ro, 0, []⟩]⟩,
   ⟨0x00090078, 1, 0x8, [⟨63, 32, .ro, 0, []⟩, ⟨31, 0, .ro, 0, []⟩]⟩,
   ⟨0x00090080, 1, 0x8, [⟨63, 32, .ro, 0, []⟩, ⟨31, 0, .ro, 0, []⟩]⟩,
   ⟨0x00091000, 256, 0x8, [⟨63, 32, .ro, 0, []⟩, ⟨31, 0, .ro, 0, []⟩]⟩]

/-- DNS block (Tables 5-17 to 5-19): DNS_CTL, DNS_LINKS, DNS_NS_CONF, DNS_NS_SIZE, DNS_NS_ERRORS. -/
def regsDns : List RegSpec :=
  [⟨0x000A0000, 1, 0x8, [⟨42, 32, .rw, 0x100, [(1, 1024)]⟩, ⟨31, 16, .rw, 0x2710, [(1000, 65535)]⟩]⟩,
   ⟨0x000A0008, 1, 0x8, [⟨31, 0, .ro, 0, []⟩]⟩,
   ⟨0x000A1000, 32, 0x20, [⟨63, 63, .ro, 0, []⟩, ⟨62, 62, .ro, 0, []⟩, ⟨61, 61, .rw, 0, []⟩, ⟨55, 48, .rw, 0, []⟩, ⟨42, 40, .ro, 0, []⟩, ⟨31, 0, .ro, 0, []⟩]⟩,
   ⟨0x000A1008, 32, 0x20, [⟨63, 32, .ro, 0, []⟩, ⟨31, 0, .ro, 0, []⟩]⟩,
   ⟨0x000A1010, 32, 0x20, [⟨63, 32, .ro, 0, []⟩, ⟨31, 0, .ro, 0, []⟩]⟩]

/-- ENG block (Tables 8-14 to 8-19): ENG_CTL, ENG_CORES, ENG_BATCHES, ENG_COMBINE, ENG_CLOCK, ENG_CREW_CONF, ENG_CREW_BATCHES, ENG_CREW_COMBINE. -/
def regsEng : List RegSpec :=
  [⟨0x000B0000, 1, 0x8, [⟨10, 0, .rw, 0x100, [(1, 1024)]⟩]⟩,
   ⟨0x000B0008, 2, 0x8, [⟨63, 0, .ro, 0, []⟩]⟩,
   ⟨0x000B0018, 1, 0x8, [⟨63, 32, .ro, 0, []⟩, ⟨31, 0, .ro, 0, []⟩]⟩,
   ⟨0x000B0020, 1, 0x8, [⟨63, 32, .ro, 0, []⟩, ⟨31, 16, .ro, 0, []⟩, ⟨12, 0, .ro, 0, []⟩]⟩,
   ⟨0x000B0028, 1, 0x8, [⟨9, 0, .ro, 0x352, []⟩]⟩,
   ⟨0x000B1000, 256, 0x20, [⟨15, 8, .rw, 0, [(0, 28)]⟩, ⟨3, 0, .rw, 1, [(1, 8)]⟩]⟩,
   ⟨0x000B1008, 256, 0x20, [⟨63, 32, .ro, 0, []⟩, ⟨31, 0, .ro, 0, []⟩]⟩,
   ⟨0x000B1010, 256, 0x20, [⟨63, 32, .ro, 0, []⟩, ⟨31, 0, .ro, 0, []⟩]⟩]

/-- WSK block (Tables 9-7 to 9-11): WSK_MARK, WSK_MARK_VIEW, WSK_TILES, WSK_PROF_CTL, WSK_PROF_DEF, WSK_PROF_OLD, WSK_PROF_SINCE, WSK_CREW. -/
def regsWsk : List RegSpec :=
  [⟨0x000C0000, 1, 0x8, [⟨63, 63, .rw, 0, []⟩, ⟨62, 62, .rw, 0, []⟩, ⟨61, 60, .rw, 0, []⟩, ⟨59, 58, .rw, 0, []⟩, ⟨47, 32, .rw, 0, []⟩, ⟨28, 0, .rw, 0, []⟩]⟩,
   ⟨0x000C0008, 1, 0x8, [⟨63, 63, .ro, 0, []⟩, ⟨62, 62, .ro, 0, []⟩, ⟨61, 60, .ro, 0, []⟩, ⟨59, 58, .ro, 0, []⟩, ⟨15, 8, .ro, 0, []⟩]⟩,
   ⟨0x000C0010, 1, 0x8, [⟨63, 32, .ro, 0, []⟩, ⟨31, 0, .ro, 0, []⟩]⟩,
   ⟨0x000C1000, 64, 0x20, [⟨15, 8, .rw, 0, []⟩, ⟨0, 0, .rw, 0, []⟩]⟩,
   ⟨0x000C1008, 64, 0x20, [⟨63, 63, .rw, 0, []⟩, ⟨31, 24, .ro, 0, []⟩, ⟨15, 8, .rw, 0, []⟩, ⟨5, 4, .rw, 0, []⟩, ⟨1, 0, .rw, 0, []⟩]⟩,
   ⟨0x000C1010, 64, 0x20, [⟨63, 32, .ro, 0, []⟩, ⟨31, 24, .ro, 0, []⟩, ⟨15, 8, .ro, 0, []⟩, ⟨5, 4, .ro, 0, []⟩, ⟨1, 0, .ro, 0, []⟩]⟩,
   ⟨0x000C1018, 64, 0x20, [⟨63, 0, .ro, 0, []⟩]⟩,
   ⟨0x000C2000, 256, 0x8, [⟨63, 32, .ro, 0, []⟩, ⟨31, 0, .ro, 0, []⟩]⟩]

/-- LDL block (Tables 10-9 to 10-14): LDL_LOOKUPS, LDL_HITS, LDL_MOVES, LDL_TABLES, LDL_TBL_STATE, LDL_TBL_ROWS, LDL_TBL_DESCS, LDL_TBL_BODY, LDL_TBL_BODY_SIZE, LDL_TBL_RECLAIM, LDL_TBL_HOT, LDL_TBL_INFLIGHT, LDL_CREW_LOOKUPS, LDL_CREW_HITS. -/
def regsLdl : List RegSpec :=
  [⟨0x000D0000, 1, 0x8, [⟨63, 0, .ro, 0, []⟩]⟩,
   ⟨0x000D0008, 1, 0x8, [⟨63, 32, .ro, 0, []⟩, ⟨31, 0, .ro, 0, []⟩]⟩,
   ⟨0x000D0010, 1, 0x8, [⟨63, 32, .ro, 0, []⟩, ⟨10, 0, .ro, 0, []⟩]⟩,
   ⟨0x000D0018, 1, 0x8, [⟨8, 0, .ro, 0x100, []⟩]⟩,
   ⟨0x000D1000, 256, 0x40, [⟨63, 56, .ro, 0, []⟩, ⟨55, 48, .ro, 0, []⟩, ⟨47, 40, .ro, 0, []⟩, ⟨39, 32, .ro, 0, []⟩, ⟨1, 0, .ro, 0, []⟩]⟩,
   ⟨0x000D1008, 256, 0x40, [⟨31, 0, .ro, 0, []⟩]⟩,
   ⟨0x000D1010, 256, 0x40, [⟨63, 0, .ro, 0, []⟩]⟩,
   ⟨0x000D1018, 256, 0x40, [⟨63, 0, .ro, 0, []⟩]⟩,
   ⟨0x000D1020, 256, 0x40, [⟨31, 0, .ro, 0, []⟩]⟩,
   ⟨0x000D1028, 256, 0x40, [⟨63, 0, .ro, 0, []⟩]⟩,
   ⟨0x000D1030, 256, 0x40, [⟨47, 32, .ro, 0, []⟩, ⟨31, 0, .ro, 0, []⟩]⟩,
   ⟨0x000D1038, 256, 0x40, [⟨63, 32, .ro, 0, []⟩, ⟨31, 0, .ro, 0, []⟩]⟩,
   ⟨0x000D8000, 256, 0x10, [⟨63, 0, .ro, 0, []⟩]⟩,
   ⟨0x000D8008, 256, 0x10, [⟨63, 32, .ro, 0, []⟩, ⟨31, 0, .ro, 0, []⟩]⟩]

/-- SVE block (Tables 11-10 to 11-15): SVE_CTL, SVE_SEARCHES, SVE_SCANS, SVE_INDEXES, SVE_IDX_STATE, SVE_IDX_SIDE, SVE_IDX_CAP, SVE_IDX_MERGED, SVE_IDX_RECLAIM, SVE_IDX_FILTERS, SVE_IDX_FGEN_LO, SVE_IDX_FGEN_HI, SVE_CREW_SEARCHES, SVE_CREW_SCANS. -/
def regsSve : List RegSpec :=
  [⟨0x000E0000, 1, 0x8, [⟨3, 0, .rw, 1, [(1, 8)]⟩]⟩,
   ⟨0x000E0008, 1, 0x8, [⟨63, 32, .ro, 0, []⟩, ⟨14, 0, .ro, 0, []⟩]⟩,
   ⟨0x000E0010, 1, 0x8, [⟨63, 32, .ro, 0, []⟩, ⟨31, 0, .ro, 0, []⟩]⟩,
   ⟨0x000E0018, 1, 0x8, [⟨6, 0, .ro, 0x40, []⟩]⟩,
   ⟨0x000E1000, 64, 0x40, [⟨63, 56, .ro, 0, []⟩, ⟨55, 48, .ro, 0, []⟩, ⟨47, 40, .ro, 0, []⟩, ⟨39, 32, .ro, 0, []⟩, ⟨25, 24, .ro, 0, []⟩, ⟨1, 0, .ro, 0, []⟩]⟩,
   ⟨0x000E1008, 64, 0x40, [⟨63, 32, .ro, 0, []⟩, ⟨31, 0, .ro, 0, []⟩]⟩,
   ⟨0x000E1010, 64, 0x40, [⟨63, 32, .ro, 0, []⟩, ⟨22, 0, .ro, 0, []⟩]⟩,
   ⟨0x000E1018, 64, 0x40, [⟨63, 0, .ro, 0, []⟩]⟩,
   ⟨0x000E1020, 64, 0x40, [⟨63, 0, .ro, 0, []⟩]⟩,
   ⟨0x000E1028, 64, 0x40, [⟨15, 0, .ro, 0, []⟩]⟩,
   ⟨0x000E1030, 64, 0x40, [⟨63, 0, .ro, 0, []⟩]⟩,
   ⟨0x000E1038, 64, 0x40, [⟨63, 0, .ro, 0, []⟩]⟩,
   ⟨0x000E8000, 256, 0x10, [⟨63, 0, .ro, 0, []⟩]⟩,
   ⟨0x000E8008, 256, 0x10, [⟨63, 32, .ro, 0, []⟩, ⟨31, 0, .ro, 0, []⟩]⟩]

/-- ICU block (Tables 15-5 to 15-8): ICU_INFO, ICU_SOFT, ICU_SRC, ICU_TGT_CLAIM, ICU_TGT_COMPLETE, ICU_TGT_MODE, ICU_TGT_RING_BASE, ICU_TGT_RING_IDX, ICU_TGT_WDOG, ICU_TGT_STAT. -/
def regsIcu : List RegSpec :=
  [⟨0x000F0000, 1, 0x8, [⟨31, 22, .ro, 0x340, []⟩, ⟨21, 16, .ro, 0x1a, []⟩, ⟨10, 0, .ro, 0x400, []⟩]⟩,
   ⟨0x000F0008, 1, 0x8, [⟨4, 0, .rw, 0, []⟩]⟩,
   ⟨0x000F1000, 1024, 0x8, [⟨31, 31, .ro, 0, []⟩, ⟨30, 30, .ro, 0, []⟩, ⟨29, 29, .ro, 0, []⟩, ⟨28, 28, .ro, 0, []⟩, ⟨20, 16, .rw, 8, []⟩, ⟨10, 8, .rw, 0, []⟩, ⟨3, 1, .rw, 0, []⟩, ⟨0, 0, .rw, 0, []⟩]⟩,
   ⟨0x000F4000, 26, 0x40, [⟨15, 15, .ro, 0, []⟩, ⟨9, 0, .ro, 0, []⟩]⟩,
   ⟨0x000F4008, 26, 0x40, [⟨9, 0, .rw, 0, []⟩]⟩,
   ⟨0x000F4010, 26, 0x40, [⟨7, 4, .rw, 6, []⟩, ⟨0, 0, .rw, 0, []⟩]⟩,
   ⟨0x000F4018, 26, 0x40, [⟨26, 12, .rw, 0, []⟩]⟩,
   ⟨0x000F4020, 26, 0x40, [⟨63, 32, .rw, 0, []⟩, ⟨31, 0, .ro, 0, []⟩]⟩,
   ⟨0x000F4028, 26, 0x40, [⟨63, 63, .rw, 0, []⟩, ⟨47, 32, .ro, 0, []⟩, ⟨31, 0, .rw, 0, []⟩]⟩,
   ⟨0x000F4030, 26, 0x40, [⟨63, 32, .ro, 0, []⟩, ⟨31, 16, .ro, 0, []⟩, ⟨15, 0, .ro, 0, []⟩]⟩]

/-- FLT block (Tables 13-8 and 13-9): FLT_CTL, FLT_STATE, FLT_PIN, FLT_FT_STROKE, FLT_DEV_RING, FLT_DEV_NEXT, FLT_COUNTS, FLT_RETIRED_LO, FLT_RETIRED_HI, FLT_CHECKS, FLT_PAIR, FLT_SCRUB, FLT_CREW_CONF, FLT_CREW_RING, FLT_CREW_NEXT, FLT_CREW_COUNTS. -/
def regsFlt : List RegSpec :=
  [⟨0x00100000, 1, 0x8, [⟨34, 32, .rw, 6, []⟩, ⟨31, 24, .rw, 6, [(4, 16)]⟩, ⟨23, 16, .rw, 0xc, [(8, 20)]⟩, ⟨15, 8, .rw, 0x14, [(12, 24)]⟩, ⟨7, 0, .rw, 2, [(1, 255)]⟩]⟩,
   ⟨0x00100008, 1, 0x8, [⟨15, 8, .ro, 0, []⟩, ⟨0, 0, .ro, 0, []⟩]⟩,
   ⟨0x00100010, 1, 0x8, [⟨2, 2, .ro, 1, []⟩, ⟨1, 1, .ro, 0, []⟩, ⟨0, 0, .rw, 0, []⟩]⟩,
   ⟨0x00100018, 1, 0x8, [⟨63, 0, .ro, 0, []⟩]⟩,
   ⟨0x00100020, 1, 0x8, [⟨63, 32, .ro, 0, []⟩, ⟨16, 0, .ro, 0, []⟩]⟩,
   ⟨0x00100028, 1, 0x8, [⟨63, 0, .ro, 0, []⟩]⟩,
   ⟨0x00100030, 1, 0x8, [⟨63, 32, .ro, 0, []⟩, ⟨31, 0, .ro, 0, []⟩]⟩,
   ⟨0x00100038, 1, 0x8, [⟨63, 0, .ro, 0, []⟩]⟩,
   ⟨0x00100040, 1, 0x8, [⟨63, 0, .ro, 0, []⟩]⟩,
   ⟨0x00100048, 1, 0x8, [⟨63, 32, .ro, 0, []⟩, ⟨31, 16, .ro, 0, []⟩, ⟨15, 0, .ro, 0, []⟩]⟩,
   ⟨0x00100050, 1, 0x8, [⟨63, 32, .ro, 0, []⟩, ⟨31, 16, .ro, 0, []⟩, ⟨15, 0, .ro, 0, []⟩]⟩,
   ⟨0x00100058, 1, 0x8, [⟨63, 32, .ro, 0, []⟩, ⟨7, 0, .rw, 0x18, [(1, 168)]⟩]⟩,
   ⟨0x00101000, 256, 0x20, [⟨15, 15, .rw, 0, []⟩, ⟨14, 0, .rw, 0, []⟩]⟩,
   ⟨0x00101008, 256, 0x20, [⟨63, 32, .ro, 0, []⟩, ⟨10, 0, .ro, 0, []⟩]⟩,
   ⟨0x00101010, 256, 0x20, [⟨63, 0, .ro, 0, []⟩]⟩,
   ⟨0x00101018, 256, 0x20, [⟨63, 32, .ro, 0, []⟩, ⟨31, 0, .ro, 0, []⟩]⟩]

/-- PAR block (Table 14-11): PAR_CTL, PAR_PARTNER, PAR_WITNESS, PAR_WITNESS_KEY, PAR_STATE, PAR_SENT, PAR_APPLIED, PAR_ANSWERED, PAR_USED, PAR_TAKEOVER, PAR_EXPEL, PAR_LINK. -/
def regsPar : List RegSpec :=
  [⟨0x00110000, 1, 0x8, [⟨7, 0, .rw, 0x28, [(16, 255)]⟩]⟩,
   ⟨0x00110008, 1, 0x8, [⟨63, 32, .rwl, 0, []⟩, ⟨11, 0, .rwl, 0, []⟩]⟩,
   ⟨0x00110010, 1, 0x8, [⟨63, 0, .rwl, 0, []⟩]⟩,
   ⟨0x00110018, 1, 0x8, [⟨39, 0, .rwl, 0, []⟩]⟩,
   ⟨0x00110020, 1, 0x8, [⟨63, 32, .ro, 0, []⟩, ⟨16, 16, .ro, 0, []⟩, ⟨15, 8, .ro, 0, []⟩, ⟨3, 0, .ro, 0, []⟩]⟩,
   ⟨0x00110028, 1, 0x8, [⟨63, 0, .ro, 0, []⟩]⟩,
   ⟨0x00110030, 1, 0x8, [⟨63, 0, .ro, 0, []⟩]⟩,
   ⟨0x00110038, 1, 0x8, [⟨63, 0, .ro, 0, []⟩]⟩,
   ⟨0x00110040, 1, 0x8, [⟨31, 0, .ro, 0, []⟩]⟩,
   ⟨0x00110048, 1, 0x8, [⟨63, 32, .ro, 0, []⟩, ⟨31, 16, .ro, 0, []⟩, ⟨15, 0, .ro, 0, []⟩]⟩,
   ⟨0x00110050, 1, 0x8, [⟨36, 32, .ro, 0, []⟩, ⟨31, 0, .ro, 0, []⟩]⟩,
   ⟨0x00110058, 1, 0x8, [⟨63, 32, .ro, 0, []⟩, ⟨31, 16, .ro, 0, []⟩, ⟨15, 0, .ro, 0, []⟩]⟩]

/-- SEC block (Table 12-11): SEC_STATE, SEC_SVN0, SEC_SVN1, SEC_LMS, SEC_ATTEST, SEC_HANDSHAKE, SEC_SLOT_SEL, SEC_SLOT_VIEW, SEC_SLOT_ID0, SEC_SLOT_ID1, SEC_MEASURE_SEL, SEC_MEASURE_VIEW. -/
def regsSec : List RegSpec :=
  [⟨0x00120000, 1, 0x8, [⟨7, 7, .ro, 0, []⟩, ⟨6, 6, .ro, 0, []⟩, ⟨5, 5, .ro, 0, []⟩, ⟨4, 4, .ro, 0, []⟩, ⟨0, 0, .ro, 0, []⟩]⟩,
   ⟨0x00120008, 1, 0x8, [⟨63, 0, .ro, 0, []⟩]⟩,
   ⟨0x00120010, 1, 0x8, [⟨31, 0, .ro, 0, []⟩]⟩,
   ⟨0x00120018, 1, 0x8, [⟨20, 0, .ro, 0, []⟩]⟩,
   ⟨0x00120020, 1, 0x8, [⟨47, 32, .rw, 0x3e8, [(10, 60000)]⟩, ⟨31, 0, .rw, 0xea60, [(1000, 3600000)]⟩]⟩,
   ⟨0x00120028, 1, 0x8, [⟨63, 32, .ro, 0, []⟩, ⟨31, 0, .ro, 0, []⟩]⟩,
   ⟨0x00120030, 1, 0x8, [⟨7, 0, .rw, 0, []⟩]⟩,
   ⟨0x00120038, 1, 0x8, [⟨47, 40, .ro, 0, []⟩, ⟨39, 32, .ro, 0, []⟩, ⟨1, 0, .ro, 0, []⟩]⟩,
   ⟨0x00120040, 1, 0x8, [⟨63, 0, .ro, 0, []⟩]⟩,
   ⟨0x00120048, 1, 0x8, [⟨63, 0, .ro, 0, []⟩]⟩,
   ⟨0x00120050, 1, 0x8, [⟨2, 0, .rw, 0, []⟩]⟩,
   ⟨0x00120058, 6, 0x8, [⟨63, 0, .ro, 0, []⟩]⟩]

/-- SNP block (Table 13-10): SNP_CTL, SNP_STATE, SNP_AT, SNP_STROKE, SNP_CYCLE, SNP_SEL, SNP_VIEW. -/
def regsSnp : List RegSpec :=
  [⟨0x00130000, 1, 0x8, [⟨2, 2, .rw, 0, []⟩, ⟨1, 1, .rw, 1, []⟩, ⟨0, 0, .rw, 1, []⟩]⟩,
   ⟨0x00130008, 1, 0x8, [⟨63, 32, .ro, 0, []⟩, ⟨10, 8, .ro, 0, []⟩, ⟨1, 1, .ro, 0, []⟩, ⟨0, 0, .w1c, 0, []⟩]⟩,
   ⟨0x00130010, 1, 0x8, [⟨63, 0, .ro, 0, []⟩]⟩,
   ⟨0x00130018, 1, 0x8, [⟨63, 0, .ro, 0, []⟩]⟩,
   ⟨0x00130020, 1, 0x8, [⟨23, 16, .ro, 0, []⟩, ⟨12, 0, .ro, 0, []⟩]⟩,
   ⟨0x00130028, 1, 0x8, [⟨23, 3, .rw, 0, []⟩]⟩,
   ⟨0x00130030, 1, 0x8, [⟨63, 0, .ro, 0, []⟩]⟩]

/-- PWR block (Table 16-6): PWR_STATE, PWR_CTL, PWR_RESET, PWR_SLEEP, PWR_POWER, PWR_INPUT, PWR_TEMP, PWR_THROTTLE, PWR_WARN. -/
def regsPwr : List RegSpec :=
  [⟨0x00140000, 1, 0x8, [⟨15, 8, .ro, 0, []⟩, ⟨4, 4, .ro, 0, []⟩, ⟨3, 2, .ro, 0, []⟩, ⟨0, 0, .ro, 0, []⟩]⟩,
   ⟨0x00140008, 1, 0x8, [⟨1, 1, .rw, 0, []⟩, ⟨0, 0, .rw, 1, []⟩]⟩,
   ⟨0x00140010, 1, 0x8, [⟨2, 2, .rw, 0, []⟩, ⟨1, 1, .rw, 0, []⟩, ⟨0, 0, .rw, 0, []⟩]⟩,
   ⟨0x00140018, 1, 0x8, [⟨47, 32, .ro, 0, []⟩, ⟨31, 0, .ro, 0, []⟩]⟩,
   ⟨0x00140020, 1, 0x8, [⟨15, 0, .ro, 0, []⟩]⟩,
   ⟨0x00140028, 1, 0x8, [⟨47, 32, .ro, 0, []⟩, ⟨31, 16, .ro, 0, []⟩, ⟨15, 0, .ro, 0, []⟩]⟩,
   ⟨0x00140030, 1, 0x8, [⟨23, 16, .ro, 0, []⟩, ⟨15, 8, .ro, 0, []⟩, ⟨7, 0, .ro, 0, []⟩]⟩,
   ⟨0x00140038, 1, 0x8, [⟨47, 32, .rw, 0x6a4, [(500, 1700)]⟩, ⟨7, 0, .rw, 0x5f, [(80, 100)]⟩]⟩,
   ⟨0x00140040, 1, 0x8, [⟨31, 16, .rw, 0x1324, [(4000, 5000)]⟩, ⟨15, 0, .rw, 0x1004, []⟩]⟩]

/-- LOG block (Table 12-12): LOG_CTL, LOG_NEXT, LOG_OLDEST, LOG_SECURE, LOG_BATCH, LOG_LEDGER. -/
def regsLog : List RegSpec :=
  [⟨0x00150000, 1, 0x8, [⟨20, 8, .rw, 0x1000, [(64, 4096)]⟩, ⟨4, 0, .rwl, 0x14, [(16, 24)]⟩]⟩,
   ⟨0x00150008, 1, 0x8, [⟨63, 0, .ro, 0, []⟩]⟩,
   ⟨0x00150010, 1, 0x8, [⟨63, 0, .ro, 0, []⟩]⟩,
   ⟨0x00150018, 1, 0x8, [⟨63, 0, .ro, 0, []⟩]⟩,
   ⟨0x00150020, 1, 0x8, [⟨63, 0, .ro, 0, []⟩]⟩,
   ⟨0x00150028, 1, 0x8, [⟨63, 0, .ro, 0, []⟩]⟩]

/-- DOOR block (Table 7-6): SQ_TAIL, CQ_HEAD, SQ_HEAD, CQ_TAIL. -/
def regsDoor : List RegSpec :=
  [⟨0x01000000, 32768, 0x40, [⟨63, 56, .rw, 0, []⟩, ⟨31, 0, .rw, 0, []⟩]⟩,
   ⟨0x01000008, 32768, 0x40, [⟨63, 56, .rw, 0, []⟩, ⟨31, 0, .rw, 0, []⟩]⟩,
   ⟨0x01000010, 32768, 0x40, [⟨63, 0, .ro, 0, []⟩]⟩,
   ⟨0x01000018, 32768, 0x40, [⟨63, 0, .ro, 0, []⟩]⟩]

/-- The registers of the block in which an offset lies (Table 1-8). -/
def regBlock (off : Nat) : List RegSpec :=
  match off / 65536 with
  | 0 => regsId
  | 1 => regsStk
  | 2 => regsCrw
  | 3 => regsSch
  | 5 => regsXlt
  | 6 => regsDir
  | 7 => regsTir
  | 8 => regsFab
  | 9 => regsEth
  | 10 => regsDns
  | 11 => regsEng
  | 12 => regsWsk
  | 13 => regsLdl
  | 14 => regsSve
  | 15 => regsIcu
  | 16 => regsFlt
  | 17 => regsPar
  | 18 => regsSec
  | 19 => regsSnp
  | 20 => regsPwr
  | 21 => regsLog
  | n => if n = 0x100 ∨ (0x100 < n ∧ n < 0x120) then regsDoor else []

/-- The register at an offset, with its number in its run; none where the offset names no register (R13). -/
def regFind (off : Nat) : Option (RegSpec × Nat) :=
  ((regBlock off).find? fun r =>
    decide (r.base ≤ off) && decide (off < r.base + r.count * r.stride) && (off - r.base) % r.stride == 0).map
    fun r => (r, (off - r.base) / r.stride)

/-- A register's value at module reset (Reset column). -/
def RegSpec.resetValue (r : RegSpec) : Nat := r.fields.foldl (fun a f => a + f.reset % 2 ^ (f.hi + 1 - f.lo) * 2 ^ f.lo) 0

/-- The value at module reset of the register at an offset. -/
def regReset (off : Nat) : Nat := match regFind off with
  | some (r, _) => r.resetValue
  | none => 0

/-- Whether a field may hold an encoding (R11). -/
def RField.okay (f : RField) (v : Nat) : Bool :=
  f.valid.isEmpty || f.valid.any fun p => decide (p.1 ≤ v) && decide (v ≤ p.2)

end Sys2Proof.Machine
end

