-- ==== Sys2Proof/Machine/Flags.lean ====
section
/-! DEFINITION. Machine/Flags.lean: status codes (Table 7-14), raw register values and counters, free values, interrupt
sources (R421 to R428), and the change log (R359). -/

namespace Sys2Proof.Machine

/-- Status codes (Table 7-14). -/
def stOk : Nat := 0x00
/-- A register write changed only some of its fields. -/
def stOkPartial : Nat := 0x01
/-- Performed, but delayed by a per-requester limit. -/
def stOkThrottled : Nat := 0x02
/-- OPCODE unlisted. -/
def stBadOpcode : Nat := 0x10
/-- A length, size or count outside its limit. -/
def stBadLength : Nat := 0x11
/-- Misaligned access. -/
def stBadAlign : Nat := 0x12
/-- Reserved field or encoding, or inconsistent fields. -/
def stBadField : Nat := 0x13
/-- An object in use, a resource exhausted, or a red command. -/
def stBusy : Nat := 0x14
/-- Key value or generation differs, or no region is registered. -/
def stKeyMismatch : Nat := 0x20
/-- Missing right. -/
def stNoRights : Nat := 0x21
/-- Segment not present. -/
def stSegmentFault : Nat := 0x22
/-- A signature or tag does not verify. -/
def stAuthFailed : Nat := 0x23
/-- The anchor record names another pool. -/
def stNotOwner : Nat := 0x30
/-- The anchor record names a dead pool after its lease. -/
def stOrphaned : Nat := 0x31
/-- A generation that is not current. -/
def stStale : Nat := 0x32
/-- A deadline passed. -/
def stTimeout : Nat := 0x40
/-- Cancelled before the commit point. -/
def stCancelled : Nat := 0x41
/-- Held by a suspended long operation. -/
def stSuspended : Nat := 0x42
/-- A poisoned line. -/
def stPoisoned : Nat := 0x50
/-- In flight at a takeover. -/
def stTakeover : Nat := 0x51
/-- Ended by a crew reset. -/
def stCrewReset : Nat := 0x52
/-- Ended by a device fault. -/
def stDeviceFault : Nat := 0x60

/-- Whether a status reports success (R226). -/
def stSuccess (st : Nat) : Bool := decide (st < 16)

/-- The last value written or counted at a register offset (R14). -/
def regRaw (d : Dev) (off : Nat) : Nat := match tGet? d.regs off with
  | some w => w.toNat
  | none => regReset off

/-- A register offset given a value. -/
def setReg (off v : Nat) (d : Dev) : Dev := { d with regs := tSet d.regs off (BitVec.ofNat 64 v) }

/-- One field of a register given a value. -/
def setField (off hi lo v : Nat) (d : Dev) : Dev := setReg off (putBits (regRaw d off) hi lo v) d

/-- A wrapping counter field raised by n. -/
def bumpReg (off hi lo n : Nat) (d : Dev) : Dev := setField off hi lo (bitsOf (regRaw d off) hi lo + n) d

/-- A saturating counter field raised by n. -/
def bumpSat (off hi lo n : Nat) (d : Dev) : Dev :=
  setField off hi lo (min (bitsOf (regRaw d off) hi lo + n) (2 ^ (hi + 1 - lo) - 1)) d

/-- The value in force of a register whose writes act in step 4 of the boundary (Table 2-2). -/
def regInForce (d : Dev) (off : Nat) : Nat := match tGet? d.inForce off with
  | some w => w.toNat
  | none => regReset off

/-- A field of a register in force. -/
def cfgField (d : Dev) (off hi lo : Nat) : Nat := bitsOf (regInForce d off) hi lo

/-- STK_TIMEOUT.REQUEST (R55). -/
def reqTimeout (d : Dev) : Nat := bitsOf (regRaw d 0x10028) 7 0
/-- STK_TIMEOUT.PARK (R55). -/
def parkTimeout (d : Dev) : Nat := bitsOf (regRaw d 0x10028) 31 16
/-- SCH_CTL.OVERHEAD in force (R66). -/
def overhead (d : Dev) : Nat := cfgField d 0x30000 15 0
/-- The period in force in cycles, never zero. -/
def periodNow (d : Dev) : Nat := max 1 d.stk.current
/-- Strokes in a span of microseconds at the present period, rounded up (R6). -/
def strokesOfUs (d : Dev) (us : Nat) : Nat := ceilDiv (us * 850) (periodNow d)

/-- One free number drawn: the count advances, so no two draws are the same argument (log entry 2). -/
def drawNat (d : Dev) : Nat × Dev := (Config.freeNat d.draws, { d with draws := d.draws + 1 })

/-- One free 64-bit word drawn. -/
def drawWord (d : Dev) : BitVec 64 × Dev := (Config.freeWord d.draws, { d with draws := d.draws + 1 })

/-- n free bytes drawn. -/
def drawBytes (n : Nat) (d : Dev) : List Byte × Dev :=
  ((List.range n).map fun i => Config.freeByte (d.draws + i), { d with draws := d.draws + n })

/-! ### Interrupt sources -/

/-- Whether a source is reserved (Tables 15-2 and 15-3). -/
def srcReserved (n : Nat) : Bool :=
  let t := n / 32
  let o := n % 32
  if n ≥ 832 then decide (n ≥ 873)
  else if t < 8 then !(decide (o ≤ 2) || (decide (8 ≤ o) && decide (o ≤ 18)))
  else if t < 10 then !(decide (o ≤ 2) || (decide (8 ≤ o) && decide (o ≤ 12)))
  else !(decide (o ≤ 1) || (decide (8 ≤ o) && decide (o ≤ 21)))

/-- Whether a source is a pulse source (Tables 15-2 and 15-3). -/
def srcPulse (n : Nat) : Bool :=
  let t := n / 32
  let o := n % 32
  if n ≥ 832 then n == 839 || decide (857 ≤ n)
  else if t < 8 then !(decide (16 ≤ o) && decide (o ≤ 18))
  else if t < 10 then true
  else o != 20

/-- The default SENSE (Tables 15-2 and 15-3): 0 level high, 2 rising, 3 falling. -/
def srcSense (n : Nat) : Nat :=
  if n = 832 ∨ n = 833 then 3 else if srcReserved n then 2 else if srcPulse n then 2 else 0

/-- A source after module reset (R432). The two pins idle high; the lock and link sources are high until their causes
end. -/
def srcReset (n : Nat) : Src :=
  { sense := srcSense n, target := if n ≥ 832 then 8 else n / 32,
    wire := n == 832 || n == 833 || n == 837 || n == 838 || (decide (840 ≤ n) && decide (n ≤ 856)) }

/-- The state of a source. -/
def srcOf (d : Dev) (n : Nat) : Src := (tGet? d.icu n).getD (srcReset n)

/-- The state of a source replaced. -/
def setSrc (n : Nat) (s : Src) (d : Dev) : Dev := { d with icu := tSet d.icu n s }

/-- Whether a source is pending (R422). -/
def Src.pending (s : Src) : Bool :=
  if s.sense = 0 then s.wire else if s.sense = 1 then !s.wire else s.latched

/-- Whether a source is claimable by a target (R423). -/
def claimable (d : Dev) (t n : Nat) : Bool :=
  let s := srcOf d n
  !srcReserved n && s.target == t && (s.en || s.once) && s.pending && !s.active

/-- The source that the controller selects for a target: highest PRIO, then lowest number (R423). -/
def selected (d : Dev) (t : Nat) : Option Nat :=
  leastBy (fun n => (7 - (srcOf d n).prio) * 1024 + n)
    ((((List.range 32).map (32 * t + ·)) ++ (List.range 192).map (832 + ·)).filter (claimable d t))

/-- The event code of a record (Table 15-4). -/
def Src.event (s : Src) (pulse : Bool) : Nat :=
  if s.sense < 2 then 1 else if s.sense = 2 then 2 else if s.sense = 3 then 3 else if pulse || s.wire then 2 else 3

/-- A source taken into service: it becomes active, and an edge source's latch is cleared (R424). -/
def takeSrc (n : Nat) (d : Dev) : Dev :=
  let s := srcOf d n
  setSrc n { s with active := true, latched := if s.sense < 2 then s.latched else false, once := false } d

/-- The per-target registers of the controller. -/
def tgtOf (d : Dev) (t : Nat) : Tgt := (tGet? d.tgts t).getD {}

/-- The per-target registers replaced. -/
def setTgt (t : Nat) (g : Tgt) (d : Dev) : Dev := { d with tgts := tSet d.tgts t g }

/-- The 16 bytes of an event record (Table 15-4). -/
def eventRecord (d : Dev) (n cycle index : Nat) : List Byte :=
  toLe 2 n ++ toLe 1 ((srcOf d n).event (srcPulse n)) ++ zeros 1 ++ toLe 4 d.stk.number ++ toLe 2 cycle ++ zeros 2
    ++ toLe 4 index

/-- Where a service target's area begins in the service memory (R418: 128 MiB for each service core). -/
def serviceBase (t : Nat) : Nat := (t - 8) * 2 ^ 27

/-- In ring mode, records written for the target's selected sources while its ring has room (R428). -/
def ringPump (t : Nat) : Nat → Dev → Dev
  | 0, d => d
  | fuel + 1, d =>
    let g := tgtOf d t
    if !g.ring ∨ (g.producer + 2 ^ 32 - g.consumer) % 2 ^ 32 ≥ 2 ^ g.size then d
    else match selected d t with
      | none => d
      | some n =>
        let (c, d) := drawNat d
        let a := serviceBase t + g.base * 4096 + g.producer % 2 ^ g.size * 16
        let d := { d with serviceMem := memWrite d.serviceMem a (eventRecord d n (c % periodNow d) g.producer) }
        ringPump t fuel (takeSrc n (setTgt t { g with producer := (g.producer + 1) % 2 ^ 32 } d))

/-- The ring of a source's target served. -/
def pumpFor (n : Nat) (d : Dev) : Dev := ringPump (srcOf d n).target 256 d

/-- One event on a pulse wire (R422, R425): any edge sense sets the latch. -/
def pulse (n : Nat) (d : Dev) : Dev :=
  if srcReserved n then d
  else
    let s := srcOf d n
    pumpFor n (setSrc n { s with latched := s.latched || decide (2 ≤ s.sense) } d)

/-- A level wire driven (R422): the named transition sets the latch. -/
def setWire (n : Nat) (lvl : Bool) (d : Dev) : Dev :=
  if srcReserved n then d
  else
    let s := srcOf d n
    let hit := s.wire != lvl && (s.sense == 4 || (s.sense == 2 && lvl) || (s.sense == 3 && !lvl))
    pumpFor n (setSrc n { s with wire := lvl, latched := s.latched || hit } d)

/-! ### Change log -/

/-- The number that a hash field of a record holds: the first 12 bytes of SHA-384 of the value's bytes (Table 12-9). -/
def hash12 (l : List Byte) : Nat := ((Config.sha384 l).toNat / 2 ^ 288) % 2 ^ 96

/-- One change-log record (R359), with the owner field as Table 12-9 lays it out. -/
def logChange (originKind origin owner objectKind object : Nat) (security : Bool) (old new : List Byte) (d : Dev) : Dev :=
  let l := d.log
  let r : LogRec := { stroke := d.stk.number, tod := d.stk.tod, seq := l.next, originKind, security, origin, owner,
                      objectKind, object, old := hash12 old, new := hash12 new }
  let cap := 2 ^ cfgField d 0x150000 4 0
  { d with log := { l with next := l.next + 1,
                           recs := (l.recs ++ [r]).drop (l.recs.length + 1 - cap),
                           secure := if security then (l.secure ++ [r]).drop (l.secure.length + 1 - 16384)
                                     else l.secure } }

/-- The origin fields of a change by a writer (Table 12-9): the device's own firmware is recorded as Trivet. -/
def writerOrigin : Writer → Nat × Nat
  | .session i => (1, i)
  | .fabric c _ => (2, c)
  | .service _ => (4, 0)
  | .firmware => (4, 0)

/-- The origin of a command's changes. -/
def routeOrigin (crew : Nat) : Route → Nat × Nat
  | .session i => (1, i)
  | .ring _ => (2, crew)

/-- The bytes over which a record hashes a number: eight, little-endian. -/
def val8 (v : Nat) : List Byte := toLe 8 v

/-- A change by a command to an object of a kind, logged where it is a change (R17). -/
def logCmd (q : QCmd) (owner kind object : Nat) (old new : Nat) (d : Dev) : Dev :=
  if old = new then d
  else
    let o := routeOrigin q.cmd.crew q.cmd.route
    logChange o.1 o.2 owner kind object (kind == 4 || decide (6 ≤ kind)) (val8 old) (val8 new) d

/-- A change by the device itself. -/
def logDev (owner kind object : Nat) (old new : Nat) (d : Dev) : Dev :=
  if old = new then d
  else logChange 4 0 owner kind object (kind == 4 || decide (6 ≤ kind)) (val8 old) (val8 new) d

end Sys2Proof.Machine
end

