-- ==== Sys2Proof/Machine/Num.lean ====
section
/-! DEFINITION. Machine/Num.lean: the number formats of Table 8-1 and the exact arithmetic behind R236 and R237. A finite
value is a sign and m × 2^e; every operation is exact and then rounded once to nearest even. -/

namespace Sys2Proof.Machine

/-- A floating-point value before it is put into a format. -/
inductive FVal where
  | nan
  | inf (neg : Bool)
  | fin (neg : Bool) (m : Nat) (e : Int)
  deriving DecidableEq, Repr, Inhabited

/-- The value +0. -/
def fZero : FVal := .fin false 0 0

/-- m divided by 2^k, rounded to nearest, ties to even. -/
def shiftRound (m k : Nat) : Nat :=
  let q := m / 2 ^ k
  let r := m % 2 ^ k
  if k = 0 then m else if 2 * r > 2 ^ k ∨ (2 * r = 2 ^ k ∧ q % 2 = 1) then q + 1 else q

/-- m × 2^e rounded to p significant bits, with no exponent below emin. -/
def roundTo (p : Nat) (emin : Int) (m : Nat) (e : Int) : Nat × Int :=
  let bits := if m = 0 then 0 else Nat.log2 m + 1
  let ovf : Int := bits - p
  let k := max ovf (emin - e)
  if k ≤ 0 then (m, e) else (shiftRound m k.toNat, e + k)

/-- A binary format: fraction bits, exponent bits, bias. Codes 0x00 to 0x03 and the elements of 0x05 to 0x07. -/
structure FFmt where
  frac : Nat
  expo : Nat
  bias : Int
  deriving DecidableEq, Repr

/-- IEEE binary32. -/
def fmtF32 : FFmt := ⟨23, 8, 127⟩
/-- BF16. -/
def fmtBf16 : FFmt := ⟨7, 8, 127⟩
/-- FP8 E4M3. -/
def fmtE4m3 : FFmt := ⟨3, 4, 7⟩
/-- FP8 E5M2. -/
def fmtE5m2 : FFmt := ⟨2, 5, 15⟩
/-- FP4 E2M1. -/
def fmtE2m1 : FFmt := ⟨1, 2, 1⟩

/-- The binary format of a code of Table 8-1; INT8 has none and reads as binary32. -/
def fmtOf (code : Nat) : FFmt :=
  if code = 1 then fmtBf16 else if code = 2 ∨ code = 5 then fmtE4m3 else if code = 3 ∨ code = 6 then fmtE5m2
  else if code = 7 then fmtE2m1 else fmtF32

/-- Whether a format has infinities: all but E4M3 and E2M1. -/
def FFmt.hasInf (f : FFmt) : Bool := f.frac ≠ 3 ∧ f.frac ≠ 1

/-- The value of a bit pattern. -/
def FFmt.decode (f : FFmt) (w : Nat) : FVal :=
  let neg := bitAt w (f.frac + f.expo)
  let x := w / 2 ^ f.frac % 2 ^ f.expo
  let m := w % 2 ^ f.frac
  let top := 2 ^ f.expo - 1
  if f.hasInf && x == top then (if m = 0 then .inf neg else .nan)
  else if f.frac = 3 ∧ x = top ∧ m = 7 then .nan
  else if x = 0 then .fin neg m (1 - f.bias - f.frac)
  else .fin neg (m + 2 ^ f.frac) (x - f.bias - f.frac)

/-- The pattern of the largest finite magnitude. -/
def FFmt.maxFin (f : FFmt) : Nat :=
  if f.hasInf then (2 ^ f.expo - 1) * 2 ^ f.frac - 1
  else if f.frac = 3 then 2 ^ (f.expo + f.frac) - 2 else 2 ^ (f.expo + f.frac) - 1

/-- The pattern of the format's NaN; E2M1 has none and its block takes the NaN scale (R237). -/
def FFmt.nanPat (f : FFmt) : Nat :=
  if f.frac = 3 then 0x7F else if f.frac = 1 then 0 else (2 ^ f.expo - 1) * 2 ^ f.frac + 2 ^ (f.frac - 1)

/-- A value rounded to nearest even into a format; sat saturates what overflows, otherwise it becomes infinite. -/
def FFmt.encode (f : FFmt) (sat : Bool) (v : FVal) : Nat :=
  let s (neg : Bool) : Nat := if neg then 2 ^ (f.frac + f.expo) else 0
  let infPat := (2 ^ f.expo - 1) * 2 ^ f.frac
  match v with
  | .nan => f.nanPat
  | .inf neg => s neg + if f.hasInf then infPat else f.maxFin
  | .fin neg m e =>
    let emin := 1 - f.bias - f.frac
    let (m, e) := roundTo (f.frac + 1) emin m e
    if m = 0 then s neg
    else
      let up := (f.frac : Int) - Nat.log2 m
      let sh := min up (e - emin)
      let m := if sh ≥ 0 then m * 2 ^ sh.toNat else m / 2 ^ (-sh).toNat
      let e := e - sh
      let pat : Int := if m < 2 ^ f.frac then (m : Int) else (e - emin + 1) * 2 ^ f.frac + (m - 2 ^ f.frac)
      if pat > (f.maxFin : Int) then s neg + (if sat || !f.hasInf then f.maxFin else infPat) else s neg + pat.toNat

/-- The sum of two finite values, exactly: a zero sum is +0 unless both are negative. -/
def addFin (n1 : Bool) (m1 : Nat) (e1 : Int) (n2 : Bool) (m2 : Nat) (e2 : Int) : FVal :=
  let e := min e1 e2
  let a : Int := (m1 * 2 ^ (e1 - e).toNat : Nat)
  let b : Int := (m2 * 2 ^ (e2 - e).toNat : Nat)
  let t := (if n1 then -a else a) + (if n2 then -b else b)
  if t = 0 then .fin (n1 && n2) 0 0 else .fin (decide (t < 0)) t.natAbs e

/-- The exact sum (IEEE rules for infinities and NaN). -/
def FVal.add : FVal → FVal → FVal
  | .nan, _ => .nan
  | _, .nan => .nan
  | .inf a, .inf b => if a = b then .inf a else .nan
  | .inf a, .fin _ _ _ => .inf a
  | .fin _ _ _, .inf b => .inf b
  | .fin n1 m1 e1, .fin n2 m2 e2 => addFin n1 m1 e1 n2 m2 e2

/-- The exact product. -/
def FVal.mul : FVal → FVal → FVal
  | .nan, _ => .nan
  | _, .nan => .nan
  | .inf a, .inf b => .inf (a != b)
  | .inf a, .fin n m _ => if m = 0 then .nan else .inf (a != n)
  | .fin n m _, .inf b => if m = 0 then .nan else .inf (n != b)
  | .fin n1 m1 e1, .fin n2 m2 e2 => .fin (n1 != n2) (m1 * m2) (e1 + e2)

/-- The value with its sign turned. -/
def FVal.neg : FVal → FVal
  | .nan => .nan
  | .inf a => .inf !a
  | .fin n m e => .fin (!n) m e

/-- The value times 2^k. -/
def FVal.scale (k : Int) : FVal → FVal
  | .fin n m e => .fin n m (e + k)
  | v => v

/-- Whether a is below b; false where either is NaN. -/
def FVal.lt : FVal → FVal → Bool
  | .nan, _ => false
  | _, .nan => false
  | .inf a, .inf b => a && !b
  | .inf a, .fin _ _ _ => a
  | .fin _ _ _, .inf b => !b
  | .fin n1 m1 e1, .fin n2 m2 e2 => match addFin n1 m1 e1 (!n2) m2 e2 with
    | .fin neg m _ => neg && m != 0
    | _ => false

/-- Whether a value is zero. -/
def FVal.isZero : FVal → Bool
  | .fin _ m _ => m == 0
  | _ => false

/-- A binary32 pattern's value. -/
def f32Val (w : BitVec 32) : FVal := fmtF32.decode w.toNat

/-- A value rounded to binary32. -/
def toF32 (v : FVal) : BitVec 32 := BitVec.ofNat 32 (fmtF32.encode false v)

/-- Binary32 addition, round to nearest even; a NaN result is 0x7FC0_0000 (Table 4-4). -/
def addF32 (a b : BitVec 32) : BitVec 32 := toF32 ((f32Val a).add (f32Val b))

/-- Binary32 subtraction. -/
def subF32 (a b : BitVec 32) : BitVec 32 := toF32 ((f32Val a).add (f32Val b).neg)

/-- Binary32 multiplication, round to nearest even. -/
def mulF32 (a b : BitVec 32) : BitVec 32 := toF32 ((f32Val a).mul (f32Val b))

/-- Whether a is below b in binary32. -/
def ltF32 (a b : BitVec 32) : Bool := (f32Val a).lt (f32Val b)

/-- The larger of two binary32 values. -/
def maxF32 (a b : BitVec 32) : BitVec 32 := if ltF32 a b then b else a

/-- Whether a binary32 pattern is a NaN. -/
def isNanF32 (a : BitVec 32) : Bool := f32Val a == .nan

/-- −∞ in binary32. -/
def negInfF32 : BitVec 32 := 0xFF800000#32

/-- The vector unit's exponential (R236): exp(−∞) is +0, elsewhere the device's own within 2 units in the last place. -/
def expF32 (a : BitVec 32) : BitVec 32 := if a = negInfF32 then 0 else Config.expF32 a

/-- A subnormal result flushed to zero with its sign (R236, matrix array). -/
def flushF32 (a : BitVec 32) : BitVec 32 :=
  if bitsOf a.toNat 30 23 = 0 then a &&& 0x80000000#32 else a

/-- The matrix array's addition: FP32, round to nearest even, subnormal results flushed (R236). -/
def accF32 (a : BitVec 32) (v : FVal) : BitVec 32 := flushF32 (toF32 ((f32Val a).add v))

/-- Terms in the device's own order (R236, R238): the order is a free permutation, drawn as number n. -/
def ownOrder {α : Type} (n : Nat) (l : List α) : List α :=
  (sortBy (fun p : Nat × α => Config.orderKey n p.1) ((List.range l.length).zip l)).map (·.2)

/-- The matrix array's sum of exactly formed products (R236). -/
def matrixSum (n : Nat) (products : List FVal) : BitVec 32 := (ownOrder n products).foldl accF32 0

/-- The vector unit's sum of binary32 values. -/
def vectorSum (n : Nat) (l : List (BitVec 32)) : BitVec 32 := (ownOrder n l).foldl addF32 0

/-- A sum of INT8 products in saturating 32-bit integers (R236). -/
def intSum (n : Nat) (l : List Int) : Int :=
  (ownOrder n l).foldl (fun a x => max (-(2 ^ 31)) (min (2 ^ 31 - 1) (a + x))) 0

/-- An integer as a value. -/
def intVal (i : Int) : FVal := .fin (decide (i < 0)) i.natAbs 0

/-- Bits of one element of a format (Table 8-1). -/
def elemBits (code : Nat) : Nat := if code = 0 then 32 else if code = 1 then 16 else if code = 7 then 4 else 8

/-- Whether a format is an MX format. -/
def isMx (code : Nat) : Bool := decide (5 ≤ code) && decide (code ≤ 7)

/-- Bytes of n elements without their scales. -/
def elemBytes (code n : Nat) : Nat := ceilDiv (n * elemBits code) 8

/-- Bytes of the scales of n elements: one for each block of 32 and for a last, shorter block (R234). -/
def scaleBytes (code n : Nat) : Nat := if isMx code then ceilDiv n 32 else 0

/-- Bytes of an array of n elements with its scales (Table 8-5). -/
def arrayBytes (code n : Nat) : Nat := elemBytes code n + scaleBytes code n

/-- The value of a signed byte. -/
def int8Val (b : Byte) : Int := b.toInt

/-- The pattern of element i in packed elements; four-bit elements are packed low half first. -/
def elemPat (code : Nat) (l : List Byte) (i : Nat) : Nat :=
  if code = 7 then (l.getD (i / 2) 0).toNat / 16 ^ (i % 2) % 16
  else fieldLe l (i * (elemBits code / 8)) (elemBits code / 8)

/-- The value of an element without its scale. -/
def elemVal (code pat : Nat) : FVal :=
  if code = 4 then intVal (int8Val (BitVec.ofNat 8 pat)) else (fmtOf code).decode pat

/-- An element under an E8M0 scale byte: 2^(s − 127), 0xFF a NaN. -/
def scaled (s : Nat) (v : FVal) : FVal := if s = 255 then .nan else v.scale ((s : Int) - 127)

/-- The values of an array of n elements: elements first, then the scale bytes (Table 8-5). -/
def decodeArray (code n : Nat) (l : List Byte) : List FVal :=
  (List.range n).map fun i =>
    let v := elemVal code (elemPat code l i)
    if isMx code then scaled ((l.getD (elemBytes code n + i / 32) 0).toNat) v else v

/-- floor(log2) of a finite nonzero magnitude. -/
def floorLog (m : Nat) (e : Int) : Int := e + Nat.log2 m

/-- The scale byte of an MX block (R237). -/
def mxScale (code : Nat) (block : List FVal) : Nat :=
  let emax : Int := if code = 5 then 8 else if code = 6 then 15 else 2
  let tops := block.filterMap fun v => match v with
    | .fin _ m e => if m = 0 then none else some (floorLog m e)
    | _ => none
  if code = 7 ∧ block.any (· == .nan) then 255
  else match tops with
    | [] => 0
    | t :: ts => ((ts.foldl max t - emax + 127).toNat) ⊓ 254

/-- One value as an element (R237): FP8 E4M3, INT8 and MX elements saturate, BF16, FP32 and FP8 E5M2 overflow to infinity. -/
def encodeElem (code : Nat) (v : FVal) : Nat :=
  if code = 4 then match v with
    | .nan => 0
    | .inf n => if n then 0x81 else 0x7F
    | .fin n m e =>
      let r : Int := if e ≥ 0 then (m * 2 ^ e.toNat : Nat) else (shiftRound m (-e).toNat : Nat)
      satSigned 8 (max (-127) (if n then -r else r))
  else (fmtOf code).encode (decide (5 ≤ code) || code == 2) v

/-- Packed elements. -/
def packElems (code : Nat) (pats : List Nat) : List Byte :=
  if code = 7 then (List.range (ceilDiv pats.length 2)).map fun i =>
    BitVec.ofNat 8 (pats.getD (2 * i) 0 + 16 * pats.getD (2 * i + 1) 0)
  else pats.flatMap fun p => toLe (elemBits code / 8) p

/-- An array in a format: elements first, then scale bytes (Table 8-5, R237). -/
def encodeArray (code : Nat) (vals : List FVal) : List Byte :=
  if isMx code then
    let nb := ceilDiv vals.length 32
    let scales := (List.range nb).map fun b => mxScale code ((vals.drop (32 * b)).take 32)
    let pats := (List.range vals.length).map fun i =>
      let s := scales.getD (i / 32) 0
      let v := vals.getD i fZero
      if s = 255 then 0 else encodeElem code (v.scale (127 - (s : Int)))
    packElems code pats ++ scales.map (BitVec.ofNat 8 ·)
  else packElems code (vals.map (encodeElem code))

end Sys2Proof.Machine
end

