-- ==== Sys2Proof/Machine/Home.lean ====
section
/-! DEFINITION. Machine/Home.lean: the home of a line: addresses and regions (R81, R95), the directory and its snoops
(R113 to R124), poison (R126), access counters (R143), the tier cache (R138, R139), mirroring of paired lines (R390, R391),
and what one line part does at its home (R106, R119, R120). -/

namespace Sys2Proof.Machine

/-- MODULE of a hall address (Table 3-1). -/
def addrModule (a : Nat) : Nat := bitsOf a 63 52
/-- SPACE of a hall address (Table 3-2). -/
def addrSpace (a : Nat) : Nat := bitsOf a 51 50
/-- OFFSET of a hall address. -/
def addrOff (a : Nat) : Nat := a % 2 ^ 50
/-- The hall address of an offset in a space of a module. -/
def hallAddr (m sp off : Nat) : Nat := m * 2 ^ 52 + sp * 2 ^ 50 + off
/-- The number of the 2 MiB region that holds an address, module and space included. -/
def regionNo (a : Nat) : Nat := a / 2 ^ 21
/-- The number of the 64 KiB page that holds an address. -/
def pageNo (a : Nat) : Nat := a / 65536
/-- The region-table entry at an address (R95). -/
def regionAt (d : Dev) (a : Nat) : Option Region := tGet? d.regions (regionNo a)
/-- This module's number. -/
def ownModule (d : Dev) : Nat := d.cfg.module
/-- The partner's module number (PAR_PARTNER.MODULE). -/
def partnerModule (d : Dev) : Nat := bitsOf (regRaw d 0x110008) 11 0
/-- Fabric identifier of unit u of module m (Table 6-5). -/
def unitId (m u : Nat) : Nat := 0xFF0000 + 16 * m + u
/-- A crew's record. -/
def crewOf (d : Dev) (n : Nat) : Crew := (tGet? d.crews n).getD {}
/-- Whether a crew exists (CRW_STATE.STATE is not absent). -/
def crewLives (d : Dev) (n : Nat) : Bool := (crewOf d n).state != 0
/-- A crew's record changed. -/
def modCrew (n : Nat) (f : Crew → Crew) (d : Dev) : Dev := { d with crews := tMod d.crews n f }
/-- Whether a crew is a sealed crew. -/
def crewSealed (d : Dev) (n : Nat) : Bool := (crewOf d n).sealedCrew && crewLives d n
/-- The stacks of a stack set. -/
def maskBits (n mask : Nat) : List Nat := (List.range n).filter (bitAt mask)
/-- The stack that holds the 4 KiB piece of an address: any s consecutive pieces of a region lie on s distinct stacks (R98). -/
def stackOf (d : Dev) (a : Nat) : Nat :=
  let owner := match regionAt d a with
    | some r => (crewOf d r.crew).stackMask
    | none => 0xFFFF
  let order := sortBy (Config.stackKey (regionNo a)) (maskBits 16 owner)
  order.getD (a / 4096 % max 1 order.length) 0
/-- The die on which an address is homed (R19). -/
def dieOf (d : Dev) (a : Nat) : Nat := stackOf d a / 8

/-- The 64-bit word whose two halves count for D1 (high) and D0 (low), raised for a die. -/
def bumpDie (off die : Nat) (d : Dev) : Dev := if die = 1 then bumpReg off 63 32 1 d else bumpReg off 31 0 1 d

/-- A new identifier for a job, item or command. -/
def freshId (d : Dev) : Nat × Dev := (d.nextId, { d with nextId := d.nextId + 1 })

/-- A packet sent on the fabric. In the fatal state nothing but link-layer idle flits leaves the module, and CTL packets
are the only ones that R380 does not stop. -/
def sendPkt (p : OutPkt) (d : Dev) : Dev :=
  if d.flt.fatal ∧ p.kind < 0x81 then d else { d with fabTx := d.fabTx ++ [p] }

/-- A request body (Table 6-7). -/
def reqBody (addr key op size grantGen regGen entry poison : Nat) : List Byte :=
  toLe 8 addr ++ toLe 5 key ++ toLe 1 op ++ toLe 2 size ++ toLe 2 grantGen ++ toLe 2 regGen ++ toLe 2 entry ++ toLe 2 poison

/-- A response body (Table 6-8). -/
def rspBody (status load credit stroke grantGen regGen : Nat) : List Byte :=
  toLe 1 status ++ toLe 1 load ++ toLe 2 credit ++ toLe 4 stroke ++ toLe 2 grantGen ++ toLe 2 regGen ++ zeros 4

/-! ### Limits and load feedback -/

/-- The byte limit of a requester: the first enabled limit class that matches it (R184). -/
def limitOf (d : Dev) (requester : Nat) : Option Nat :=
  ((List.range 64).find? fun c =>
    let m := regInForce d (0x82000 + 16 * c)
    bitAt m 63 && requester &&& bitsOf m 47 24 == bitsOf m 23 0 &&& bitsOf m 47 24).map
    fun c => cfgField d (0x82000 + 16 * c + 8) 19 0 * 64

/-- A request packet's cost: its LENGTH, plus SIZE for RD, RD_S and RD_X (R184). -/
def reqCost (p : Req) (kind : Nat) : Nat := p.length + if kind = 1 ∨ kind = 4 ∨ kind = 5 then p.size else 0

/-- The TYPE of a cacheless request with an act. -/
def Act.kind : Act → Nat
  | .read => 1
  | .write => 2
  | .atomic _ _ _ _ => 3

/-- The cost of a requester's requests that a byte limit delays. -/
def delayedCost (d : Dev) (requester : Nat) : Nat :=
  d.jobs.foldl (fun a j => if j.2.requester = requester ∧ j.2.throttled ∧ j.2.parts.any (fun p => match p.state with
      | .waiting (.budget _) => true
      | _ => false) then
    a + (match j.2.owner with
      | .fabric p => reqCost p ((j.2.parts.head?.map fun x => x.act.kind).getD 2)
      | _ => 0) else a)
    (d.pendingBuf.foldl (fun a w => if w.delayed ∧ w.req.source = requester then a + reqCost w.req w.kind else a) 0)

/-- CREDIT of a response: what remains for the next stroke in 64-byte units (R185). -/
def fabCredit (d : Dev) (requester : Nat) : Nat := match limitOf d requester with
  | none => 4095
  | some l => min 4095 ((l - delayedCost d requester) / 64)

/-- LOAD of a response (R183): the larger of the pending buffer's fill and the stack's committed share, which is free. -/
def fabLoad (d : Dev) : Nat × Dev :=
  let (f, d) := drawNat d
  (min 15 (max (d.pendingBuf.length * 16 / 16384) (f % 16)), d)

/-- A response packet to a requester. -/
def sendRsp (kind dest tag tagGen status grantGen regGen : Nat) (data : List Byte) (d : Dev) : Dev :=
  let (l, d) := fabLoad d
  sendPkt { kind, dest, source := unitId (ownModule d) 0, tag, tagGen,
            body := rspBody status l (fabCredit d dest) d.stk.number grantGen regGen ++ data } d

/-! ### Lines, poison and counters -/

/-- The home value of a line: 128 bytes. -/
def lineData (d : Dev) (line : Nat) : List Byte := memRead d.mem (line * 128) 128
/-- The home value of a line replaced. -/
def setLine (line : Nat) (l : List Byte) (d : Dev) : Dev := { d with mem := memWrite d.mem (line * 128) (slice l 0 128) }
/-- Whether a line is poisoned (R126). -/
def isPoisoned (d : Dev) (line : Nat) : Bool := d.poison.contains line
/-- A line marked poisoned. -/
def poisonLine (line : Nat) (d : Dev) : Dev := { d with poison := addTo d.poison line }
/-- A line's mark cleared. -/
def unpoison (line : Nat) (d : Dev) : Dev := { d with poison := d.poison.filter (· != line) }
/-- One access counted on its page (R143), for a registered home-DRAM region or a cached sealed-tier page. -/
def countAccess (a : Nat) (d : Dev) : Dev :=
  if !bitAt (regInForce d 0x70000) 0 then d
  else if addrSpace a = 1 ∧ (tGet? d.pages (pageNo a)).isNone then d
  else { d with counters := tSet d.counters (pageNo a) (min 65535 (tGet d.counters (pageNo a) + 1)) }

/-- A signed reading of an n-byte value. -/
def signedOf (n v : Nat) : Int := if v ≥ 2 ^ (8 * n - 1) then (v : Int) - 2 ^ (8 * n) else v

/-- The new value of an atomic's location (Table 4-4); adds for ADD_F32. -/
def atomicResult (op size old operand compare : Nat) : Nat :=
  let m := 2 ^ (8 * size)
  let lt := decide (signedOf size old ≤ signedOf size operand)
  match op with
  | 0 => (old + operand) % m
  | 1 => old &&& operand
  | 2 => old ||| operand
  | 3 => old ^^^ operand
  | 4 => if lt then old else operand
  | 5 => if lt then operand else old
  | 6 => min old operand
  | 7 => max old operand
  | 8 => operand
  | 9 => if old = compare then operand else old
  | 10 => (addF32 (BitVec.ofNat 32 old) (BitVec.ofNat 32 operand)).toNat
  | _ => old

/-! ### Directory -/

/-- The directory entry of a line; a line with no entry is in state I. -/
def dirOf (d : Dev) (line : Nat) : DirEntry := (tGet? d.dir line).getD {}
/-- The directory entry of a line replaced. -/
def setDir (line : Nat) (e : DirEntry) (d : Dev) : Dev := { d with dir := tSet d.dir line e }
/-- Whether a directory state is transient (Table 4-1). -/
def transient (st : Nat) : Bool := decide (8 ≤ st)
/-- The agents in a die's agent table (R113). -/
def agentsOn (d : Dev) (die : Nat) : List Nat := (d.agents.filter fun a => bitAt a.2.dies die).map (·.1)
/-- The agents that an entry names, the coarse vector's included (R114). The owner of a line in X is known exactly. -/
def holdersOf (d : Dev) (line : Nat) : List Nat :=
  let e := dirOf d line
  match e.coarse with
  | none => e.holders
  | some v => if !e.holders.isEmpty then e.holders else (agentsOn d (dieOf d (line * 128))).filter fun a => bitAt v (a / 2 ^ 18) && ((tGet? d.agents a).getD {}).registered
/-- The coarse vector with the bit of an agent's group (R114). -/
def groupBit (v x : Nat) : Nat := if bitAt v (x / 2 ^ 18) then v else v + 2 ^ (x / 2 ^ 18)

/-- An entry that was coarse and has not been in I since stays so (R114): its holders stand in the vector. -/
def stayCoarse (line : Nat) (d : Dev) : Dev :=
  let e := dirOf d line
  if e.state = 0 ∨ e.coarse.isSome then d
  else setDir line { e with coarse := some ((e.holders ++ e.unanswered).foldl groupBit 0),
                            holders := if e.state = 1 then [] else e.holders } d

/-- A holder added to an entry: the fourth switches it to the coarse vector (R114). -/
def addHolder (a : Nat) (e : DirEntry) : DirEntry :=
  match e.coarse with
  | some v => { e with coarse := some (groupBit v a) }
  | none =>
    if a ∈ e.holders then e
    else if e.holders.length < 3 then { e with holders := e.holders ++ [a] }
    else { e with holders := [], coarse := some ((e.holders ++ [a]).foldl groupBit 0) }
/-- A snoop sent to an agent: INV, or DOWN (R116). -/
def sendSnoop (line gen : Nat) (down : Bool) (d : Dev) (agent : Nat) : Dev :=
  let t := d.nextTag % 65536
  let s : Snoop := { line, agent, tag := t, tagGen := d.nextTag / 65536 % 255 + 1, sent := d.stk.number,
                     regGen := (tGet? d.agents agent |>.getD {}).regGen }
  sendPkt { kind := if down then 0x42 else 0x41, dest := agent, source := unitId (ownModule d) 0, tag := s.tag,
            tagGen := s.tagGen, body := reqBody (line * 128) 0 0 0 gen 0 0 0 }
    { d with nextTag := d.nextTag + 1, snoops := d.snoops ++ [s] }
/-- A line that a crashed agent held, handled by the sweep or at its first access (R125): a shared copy is dropped; a line held in X
keeps its home value, and is poisoned unless its region is under REVERT. -/
def sweepLine (line : Nat) (d : Dev) : Dev :=
  match d.agents.find? fun a => a.2.sweep.contains line with
  | none => d
  | some (a, _) =>
    let d := { d with agents := tMod d.agents a fun x => { x with sweep := x.sweep.filter (· != line) } }
    let e := dirOf d line
    let hs := e.holders.filter (· != a)
    if transient e.state then setDir line { e with holders := hs } d
    else if e.state = 2 then
      let d := setDir line { e with state := 0, holders := [], coarse := none } d
      if ((regionAt d (line * 128)).getD {}).revert then bumpReg 0x60048 63 32 1 d else bumpReg 0x60048 31 0 1 (poisonLine line d)
    else setDir line { e with holders := hs, state := if e.coarse.isNone && hs.isEmpty then 0 else e.state } d

/-- A line put in a transient state, with snoops to the agents given (Table 4-1): keep are the holders that stay when the last answer is
in. A crashed holder's line is handled first (R125), and where nobody is left to ask the line is stable at once. -/
def startSnoops (line state : Nat) (down : Bool) (targets : List Nat) (d : Dev) (keep : List Nat := if down then targets else []) : Dev :=
  let old := dirOf d line
  let d := sweepLine line d
  let e := dirOf d line
  let vague := old.coarse.isSome && old.holders.isEmpty
  let targets := targets.filter fun a => vague || !old.holders.contains a || e.holders.contains a
  let keep := keep.filter fun a => vague || e.holders.contains a
  if targets.isEmpty then
    let d := setDir line { e with state := if keep.isEmpty then 0 else 1, holders := keep, coarse := none, evicting := false } d
    if old.coarse.isSome then stayCoarse line d else d
  else
    targets.foldl (sendSnoop line e.gen down)
      (setDir line { e with state, unanswered := targets, holders := keep } d)

/-! ### The tier cache -/

/-- Pages of a crew's tier-cache share: 32 for each region (R137). -/
def sharePages (d : Dev) (crew : Nat) : Nat := cfgField d (0x71000 + 0x20 * crew) 31 0 * 32
/-- Pages of the share that are resident. -/
def residentPages (d : Dev) (crew : Nat) : List (Nat × Page) := d.pages.filter fun p => p.2.crew = crew
/-- Fills into the share in progress. -/
def fillsOf (d : Dev) (crew : Nat) : Nat := (d.fills.filter fun f => f.2.crew = crew ∧ f.2.keep).length
/-- A page dropped with its counter (R143). -/
def dropPage (page : Nat) (d : Dev) : Dev := { d with pages := tDel d.pages page, counters := tDel d.counters page }
/-- An NVMe command issued to the link of a namespace (R166). -/
def issueNvme (ns : Nat) (w : NvmeWork) (d : Dev) : Dev :=
  let (i, d) := freshId d
  { d with nvme := d.nvme ++ [{ link := (tGet d.namespaces ns : Ns).link, command := i, ns, work := w }] }
/-- A fill of a page begun (R138, R139): where the share is full, its least recently used page makes room; where every
page is itself being filled the fill waits. A crew without a share gets its page uninstalled. -/
def startFill (page : Nat) (keep : Bool) (d : Dev) : Dev :=
  if (tGet? d.fills page).isSome then d
  else
    let r := (tGet? d.regions (page / 32)).getD {}
    let cap := sharePages d r.crew
    let res := residentPages d r.crew
    let keep := keep && decide (0 < cap)
    if keep && decide (cap ≤ fillsOf d r.crew) then d
    else
      let d := if keep && decide (cap ≤ res.length + fillsOf d r.crew) then
          match leastBy (fun p : Nat × Page => p.2.used) res with
          | some p => dropPage p.1 d
          | none => d
        else d
      issueNvme r.ns (.pageFill page) { d with fills := tSet d.fills page { crew := r.crew, keep } }
/-- A hit on a resident page: it becomes the most recently used. -/
def touchPage (page : Nat) (d : Dev) : Dev :=
  let (i, d) := freshId d
  { d with pages := tMod d.pages page fun p => { p with used := i } }

/-! ### Mirroring -/

/-- Whether this member serves paired regions (Table 14-2). -/
def pairServes (d : Dev) : Bool := d.pair.state = 2 ∨ d.pair.state = 4 ∨ d.pair.state = 6
/-- The newest change of a line that the mirror has not acknowledged (R391). -/
def mirrorOf (d : Dev) (line : Nat) : Option MirrorWait := d.pair.waits.reverse.find? fun w => w.addr = line * 128
/-- Who a mirrored change answers (Table 14-1): zero for copies and the device's own writes. -/
def mirrorWho : Owner → Nat × Nat × Nat
  | .fabric p => if p.vc = 4 then (0, 0, 0) else (p.source, p.tag, p.tagGen)
  | _ => (0, 0, 0)
/-- A MIRROR packet (Table 14-1). A line of a protected region goes as its ciphertext, with CIPHER set (R393). -/
def sendMirror (addr kind : Nat) (who : Nat × Nat × Nat) (last : Bool) (line old : List Byte) (d : Dev) : Dev :=
  let m := d.pair.mseq + 1
  let r := (regionAt d addr).getD {}
  let img := if r.prot then toLe 128 (Config.xtsEncrypt (tGet d.pair.keys r.crew) addr r.dgen line).toNat else line
  let k := kind + (if r.prot then 64 else 0) + (if last then 128 else 0)
  sendPkt { kind := 0x70, dest := unitId (partnerModule d) 0, source := unitId (ownModule d) 0,
            body := toLe 8 m ++ toLe 8 addr ++ toLe 3 who.1 ++ toLe 2 who.2.1 ++ toLe 1 who.2.2 ++ toLe 1 k ++ zeros 1
              ++ img ++ (if kind = 2 then slice old 0 16 else []) }
    { d with pair := { d.pair with mseq := m } }
/-- A REGION packet (Table 14-1): op 1 register, 2 key bump, 3 release, 4 mark. -/
def sendRegion (first count op : Nat) (r : Region) (d : Dev) : Dev :=
  if d.pair.state = 2 ∨ d.pair.state = 4 then
    let m := d.pair.mseq + 1
    let flags := b2n r.paired + 2 * b2n r.prot + 4 * b2n r.revert
    sendPkt { kind := 0x71, dest := unitId (partnerModule d) 0, source := unitId (ownModule d) 0,
              body := toLe 8 m ++ toLe 8 (first * 2 ^ 21) ++ toLe 4 count ++ toLe 5 r.key ++ toLe 1 r.crew ++ toLe 1 flags
                ++ toLe 1 op ++ toLe 4 r.dgen }
      { d with pair := { d.pair with mseq := m } }
  else d

/-! ### One line part at its home -/

/-- Every byte of a full line. -/
def Part.whole (p : Part) : Bool := p.len = 128

/-- The line after a part acts on it, and the old value of an atomic. -/
def Part.apply (p : Part) (old : List Byte) : List Byte × List Byte :=
  let o := p.addr % 128
  match p.act with
  | .read => (old, [])
  | .write => (overlay old o p.data, [])
  | .atomic op size operand compare =>
    let v := fieldLe old o size
    (overlay old o (toLe size (atomicResult op size v operand compare)), toLe 16 v)

/-- A part ended with a status. -/
def Part.fin (st : Nat) (p : Part) : Part := { p with state := .ended st }
/-- A part made to wait. -/
def Part.wait (w : Wait) (p : Part) : Part := { p with state := .waiting w }

/-- Whether the partner has been asked for its copy of an uncorrectable line (R367). -/
def repairing (d : Dev) (line : Nat) : Bool :=
  d.jobs.any fun j => j.2.owner == .device && j.2.parts.any fun p => p.state == .waiting (.repair line)

/-- A part performed on a line that the home holds: poison first (R126), then the read, write or atomic; a change of a
paired line is mirrored, and in SERVE it becomes the home value only with the mirror's acknowledgement (R391). -/
def performPart (jid : Nat) (owner : Owner) (last : Bool) (p : Part) (d : Dev) : Part × Dev :=
  let line := lineOf p.addr
  let d := match owner with
    | .device => d
    | _ => countAccess p.addr d
  let bad := isPoisoned d line
  if bad ∧ repairing d line ∧ ¬(p.act == .write ∧ p.whole) then (p.wait (.repair line), d)
  else match p.act with
  | .read =>
    if bad then (p.fin stPoisoned, d)
    else match mirrorOf d line with
      | some w => (p.wait (.mirrored w.mseq), d)
      | none => ({ p.fin stOk with data := memRead d.mem p.addr p.len }, d)
  | act =>
    if bad ∧ ¬(act == .write ∧ p.whole) then (p.fin stPoisoned, d)
    else
      let base := match mirrorOf d line with
        | some w => w.line
        | none => lineData d line
      let (new, old) := p.apply base
      let p := { p with data := match act with
        | .write => p.data
        | _ => old }
      let paired := ((regionAt d p.addr).getD {}).paired
      let mark (d : Dev) : Dev := if p.poisoned then poisonLine line d else if p.whole then unpoison line d else d
      let kind := match act with
        | .write => if p.poisoned then 3 else 1
        | _ => 2
      if paired ∧ d.pair.state = 4 then
        if d.pair.waits.length ≥ 65536 then (p.wait .pair, d)
        else
          let d := sendMirror (line * 128) kind (mirrorWho owner) last new old d
          (p.wait (.mirrored d.pair.mseq),
            mark { d with pair := { d.pair with waits := d.pair.waits ++
              [{ mseq := d.pair.mseq, addr := line * 128, line := new, job := jid }] } })
      else
        let d := if paired ∧ d.pair.state = 2 then sendMirror (line * 128) kind (mirrorWho owner) last new old d else d
        (p.fin (if p.poisoned then stPoisoned else stOk), mark (setLine line new d))

/-- Whether a request must let an earlier promoted one go first (R123); me is the place of the request's own promotion. -/
def yields (d : Dev) (line : Nat) (me : Option Nat) : Bool :=
  d.pendingBuf.any fun w => w.line == line && (match w.promoted, me with
    | some p, some m => decide (p < m)
    | some _, none => true
    | none, _ => false)

/-- The record of a job in the pending buffer for a line. -/
def Pending.isJob (w : Pending) (jid line : Nat) : Bool := w.job == some jid && w.line == line

/-- A job waits for a line (R116): it enters the pending buffer, or, where it was taken from there in vain, one retry is counted
(R123). -/
def waitLine (jid line : Nat) (d : Dev) : Dev :=
  if jid = 0 then d
  else if d.pendingBuf.any (·.isJob jid line) then
    { d with pendingBuf := d.pendingBuf.map fun w => if w.isJob jid line then { w with retries := w.retries + 1 } else w }
  else { d with pendingBuf := d.pendingBuf ++ [{ line, job := some jid, stamp := d.stk.number }] }

/-- A job's record for a line taken from the pending buffer. -/
def leaveLine (jid line : Nat) (d : Dev) : Dev := { d with pendingBuf := d.pendingBuf.filter fun w => !w.isJob jid line }

/-- What a part of a job finds at the directory (Table 4-3): it may act, or it waits for agents, or for a promoted request (R123).
Lines of a sealed crew's regions are never held by agents (R112). -/
def dirCheck (jid : Nat) (p : Part) (d : Dev) : Option Wait × Dev :=
  let line := lineOf p.addr
  let d := sweepLine line d
  let e := dirOf d line
  let me := (d.pendingBuf.find? (·.isJob jid line)).bind (·.promoted)
  let w := some (Wait.snoop line)
  if transient e.state ∨ yields d line me then (w, d)
  else if e.state = 0 then (none, d)
  else if p.act = .read then
    if e.state = 1 then (none, d) else (w, startSnoops line 0xA true e.holders d)
  else if e.state = 1 then
    let hs := holdersOf d line
    if hs.isEmpty then (none, setDir line { e with state := 0, holders := [], coarse := none } d)
    else (w, startSnoops line 8 false hs d)
  else (w, startSnoops line 9 false e.holders d)

/-- Whether a write or atomic finds its line fenced: an old row body after its swap (R304), or one under CONVERT (R303). -/
def rowFenced (d : Dev) (a : Nat) : Bool :=
  d.moves.any fun m => (m.2.swapped.isSome || m.2.op == 2) && decide (0 < m.2.oldBytes)
    && decide (lineOf m.2.oldBody ≤ lineOf a) && decide (lineOf a ≤ lineOf (m.2.oldBody + m.2.oldBytes - 1))

/-- Whether a part's act is an atomic. -/
def Act.isAtomic : Act → Bool
  | .atomic _ _ _ _ => true
  | _ => false

/-- The key check of the home (R95), and for control space the alignment and the control key word (R12, R101): the status of a refusal. Counted in XLT_KEY_MISMATCH. -/
def keyCheck (p : Part) (d : Dev) : Option Nat × Dev :=
  let sp := addrSpace p.addr
  if sp = 3 then (some stNoRights, d)
  else if sp = 2 then
    if p.act.isAtomic then (some stNoRights, d)
    else if p.len ≠ 8 ∨ p.addr % 8 ≠ 0 then (some stBadAlign, d)
    else if d.crews.any fun c => c.2.state != 0 && c.2.ctlKey == p.key then (none, d)
    else (some stKeyMismatch, bumpReg 0x50058 63 0 1 d)
  else if sp = 1 ∧ p.act ≠ .read then (some stNoRights, d)
  else match regionAt d p.addr with
    | none => (some stKeyMismatch, bumpReg 0x50058 63 0 1 d)
    | some r =>
      if r.key ≠ p.key ∨ r.state = .reserved ∨ r.state = .revoking then (some stKeyMismatch, bumpReg 0x50058 63 0 1 d)
      else if r.lost then (some stPoisoned, d) else (none, d)

/-- One line part tried at its home: key check once (R97), the pair's state, then the tier cache or the directory, then the
act. -/
def homeTry (jid : Nat) (owner : Owner) (last : Bool) (p : Part) (d : Dev) : Part × Dev :=
  let (refusal, d) := if p.admitted then (none, d) else keyCheck p d
  match refusal with
  | some st => (p.fin st, d)
  | none =>
    let p := { p with admitted := true }
    let r := (regionAt d p.addr).getD {}
    if addrSpace p.addr = 2 then (p.wait .control, d)
    else if p.clear ∧ r.prot then (p.fin stNoRights, d)
    else if p.act ≠ .read ∧ rowFenced d p.addr then (p.fin stStale, bumpReg 0xD0010 63 32 1 d)
    else if r.paired ∧ (d.pair.state = 7 ∨ d.pair.switching) then (p.wait .pair, d)
    else if r.paired ∧ (d.pair.state = 5 ∨ d.pair.state = 9) then (p.fin stTakeover, d)
    else if r.paired ∧ d.cfg.role ≠ 0 ∧ d.pair.state ≠ 0 ∧ !pairServes d then (p.wait .pair, d)
    else if addrSpace p.addr = 1 then
      if (tGet? d.pages (pageNo p.addr)).isSome then performPart jid owner last p (touchPage (pageNo p.addr) d)
      else (p.wait (.fill (pageNo p.addr)), startFill (pageNo p.addr) true d)
    else if crewSealed d r.crew then performPart jid owner last p d
    else match dirCheck jid p d with
      | (some w, d) => (p.wait w, waitLine jid (lineOf p.addr) d)
      | (none, d) => performPart jid owner last p (leaveLine jid (lineOf p.addr) d)

/-- The line parts of an access of n bytes at an address (R107). -/
def splitParts (a n key : Nat) (act : Act) (data : List Byte) : List Part :=
  (List.range (if n = 0 then 0 else lineOf (a + n - 1) - lineOf a + 1)).map fun i =>
    let lo := max a ((lineOf a + i) * 128)
    let hi := min (a + n) ((lineOf a + i + 1) * 128)
    { addr := lo, len := hi - lo, off := lo - a, key, act, data := (data.drop (lo - a)).take (hi - lo) }

/-- The key word of the region that holds an address, as the device itself knows it. -/
def devKey (d : Dev) (a : Nat) : Nat := ((regionAt d a).getD {}).key

/-- The memory with n bytes copied from one address to another. -/
def memCopy (m : List Host.Cell) (src dst n : Nat) : List Host.Cell :=
  (m.filter fun c => decide (src ≤ c.1) && decide (c.1 < src + n)).foldl (fun m c => memPut m (dst + (c.1 - src)) c.2)
    (memClear m dst n)

end Sys2Proof.Machine
end

