-- ==== Sys2Proof/Machine/Ops.lean ====
section
/-! DEFINITION. Machine/Ops.lean: the shared operations of the block: sending to sessions (R205 to R210), completions
(R212, R214, R217), fault records and the fatal state (R376 to R381), translation (R86 to R90) with its fault slots (R93),
and accesses as jobs of line parts (R54, R107, R468). -/

namespace Sys2Proof.Machine

/-! ### Jobs of the device's own -/

/-- A job's record replaced. -/
def setJob (i : Nat) (j : Job) (d : Dev) : Dev := { d with jobs := tSet d.jobs i j }

/-- A job taken away, with its places in the pending buffers. -/
def dropJob (i : Nat) (d : Dev) : Dev :=
  { d with jobs := tDel d.jobs i, pendingBuf := d.pendingBuf.filter fun w => w.job != some i }

/-- Whether a part has ended. -/
def Part.done (p : Part) : Bool := match p.state with
  | .ended _ => true
  | _ => false

/-- The status of an ended part; OK while it has not ended. -/
def Part.status (p : Part) : Nat := match p.state with
  | .ended st => st
  | _ => 0

/-- Whether a part waits for the event given. -/
def Part.waitsFor (p : Part) (f : Wait → Bool) : Bool := match p.state with
  | .waiting w => f w
  | _ => false

/-- The status of the first part to fail, in address order, or OK (R107). -/
def firstBad (ps : List Part) : Nat := ((ps.find? fun p => !stSuccess p.status).map Part.status).getD stOk

/-- The status of an access (R95, R101, R184): its first failure, else that of a part performed in part or delayed. -/
def partsStatus (ps : List Part) : Nat :=
  let has (st : Nat) : Bool := ps.any fun p => p.done && p.status == st
  if firstBad ps ≠ stOk then firstBad ps else if has stOkPartial then stOkPartial else if has stOkThrottled then stOkThrottled else stOk

/-- The bytes of the parts that succeeded. -/
def goodBytes (ps : List Part) : Nat := ps.foldl (fun a p => if p.done && stSuccess p.status then a + p.len else a) 0

/-- The data of an access laid out by offset in n bytes; parts that failed are zero (R231). -/
def gatherBytes (n : Nat) (ps : List Part) : List Byte :=
  ps.foldl (fun acc p => if p.done && stSuccess p.status then overlay acc p.off (slice p.data 0 p.len) else acc) (zeros n)

/-- The module to which requests for an address are sent (R192). -/
def routeModule (d : Dev) (a : Nat) : Nat := match tGet? d.redirects (addrModule a) with
  | some r => r.toModule
  | none => addrModule a

/-- Whether an address is homed on this module: its own number, or the bow's once this stern serves (R401). A paired region whose
service has gone to the partner is reached where the redirect table points (R192). -/
def homedHere (d : Dev) (a : Nat) : Bool :=
  (addrModule a == ownModule d && !(((regionAt d a).getD {}).paired && routeModule d a != ownModule d))
    || (addrModule a == partnerModule d && d.cfg.role == 2 && pairServes d)

/-- A part sent to its home on another module under a tag (R468): READ, WRITE, ATOMIC, or COPY_DATA for a COPY. -/
def sendPart (owner : Owner) (requester tag tagGen : Nat) (p : Part) (d : Dev) : Dev :=
  let copy := match owner with
    | .command q => q.opcode == 0x0104
    | _ => false
  let (kind, op, size, tail) : Nat × Nat × Nat × List Byte := match p.act with
    | .read => (0x01, 0, p.len, [])
    | .write => (if copy then 0x61 else 0x02, 0, p.len, if p.poisoned then zeros p.len else p.data)
    | .atomic op size operand compare => (0x03, op, size, toLe 16 operand ++ toLe 16 compare)
  let pois := if p.poisoned then 1 else 0
  sendPkt { kind, flags := p.flags, dest := unitId (routeModule d p.addr) 0, source := requester, tag, tagGen,
            body := reqBody p.addr p.key op size 0 0 0 pois ++ tail } d

/-- One part tried at its home on another module. -/
def remoteTry (owner : Owner) (requester : Nat) (p : Part) (d : Dev) : Part × Dev :=
  let t := d.nextTag % 65536
  let g := d.nextTag / 65536 % 255 + 1
  (p.wait (.remote t g (routeModule d p.addr)), sendPart owner requester t g p { d with nextTag := d.nextTag + 1 })

/-- Every part of a job that is still to do, tried in address order. -/
def tryParts (jid : Nat) (owner : Owner) (requester n : Nat) : Nat → List Part → Dev → List Part × Dev
  | _, [], d => ([], d)
  | k, p :: ps, d =>
    let (p, d) := match p.state with
      | .todo =>
        let p := { p with since := if p.since = 0 then d.stk.number else p.since }
        if homedHere d p.addr then homeTry jid owner (k + 1 == n) p d else remoteTry owner requester p d
      | _ => (p, d)
    let (ps, d) := tryParts jid owner requester n (k + 1) ps d
    (p :: ps, d)

/-- A write by the device itself, with no one to answer (R217). What must wait for agents or the mirror stays a job. -/
def deviceWrite (a key : Nat) (data : List Byte) (d : Dev) : Dev :=
  let (i, d) := freshId d
  let ps := splitParts a data.length key .write data
  let (ps, d) := tryParts i .device (unitId (ownModule d) 3) ps.length 0 ps d
  if ps.all Part.done then d
  else setJob i { owner := .device, requester := unitId (ownModule d) 3, stamp := d.stk.number, parts := ps } d

/-- The parts of a read that the device makes for itself, as far as they can be read now. -/
def deviceParts (a n key : Nat) (d : Dev) : List Part × Dev :=
  let ps := splitParts a n key .read []
  tryParts 0 .device (unitId (ownModule d) 3) ps.length 0 ps d

/-- Bytes that the device reads for itself at once: none where a part cannot be read now. -/
def deviceRead (a n key : Nat) (d : Dev) : Option (List Byte) × Dev :=
  let (ps, d) := deviceParts a n key d
  (if ps.all (fun p => p.done && stSuccess p.status) then some (gatherBytes n ps) else none, d)

/-! ### Sessions -/

/-- A session's record. -/
def sessOf (d : Dev) (i : Nat) : Session := (tGet? d.sessions i).getD {}
/-- A session's record replaced. -/
def setSess (i : Nat) (s : Session) (d : Dev) : Dev := { d with sessions := tSet d.sessions i s }
/-- The sessions that are open. -/
def openSessions (d : Dev) : List (Nat × Session) := d.sessions.filter fun s => s.2.isOpen

/-- A frame sent on Ethernet, or held while its priority is paused (R201). -/
def ethSend (pcp : Nat) (e : EthOut) (d : Dev) : Dev :=
  if pcp ∈ d.pausedPcp then { d with ethHeld := d.ethHeld ++ [(pcp, e)] } else { d with ethTx := d.ethTx ++ [e] }

/-- The priority of session datagrams (R201). -/
def sessionPcp (d : Dev) : Nat := cfgField d 0x90000 31 29

/-- The ACK that the device gives: the highest SEQ below which all has been received (Table 7-2). -/
def Session.ackNow (s : Session) : Nat := s.next - 1

/-- The CE_ECHO flag of the next datagram (R202). -/
def Session.ceFlag (s : Session) : Nat := b2n s.ceEcho

/-- A datagram with one record, or part of one, sent to a session and kept until acknowledged (R207). cont and more are
the CONT and MORE flags (R210). -/
def emitRecord (i : Nat) (cont more : Bool) (bytes : List Byte) (d : Dev) : Dev :=
  let s := sessOf d i
  let g : OutDatagram := {
    session := s.gen * 2 ^ 24 + i, seq := s.outSeq, ack := s.ackNow, type := 3,
    flags := s.ceFlag + 2 * b2n cont + 4 * b2n more, count := if cont then 0 else 1, payload := bytes }
  ethSend (sessionPcp d) (.datagram g)
    (setSess i { s with outSeq := s.outSeq + 1, unacked := s.unacked ++ [g], sinceAck := 0, ceEcho := false } d)

/-- The bytes of records that one datagram carries under the MTU: IPv6 and UDP headers, the session header and the tag
taken off. -/
def recordRoom (d : Dev) : Nat := max 64 (cfgField d 0x90000 47 32) - (48 + 24 + 16)

/-- A record split over as many datagrams as it needs (R210). -/
def emitSplit (i : Nat) : Nat → Bool → List Byte → Dev → Dev
  | 0, _, _, d => d
  | fuel + 1, cont, bytes, d =>
    let room := max 1 (recordRoom d)
    if bytes.length ≤ room then emitRecord i cont false bytes d
    else emitSplit i fuel true (bytes.drop room) (emitRecord i cont true (bytes.take room) d)

/-- Waiting completion records sent while the datagrams that each takes leave at most 256 unacknowledged (R207). -/
def flushWaiting (i : Nat) : Nat → Dev → Dev
  | 0, d => d
  | fuel + 1, d =>
    let s := sessOf d i
    match s.waiting with
    | [] => d
    | r :: rs => if 256 < s.unacked.length + max 1 (ceilDiv r.length (max 1 (recordRoom d))) then d
      else flushWaiting i fuel (emitSplit i (r.length + 1) false r (setSess i { s with waiting := rs } d))

/-- A completion record for a session (Table 7-3). -/
def sessionSend (i : Nat) (bytes : List Byte) (d : Dev) : Dev :=
  let s := sessOf d i
  if !s.isOpen then d
  else flushWaiting i (s.waiting.length + 1) (setSess i { s with waiting := s.waiting ++ [bytes] } d)

/-- An acknowledgement-only datagram (R207): its SEQ has bit 63 set and comes from a second counter. -/
def ackOnly (i : Nat) (d : Dev) : Dev :=
  let s := sessOf d i
  let g : OutDatagram := { session := s.gen * 2 ^ 24 + i, seq := 2 ^ 63 + s.ackSeq + 1, ack := s.ackNow, type := 3,
                           flags := s.ceFlag, count := 0, payload := [] }
  ethSend (sessionPcp d) (.datagram g) (setSess i { s with ackSeq := s.ackSeq + 1, sinceAck := 0, ceEcho := false } d)

/-- A session closed (R205): its generation is bumped and its index rests for 256 strokes. -/
def closeSession (i : Nat) (d : Dev) : Dev :=
  let s := sessOf d i
  if s.isOpen ∨ s.isPending then
    let g := nextGen8 s.gen
    logDev 0x8000 8 (s.gen * 2 ^ 24 + i) (s.gen * 2 ^ 24 + i) (g * 2 ^ 24 + i)
      (setSess i { gen := g, closedAt := some d.stk.number } d)
  else d

/-! ### Completions -/

/-- A ring queue's record. -/
def queueOf (d : Dev) (q : Nat) : Queue := (tGet? d.queues q).getD {}
/-- A ring queue's record replaced. -/
def setQueue (q : Nat) (r : Queue) (d : Dev) : Dev := { d with queues := tSet d.queues q r }

/-- A completion's 32 bytes (Table 7-5). -/
def completionBytes (c : Completion) (phase : Bool) : List Byte :=
  toLe 2 c.tag ++ toLe 1 c.tagGen ++ toLe 1 c.status ++ toLe 1 (c.load + 128 * b2n phase) ++ toLe 2 c.credit ++ zeros 1
    ++ toLe 4 c.stroke ++ (List.range 5).flatMap fun i => toLe 4 (c.words.getD i 0)

/-- A completion record of a datagram (Table 7-3). -/
def recordBytes (c : Completion) : List Byte :=
  toLe 2 c.queue ++ toLe 1 c.qgen ++ zeros 1 ++ toLe 4 c.data.length ++ completionBytes c false ++ c.data
    ++ zeros ((8 - c.data.length % 8) % 8)

/-- Free entries of a completion ring. -/
def Queue.cqFree (q : Queue) : Nat := 2 ^ q.cqLog - (q.cqTail + 2 ^ 32 - q.cqHead) % 2 ^ 32

/-- A completion written to a queue's completion ring, which has room: PHASE is 1 on the first pass and flips on each later
one (R212). -/
def writeCq (q : Nat) (c : Completion) (d : Dev) : Dev :=
  let r := queueOf d q
  let size := 2 ^ r.cqLog
  let slot := r.cqTail % size
  let phase := r.cqTail / size % 2 == 0
  deviceWrite (r.cqBase + slot * 32) r.cqKey (completionBytes c phase)
    (setQueue q { r with cqTail := (r.cqTail + 1) % 2 ^ 32 } d)

/-- CQ_TAIL (Table 7-6): completions written, less those whose write still waits for an agent. -/
def cqWritten (d : Dev) (n : Nat) : Nat :=
  let r := queueOf d n
  let waits := d.jobs.filter fun j => j.2.owner == .device && j.2.parts.any fun p =>
    p.act == .write && p.len == 32 && decide (r.cqBase ≤ p.addr) && decide (p.addr < r.cqBase + 32 * 2 ^ r.cqLog)
  (r.cqTail + 2 ^ 32 - waits.length) % 2 ^ 32

/-- A completion for a ring: written where an entry is free, otherwise it waits (R217). -/
def postRing (q : Nat) (c : Completion) (d : Dev) : Dev :=
  let r := queueOf d q
  if d.flt.fatal ∨ !r.present then d
  else if r.cqFree > 0 ∧ r.deferred.isEmpty then writeCq q c d
  else setQueue q { r with deferred := r.deferred ++ [c] } d

/-- LOAD's engine part (R212): no slot is committed where no item of the crew runs; otherwise the share is free. -/
def engineLoad (crew : Nat) (d : Dev) : Nat × Dev :=
  if d.items.any fun i => i.2.crew = crew ∧ i.2.state = 1 then
    let (f, d) := drawNat d
    (f % 17, d)
  else (0, d)

/-- Entries of a ring that are occupied (R212): those between SQ_HEAD and the tail, and those of commands read and not yet
dispatched. -/
def Queue.occupied (q : Queue) : Nat :=
  (q.sqTail + 2 ^ 32 - q.sqHead) % 2 ^ 32
    + q.held.foldl (fun a c => a + 1 + (if c.cmd.length > 48 ∧ c.cmd.length ≤ 8208 then ceilDiv (c.cmd.length - 48) 64 else 0)) 0

/-- The completion of a command with its load and credit (R212). Both are free where the command belongs to no queue. -/
def makeCompletion (q : QCmd) (st : Nat) (words : List Nat) (data : List Byte) (d : Dev) : Completion × Dev :=
  let (eng, d) := engineLoad q.cmd.crew d
  let (x, d) := if q.cmd.qgen = 0 ∨ q.ringed then (0, d) else drawNat d
  let (fill, credit) : Nat × Nat := if q.cmd.qgen ≠ 0 ∧ !q.ringed then (x / 4096 % 16, x % 4096) else match q.cmd.route with
    | .ring n =>
      let r := queueOf d n
      (16 * r.occupied / 2 ^ r.sqLog, min 4095 (2 ^ r.sqLog - r.occupied))
    | .session i =>
      if q.cmd.qgen = 0 then
        let n := (sessOf d i).held.length
        (16 * n / 256, 256 - n)
      else
        let r := queueOf d q.cmd.queue
        (16 * r.occupied / 2 ^ r.sqLog, min 4095 (2 ^ r.sqLog - r.occupied))
  ({ queue := q.cmd.queue, qgen := q.cmd.qgen, tag := q.cmd.tag, tagGen := q.cmd.tagGen, status := st,
     load := min 15 (max eng fill), credit, stroke := d.stk.number % 2 ^ 32, words, data }, d)

/-- Entries reserved for a command in its completion ring given back. -/
def unreserve (q : QCmd) (d : Dev) : Dev :=
  if q.reserved = 0 then d
  else
    let r := queueOf d q.cmd.queue
    setQueue q.cmd.queue { r with reserved := r.reserved - q.reserved } d

/-- A completion released: to the ring of a ring queue, and to the session by which the command came while that session
is open (R213, R214). In the fatal state only management sessions are told (R380). -/
def release (q : QCmd) (st : Nat) (words : List Nat) (data : List Byte) (d : Dev) : Dev :=
  let (c, d) := makeCompletion q st words data (unreserve q d)
  match q.cmd.route with
  | .ring n => postRing n { c with queue := n } d
  | .session i =>
    let s := sessOf d i
    let d := if q.cmd.qgen = 0 ∨ !q.ringed then d else postRing q.cmd.queue c d
    if s.isOpen ∧ s.gen = q.sessGen ∧ (!d.flt.fatal ∨ s.management) then sessionSend i (recordBytes c) d else d

/-- Whether a command came from a management session. -/
def fromManagement (d : Dev) (q : QCmd) : Bool := match q.cmd.route with
  | .session i => (sessOf d i).management && (sessOf d i).gen == q.sessGen
  | .ring _ => false

/-- The crew whose queue or session a command uses. -/
def crewOfRoute (d : Dev) (c : Cmd) : Option Nat := match c.route with
  | .session i => if (sessOf d i).management then none else some (sessOf d i).crew
  | .ring n => some (queueOf d n).crew

/-- A command completes. The completions of a sealed crew's commands wait for step 9 (R76). -/
def complete (q : QCmd) (st : Nat) (words : List Nat) (data : List Byte) (d : Dev) : Dev :=
  if !fromManagement d q ∧ crewSealed d q.cmd.crew ∧ !d.flt.fatal then
    { d with sealedDone := d.sealedDone ++ [(q, st, words, data)] }
  else release q st words data d

/-- A command completes with a status and nothing more. -/
def completeSt (q : QCmd) (st : Nat) (d : Dev) : Dev := complete q st [] [] d

/-- A completion that the device originates on a queue (R94, R378): to its ring, and to its notify session. -/
def deviceCompletion (queue st : Nat) (words : List Nat) (d : Dev) : Dev :=
  let r := queueOf d queue
  if !r.present then d
  else
    let c : Completion := { queue, qgen := r.gen, status := st, stroke := d.stk.number % 2 ^ 32, words,
                            credit := min 4095 (2 ^ r.sqLog - r.occupied) }
    let d := postRing queue c d
    match r.notify with
    | some (i, g) => if (sessOf d i).isOpen ∧ (sessOf d i).gen = g then sessionSend i (recordBytes c) d else d
    | none => d

/-! ### Fault records -/

/-- FAULT_N pulled low for a class of PIN_MASK, and always for an FT (R381). -/
def pinPulse (cls : Nat) (d : Dev) : Dev :=
  if cls = 3 ∨ bitAt (regInForce d 0x100000) (32 + cls - 1) then { d with flt := { d.flt with pulse := true } } else d

/-- The 64 bytes of a fault record (Table 13-3). -/
def faultBytes (r : FaultRec) : List Byte :=
  toLe 8 r.seq ++ toLe 8 r.stroke ++ toLe 4 r.count ++ toLe 4 r.last ++ toLe 1 r.cls ++ toLe 1 r.source ++ toLe 1 r.status
    ++ toLe 1 r.flags ++ toLe 1 r.crew ++ toLe 1 r.crewGen ++ toLe 2 r.unit ++ toLe 8 r.addr ++ toLe 4 r.detail
    ++ toLe 1 r.tempD0 ++ toLe 1 r.tempD1 ++ toLe 2 r.vcoreD0 ++ toLe 2 r.vcoreD1 ++ toLe 2 r.vin ++ toLe 4 r.loadSig
    ++ toLe 8 r.tod

/-- The environment of a record (Tables 13-3, 13-4): voltages and slot shares are measured, and so free. -/
def stampFault (r : FaultRec) (d : Dev) : FaultRec × Dev :=
  let (v0, d) := drawNat d
  let (v1, d) := drawNat d
  let (ls, d) := drawNat d
  ({ r with stroke := d.stk.number, last := d.stk.number % 2 ^ 32, tempD0 := d.power.d0, tempD1 := d.power.d1,
            vcoreD0 := v0 % 65536, vcoreD1 := v1 % 65536, vin := d.power.vin,
            loadSig := ls % 2 ^ 24 * 256 + d.power.clock / 8, tod := d.stk.tod }, d)

/-- The crew's copy of a record (R375). -/
def crewCopy (r : FaultRec) : FaultRec :=
  let t := max r.tempD0 r.tempD1 / 2 * 2
  { r with tempD0 := t, tempD1 := t, vcoreD0 := 0, vcoreD1 := 0, vin := 0, loadSig := 0 }

/-- A record written to the device ring: a CE with the SOURCE and UNIT of an unacknowledged one raises that record; a full
ring counts it as lost (R376). -/
def deviceRing (r : FaultRec) (d : Dev) : Dev :=
  let f := d.flt
  let same (x : FaultRec) : Bool := x.cls == 1 && x.source == r.source && x.unit == r.unit
  if r.cls = 1 ∧ f.ring.any same then
    { d with flt := { f with ring := f.ring.map fun x => if same x then { x with count := x.count + 1, last := r.last } else x } }
  else if f.ring.length ≥ 65536 then { d with flt := { f with lost := f.lost + 1 } }
  else { d with flt := { f with ring := f.ring ++ [{ r with seq := f.next }], next := f.next + 1 } }

/-- The notice of a UC record to its crew (R378). -/
def ucNotice (crew : Nat) (r : FaultRec) (d : Dev) : Dev :=
  let c := regInForce d (0x101000 + 0x20 * crew)
  if !bitAt c 15 then d
  else deviceCompletion (bitsOf c 14 0) (if r.status = 0 then stDeviceFault else r.status)
    [r.seq % 2 ^ 32, r.cls * 2 ^ 24 + r.source * 2 ^ 16 + r.unit, r.addr % 2 ^ 32, r.addr / 2 ^ 32, r.detail] d

/-- A UC record in its owning crew's ring, with its notice (R366, R376, R378). -/
def crewFault (crew : Nat) (r : FaultRec) (d : Dev) : Dev :=
  let c := (tGet? d.flt.crews crew).getD {}
  let r := { crewCopy r with seq := c.next }
  let c := if c.recs.length ≥ 1024 then { c with lost := c.lost + 1, uc := c.uc + 1 }
           else { c with recs := c.recs ++ [r], next := c.next + 1, uc := c.uc + 1 }
  ucNotice crew r { d with flt := { d.flt with crews := tSet d.flt.crews crew c } }

/-- A new fault record (R365, R366, R376 to R378, R381, R383): device ring, crew ring and notice for a UC with an owner,
counts, the service cores' sources, the pin and the snapshot trigger. -/
def recordFault (r : FaultRec) (owner : Option Nat) (d : Dev) : Dev :=
  let r := match owner with
    | some c => { r with crew := c, crewGen := (crewOf d c).gen }
    | none => { r with flags := r.flags ||| 4 }
  let (r, d) := stampFault r d
  let d := deviceRing r d
  let d := match r.cls, owner with
    | 2, some c => crewFault c r d
    | 1, some c =>
      let x := (tGet? d.flt.crews c).getD {}
      { d with flt := { d.flt with crews := tSet d.flt.crews c { x with ce := x.ce + 1 } } }
    | _, _ => d
  let d := if r.cls = 1 then { d with flt := { d.flt with ceCount := d.flt.ceCount + 1 } }
           else if r.cls = 2 then { d with flt := { d.flt with ucCount := d.flt.ucCount + 1 } } else d
  let d := pulse (8 * 32 + 7 + r.cls) (pulse (9 * 32 + 7 + r.cls) d)
  let d := pinPulse r.cls d

  if r.cls = 2 ∧ bitAt (regRaw d 0x130000) 2 then { d with trig := d.trig ++ [5] } else d

/-- A corrected fault of a source and unit. -/
def faultCE (source unit detail : Nat) (d : Dev) : Dev := recordFault { cls := 1, source, unit, detail } none d

/-- An In-Band Interrupt raised while events are enabled (R456). -/
def raiseIbi (b : Nat) (d : Dev) : Dev :=
  if d.side.events then { d with side := { d.side with ibi := some b } } else d

/-- Entry into the fatal state, in the order of R380: the notice on the pair link, no further traffic, no further commands
and every crew session closed, then the record, the saved area (R377), the pin (R381) and the snapshot trigger. -/
def enterFatal (source : Nat) (d : Dev) : Dev :=
  if d.flt.fatal then d
  else
    let d := if d.cfg.role ≠ 0 ∧ d.pair.state ≠ 0 then
        sendPkt { kind := 0x92, dest := unitId (partnerModule d) 0, source := unitId (ownModule d) 0,
                  body := toLe 8 d.stk.number ++ toLe 1 source ++ zeros 7 } d
      else d
    let d := { d with flt := { d.flt with fatal := true, ftSource := source, ftStroke := d.stk.number } }
    let d := (openSessions d).foldl (fun d s => if s.2.management then d else closeSession s.1 d) d
    let d := recordFault { cls := 3, source, flags := 0 } none d
    let last := d.flt.ring.drop (d.flt.ring.length - 64)
    let d := { d with flt := { d.flt with saved := last.map fun r => { r with flags := r.flags ||| 8 } } }
    let d := { setField 0x100010 0 0 1 d with inForce := tSet d.inForce 0x100010 1 }
    let d := if bitAt (regRaw d 0x130000) 1 then { d with trig := d.trig ++ [4] } else d
    raiseIbi 1 d

/-! ### Translation -/

/-- A context's record. -/
def ctxOf (d : Dev) (c : Nat) : Context := (tGet? d.contexts c).getD {}
/-- A context's record replaced. -/
def setCtx (c : Nat) (x : Context) (d : Dev) : Dev := { d with contexts := tSet d.contexts c x }

/-- The outcome of a translation (R90). -/
inductive Xlat where
  | ok (addr key : Nat)
  | fail (status : Nat)
  | absent (context segment offset : Nat)
  deriving DecidableEq, Repr

/-- Rights: 0 read, 1 write, 2 atomic (R89). -/
def Seg.allows (s : Seg) (acc : Nat) : Bool := if acc = 0 then s.r else if acc = 1 then s.w else s.a

/-- Translation of a context-relative access of n bytes (R86 to R90). crew is the command's crew; none for a fabric request,
which the requester filter judges. -/
def translate (d : Dev) (crew : Option Nat) (requester a n acc : Nat) : Xlat :=
  let c := bitsOf a 63 50
  let sg := bitsOf a 49 44
  let x := a % 2 ^ 44
  let k := ctxOf d c
  let allowed := match crew with
    | some w => k.crew == w
    | none => requester &&& k.reqMask == k.reqId &&& k.reqMask
  if !k.en ∨ !allowed then .fail stNoRights
  else if k.lost then .fail stPoisoned
  else
    let s := (tGet? k.segs sg).getD {}
    if !s.p then .absent c sg x
    else
      let b := s.baseU * 2 ^ 21
      if x < b ∨ b + s.lenU * 2 ^ 21 < x + n ∨ s.lenU = 0 then .fail stNoRights
      else if !s.allows acc then .fail stNoRights
      else .ok (s.hallBase + (x - b)) s.key

/-- The descriptor cache of a die meets an access (R90 step 3, R91): a hit counts; a miss is filled, and a streaming segment's
next tiles are installed with it. -/
def touchCache (die c sg tile : Nat) (d : Dev) : Dev :=
  let e := (die, c, sg, tile)
  if e ∈ d.dcache then bumpDie 0x50038 die d
  else
    let s := (tGet? (ctxOf d c).segs sg).getD {}
    let ctl := regRaw d 0x50000
    let ahead := if s.stream && bitAt ctl 0 then (List.range (bitsOf ctl 12 8)).map fun i => (die, c, sg, tile + 1 + i) else []
    let fresh := ahead.filter fun x => !(d.dcache.contains x)
    let d := fresh.foldl (fun d _ => bumpDie 0x50048 die d) (bumpDie 0x50040 die d)
    let all := d.dcache ++ e :: fresh
    { d with dcache := all.drop (all.length - 8192) }

/-- A segment's entries dropped from both caches (R92). -/
def dropCache (c : Nat) (sg : Option Nat) (d : Dev) : Dev :=
  { d with dcache := d.dcache.filter fun e => !(e.2.1 == c && (match sg with
    | some s => e.2.2.1 == s
    | none => true)) }

/-- A fault slot's record. -/
def slotOf (d : Dev) (s : Nat) : FaultSlot := (tGet? d.slots s).getD {}

/-- The free slot that has been free longest (R93). -/
def freeSlot (d : Dev) : Option Nat :=
  leastBy (fun s => (slotOf d s).freedAt * 1024 + s) ((List.range 1024).filter fun s => !(slotOf d s).used)

/-- A fault opened or joined (R93): the slot, or none where every slot is in use. -/
def openFault (c sg x acc requester : Nat) (d : Dev) : Option Nat × Dev :=
  match (List.range 1024).find? fun s => (slotOf d s).used && (slotOf d s).context == c && (slotOf d s).segment == sg with
  | some s => (some s, { d with slots := tMod d.slots s fun f => { f with access := f.access ||| 2 ^ acc } })
  | none => match freeSlot d with
    | none => (none, bumpSat 0x50050 31 16 1 d)
    | some s =>
      let f := slotOf d s
      let g := nextGen8 f.gen
      let f := { f with gen := g, used := true, context := c, segment := sg, offset := x, access := 2 ^ acc, requester }
      let d := bumpReg 0x50050 63 32 1 { d with slots := tSet d.slots s f }
      (some s, deviceCompletion (ctxOf d c).faultQueue stSegmentFault
        [g * 2 ^ 24 + s, c * 2 ^ 16 + sg, x % 2 ^ 32, 2 ^ acc * 2 ^ 24 + x / 2 ^ 32, requester] d)

/-- A slot freed once no access waits on it (R93 step 4): its generation is bumped again. -/
def freeFault (s : Nat) (d : Dev) : Dev :=
  if (slotOf d s).used ∧ d.jobs.all (fun j => j.2.slot != some s) then
    let (i, d) := freshId d
    { d with slots := tMod d.slots s fun f => { f with used := false, gen := nextGen8 f.gen, freedAt := i } }
  else d

/-- The right that a part's act needs. -/
def Act.right : Act → Nat
  | .read => 0
  | .write => 1
  | .atomic _ _ _ _ => 2

/-- All ranges of an access translated, first failure first. -/
def translateAll (d : Dev) (crew : Option Nat) (requester : Nat) : List Part → List Part × Option Xlat
  | [] => ([], none)
  | p :: ps => match translate d crew requester p.addr p.len p.act.right with
    | .ok a k =>
      let (qs, r) := translateAll d crew requester ps
      ({ p with addr := a, key := k } :: qs, r)
    | x => ([], some x)

/-- Ranges cut into line parts, each part's offset counted from its range's (R107). -/
def cutRanges (ps : List Part) : List Part :=
  ps.flatMap fun p => (splitParts p.addr p.len p.key p.act p.data).map fun x =>
    { x with off := p.off + x.off, clear := p.clear, poisoned := p.poisoned, flags := p.flags }

/-! ### Accesses -/

/-- The pieces of a copy's destination: each source part that was read is written on; a poisoned one marks every destination
line that it touches (R126); any other failure writes nothing. -/
def onwardParts (dest key : Nat) (ps : List Part) : List Part :=
  ps.flatMap fun p =>
    let st := p.status
    if stSuccess st then (splitParts (dest + p.off) p.len key .write (slice p.data 0 p.len)).map fun x => { x with off := p.off + x.off }
    else if st = stPoisoned then
      (splitParts (dest + p.off) p.len key .write (zeros p.len)).map fun x => { x with off := p.off + x.off, poisoned := true }
    else [{ p with addr := dest + p.off, act := .write }]

/-- The offset of a core's byte in the scratchpads (R239). -/
def scratchAddr (core off : Nat) : Nat := core * 2 ^ 21 + off

/-- The number of a 64 KiB block of a crew's window in the flag lists. -/
def blockNo (crew core b : Nat) : Nat := (crew * 128 + core) * 32 + b

/-- The flags of the blocks that a SCRATCH_LOAD has filled (R354): protected lines set a block's flag; a whole block overwritten
with unprotected data loses it, and an uncorrectable error in it. -/
def markBlocks (crew core base : Nat) (ps : List Part) (d : Dev) : Dev :=
  let blocks (p : Part) : List Nat :=
    (List.range ((base + p.off + p.len - 1) / 65536 + 1 - (base + p.off) / 65536)).map ((base + p.off) / 65536 + ·)
  let good := ps.filter fun p => stSuccess p.status && decide (0 < p.len)
  let dirty := (good.filter fun p => ((regionAt d p.addr).getD {}).prot).flatMap blocks
  let fills (b : Nat) : Nat := good.foldl (fun a p =>
    a + (min (base + p.off + p.len) ((b + 1) * 65536) - max (base + p.off) (b * 65536))) 0
  let whole := ((List.range 28).filter fun b => decide (65536 ≤ fills b) && !dirty.contains b).map (blockNo crew core)
  { d with flagged := dirty.foldl (fun l b => addTo l (blockNo crew core b)) (d.flagged.filter fun x => !whole.contains x),
           spadBad := d.spadBad.filter fun x => !whole.contains x }

/-- The answer to a fabric request (R181, R182), and DONE to the entry module that relayed it. -/
def answerFabric (p : Req) (ps : List Part) (throttled : Bool) (d : Dev) : Dev :=
  let st0 := partsStatus ps
  let st := if st0 = stOk ∧ throttled then stOkThrottled else st0
  let any := ps.any fun x => x.done && stSuccess x.status
  let isRead := ps.any fun x => x.act == .read
  let isAtom := match ps with
    | x :: _ => x.act.right == 2
    | [] => false
  let d := { d with outstanding := d.outstanding.filter fun o => !(o.requester == p.source && o.tag == p.tag && o.tagGen == p.tagGen) }
  let d := if p.vc = 4 then sendRsp 0x62 p.source p.tag p.tagGen st 0 0 [] d
    else if isRead ∧ any then sendRsp 0x22 p.source p.tag p.tagGen st 0 0 (gatherBytes p.size ps) d
    else if isAtom then sendRsp 0x21 p.source p.tag p.tagGen st 0 0
      (slice ((ps.head?.map (·.data)).getD []) 0 16) d
    else sendRsp 0x21 p.source p.tag p.tagGen st 0 0 [] d
  if bitAt p.entry 15 then
    sendPkt { kind := 0x2A, dest := unitId (p.entry % 4096) 0, source := unitId (ownModule d) 0, tag := p.tag,
              tagGen := p.tagGen, body := toLe 3 p.source ++ zeros 5 } d
  else d

/-- A fabric request answered at once with a status. -/
def refuseFabric (p : Req) (act : Act) (st : Nat) (d : Dev) : Dev := answerFabric p [{ state := .ended st, act }] false d

/-- Parts whose data gives way to free bytes: the source and destination of their copy overlap (R193). -/
def looseData : List Part → Dev → List Part × Dev
  | [], d => ([], d)
  | p :: ps, d =>
    let (b, d) := drawBytes p.len d
    let (qs, d) := looseData ps d
    ({ p with data := b } :: qs, d)

/-- What follows when every part of a job has ended; a copy turns into its second half. -/
def finishJob (jid : Nat) (j : Job) (d : Dev) : Option Job × Dev :=
  let d := dropJob jid d
  match j.owner, j.goal with
  | .fabric p, _ => (none, answerFabric p j.parts j.throttled d)
  | .device, _ => (none, d)
  | .command q, .inlineData =>
    let n := j.parts.foldl (fun a p => max a (p.off + p.len)) 0
    (none, complete q (partsStatus j.parts) [goodBytes j.parts] (gatherBytes n j.parts) d)
  | .command _, .onward dest key loose =>
    let (ps, d) := if loose then looseData j.parts d else (j.parts, d)
    (some { j with parts := onwardParts dest key ps, goal := .count }, d)
  | .command q, .oldValue =>
    let old := leNat ((j.parts.head?.map (·.data)).getD [])
    (none, complete q (partsStatus j.parts)
      (if stSuccess (firstBad j.parts) then (List.range 4).map fun i => old / 2 ^ (32 * i) % 2 ^ 32 else []) [] d)
  | .command q, .scratch core base _ =>
    let put (m : List Host.Cell) (p : Part) : List Host.Cell :=
      if stSuccess p.status then memWrite m (scratchAddr core (base + p.off)) (slice p.data 0 p.len)
      else if p.status = stPoisoned then memClear m (scratchAddr core (base + p.off)) p.len else m
    (none, complete q (partsStatus j.parts) [goodBytes j.parts] []
      (markBlocks q.cmd.crew core base j.parts { d with scratch := j.parts.foldl put d.scratch }))
  | .command q, .output st words =>
    let bad := firstBad j.parts
    (none, complete q (if st = stOk then bad else st) words [] d)
  | .command _, .slot dest key hdr st words =>
    let h := if fieldLe hdr 6 1 = 0 then hdr else overlay hdr 16 (toLe 4 (d.stk.number % 2 ^ 32))
    (some { j with parts := j.parts ++ splitParts dest 128 key .write h, goal := .output st words }, d)
  | .command q, .retry =>
    let far := j.parts.filter fun p => !homedHere d p.addr || p.act.right == 2
    (none, { d with retry := d.retry ++ [(q, firstBad j.parts)],
                    got := if far.isEmpty then d.got else tSet d.got q.id (tGet d.got q.id ++ far) })
  | .command q, _ => (none, complete q (partsStatus j.parts) [goodBytes j.parts] [] d)

/-- Whether a job has reached an access that R54 parks: a fill, a write that awaits back-invalidation, a byte limit, or a fault
slot. -/
def Job.parks (j : Job) : Bool := j.slot.isSome || j.parts.any fun p => p.waitsFor fun w => match w with
  | .fill _ => true
  | .budget _ => true
  | .snoop _ => decide (p.act ≠ .read)
  | _ => false

/-- A job put where it waits. -/
def putJob (i : Nat) (j : Job) (d : Dev) : Dev := setJob i { j with parked := j.parked || j.parks } d

/-- A job run: its parts tried, and finished when all have ended. -/
def runJobFuel : Nat → Nat → Dev → Dev
  | 0, _, d => d
  | fuel + 1, jid, d =>
    match tGet? d.jobs jid with
    | none => d
    | some j =>
      let (ps, d) := tryParts jid (if j.goal = .retry then .device else j.owner) j.requester j.parts.length 0 j.parts d
      let j := { j with parts := ps, ready := false }
      if ps.all Part.done then
        match finishJob jid j d with
        | (none, d) => d
        | (some j, d) => runJobFuel fuel jid (setJob jid j d)
      else putJob jid j d

/-- A job run to where it waits or ends. -/
def runJob (jid : Nat) (d : Dev) : Dev := runJobFuel 3 jid d

/-- A job that ends with a status before any line part is tried. -/
def failJob (j : Job) (st : Nat) (d : Dev) : Dev := match j.owner with
  | .fabric p => refuseFabric p ((j.parts.head?.map (·.act)).getD .write) st d
  | .command q => completeSt q st d
  | .device => d

/-- Whether a request is held by its requester's byte limit (R184): what remains in this stroke is too little, or an earlier one is
delayed. -/
def overBudget (d : Dev) (requester cost : Nat) : Bool := match limitOf d requester with
  | none => false
  | some l => decide (l < tGet d.charged requester + cost) || decide (0 < delayedCost d requester)

/-- A cost charged against a requester's limit in this stroke (R184). -/
def charge (requester cost : Nat) (d : Dev) : Dev :=
  if (limitOf d requester).isNone then d else { d with charged := tSet d.charged requester (tGet d.charged requester + cost) }

/-- Whether a request waits for earlier requests of its requester at this home (R128, R130): with release, for every write and atomic;
and behind a request with acquire. -/
def orderHolds (d : Dev) (jid : Nat) (p : Req) : Bool :=
  d.jobs.any fun j => decide (j.1 < jid) && (match j.2.owner with
    | .fabric x => x.source == p.source && x.vc == 1
        && ((bitAt p.flags 2 && j.2.parts.any fun y => decide (y.act ≠ .read)) || bitAt x.flags 1)
    | _ => false)

/-- A translated request sent on to its home on another module, still in the requester's name; it is outstanding here until DONE
(R187). -/
def relay (p : Req) (kind a key : Nat) (d : Dev) : Dev :=
  let tail := if kind = 2 then p.data else if kind = 3 then toLe 16 p.operand ++ toLe 16 p.compare else []
  let home := routeModule d a
  sendPkt { kind, flags := p.flags / 2 * 2, dest := unitId home 0, source := p.source, tag := p.tag, tagGen := p.tagGen,
            body := reqBody a key p.op p.size 0 0 (0x8000 + ownModule d) 0 ++ tail }
    { d with outstanding := d.outstanding.map fun o =>
        if o.requester == p.source && o.tag == p.tag && o.tagGen == p.tagGen then
          { o with relayedTo := some home, kind, req := { p with addr := a, key, flags := p.flags / 2 * 2 } } else o }

/-- A job whose addresses are hall addresses goes to its home: a fabric request is relayed where its home is another module, and
at this home it meets its requester's limit and order first. -/
def launch (jid : Nat) (j : Job) (ps : List Part) (d : Dev) : Dev :=
  let j := { j with slot := none, parts := cutRanges ps }
  let hold (w : Wait) (x : Job) : Job :=
    { x with ready := false, parts := x.parts.map fun y => { y.wait w with since := d.stk.number } }
  match j.owner, ps with
  | .fabric p, x :: _ =>
    let cost := reqCost p x.act.kind
    if !homedHere d x.addr then relay p x.act.kind x.addr x.key d
    else if overBudget d p.source cost then
      putJob jid { hold (.budget (d.stk.number + 1)) j with throttled := true } (bumpReg 0x80040 63 0 1 d)
    else if orderHolds d jid p then setJob jid (hold .order j) (charge p.source cost d)
    else runJob jid (setJob jid j (charge p.source cost d))
  | _, _ => runJob jid (setJob jid j d)

/-- An access begun. ctx is true where its ranges are context-relative: they are translated first, and a segment that is not
present parks the whole access on a fault slot, or ends it with SEGMENT_FAULT (R93). -/
def startAccess (j : Job) (ctx : Bool) (crew : Option Nat) (d : Dev) : Dev :=
  let (i, d) := freshId d
  if !ctx then launch i j j.parts d
  else
    match translateAll d crew j.requester j.parts with
    | (ps, none) =>
      let d := j.parts.foldl (fun d p => touchCache 0 (bitsOf p.addr 63 50) (bitsOf p.addr 49 44) (p.addr % 2 ^ 44 / 2 ^ 21) d) d
      launch i j ps d
    | (_, some (.fail st)) => failJob j st d
    | (_, some (.ok _ _)) => d
    | (_, some (.absent c sg x)) =>
      if !(ctxOf d c).faultEn then failJob j stSegmentFault d
      else
        let who := match j.owner with
          | .fabric p => p.source
          | _ => 0
        match openFault c sg x ((j.parts.head?.map (·.act.right)).getD 0) who d with
        | (none, d) => failJob j stSegmentFault d
        | (some s, d) => putJob i { j with slot := some s, context := crew, ready := false } d

/-- A job whose wait has been answered: its parts that meet the test are to be tried again, in step 9 (R54). -/
def wakeJobs (f : Wait → Bool) (d : Dev) : Dev :=
  { d with jobs := tMap d.jobs fun _ j => if j.parts.any (·.waitsFor f) then
      { j with ready := true, parts := j.parts.map fun p => if p.waitsFor f then { p with state := .todo } else p } else j }

/-- The parts that wait for an event ended with a status; the jobs are finished when they resume. -/
def endParts (f : Wait → Bool) (st : Nat) (d : Dev) : Dev :=
  { d with jobs := tMap d.jobs fun _ j => if j.parts.any (·.waitsFor f) then
      { j with ready := true, parts := j.parts.map fun p => if p.waitsFor f then p.fin st else p } else j }

/-- A job all of whose open parts end with a status, and the job with them (R55, R468). -/
def abortJob (jid st : Nat) (d : Dev) : Dev :=
  match tGet? d.jobs jid with
  | none => d
  | some j =>
    match j.slot with
    | some s => freeFault s (failJob j st { d with jobs := tDel d.jobs jid })
    | none =>
      let goal := match j.goal with
        | .onward _ _ _ => .output st [0]
        | .slot _ _ _ _ words => .output st words
        | g => g
      runJob jid (setJob jid { j with goal, parts := j.parts.map fun p => if p.done then p else p.fin st } d)

end Sys2Proof.Machine
end

