-- ==== Sys2Proof/Machine/Operands.lean ====
section
/-! DEFINITION. Machine/Operands.lean: a command's parameters, the routes and lengths of the opcodes (Tables 7-9 to 7-11),
the arrival checks of Table 7-10, policing (R71, R72), and the frame in which every command row runs. -/

namespace Sys2Proof.Machine

/-- Parameter bytes [i + n − 1:i] of a command as a number. -/
def pNat (c : Cmd) (i n : Nat) : Nat := fieldLe c.params i n

/-- A command with parameter byte i set: the byte that the row of the operation table fixes. -/
def withByte (c : Cmd) (i v : Nat) : Cmd := { c with params := c.params.set i (BitVec.ofNat 8 v) }

/-- Whether CTX is set (Table 7-4). -/
def Cmd.ctx (c : Cmd) : Bool := bitAt c.flags 0

/-- Route class of an opcode (Table 7-9): 1 M, 2 S, 3 SD, 4 HANDSHAKE only; 0 for an unlisted opcode. -/
def opVia (op : Nat) : Nat :=
  if op = 2 then 4
  else if op = 6 ∨ op = 7 ∨ op = 8 ∨ op = 0xB ∨ op = 0x704 ∨ op = 0x705 ∨ (0x803 ≤ op ∧ op ≤ 0x805) then 1
  else if op = 3 ∨ op = 4 ∨ op = 5 ∨ op = 9 ∨ op = 0xA ∨ (0x701 ≤ op ∧ op ≤ 0x703) ∨ op = 0x706 then 2
  else if op = 1 ∨ (0x101 ≤ op ∧ op ≤ 0x10A) ∨ (0x201 ≤ op ∧ op ≤ 0x206) ∨ (0x301 ≤ op ∧ op ≤ 0x307)
    ∨ (0x401 ≤ op ∧ op ≤ 0x405) ∨ (0x501 ≤ op ∧ op ≤ 0x505) ∨ (0x601 ≤ op ∧ op ≤ 0x604) ∨ op = 0x801 ∨ op = 0x802
    ∨ op = 0x806 then 3
  else 0

/-- Whether a length other than 0 is one the opcode allows (Table 7-10 step 10), before any rule about inline data. -/
def opLength (op n : Nat) : Bool :=
  if op = 1 then n == 8
  else if op = 3 ∨ op = 5 ∨ op = 7 ∨ op = 8 ∨ (0x601 ≤ op ∧ op ≤ 0x604) then n == 4
  else if op = 9 ∨ op = 0x106 ∨ op = 0x10A ∨ op = 0x503 ∨ op = 0x803 ∨ op = 0x804 then n == 8
  else if op = 0xB ∨ op = 0x107 ∨ op = 0x108 ∨ op = 0x404 ∨ op = 0x802 then n == 16
  else if op = 0xA ∨ op = 0x201 ∨ op = 0x203 ∨ op = 0x504 ∨ op = 0x704 ∨ op = 0x706 then n == 24
  else if op = 0x103 ∨ op = 0x306 ∨ op = 0x307 ∨ op = 0x505 ∨ op = 0x701 then n == 32
  else if op = 4 ∨ op = 0x101 ∨ op = 0x109 ∨ op = 0x206 ∨ op = 0x801 ∨ op = 0x806 then n == 40
  else if op = 6 ∨ op = 0x104 ∨ op = 0x105 ∨ op = 0x202 ∨ op = 0x205 ∨ op = 0x304 ∨ op = 0x305 then n == 48
  else if op = 0x204 then n == 56
  else if op = 0x303 ∨ op = 0x405 then n == 64
  else if op = 0x301 ∨ op = 0x501 then decide (64 ≤ n)
  else if op = 0x302 then decide (80 ≤ n)
  else if op = 0x401 ∨ op = 0x402 then decide (48 ≤ n)
  else if op = 0x502 then decide (32 ≤ n)
  else if op = 0x102 then decide (16 ≤ n)
  else if op = 0x403 then n == 40 || n == 8
  else if op = 0x702 then n == 160
  else if op = 0x703 then n == 4
  else if op = 0x705 then n == 4
  else if op = 0x805 then n == 584
  else true

/-- Reserved parameter bytes of an opcode: first and last of each run. -/
def opReserved (op : Nat) : List (Nat × Nat) :=
  if op = 4 then [(6, 7), (21, 23), (37, 39)]
  else if op = 5 then [(3, 3)]
  else if op = 7 ∨ op = 8 then [(1, 3)]
  else if op = 0xB ∨ op = 0x106 ∨ op = 0x803 ∨ op = 0x804 then [(1, 7)]
  else if op = 0x101 then [(13, 15), (20, 23), (37, 39)]
  else if op = 0x102 then [(13, 15)]
  else if op = 0x103 then [(13, 15), (20, 23)]
  else if op = 0x104 then [(13, 15), (29, 31), (37, 47)]
  else if op = 0x107 ∨ op = 0x108 then [(13, 15)]
  else if op = 0x109 then [(3, 7)]
  else if op = 0x10A then [(5, 7)]
  else if op = 0x201 then [(6, 7), (21, 23)]
  else if op = 0x202 then [(44, 47)]
  else if op = 0x203 then [(13, 15), (21, 23)]
  else if op = 0x204 then [(21, 23), (37, 39), (48, 55)]
  else if op = 0x205 then [(14, 15), (20, 23), (37, 47)]
  else if op = 0x206 then [(17, 19), (33, 35)]
  else if op = 0x301 then [(38, 39), (53, 63)]
  else if op = 0x302 then [(61, 63), (74, 79)]
  else if op = 0x303 then [(27, 27), (45, 47), (62, 63)]
  else if op = 0x304 then [(28, 31), (45, 47)]
  else if op = 0x305 then [(20, 23), (37, 47)]
  else if op = 0x401 then [(6, 7), (25, 27), (41, 43)]
  else if op = 0x402 then [(5, 5), (12, 15), (37, 47)]
  else if op = 0x403 then [(3, 3), (6, 7), (33, 39)]
  else if op = 0x404 then [(3, 3), (8, 15)]
  else if op = 0x405 then [(5, 7), (21, 23), (28, 31), (45, 47), (52, 63)]
  else if op = 0x501 then [(11, 11), (14, 15), (29, 31), (45, 47), (52, 63)]
  else if op = 0x502 then [(3, 3), (21, 31)]
  else if op = 0x503 then [(3, 3)]
  else if op = 0x504 then [(3, 7), (21, 23)]
  else if op = 0x505 then [(21, 31)]
  else if op = 0x702 ∨ op = 0x703 then [(2, 3)]
  else if op = 0x705 then [(1, 3)]
  else if op = 0x704 then [(13, 15), (20, 23)]
  else if op = 0x706 then [(3, 7), (20, 23)]
  else if op = 0x801 then [(2, 7), (20, 23), (37, 39)]
  else if op = 0x802 then [(2, 7)]
  else if op = 0x806 then [(6, 7), (21, 23)]
  else []

/-- Whether a reserved parameter byte is nonzero (Table 7-10 step 6). -/
def reservedSet (op : Nat) (c : Cmd) : Bool :=
  !c.padZero || (opReserved op).any fun r => (List.range (r.2 + 1 - r.1)).any fun k => c.params.getD (r.1 + k) 0 != 0

/-- Whether a queue carries only notices: a FAULT_QUEUE in use, or a crew's notice queue (R94, R378). -/
def boundQueue (d : Dev) (q : Nat) : Bool :=
  (d.contexts.any fun c => c.2.en && c.2.faultEn && c.2.faultQueue == q)
  || (d.crews.any fun c => c.2.state != 0 && (let v := regInForce d (0x101000 + 0x20 * c.1)
      bitAt v 15 && bitsOf v 14 0 == q))

/-- Whether a queue lies in a crew's range (R28). -/
def Crew.hasQueue (c : Crew) (q : Nat) : Bool := c.state != 0 && decide (c.qFirst ≤ q) && decide (q < c.qFirst + c.qCount)

/-- Whether an opcode is a crew command (Table 7-10 step 8). -/
def crewOp (op : Nat) : Bool := op == 6 || op == 7 || op == 8

/-- Steps 1 to 6 of Table 7-10, with R214's refusal of a datagram command to a doorbell queue. -/
def headerCheck (d : Dev) (op : Nat) (c : Cmd) : Option Nat :=
  let q := c.queue % 2 ^ 15
  let r := queueOf d q
  let routeBad := match c.route with
    | .session i =>
      let s := sessOf d i
      if c.qgen = 0 ∧ q ≠ 0 then some stBadField
      else if c.qgen ≠ 0 ∧ (!r.present ∨ r.gen ≠ c.qgen) then some stStale
      else if c.qgen ≠ 0 ∧ !s.management ∧ !(crewOf d s.crew).hasQueue q then some stNoRights
      else if c.qgen ≠ 0 ∧ r.doorbell then some stBadField
      else none
    | .ring n => if q ≠ n then some stBadField else none
  match routeBad with
  | some st => some st
  | none =>
    let via := opVia op
    if via = 0 then some stBadOpcode
    else
      let allowed := match c.route with
        | .session i => via == 3 || via == 2 || (via == 1 && (sessOf d i).management)
        | .ring _ => via == 3
      if !allowed then some stNoRights
      else if c.tagGen = 0 ∨ c.flags ≥ 2 ∨ c.rsv7 ≠ 0 ∨ c.rsv11 ≠ 0 ∨ c.queue ≥ 2 ^ 15 ∨ reservedSet op c then some stBadField
      else none

/-- The opcodes that run in the fatal state and before serving: NOP, REG_READ, FAULT_READ, FAULT_ACK, LOG_READ, ATTEST
(R380, R436). -/
def alwaysRuns (op : Nat) : Bool := op == 1 || op == 9 || op == 0x801 || op == 0x802 || op == 0x706 || op == 0x701

/-- The refusal of a state that does not allow the command: DEVICE_FAULT in the fatal state (R380), BUSY before SERVING
(R436). -/
def stateCheck (d : Dev) (op : Nat) (c : Cmd) : Option Nat :=
  let man := match c.route with
    | .session i => (sessOf d i).management
    | .ring _ => false
  if d.flt.fatal then (if man && alwaysRuns op then none else some stDeviceFault)
  else if !d.power.serving then (if man && alwaysRuns op then none else some stBusy)
  else none

/-- Step 7: a crew session whose crew generation is no longer current. -/
def crewGenCheck (d : Dev) (q : QCmd) : Option Nat := match q.cmd.route with
  | .session i =>
    let s := sessOf d i
    if s.gen = q.sessGen ∧ s.management then none
    else if (crewOf d (if s.gen = q.sessGen then s.crew else q.cmd.crew)).gen ≠ q.crewGen then some stStale else none
  | .ring _ => none

/-- Step 8: CREW is not the crew of the queue or session. -/
def crewFieldCheck (d : Dev) (op : Nat) (c : Cmd) : Option Nat :=
  let r := queueOf d (c.queue % 2 ^ 15)
  let want := match c.route with
    | .ring n => some (queueOf d n).crew
    | .session i => if c.qgen ≠ 0 then some r.crew else if (sessOf d i).management then none else some (sessOf d i).crew
  if crewOp op then none
  else match want with
    | none => none
    | some w => if c.crew = w then none else some stNoRights

/-- Steps 1 to 8 of Table 7-10, with the state's refusal between steps 6 and 7 (R221). -/
def arrivalCheck (d : Dev) (q : QCmd) : Option Nat :=
  (headerCheck d q.opcode q.cmd).orElse fun _ => (stateCheck d q.opcode q.cmd).orElse fun _ =>
    (crewGenCheck d q).orElse fun _ => crewFieldCheck d q.opcode q.cmd

/-- Steps 9 and 10: a LENGTH of 0 is a no-op, and one above 8,208 or not allowed is BAD_LENGTH. -/
def lengthCheck (op : Nat) (c : Cmd) : Option Nat :=
  if c.length = 0 then some stOk
  else if c.length > 8208 ∨ !opLength op c.length then some stBadLength
  else none

/-- The cost of a command that runs as one item (R66). -/
def cmdCost (d : Dev) (c : Cmd) : Nat := c.length + overhead d

/-! ### Policing -/

/-- Offset of policer p's registers. -/
def polBase (p : Nat) : Nat := 0x38000 + 0x20 * p

/-- The policer of a command's queue, where R221's three conditions hold and the policer is enabled. -/
def policerFor (d : Dev) (c : Cmd) : Option Nat :=
  let n := c.queue % 2 ^ 15
  let r := queueOf d n
  let crew := match c.route with
    | .session i => if (sessOf d i).management then some r.crew else some (sessOf d i).crew
    | .ring m => some (queueOf d m).crew
  if c.qgen ≠ 0 ∧ r.present ∧ r.gen = c.qgen ∧ crew = some r.crew ∧ r.polEn ∧ bitAt (regInForce d (polBase r.policer + 0x10)) 0
  then some r.policer else none

/-- The colour of an arrival: 0 green, 1 yellow, 2 red (Table 2-7); pre is the pre-colour, b the cost. -/
def colourOf (aware : Bool) (pre tp tc b : Nat) : Nat :=
  if (aware && pre == 2) || decide (tp < b) then 2
  else if (aware && pre == 1) || decide (tc < b) then 1 else 0

/-- The pre-colour of a DSCP: AFx2 yellow, AFx3 red, every other value green (R71). -/
def preColour (dscp : Nat) : Nat :=
  if 8 ≤ dscp ∧ dscp < 40 ∧ dscp % 8 = 4 then 1 else if 8 ≤ dscp ∧ dscp < 40 ∧ dscp % 8 = 6 then 2 else 0

/-- A command coloured by its policer (R71, R72): whether it is admitted. Buckets and the crew's counters change. -/
def police (q : QCmd) (d : Dev) : Bool × Dev :=
  match policerFor d q.cmd with
  | none => (true, d)
  | some p =>
    let b := cmdCost d q.cmd
    let v := regRaw d (polBase p + 0x18)
    let tp := bitsOf v 63 32
    let tc := bitsOf v 31 0
    let aware := bitAt (regInForce d (polBase p + 0x10)) 16
    let pre := match q.cmd.route with
      | .session _ => preColour q.dscp
      | .ring _ => 0
    let crew := (queueOf d (q.cmd.queue % 2 ^ 15)).crew
    let ctr := 0x31000 + 0x40 * crew
    let c := colourOf aware pre tp tc b
    if c = 2 then (false, bumpReg (ctr + 0x18) 63 0 1 d)
    else if c = 1 then (true, bumpReg (ctr + 0x20) 63 0 1 (setReg (polBase p + 0x18) ((tp - b) * 2 ^ 32 + tc) d))
    else (true, setReg (polBase p + 0x18) ((tp - b) * 2 ^ 32 + (tc - b)) d)

/-! ### Running a command row -/

/-- Whether a command belongs to the ring queue that it names (R214): one that fails step 2 or 3 of Table 7-10 is told to its session
only. -/
def belongs (d : Dev) (c : Cmd) : Bool := match c.route with
  | .ring _ => true
  | .session i =>
    let r := queueOf d c.queue
    r.present && r.gen == c.qgen && ((sessOf d i).management || r.crew == (sessOf d i).crew)

/-- A command as it arrives: an identifier, the stroke's stamp, and what its session bears (R52, R221 step 7). -/
def arrive (op : Nat) (c : Cmd) (dscp : Nat) (d : Dev) : QCmd × Dev :=
  let (i, d) := freshId d
  let (cg, sg) := match c.route with
    | .session s => ((sessOf d s).crewGen, (sessOf d s).gen)
    | .ring _ => (0, 0)
  ({ id := i, opcode := op, cmd := c, stamp := d.stk.number, crewGen := cg, sessGen := sg, dscp, ringed := belongs d c }, d)

/-- Whether a command can be taken at all: it names an open session, or a ring entry of a queue that exists bears its
current generation. -/
def reachable (d : Dev) (c : Cmd) : Bool := match c.route with
  | .session i => (sessOf d i).isOpen
  | .ring n => (queueOf d n).present && (queueOf d n).doorbell && (queueOf d n).gen == c.qgen

/-- The crew-discard counter of a queue's crew raised (R94, R215, R216): DOORBELLS or ENTRIES. -/
def discard (q : Nat) (doorbell : Bool) (d : Dev) : Dev :=
  let off := 0x91000 + 8 * (queueOf d q).crew
  if doorbell then bumpReg off 63 32 1 d else bumpReg off 31 0 1 d

/-- Whether a command is discarded before every check (R94). -/
def discarded (d : Dev) (c : Cmd) : Option Nat := match c.route with
  | .session _ => if c.qgen ≠ 0 ∧ boundQueue d (c.queue % 2 ^ 15) then some (c.queue % 2 ^ 15) else none
  | .ring n => if boundQueue d n then some n else none

/-- Whether a command starts a long operation and so gives two completions (R60). -/
def isLong (q : QCmd) : Bool :=
  let op := q.opcode
  op == 0x201 || (op == 0x202 && q.cmd.params.getD 13 0 == 0) || op == 0x206 || op == 0x305 || op == 0x405 || op == 0x504
    || (op == 0x803 && q.cmd.params.getD 0 0 == 0)

/-- Completion-ring entries that a command's completions take (R217). -/
def cqNeed (q : QCmd) : Nat := if isLong q then 2 else 1

/-- Whether the completion ring of a command's queue has room for its completions (R217). -/
def cqRoom (d : Dev) (q : QCmd) : Bool :=
  let n := q.cmd.queue % 2 ^ 15
  q.cmd.qgen = 0 || decide (cqNeed q + (queueOf d n).reserved ≤ (queueOf d n).cqFree)

/-- The completion entries of a dispatched command reserved (R217). -/
def reserveCq (q : QCmd) (d : Dev) : QCmd × Dev :=
  if q.cmd.qgen = 0 then (q, d)
  else
    let n := q.cmd.queue % 2 ^ 15
    let r := queueOf d n
    ({ q with reserved := cqNeed q }, setQueue n { r with reserved := r.reserved + cqNeed q } d)

/-- A command put at the end of its queue. -/
def enqueue (q : QCmd) (d : Dev) : Dev := match q.cmd.route with
  | .session i =>
    if q.cmd.qgen = 0 then let s := sessOf d i; setSess i { s with held := s.held ++ [q] } d
    else let r := queueOf d q.cmd.queue; setQueue q.cmd.queue { r with held := r.held ++ [q] } d
  | .ring n => let r := queueOf d n; setQueue n { r with held := r.held ++ [q] } d

/-- Whether a command finds its session queue full (R213). -/
def sessionFull (d : Dev) (q : QCmd) : Bool := match q.cmd.route with
  | .session i => q.cmd.qgen == 0 && decide (256 ≤ (sessOf d i).held.length)
  | .ring _ => false

/-- A trigger of the snapshot (R382, R383): source as SNP_STATE.SOURCE gives it, and the origin that the change log records. The
register state is latched unless a snapshot is held, when the trigger is counted as missed; an FT always latches. cycle is the
cycle of the latch, where the trigger gives one. -/
def latchSnap (source : Nat) (origin : Nat × Nat) (cycle : Option Nat) (s : State) : State :=
  if s.snap.frozen ∧ source ≠ 4 then { s with snap := { s.snap with missed := s.snap.missed + 1 } }
  else
    let (c, d) := match cycle with
      | some c => (c, s.dev)
      | none => drawNat s.dev
    let (k, d) := drawNat d
    let snap := { s.snap with latched := some d, frozen := true, source, stroke := d.stk.number, cycle := c % periodNow d,
                              skew := k % 5 }
    let d := logChange origin.1 origin.2 0x8000 1 0x130008 false (val8 (b2n s.snap.frozen)) (val8 1) d
    { s with dev := pulse (9 * 32 + 11) (pulse (8 * 32 + 11) d), snap }

/-- The snapshot triggers of the faults recorded in this step carried out (R383); the triggers of one moment cause one latch, and an
FT comes first (R382). -/
def settle (s : State) : State :=
  match s.dev.trig with
  | [] => s
  | t :: ts => latchSnap (if 4 ∈ t :: ts then 4 else t) (4, 0) none { s with dev := { s.dev with trig := [] } }

/-- Whether a command came by a queue. -/
def QCmd.onQueue (q : QCmd) (n : Nat) : Bool := q.cmd.qgen != 0 && q.cmd.queue % 2 ^ 15 == n

/-- The commands that have started and not ended: those of jobs, items, armed COMBINEs, searches, long operations, row
moves, waiting reports, register writes and held completions. -/
def startedCmds (d : Dev) : List QCmd :=
  (d.jobs.filterMap fun j => match j.2.owner with
    | .command q => some q
    | _ => none)
  ++ (d.items.flatMap fun i => match i.2.kind with
    | .command q => [q]
    | .batch _ qs => qs)
  ++ (d.armed.map (·.2.q)) ++ (d.searches.map (·.2.q)) ++ ((d.longops.filter fun l => l.2.state ≠ 5).map (·.2.q))
  ++ ((d.moves.filter fun m => m.2.swapped.isNone).map (·.2.q)) ++ (d.attest.map (·.q)) ++ (d.sealedDone.map (·.1)) ++ d.retry.map (·.1)
  ++ (d.revokes.filterMap (·.2.q)) ++ (d.wins.filterMap (·.2.deleteBy)) ++ (d.crews.filterMap (·.2.resetBy)) ++ d.regQueue.filterMap (·.q)

/-- The queue to which a command belongs: a session's own, or a ring queue. -/
def QCmd.home (q : QCmd) : Nat × Nat := match q.cmd.route with
  | .session i => if q.cmd.qgen = 0 then (0, i) else (1, q.cmd.queue % 2 ^ 15)
  | .ring n => (1, n)

/-- The ORDER bits of a command as a fence of its queue (R121, R131): whether it waits for the earlier commands of its queue, and whether
the later ones wait for it. -/
def QCmd.releases (q : QCmd) : Bool := q.opcode == 0x106 || (q.opcode == 0x105 && bitAt (pNat q.cmd 15 1) 1)
/-- Whether the later commands of its queue wait for a command. -/
def QCmd.acquires (q : QCmd) : Bool := q.opcode == 0x106 || (q.opcode == 0x105 && bitAt (pNat q.cmd 15 1) 0)

/-- Whether a command must wait for earlier commands of its queue that have started (R121, R131). -/
def fenceWaits (d : Dev) (q : QCmd) : Bool :=
  (startedCmds d).any fun x => x.home == q.home && x.id != q.id && (q.releases || x.acquires)

/-- Whether a command that arrives must wait in its queue because of a fence there, its own or an earlier one's. -/
def fenceHolds (d : Dev) (q : QCmd) : Bool :=
  let held := ((d.queues.flatMap fun r => r.2.held) ++ d.sessions.flatMap fun r => r.2.held).filter fun x => x.home == q.home
  fenceWaits d q || (q.releases && !held.isEmpty) || held.any fun x => x.releases || x.acquires

/-- Ring entries of a command with a LENGTH (R211): a LENGTH above 8,208 takes one. -/
def entriesFor (n : Nat) : Nat := if n ≤ 48 ∨ n > 8208 then 1 else 1 + ceilDiv (n - 48) 64

/-- The 64 bytes of each ring entry that a command takes (Table 7-4, R211). -/
def cmdEntry (op : Nat) (c : Cmd) : List Byte :=
  let l := toLe 2 op ++ toLe 1 c.flags ++ toLe 1 c.crew ++ toLe 2 c.tag ++ toLe 1 c.tagGen ++ toLe 1 c.rsv7 ++ toLe 2 c.queue
    ++ toLe 1 c.qgen ++ toLe 1 c.rsv11 ++ toLe 4 c.length ++ c.params
  l ++ zeros (64 * entriesFor c.length - l.length)

/-- Ring entries written from a free-running index on. -/
def writeEntries (r : Queue) (i : Nat) : Nat → List Byte → Dev → Dev
  | 0, _, d => d
  | k + 1, l, d => writeEntries r (i + 1) k (l.drop 64) (deviceWrite (r.sqBase + i % 2 ^ r.sqLog * 64) r.sqKey (l.take 64) d)

/-- A command that a datagram brings for a ring queue, written into the ring by the device, which has then read it (R214). -/
def ringIn (q : QCmd) (d : Dev) : Dev := match q.cmd.route with
  | .ring _ => d
  | .session _ =>
    if q.cmd.qgen = 0 then d
    else
      let n := q.cmd.queue
      let r := queueOf d n
      let k := entriesFor q.cmd.length
      let tail := (r.sqTail + k) % 2 ^ 32
      writeEntries r r.sqTail k (cmdEntry q.opcode q.cmd) (setQueue n { r with sqTail := tail, sqHead := tail } d)

/-- The meaning of a command row up to its execution: discard (R94), policing (R72), the checks of Table 7-10, room in its
completion ring (R217) and no fence before it (R121, R131), and then its body; a command from a source that cannot exist changes
nothing. -/
def runRow (op : Nat) (c : Cmd) (body : QCmd → State → State) (s : State) : State :=
  settle <|
  if !reachable s.dev c then s
  else match discarded s.dev c with
    | some n => { s with dev := discard n false s.dev }
    | none =>
      let (q, d) := arrive op c 0 s.dev
      let (ok, d) := police q d
      if !ok then { s with dev := completeSt q stBusy d }
      else match arrivalCheck d q with
        | some st => { s with dev := completeSt q st d }
        | none => match lengthCheck op c with
          | some st => { s with dev := completeSt q st d }
          | none =>
            if sessionFull d q then { s with dev := completeSt q stBusy d }
            else if !cqRoom d q || fenceHolds d q then { s with dev := enqueue q (ringIn q d) }
            else
              let (q, d) := reserveCq q (ringIn q d)
              body q { s with dev := d }

/-- A meaning that changes only the device. -/
def onDev (f : Dev → Dev) (s : State) : State := settle { s with dev := f s.dev }

/-- A command body that changes only the device. -/
def devBody (f : QCmd → Dev → Dev) (q : QCmd) (s : State) : State := { s with dev := f q s.dev }

end Sys2Proof.Machine
end

