-- ==== Sys2Proof/Machine/RegRules.lean ====
section
/-! DEFINITION. Machine/RegRules.lean: who writes a register (R333, R431), and what a write leaves in its fields (R11, R14, R15). -/

namespace Sys2Proof.Machine

/-- Whether a writer acts as a management session does. -/
def isManager (d : Dev) : Writer → Bool
  | .session i => (sessOf d i).management && (sessOf d i).isOpen
  | .fabric _ _ => false
  | .service _ => false
  | .firmware => true

/-- The crew to which a writer is bound, where it is a crew session or a fabric access under a control key word (R101). -/
def writerCrew (d : Dev) : Writer → Option Nat
  | .session i => if (sessOf d i).management then none else some (sessOf d i).crew
  | .fabric c _ => some c
  | _ => none

/-- A number with its bits under a mask taken from another. -/
def masked (old v mask : Nat) : Nat := (old - (old &&& mask)) + (v &&& mask)

/-- What a write leaves in one field, and whether the field refused a change. old is the register's value; the write carries v under
a mask (R229), whose bits outside carry nothing. -/
def writeField (locked : Bool) (old v mask : Nat) (f : RField) : Nat × Bool :=
  let o := bitsOf old f.hi f.lo
  let n := bitsOf (masked old v mask) f.hi f.lo
  let c := bitsOf (v &&& mask) f.hi f.lo
  let plain := if f.okay n then (n, false) else (o, n != o)
  match f.acc with
  | .ro => (o, n != o)
  | .rw => plain
  | .w1c => (o - (o &&& c), false)
  | .rwl => if locked then (o, n != o) else plain

/-- The bits of a register that its fields cover. -/
def fieldMask (fs : List RField) : Nat := fs.foldl (fun a f => a + (2 ^ (f.hi + 1 - f.lo) - 1) * 2 ^ f.lo) 0

/-- What a write leaves in a register, and whether some field, or a reserved bit, refused a change (R11, R15). -/
def writeFields (locked : Bool) (fs : List RField) (old v mask : Nat) : Nat × Bool :=
  fs.foldl (fun a f =>
    let (n, no) := writeField locked old v mask f
    (a.1 + n * 2 ^ f.lo, a.2 || no)) (0, (v &&& mask) - (v &&& mask &&& fieldMask fs) != 0)

/-- OK, or OK_PARTIAL where something was refused. -/
def stPartial (no : Bool) : Nat := if no then stOkPartial else stOk

/-- The owner and device-wide bit of a register's change (Table 12-9). -/
def deviceWide : Nat := 0x8000

/-- A change of a register by a writer, logged (R17, R359); RWL and SEC registers are SECURITY records. -/
def logReg (who : Writer) (owner off : Nat) (security : Bool) (old new : Nat) (d : Dev) : Dev :=
  if old = new then d
  else
    let o := writerOrigin who
    logChange o.1 o.2 owner 1 off security (val8 old) (val8 new) d

end Sys2Proof.Machine
end

