-- ==== Sys2Proof/Machine/Icu.lean ====
section
/-! DEFINITION. Machine/Icu.lean: the interrupt controller: its registers, claim and complete, the compatibility ring and the
watchdogs (Chapter 15). Sources and their wires stand in Machine/Flags.lean. -/

namespace Sys2Proof.Machine

/-! ### Reading -/

/-- ICU_SRC of a source (Table 15-7); a reserved source's register reads as zero (R421). -/
def srcRead (d : Dev) (n : Nat) : Nat :=
  if srcReserved n then 0
  else
    let s := srcOf d n
    b2n s.pending * 2 ^ 31 + b2n s.active * 2 ^ 30 + b2n s.wire * 2 ^ 29 + b2n (srcPulse n) * 2 ^ 28 + s.target * 2 ^ 16
      + s.prio * 2 ^ 8 + s.sense * 2 + b2n s.en

/-- A register of a target (Table 15-8) by its offset; ICU_TGT_CLAIM reads as zero here, since only the target's own processor
claims (R431). -/
def tgtRead (d : Dev) (t o : Nat) : Nat :=
  let g := tgtOf d t
  match o with
  | 0x10 => g.size * 16 + b2n g.ring
  | 0x18 => g.base * 4096
  | 0x20 => g.consumer * 2 ^ 32 + g.producer
  | 0x28 => if t < 10 then g.misses * 2 ^ 32 + g.period else 0
  | 0x30 => g.claims * 2 ^ 32 + g.badComplete * 2 ^ 16 + g.ringFull
  | _ => 0

/-- An ICU register as a management session reads it (R431). -/
def icuRead (d : Dev) (off : Nat) : Nat :=
  if off = 0xF0000 then regReset 0xF0000
  else if 0xF1000 ≤ off ∧ off < 0xF3000 then srcRead d ((off - 0xF1000) / 8)
  else if 0xF4000 ≤ off ∧ off < 0xF4680 then tgtRead d ((off - 0xF4000) / 64) (off % 64)
  else 0

/-! ### Writing -/

/-- Whether a writer may change ICU registers beyond what only device firmware writes: a management session or the service
firmware (R431). -/
def icuWriter (d : Dev) (who : Writer) : Bool := isManager d who || (match who with
  | .service _ => true
  | _ => false)

/-- Whether a writer may change a source's register, or a target's (R431). -/
def icuOwns (d : Dev) (who : Writer) (t : Nat) : Bool := who == .firmware || (icuWriter d who && (t == 8 || t == 9))

/-- A write of an ICU field that the writer may not change: as R15 states, or, from a crew, ignored whole (R333). -/
def icuRefused (d : Dev) (who : Writer) (cur v mask : Nat) : Nat := stPartial (!icuWriter d who || masked cur v mask != cur)

/-- ICU_SOFT (R421, Table 15-6): the SOFT wire of the target pulses. -/
def icuSoftWrite (who : Writer) (v mask : Nat) (d : Dev) : Nat × Dev :=
  let m := v &&& mask
  if !icuWriter d who then (stOkPartial, d)
  else if m % 32 ≥ 26 then (stOkPartial, d)
  else (stPartial (decide (32 ≤ m)), if mask % 32 = 0 then d else pulse (32 * (m % 32)) d)

/-- ICU_SRC (R422, R426, R427). An EN cleared less than 8 cycles after the source was selected lets one claim return it: that
moment is the machine's. -/
def icuSrcWrite (who : Writer) (n v mask : Nat) (d : Dev) : Nat × Dev :=
  let s := srcOf d n
  let cur := srcRead d n
  let m := masked cur v mask
  let shared := decide (832 ≤ n)
  if srcReserved n then (stOk, d)
  else if !(who == .firmware || (icuWriter d who && (shared || s.target == 8 || s.target == 9))) then (icuRefused d who cur v mask, d)
  else
    let sense := bitsOf m 3 1
    let tgt := bitsOf m 20 16
    let senseOk := decide (sense ≤ 4) && !(srcPulse n && decide (sense < 2))
    let tgtOk := tgt == s.target || (shared && decide (tgt < 26) && !s.active)
    let fixed := bitsOf m 63 21 == bitsOf cur 63 21 && bitsOf m 15 11 == 0 && bitsOf m 7 4 == 0
    let late := s.en && !bitAt m 0 && selected d s.target == some n
    let (f, d) := if late then drawNat d else (0, d)
    let x := { s with en := bitAt m 0, prio := bitsOf m 10 8, sense := if senseOk then sense else s.sense,
                      target := if tgtOk then tgt else s.target, once := !bitAt m 0 && (s.once || f % 2 == 1) }
    let d := pumpFor n (setSrc n x d)
    (stPartial (!(senseOk && tgtOk && fixed)), logReg who deviceWide (0xF1000 + 8 * n) false cur (srcRead d n) d)

/-- Whether a source of a target is active. -/
def tgtActive (d : Dev) (t : Nat) : Bool := d.icu.any fun x => x.2.active && x.2.target == t

/-- ICU_TGT_MODE (R429): a change of RING with a source active or records unconsumed changes nothing; when RING becomes 1 the
indices are zero. -/
def icuModeWrite (who : Writer) (t v mask : Nat) (d : Dev) : Nat × Dev :=
  let g := tgtOf d t
  let cur := tgtRead d t 0x10
  let m := masked cur v mask
  let size := bitsOf m 7 4
  let sizeOk := decide (6 ≤ size) && decide (size ≤ 12)
  let ring := bitAt m 0 && (t == 8 || t == 9)
  let fixed := bitsOf m 63 8 == 0 && bitsOf m 3 1 == 0 && ring == bitAt m 0
  if !icuOwns d who t then (icuRefused d who cur v mask, d)
  else if ring ≠ g.ring ∧ (tgtActive d t ∨ g.producer ≠ g.consumer) then (stOkPartial, d)
  else
    let g := { g with ring, size := if sizeOk then size else g.size }
    let g := if ring && !(tgtOf d t).ring then { g with producer := 0, consumer := 0 } else g
    let d := ringPump t 256 (setTgt t g d)
    (stPartial (!(sizeOk && fixed)), logReg who deviceWide (0xF4010 + 64 * t) false cur (tgtRead d t 0x10) d)

/-- ICU_TGT_RING_BASE. -/
def icuBaseWrite (who : Writer) (t v mask : Nat) (d : Dev) : Nat × Dev :=
  let cur := tgtRead d t 0x18
  let m := masked cur v mask
  if !icuOwns d who t then (icuRefused d who cur v mask, d)
  else
    let d := setTgt t { tgtOf d t with base := bitsOf m 26 12 } d
    (stPartial (bitsOf m 63 27 != 0 || m % 4096 != 0), logReg who deviceWide (0xF4018 + 64 * t) false cur (tgtRead d t 0x18) d)

/-- A write of CONSUMER (R428): one that would pass PRODUCER, or move backwards, is ignored and counted; otherwise room appears and
waiting records are written. -/
def consumeRing (t c : Nat) (d : Dev) : Dev :=
  let g := tgtOf d t
  let room := (g.producer + 2 ^ 32 - g.consumer) % 2 ^ 32
  let step := (c + 2 ^ 32 - g.consumer) % 2 ^ 32
  if room < step then setTgt t { g with badComplete := min 65535 (g.badComplete + 1) } d
  else ringPump t 256 (setTgt t { g with consumer := c % 2 ^ 32 } d)

/-- ICU_TGT_RING_IDX: CONSUMER is written, PRODUCER is RO. -/
def icuConsumerWrite (who : Writer) (t v mask : Nat) (d : Dev) : Nat × Dev :=
  let cur := tgtRead d t 0x20
  let m := masked cur v mask
  if !icuOwns d who t then (icuRefused d who cur v mask, d)
  else
    let d' := if bitsOf m 63 32 = bitsOf cur 63 32 then d else consumeRing t (bitsOf m 63 32) d
    (stPartial (m % 2 ^ 32 != cur % 2 ^ 32), logReg who deviceWide (0xF4020 + 64 * t) false cur (tgtRead d' t 0x20) d')

/-- ICU_TGT_WDOG (R420, Table 15-8): PERIOD, and KICK, which restarts the period. -/
def icuWdogWrite (who : Writer) (t v mask : Nat) (d : Dev) : Nat × Dev :=
  let g := tgtOf d t
  let cur := tgtRead d t 0x28
  let m := masked cur v mask
  let p := m % 2 ^ 32
  let ok := (decide (100 ≤ p) && decide (p ≤ 10000000)) || (p == 0 && (t == 8 || t == 9)) || p == g.period
  let fixed := bitsOf m 62 32 == bitsOf cur 62 32
  if !icuOwns d who t ∨ 10 ≤ t then (icuRefused d who cur v mask, d)
  else
    let g := { g with period := if ok then p else g.period, half := g.half && !bitAt m 63 }
    let d := setTgt t g d
    (stPartial (!(ok && fixed)), logReg who deviceWide (0xF4028 + 64 * t) false cur (tgtRead d t 0x28) d)

/-- A write of an ICU register (R431): it takes effect as it is performed. -/
def icuWrite (who : Writer) (off v mask : Nat) (d : Dev) : Nat × Dev :=
  if off = 0xF0008 then icuSoftWrite who v mask d
  else if 0xF1000 ≤ off ∧ off < 0xF3000 then icuSrcWrite who ((off - 0xF1000) / 8) v mask d
  else if 0xF4000 ≤ off ∧ off < 0xF4680 ∧ off % 64 < 0x38 then
    let t := (off - 0xF4000) / 64
    match off % 64 with
    | 0x08 => (stOkPartial, d)
    | 0x10 => icuModeWrite who t v mask d
    | 0x18 => icuBaseWrite who t v mask d
    | 0x20 => icuConsumerWrite who t v mask d
    | 0x28 => icuWdogWrite who t v mask d
    | _ => (icuRefused d who (icuRead d off) v mask, d)
  else if off = 0xF0000 then (icuRefused d who (icuRead d off) v mask, d)
  else (stOk, d)

/-- Every bit of a register. -/
def allBits : Nat := 2 ^ 64 - 1

/-- ICU_SOFT. -/
def execIcuSoft (who : Writer) (target : Nat) (s : State) : Host.Outcome State Fault Refusal :=
  .next (onDev (fun d => (icuSoftWrite who target allBits d).2) s)

/-- ICU_TGT_MODE. -/
def execIcuTgtMode (who : Writer) (target : Nat) (value : Word) (s : State) : Host.Outcome State Fault Refusal :=
  .next (onDev (fun d => if target < 26 then (icuModeWrite who target value.toNat allBits d).2 else d) s)

/-- ICU_RING_CONSUMER: ICU_TGT_RING_IDX with CONSUMER alone written. -/
def execIcuRingConsumer (who : Writer) (target consumer : Nat) (s : State) : Host.Outcome State Fault Refusal :=
  .next (onDev (fun d => if target < 26 ∧ icuOwns d who target then consumeRing target (consumer % 2 ^ 32) d else d) s)

/-- ICU_SRC. -/
def execIcuSrc (who : Writer) (source : Nat) (value : Word) (s : State) : Host.Outcome State Fault Refusal :=
  .next (onDev (fun d => (icuSrcWrite who source value.toNat allBits d).2) s)

/-! ### Claim and complete -/

/-- What a target's read of ICU_TGT_CLAIM returns (R424): VALID and the source, or zero. -/
def claimValue (d : Dev) (t : Nat) : Nat :=
  if (tgtOf d t).ring then 0
  else match selected d t with
    | some n => 2 ^ 15 + n
    | none => 0

/-- A target's read of its claim register (R424): the selected source becomes active and an edge source's latch is cleared. In
ring mode nothing is claimed (R428). -/
def claimSource (t : Nat) (d : Dev) : Dev :=
  if (tgtOf d t).ring then d
  else match selected d t with
    | none => d
    | some n =>
      let g := tgtOf d t
      takeSrc n (setTgt t { g with claims := (g.claims + 1) % 2 ^ 32 } d)

/-- ICU_TGT_CLAIM. -/
def execIcuTgtClaim (target : Nat) (s : State) : Host.Outcome State Fault Refusal :=
  .next (onDev (fun d => if target < 26 then claimSource target d else d) s)

/-- A target's write of ICU_TGT_COMPLETE (R424): the service of an active source of the target ends; any other is ignored and
counted. -/
def completeSource (t n : Nat) (d : Dev) : Dev :=
  let s := srcOf d n
  if s.active ∧ s.target = t then pumpFor n (setSrc n { s with active := false } d)
  else
    let g := tgtOf d t
    setTgt t { g with badComplete := min 65535 (g.badComplete + 1) } d

/-- ICU_TGT_COMPLETE. -/
def execIcuTgtComplete (target source : Nat) (s : State) : Host.Outcome State Fault Refusal :=
  .next (onDev (fun d => if target < 26 then completeSource target (source % 1024) d else d) s)

/-- What the boundary does at the controller: BOUNDARY pulses for every target after step 9 (Table 15-2), and a full ring with a
record waiting is counted (R428). -/
def icuBoundary (d : Dev) : Dev :=
  let d := [8, 9].foldl (fun d t =>
    let g := tgtOf d t
    if g.ring ∧ (selected d t).isSome then setTgt t { g with ringFull := min 65535 (g.ringFull + 1) } d else d) d
  (List.range 26).foldl (fun d t => pulse (32 * t + 1) d) d

/-! ### Watchdogs -/

/-- WATCHDOG_KICK: a write of ICU_TGT_WDOG with KICK = 1 and PERIOD as it is (R420). -/
def watchdogKick (who : Writer) (t : Nat) (d : Dev) : Dev :=
  if t < 10 then (icuWdogWrite who t (2 ^ 63) (2 ^ 63) d).2 else d

/-- WATCHDOG_KICK. -/
def execWatchdogKick (who : Writer) (target : Nat) (s : State) : Host.Outcome State Fault Refusal :=
  .next (onDev (watchdogKick who target) s)

/-- Half a watchdog period passes: the target's WATCHDOG source pulses, once in a period (R420). -/
def watchdogHalf (t : Nat) (d : Dev) : Dev :=
  let g := tgtOf d t
  if 10 ≤ t ∨ g.period = 0 ∨ g.half then d else pulse (32 * t + 2) (setTgt t { g with half := true } d)

/-- WATCHDOG_HALF. -/
def execWatchdogHalf (target : Nat) (s : State) : Host.Outcome State Fault Refusal := .next (onDev (watchdogHalf target) s)

/-- The commands that a Cox core was executing complete with DEVICE_FAULT: which of the commands in flight those are is free. Line
parts already performed stay performed (R420). -/
def coxCommands (d : Dev) : Dev :=
  (d.jobs.filter fun j => match j.2.owner with
    | .command _ => true
    | _ => false).foldl (fun d j =>
      let (f, d) := drawNat d
      if f % 2 = 1 then abortJob j.1 stDeviceFault d else d) d

/-- A processor misses its watchdog (R420). second says that a Cox core missed it within the last second. -/
def watchdogMiss (t : Nat) (second : Bool) (d : Dev) : Dev :=
  let g := tgtOf d t
  if 10 ≤ t ∨ g.period = 0 then d
  else
    let g := { g with misses := min 65535 (g.misses + 1), half := false }
    if t < 8 then
      (if second then enterFatal 0x10 (setTgt t g d) else coxCommands (faultCE 0x10 (0x9000 + t) 0 (setTgt t g d)))
    else
      let d := setTgt t { g with ring := false, size := 6 } d
      let d := (List.range 32).foldl (fun d k =>
        if (tGet? d.icu (32 * t + k)).isSome then setSrc (32 * t + k) { srcOf d (32 * t + k) with active := false } d else d) d
      faultCE 0x10 (0x9000 + t) 0 d

/-- WATCHDOG_MISS. -/
def execWatchdogMiss (target : Nat) (withinSecond : Bool) (s : State) : Host.Outcome State Fault Refusal :=
  .next (onDev (watchdogMiss target withinSecond) s)

end Sys2Proof.Machine
end

