-- ==== Sys2Proof/Machine/Queues.lean ====
section
/-! DEFINITION. Machine/Queues.lean: NOP, the session and queue commands, the doorbells, and completions that waited for a
ring (Chapter 7). -/

namespace Sys2Proof.Machine

/-- NOP (R227): with eight parameter bytes it returns them in words 0 and 1. -/
def nopBody (q : QCmd) (d : Dev) : Dev := complete q stOk [pNat q.cmd 0 4, pNat q.cmd 4 4] [] d

/-- NOP. -/
def execNop (c : Cmd) (s : State) : Host.Outcome State Fault Refusal := .next (runRow 0x0001 c (devBody nopBody) s)

/-- SESSION_CLOSE (R228): the completion is sent and the named session is closed. -/
def sessionCloseBody (q : QCmd) (d : Dev) : Dev :=
  let w := pNat q.cmd 0 4
  let i := w % 4096
  let own := match q.cmd.route with
    | .session k => k
    | .ring _ => 4096
  if bitsOf w 23 12 ≠ 0 then completeSt q stBadField d
  else if !fromManagement d q ∧ i ≠ own then completeSt q stNoRights d
  else if !(sessOf d i).isOpen ∨ (sessOf d i).gen ≠ w / 2 ^ 24 then completeSt q stStale d
  else closeSession i (release q stOk [] [] d)

/-- SESSION_CLOSE. -/
def execSessionClose (c : Cmd) (s : State) : Host.Outcome State Fault Refusal :=
  .next (runRow 0x0003 c (devBody sessionCloseBody) s)

/-- The regions that a range of bytes touches. -/
def rangeRegions (a n : Nat) : List Nat :=
  (List.range (if n = 0 then 0 else regionNo (a + n - 1) - regionNo a + 1)).map (regionNo a + ·)

/-- Whether a range lies wholly within registered regions of a crew. -/
def rangeOwned (d : Dev) (crew a n : Nat) : Bool :=
  (rangeRegions a n).all fun r => match tGet? d.regions r with
    | some x => x.crew == crew && x.state != .reserved
    | none => false

/-- Whether every region of a range bears a key word. -/
def rangeKey (d : Dev) (a n key : Nat) : Bool :=
  (rangeRegions a n).all fun r => (tGet? d.regions r).any fun x => x.key == key

/-- Whether a ring's base is home DRAM of this module on a 4 KiB boundary (Table 7-7). -/
def ringBaseOk (d : Dev) (a : Nat) : Bool := addrModule a == ownModule d && addrSpace a == 0 && aligned a 4096

/-- The issuing session, as a queue's notify session. -/
def issuer (d : Dev) (q : QCmd) : Option (Nat × Nat) := match q.cmd.route with
  | .session i => some (i, (sessOf d i).gen)
  | .ring _ => none

/-- The checks of QUEUE_CREATE in their order (R218). -/
def queueCreateCheck (d : Dev) (q : QCmd) : Option Nat :=
  let c := q.cmd
  let n := pNat c 0 2
  let flags := pNat c 3 1
  let attach := bitAt flags 2
  let r := queueOf d n
  let sq := pNat c 8 8
  let cq := pNat c 24 8
  let sqn := 64 * 2 ^ pNat c 4 1
  let cqn := 32 * 2 ^ pNat c 5 1
  let recent : Bool := match r.deletedAt with
    | some t => decide (d.stk.number < t + 256)
    | none => false
  if n ≥ 2 ^ 15 ∨ flags ≥ 8 then some stBadField
  else if !(crewOf d c.crew).hasQueue n then some stNoRights
  else if !attach ∧ (r.present ∨ recent) then some stBusy
  else if attach ∧ !r.present then some stBadField
  else if attach then
    (if pNat c 2 1 ≠ 0 ∨ !allZero (slice c.params 4 36) then some stBadField else none)
  else if pNat c 2 1 = 0 ∨ pNat c 4 1 < 8 ∨ pNat c 4 1 > 16 ∨ pNat c 5 1 < 8 ∨ pNat c 5 1 > 16
    ∨ !ringBaseOk d sq ∨ !ringBaseOk d cq then some stBadField
  else if !rangeOwned d c.crew sq sqn ∨ !rangeOwned d c.crew cq cqn then some stNoRights
  else if !rangeKey d sq sqn (pNat c 16 5) ∨ !rangeKey d cq cqn (pNat c 32 5) then some stKeyMismatch
  else none

/-- QUEUE_CREATE (R218): with ATTACH = 0 the queue is created at a new generation, with ATTACH = 1 only its notify session
changes. -/
def queueCreateBody (q : QCmd) (d : Dev) : Dev :=
  match queueCreateCheck d q with
  | some st => completeSt q st d
  | none =>
    let c := q.cmd
    let n := pNat c 0 2
    let flags := pNat c 3 1
    let r := queueOf d n
    let notify := if bitAt flags 1 then issuer d q else none
    if bitAt flags 2 then
      complete q stOk [n + r.gen * 2 ^ 16] []
        (logCmd q r.crew 3 (n + r.gen * 2 ^ 16) (b2n r.notify.isSome) (b2n notify.isSome) (setQueue n { r with notify } d))
    else
      let g := nextGen8 r.gen
      let new : Queue := {
        present := true, crew := c.crew, gen := g, weight := pNat c 2 1, doorbell := bitAt flags 0, notify,
        sqLog := pNat c 4 1, cqLog := pNat c 5 1, sqBase := pNat c 8 8, sqKey := pNat c 16 5, cqBase := pNat c 24 8,
        cqKey := pNat c 32 5, fLast := (crewOf d c.crew).vtime }
      let d := deviceWrite new.cqBase new.cqKey (zeros (32 * 2 ^ new.cqLog)) (setQueue n new d)
      complete q stOk [n + g * 2 ^ 16] [] (logCmd q c.crew 3 (n + g * 2 ^ 16) r.gen g d)

/-- QUEUE_CREATE: the row has ATTACH = 0. -/
def execQueueCreate (c : Cmd) (s : State) : Host.Outcome State Fault Refusal :=
  .next (runRow 0x0004 (withByte c 3 (putBits (pNat c 3 1) 2 2 0)) (devBody queueCreateBody) s)

/-- QUEUE_ATTACH: QUEUE_CREATE with ATTACH = 1. -/
def execQueueAttach (c : Cmd) (s : State) : Host.Outcome State Fault Refusal :=
  .next (runRow 0x0004 (withByte c 3 (putBits (pNat c 3 1) 2 2 1)) (devBody queueCreateBody) s)

/-- Whether a queue has commands that have started and not ended. -/
def queueBusy (d : Dev) (n : Nat) : Bool := (startedCmds d).any (·.onQueue n)

/-- The refusals of QUEUE_DELETE in their order (R219). -/
def queueDeleteCheck (d : Dev) (q : QCmd) : Option Nat :=
  let n := pNat q.cmd 0 2
  let r := queueOf d n
  if n ≥ 2 ^ 15 then some stBadField
  else if q.onQueue n then some stBadField
  else if !(crewOf d q.cmd.crew).hasQueue n then some stNoRights
  else if !r.present ∨ r.gen ≠ pNat q.cmd 2 1 then some stStale
  else if r.deleting.isSome then some stBusy
  else if (d.longops.any fun l => l.2.state ≠ 5 ∧ l.2.q.onQueue n) ∨ boundQueue d n ∨ r.polEn then some stBusy
  else none

/-- A queue's commands that have not started cancelled with a status: a completion that finds the ring full is counted and
not written (R219). -/
def cancelHeld (n st : Nat) (d : Dev) : Dev :=
  let r := queueOf d n
  r.held.foldl (fun d q =>
    if (queueOf d n).cqFree > 0 then completeSt q st d
    else
      let r := queueOf d n
      setQueue n { r with unwritten := r.unwritten + 1 } d) (setQueue n { r with held := [] } d)

/-- QUEUE_DELETE (R219): the generation is bumped and the commands that have not started are cancelled; QUEUE_DELETE_END
completes it. -/
def queueDeleteBody (q : QCmd) (d : Dev) : Dev :=
  match queueDeleteCheck d q with
  | some st => completeSt q st d
  | none =>
    let n := pNat q.cmd 0 2
    let r := queueOf d n
    let g := nextGen8 r.gen
    cancelHeld n stCancelled
      (logCmd q r.crew 3 (n + g * 2 ^ 16) r.gen g (setQueue n { r with gen := g, deleting := some q, unwritten := 0 } d))

/-- QUEUE_DELETE. -/
def execQueueDelete (c : Cmd) (s : State) : Host.Outcome State Fault Refusal :=
  .next (runRow 0x0005 c (devBody queueDeleteBody) s)

/-- The started commands of a queue being deleted have ended: the queue is deleted and QUEUE_DELETE completes (R219). -/
def queueDeleteEnd (n : Nat) (d : Dev) : Dev :=
  let r := queueOf d n
  match r.deleting with
  | none => d
  | some q =>
    if queueBusy d n then d
    else complete q stOk [0, r.unwritten] []
      (setQueue n { crew := r.crew, gen := r.gen, deletedAt := some d.stk.number } d)

/-- QUEUE_DELETE_END. -/
def execQueueDeleteEnd (queue : Nat) (s : State) : Host.Outcome State Fault Refusal := .next (onDev (queueDeleteEnd queue) s)

/-! ### Doorbells -/

/-- The command that a ring entry spells (Table 7-4), with its continuation bytes (R211). -/
def parseCmd (route : Route) (l : List Byte) : Nat × Cmd :=
  let n := fieldLe l 12 4
  let body := (l.drop 16)
  let m := if n ≤ 8208 then n else 48
  (fieldLe l 0 2, { route, flags := fieldLe l 2 1, crew := fieldLe l 3 1, tag := fieldLe l 4 2, tagGen := fieldLe l 6 1,
                    rsv7 := fieldLe l 7 1, queue := fieldLe l 8 2, qgen := fieldLe l 10 1, rsv11 := fieldLe l 11 1, length := n,
                    padZero := allZero (body.drop m), params := slice body 0 m })

/-- What reading ring entries gives: their bytes, nothing that can be read, or a wait for an agent's answer (R54). -/
inductive Fetched where
  | bytes (l : List Byte)
  | lost
  | waits

/-- The bytes of k ring entries from free-running index i on. -/
def readEntries (r : Queue) (i : Nat) : Nat → Dev → Fetched × Dev
  | 0, d => (.bytes [], d)
  | k + 1, d =>
    let (ps, d) := deviceParts (r.sqBase + i % 2 ^ r.sqLog * 64) 64 r.sqKey d
    if !ps.all Part.done then (.waits, d)
    else if firstBad ps ≠ stOk then (.lost, d)
    else match readEntries r (i + 1) k d with
      | (.bytes l, d) => (.bytes (gatherBytes 64 ps ++ l), d)
      | x => x

/-- SQ_HEAD moved on over entries read. -/
def advanceHead (n k : Nat) (d : Dev) : Dev :=
  let r := queueOf d n
  setQueue n { r with sqHead := (r.sqHead + k) % 2 ^ 32 } d

/-- A command taken from a ring or a datagram: held for its policer's colour where it is policed, otherwise checked at once
and held for arbitration (R71, R221). -/
def takeArrival (q : QCmd) (d : Dev) : Dev :=
  if (policerFor d q.cmd).isSome then enqueue { q with admitted := false } d
  else match arrivalCheck d q with
    | some st => completeSt q st d
    | none => if sessionFull d q then completeSt q stBusy d else enqueue q (ringIn q d)

/-- The entries between SQ_HEAD and the tail read (R216). An entry that names another queue completes with BAD_FIELD; one of
an old generation, or one that cannot be read, is discarded and counted; a command whose continuation lies beyond the tail
waits, and so does the reading where an agent holds the entry. What is read is an arrival of its doorbell's stroke. -/
def readRing (n : Nat) : Nat → Dev → Dev
  | 0, d => d
  | fuel + 1, d =>
    let r := queueOf d n
    let s := r.readWait.getD d.stk.number
    let wait (d : Dev) : Dev := setQueue n { queueOf d n with readWait := some s } d
    let stop (d : Dev) : Dev := setQueue n { queueOf d n with readWait := none } d
    let avail := (r.sqTail + 2 ^ 32 - r.sqHead) % 2 ^ 32
    if avail = 0 then stop d
    else match readEntries r r.sqHead 1 d with
      | (.waits, d) => wait d
      | (.lost, d) => readRing n fuel (discard n false (advanceHead n 1 d))
      | (.bytes b, d) =>
        let (op, c) := parseCmd (.ring n) b
        if boundQueue d n then readRing n fuel (discard n false (advanceHead n (min avail (entriesFor c.length)) d))
        else if c.queue % 2 ^ 15 ≠ n then
          let (q, d) := arrive op c 0 (advanceHead n 1 d)
          readRing n fuel (completeSt { q with cmd := { c with queue := n } } stBadField d)
        else if c.qgen ≠ r.gen then readRing n fuel (discard n false (advanceHead n 1 d))
        else
          let k := entriesFor c.length
          if avail < k then stop d
          else match readEntries r r.sqHead k d with
            | (.waits, d) => wait d
            | (.lost, d) => readRing n fuel (discard n false (advanceHead n 1 d))
            | (.bytes b, d) =>
              let (op, c) := parseCmd (.ring n) b
              let (q, d) := arrive op c 0 (advanceHead n k d)
              readRing n fuel (takeArrival { q with stamp := s } d)

/-- The rings whose entries an agent held read on (step 9). -/
def readOn (d : Dev) : Dev :=
  d.queues.foldl (fun d x => if x.2.readWait.isSome then readRing x.1 (2 ^ x.2.sqLog + 1) d else d) d

/-- Who may ring a queue's doorbell: the queue's crew, or management (R101, R215, R333). none is a store that the rules
ignore. -/
def doorbellRight (d : Dev) (who : Writer) (n : Nat) : Option Bool := match who with
  | .session i =>
    let s := sessOf d i
    if s.isOpen then some (s.management || (crewOf d s.crew).hasQueue n) else none
  | .fabric c _ => some ((crewOf d c).hasQueue n)
  | _ => none

/-- The status of an accepted or discarded doorbell store: OK_PARTIAL where its reserved bits were set (R15, R215). -/
def doorbellStatus (v : Nat) : Nat := if bitsOf v 55 32 = 0 then stOk else stOkPartial

/-- A store to SQ_TAIL (R215, R216). -/
def sqTailWrite (who : Writer) (n v : Nat) (d : Dev) : Nat × Dev :=
  match doorbellRight d who n with
  | none => (stOkPartial, d)
  | some false => (stNoRights, d)
  | some true =>
    let r := queueOf d n
    let tail := bitsOf v 31 0
    if d.flt.fatal then (doorbellStatus v, d)
    else if !r.present ∨ r.gen ≠ bitsOf v 63 56 ∨ !r.doorbell ∨ diff32 tail r.sqTail < 0
      ∨ diff32 tail r.sqHead > 2 ^ r.sqLog then (doorbellStatus v, discard n true d)
    else (doorbellStatus v, readRing n (2 ^ r.sqLog + 1) (setQueue n { r with sqTail := tail } d))

/-- SQ_TAIL: a doorbell store. -/
def execSqTail (who : Writer) (queue : Nat) (value : Word) (s : State) : Host.Outcome State Fault Refusal :=
  .next (onDev (fun d => (sqTailWrite who queue value.toNat d).2) s)

/-- A completion that waited for its ring written as soon as an entry frees (R94, R217). -/
def deferredWrite (n : Nat) (d : Dev) : Dev :=
  let r := queueOf d n
  match r.deferred with
  | [] => d
  | c :: cs => if r.cqFree = 0 ∨ d.flt.fatal then d else writeCq n c (setQueue n { r with deferred := cs } d)

/-- Every completion that waited for its ring and now has room there. -/
def deferredAll (n : Nat) (d : Dev) : Dev := (queueOf d n).deferred.foldl (fun d _ => deferredWrite n d) d

/-- A store to CQ_HEAD (R215): discarded where it runs past CQ_TAIL. -/
def cqHeadWrite (who : Writer) (n v : Nat) (d : Dev) : Nat × Dev :=
  match doorbellRight d who n with
  | none => (stOkPartial, d)
  | some false => (stNoRights, d)
  | some true =>
    let r := queueOf d n
    let head := bitsOf v 31 0
    if d.flt.fatal then (doorbellStatus v, d)
    else if !r.present ∨ r.gen ≠ bitsOf v 63 56 ∨ diff32 head (cqWritten d n) > 0 then (doorbellStatus v, discard n true d)
    else (doorbellStatus v, setQueue n { r with cqHead := head } d)

/-- CQ_HEAD: a store of completions consumed. -/
def execCqHead (who : Writer) (queue : Nat) (value : Word) (s : State) : Host.Outcome State Fault Refusal :=
  .next (onDev (fun d => (cqHeadWrite who queue value.toNat d).2) s)

/-- DEFERRED_COMPLETION_WRITE. -/
def execDeferredCompletionWrite (queue : Nat) (s : State) : Host.Outcome State Fault Refusal :=
  .next (onDev (deferredWrite queue) s)

end Sys2Proof.Machine
end

