-- ==== Sys2Proof/Machine/LongOps.lean ====
section
/-! DEFINITION. Machine/LongOps.lean: key words drawn and bumped (R96), and the start and end of a long operation (R59, R60). -/

namespace Sys2Proof.Machine

/-! ### Keys and the replay-protected counters -/

/-- The value that draw n of the permutation gives (R96). -/
def keyValue (n : Nat) : Nat := (Config.keyPerm (BitVec.ofNat 32 n)).toNat

/-- One key value drawn: the counter of the secure flash advances, so no value is issued twice (R96). -/
def drawKey (s : State) : Nat × State :=
  (keyValue s.nv.keyCounter, { s with nv := { s.nv with keyCounter := s.nv.keyCounter + 1 } })

/-- A key word with its value at generation 1 (R96). -/
def newKeyWord (v : Nat) : Nat := 2 ^ 32 + v

/-- A key word bumped: a generation of 255 takes a new value at generation 1 (R96). -/
def bumpKey (k : Nat) (s : State) : Nat × State :=
  if k / 2 ^ 32 < 255 then (k + 2 ^ 32, s)
  else
    let (v, s) := drawKey s
    (newKeyWord v, s)

/-- A creation of a crew number counted; CRW_STATE.GEN follows the count (Table 1-15, R225). -/
def countCrew (crew : Nat) (s : State) : State :=
  { s with nv := { s.nv with crewCount := tSet s.nv.crewCount crew (tGet s.nv.crewCount crew + 1) } }

/-- The generation that a count of creations gives: 0 before the first, then 1 to 255 and 1 again (R225). -/
def genOfCount (n : Nat) : Nat := if n = 0 then 0 else (n - 1) % 255 + 1

/-- The memory-key EPOCH of a crew number raised (R351). -/
def raiseEpoch (crew : Nat) (s : State) : State :=
  { s with nv := { s.nv with epochs := tSet s.nv.epochs crew (tGet s.nv.epochs crew + 1) } }

/-! ### Long operations -/

/-- A long operation's record; an index never used has ENDED at generation 0. -/
def opOf (d : Dev) (i : Nat) : LongOp := (tGet? d.longops i).getD {}
/-- A long operation's record replaced. -/
def setOp (i : Nat) (l : LongOp) (d : Dev) : Dev := { d with longops := tSet d.longops i l }
/-- A long operation's record changed, where it has not ended. -/
def modOp (i : Nat) (f : LongOp → LongOp) (d : Dev) : Dev := { d with longops := tMod d.longops i f }
/-- The free index that has been free longest (R59). -/
def freeOp (d : Dev) : Option Nat :=
  leastBy (fun i => (opOf d i).freedAt * 4096 + i) ((List.range 4096).filter fun i => (opOf d i).state == 5)
/-- A handle (R59). -/
def opHandle (gen i : Nat) : Nat := gen * 2 ^ 24 + i

/-- A long operation started (R60): its acceptance completion carries the handle with bit 23 clear. Where 4,096 run, the
command completes with BUSY (R59). -/
def startOp (q : QCmd) (l : LongOp) (d : Dev) : Dev :=
  match freeOp d with
  | none => completeSt q stBusy d
  | some i =>
    let g := nextGen8 (opOf d i).gen
    complete { q with reserved := q.reserved - (q.reserved - 1) } stOk [opHandle g i] []
      (setOp i { l with gen := g, state := 1, crew := q.cmd.crew, opcode := q.opcode, since := d.stk.number,
                        q := { q with reserved := q.reserved - 1 } } d)

/-- A long operation ended (R60): its final completion carries the handle with bit 23 set, and the words of its chapter. -/
def endOp (i st : Nat) (words : List Nat) (d : Dev) : Dev :=
  let l := opOf d i
  if l.state = 5 then d
  else
    let (t, d) := freshId d
    complete l.q st ((opHandle l.gen i + 2 ^ 23) :: words) []
      (setOp i { l with state := 5, final := st, freedAt := t, progress := if st = stOk then 65535 else l.progress } d)

/-- The long operations that have not ended. -/
def liveOps (d : Dev) : List (Nat × LongOp) := d.longops.filter fun l => l.2.state != 5

/-- A range of whole regions. -/
def regionRun (first count : Nat) : List Nat := (List.range count).map (first + ·)

/-- Whether two ranges of regions meet. -/
def runsMeet (a n b m : Nat) : Bool := decide (a < b + m) && decide (b < a + n) && decide (0 < n) && decide (0 < m)

end Sys2Proof.Machine
end

