-- ==== Sys2Proof/Machine/Uses.lean ====
section
/-! DEFINITION. Machine/Uses.lean: what is in use: the areas of tables, indexes, filters, windows and placements, over which a
revocation completes with BUSY (R147, R161, R286, R309, R329), and the regions of crews. -/

namespace Sys2Proof.Machine

/-- Bytes of an element in a VFMT (Table 11-1). -/
def vfmtBytes (f : Nat) : Nat := if f = 0 then 4 else if f = 1 then 2 else 1

/-- Bytes of a side-list entry (Table 11-5). -/
def sideBytes (g : IndexDesc) : Nat := 128 * ceilDiv (16 + g.dim * vfmtBytes g.vfmt) 128

/-- An index's capacity in ordinals (Table 11-1). -/
def IndexDesc.capacity (g : IndexDesc) : Nat := g.capK * 1024

/-- The areas of an index descriptor as address and bytes (Table 11-1). -/
def indexAreas (g : IndexDesc) : List (Nat × Nat) :=
  [(g.centroids, g.nlist * g.dim * 2), (g.codebook, 1024 * g.dim), (g.directory, g.nlist * 16), (g.lists, g.listBytes),
   (g.side, g.sideSlots * sideBytes g)]
  ++ (if g.degree = 0 then [] else [(g.graph, g.capacity * g.degree * 4), (g.codes, g.capacity * g.m)])

/-- The areas of active indexes and their bound bitmaps (R329). -/
def indexUses (d : Dev) : List (Nat × Nat) :=
  (d.indexes.filter fun i => i.2.state != 0).flatMap fun i =>
    indexAreas i.2.desc
      ++ (i.2.filters.filter fun f => f.2.bound).map fun f => (f.2.bitmap, i.2.desc.capK * 128)

/-- The descriptor arrays and body areas of active tables (R309). -/
def tableUses (d : Dev) : List (Nat × Nat) :=
  (d.tables.filter fun t => t.2.state != 0).flatMap fun t => [(t.2.descs, t.2.rows * 8), (t.2.body, t.2.bodyRegions * 2 ^ 21)]

/-- The sources and rings of windows (R161). -/
def windowUses (d : Dev) : List (Nat × Nat) :=
  (d.wins.filter fun w => w.2.state != 0).flatMap fun w =>
    [(w.2.source, w.2.spans * w.2.spanBytes), (w.2.ring, 65536 + w.2.slots * w.2.spanBytes)]

/-- Whether an opcode and kind byte is a PLACE. -/
def isPlace (l : LongOp) : Bool := l.opcode == 0x201

/-- The sources and destinations of running PLACEs (R147). -/
def placeUses (d : Dev) : List (Nat × Nat) :=
  ((liveOps d).filter fun l => isPlace l.2).flatMap fun l =>
    [(l.2.first * 2 ^ 21, l.2.count * 2 ^ 21), (l.2.dest * 2 ^ 21, l.2.count * 2 ^ 21)]

/-- Bytes of a slot of a rank and factor format (Table 9-2); rank and format are the codes of Table 9-3. -/
def slotBytes (rank ffmt : Nat) : Nat := 16 + 256 * (4 * 2 ^ rank) * (if ffmt = 2 then 2 else 1)

/-- Bytes of a dense 128 × 128 tile in a format (R245, R277). -/
def tileBytes (fmt : Nat) : Nat := arrayBytes fmt 16384

/-- The sources and destinations of running FACTORs (R286). words hold the operation's rank and factor format. -/
def factorUses (d : Dev) : List (Nat × Nat) :=
  ((liveOps d).filter fun l => l.2.opcode == 0x305).flatMap fun l =>
    let c := l.2.q.cmd
    let tiles := pNat c 18 2 * pNat c 16 2
    [(pNat c 0 8, tiles * tileBytes (pNat c 13 1)), (pNat c 24 8, tiles * slotBytes (l.2.words.getD 0 0) (l.2.words.getD 1 0))]

/-- Whether a PLACE runs on a segment, or on any segment of a context (R147). -/
def placeOn (d : Dev) (c : Nat) (sg : Option Nat) : Bool :=
  (liveOps d).any fun l => isPlace l.2 && pNat l.2.q.cmd 0 2 == c && (match sg with
    | some s => pNat l.2.q.cmd 2 1 == s
    | none => true)

/-- Whether two ranges of bytes meet. -/
def bytesMeet (a n b m : Nat) : Bool := decide (a < b + m) && decide (b < a + n) && decide (0 < n) && decide (0 < m)

/-- Whether a run of regions is in use by an object that keeps a revocation out. -/
def regionsHeld (d : Dev) (first count : Nat) : Bool :=
  (indexUses d ++ tableUses d ++ windowUses d ++ placeUses d ++ factorUses d).any fun u =>
    bytesMeet u.1 u.2 (first * 2 ^ 21) (count * 2 ^ 21)

/-- Whether a run of regions meets a revocation in progress. -/
def underRevoke (d : Dev) (first count : Nat) : Bool := d.revokes.any fun r => runsMeet r.2.first r.2.count first count

/-- Whether a region-table entry is one that a command may name: not RESERVED. -/
def Region.live (r : Region) : Bool := r.state != .reserved

/-- The live entry of a region. -/
def liveRegion (d : Dev) (r : Nat) : Option Region := (tGet? d.regions r).filter Region.live

/-- A region's entry changed. -/
def modRegion (r : Nat) (f : Region → Region) (d : Dev) : Dev := { d with regions := tMod d.regions r f }

/-- The fabric identifiers of this module's own units (Table 6-5). -/
def ownUnit (d : Dev) (id : Nat) : Bool := id / 16 == (unitId (ownModule d) 0) / 16

/-- Whether an address lies in a protected region. -/
def isProtected (d : Dev) (a : Nat) : Bool := ((regionAt d a).getD {}).prot

/-- Whether every region of a range is a protected region of a crew on this module. -/
def rangeProtected (d : Dev) (crew a n : Nat) : Bool :=
  addrModule a == ownModule d && (rangeRegions a n).all fun r => match liveRegion d r with
    | some x => x.crew == crew && x.prot
    | none => false

/-- What a command finds of a range on this module under a key word (R95, R136), region by region: KEY_MISMATCH where the key
word differs or the range begins in no region, NO_RIGHTS where it runs beyond its regions or into another crew's. -/
def rangeCheck (d : Dev) (crew a n key : Nat) : Option Nat :=
  (rangeRegions a n).findSome? fun r => match liveRegion d r with
    | none => some (if r = regionNo a then stKeyMismatch else stNoRights)
    | some x =>
      if x.key ≠ key ∨ x.state = .revoking then some stKeyMismatch
      else if x.crew ≠ crew then some stNoRights
      else none

end Sys2Proof.Machine
end

