-- ==== Sys2Proof/Machine/Regions.lean ====
section
/-! DEFINITION. Machine/Regions.lean: REGION_REGISTER, REGION_REVOKE with its drain and scrubbing, SEGMENT_SET and FAULT_RESOLVE
(Chapter 3). -/

namespace Sys2Proof.Machine

/-! ### Registration -/

/-- Regions of home DRAM that a crew has left under its quota. -/
def dramLeft (d : Dev) (crew : Nat) : Nat := (crewOf d crew).dramQuota - (crewOf d crew).dramUsed

/-- Paired regions registered on this bow. -/
def pairedCount (d : Dev) : Nat := (d.regions.filter fun r => r.2.paired).length

/-- The checks of REGION_REGISTER in their order (R98), then those of a paired registration (R388, R389). -/
def registerCheck (d : Dev) (q : QCmd) : Option Nat :=
  let c := q.cmd
  let a := pNat c 0 8
  let n := pNat c 8 4
  let flags := pNat c 12 1
  let run := regionRun (regionNo a) n
  if flags ≥ 8 then some stBadField
  else if n = 0 then some stOk
  else if !aligned a (2 ^ 21) ∨ addrSpace a ≠ 0 ∨ addrModule a ≠ ownModule d ∨ addrOff a + n * 2 ^ 21 > 2 ^ 50 then some stBadField
  else if bitAt flags 0 ∧ d.cfg.role ≠ 1 then some stBadField
  else if run.any fun r => (liveRegion d r).isSome then some stBadField
  else if run.any fun r => d.scrubbing.contains r then some stBusy
  else if n > dramLeft d c.crew then some stBadField
  else if bitAt flags 0 ∧ d.pair.state ≠ 4 then some stBusy
  else if bitAt flags 0 ∧ pairedCount d + n > cfgField d 0x110008 63 32 then some stBusy
  else none

/-- Regions entered in the table under one key word and one data generation; they read as zero. -/
def enterRegions (first count : Nat) (r : Region) (d : Dev) : Dev :=
  let d := (regionRun first count).foldl (fun d i => { d with regions := tSet d.regions i r }) d
  { d with mem := memClear d.mem (first * 2 ^ 21) (count * 2 ^ 21),
           poison := d.poison.filter fun l => !(decide (first * 16384 ≤ l) && decide (l < (first + count) * 16384)),
           counters := d.counters.filter fun c => !(decide (first * 32 ≤ c.1) && decide (c.1 < (first + count) * 32)) }

/-- A command that waits for the mirror to acknowledge a region change, and then completes (R389, R391). -/
def waitMirrored (q : QCmd) (words : List Nat) (d : Dev) : Dev :=
  let (i, d) := freshId d
  setJob i { owner := .command q, crew := q.cmd.crew, stamp := d.stk.number, goal := .output stOk words,
             parts := [{ act := .write, admitted := true, state := .waiting (.mirrored d.pair.mseq) }] } d

/-- REGION_REGISTER (R98): one key word and, for a protected registration, one DGEN (R352) are drawn. -/
def regionRegisterBody (q : QCmd) (s : State) : State :=
  match registerCheck s.dev q with
  | some st => { s with dev := completeSt q st s.dev }
  | none =>
    let c := q.cmd
    let first := regionNo (pNat c 0 8)
    let n := pNat c 8 4
    let flags := pNat c 12 1
    let (v, s) := drawKey s
    let (g, s) := if bitAt flags 1 then drawKey s else (0, s)
    let r : Region := { crew := c.crew, key := newKeyWord v, paired := bitAt flags 0, prot := bitAt flags 1,
                        revert := bitAt flags 2, dgen := g }
    let d := modCrew c.crew (fun x => { x with dramUsed := x.dramUsed + n }) (enterRegions first n r s.dev)
    let d := logCmd q c.crew 2 (pNat c 0 8) 0 r.key d
    { s with dev := if r.paired then waitMirrored q [v, 1] (sendRegion first n 1 r d) else complete q stOk [v, 1] [] d }

/-- REGION_REGISTER. -/
def execRegionRegister (c : Cmd) (s : State) : Host.Outcome State Fault Refusal := .next (runRow 0x0107 c regionRegisterBody s)

/-! ### Revocation -/

/-- Whether a part has passed its key check, is unfinished and lies in a run of regions. -/
def Part.inFlight (first count : Nat) (p : Part) : Bool :=
  p.admitted && !p.done && decide (first ≤ regionNo p.addr) && decide (regionNo p.addr < first + count)

/-- The jobs with an admitted access in flight in a run of regions. -/
def flightJobs (d : Dev) (first count : Nat) : List Nat :=
  (d.jobs.filter fun j => j.2.parts.any (·.inFlight first count)).map (·.1)

/-- The checks of REGION_REVOKE in their order (R99 step 1). -/
def revokeCheck (d : Dev) (q : QCmd) : Option Nat :=
  let c := q.cmd
  let a := pNat c 0 8
  let n := pNat c 8 4
  let mode := pNat c 12 1
  let first := regionNo a
  let run := regionRun first n
  if n = 0 then some stOk
  else if !aligned a (2 ^ 21) ∨ addrSpace a ≥ 2 ∨ addrModule a ≠ ownModule d ∨ addrOff a + n * 2 ^ 21 > 2 ^ 50 ∨ mode ≥ 2 then
    some stBadField
  else if run.any fun r => match liveRegion d r with
      | none => true
      | some x => x.crew != c.crew && !fromManagement d q then some stNoRights
  else if mode = 0 ∧ run.any (fun r => ((tGet? d.regions r).getD {}).key ≠ ((tGet? d.regions first).getD {}).key) then some stBadField
  else if underRevoke d first n ∨ regionsHeld d first n then some stBusy
  else none

/-- The key words of a run of regions, each once. -/
def runKeys (d : Dev) (first count : Nat) : List Nat :=
  (regionRun first count).foldl (fun l r => match tGet? d.regions r with
    | some x => addTo l x.key
    | none => l) []

/-- Every key word of a list bumped (R96): old and new. -/
def bumpKeys : List Nat → State → List (Nat × Nat) × State
  | [], s => ([], s)
  | k :: ks, s =>
    let (k', s) := bumpKey k s
    let (l, s) := bumpKeys ks s
    ((k, k') :: l, s)

/-- A revocation begun (R99 step 2): every region of the run takes its bumped key word; under RELEASE every new access fails
from now on. A paired run is bumped on the stern as well. -/
def beginRevoke (q : Option QCmd) (first count : Nat) (release : Bool) (s : State) : State :=
  let (ks, s) := bumpKeys (runKeys s.dev first count) s
  let flights := flightJobs s.dev first count
  let d := (regionRun first count).foldl (fun d r => modRegion r (fun x =>
      { x with key := ((ks.find? fun k => k.1 = x.key).map (·.2)).getD x.key,
               state := if release then .revoking else x.state }) d) s.dev
  let x := (tGet? d.regions first).getD {}
  let d := if x.paired then sendRegion first count (if release then 3 else 2) x d else d
  let (i, d) := freshId d
  let rv : Revoke := {
    first, count, release, q, bumped := d.stk.number, newKey := x.key, admitted := flights,
    mseq := if x.paired then d.pair.mseq else 0 }
  { s with dev := { d with revokes := tSet d.revokes i rv } }

/-- REGION_REVOKE (R99). -/
def regionRevokeBody (q : QCmd) (s : State) : State :=
  match revokeCheck s.dev q with
  | some st => { s with dev := completeSt q st s.dev }
  | none =>
    let c := q.cmd
    let first := regionNo (pNat c 0 8)
    let x := (tGet? s.dev.regions first).getD {}
    let s := beginRevoke (some q) first (pNat c 8 4) (pNat c 12 1 == 1) s
    let y := (tGet? s.dev.regions first).getD {}
    onDev (logCmd q x.crew 2 (pNat c 0 8) x.key y.key) s

/-- REGION_REVOKE_REKEY: REGION_REVOKE with MODE REKEY. -/
def execRegionRevokeRekey (c : Cmd) (s : State) : Host.Outcome State Fault Refusal :=
  .next (runRow 0x0108 (withByte c 12 0) regionRevokeBody s)

/-- REGION_REVOKE_RELEASE: REGION_REVOKE with MODE RELEASE. -/
def execRegionRevokeRelease (c : Cmd) (s : State) : Host.Outcome State Fault Refusal :=
  .next (runRow 0x0108 (withByte c 12 1) regionRevokeBody s)

/-- Regions leave the table (R99 step 4): the quota of their crews is uncharged, and they are queued for scrubbing. -/
def leaveRegions (first count : Nat) (d : Dev) : Dev :=
  (regionRun first count).foldl (fun d r => match tGet? d.regions r with
    | none => d
    | some x =>
      let d := modCrew x.crew (fun c => if addrSpace (r * 2 ^ 21) = 1 then { c with denseUsed := c.denseUsed - x.charge }
                                        else { c with dramUsed := c.dramUsed - x.charge }) d
      { d with regions := tDel d.regions r, scrubbing := addTo d.scrubbing r }) d

/-- A revocation whose drain has ended (R99 steps 3 and 4): its command completes with Table 3-11's words, and under RELEASE the
regions leave the table. -/
def finishRevoke (i : Nat) (r : Revoke) (d : Dev) : Dev :=
  let d := { d with revokes := tDel d.revokes i }
  let d := if r.release then leaveRegions r.first r.count d else d
  let word (n : Nat) : Nat := if r.release then 0 else n
  match r.q with
  | none => d
  | some q => complete q stOk
      [word (r.newKey % 2 ^ 32), word (r.newKey / 2 ^ 32), r.admitted.length - r.aborted, r.aborted] [] d

/-- The admitted accesses of a revocation that are still unfinished. -/
def revokeLeft (d : Dev) (r : Revoke) : List Nat :=
  r.admitted.filter fun j => (flightJobs d r.first r.count).contains j

/-- The drain of a revocation judged: it ends once no admitted access remains and the stern has the bump. -/
def revokeDrainEnd (i : Nat) (d : Dev) : Dev :=
  match tGet? d.revokes i with
  | none => d
  | some r => if (revokeLeft d r).isEmpty ∧ r.mseq ≤ d.pair.acked then finishRevoke i r d else d

/-- REVOKE_DRAIN_END. -/
def execRevokeDrainEnd (revoke : Nat) (s : State) : Host.Outcome State Fault Refusal := .next (onDev (revokeDrainEnd revoke) s)

/-- The deadline of a revocation: the boundary that closes stroke b + STK_TIMEOUT.REQUEST ends its admitted accesses with
TIMEOUT (R99 step 3). -/
def revokeDeadline (i : Nat) (d : Dev) : Dev :=
  match tGet? d.revokes i with
  | none => d
  | some r =>
    if d.stk.number < r.bumped + reqTimeout d then d
    else
      let left := revokeLeft d r
      finishRevoke i { r with aborted := left.length } (left.foldl (fun d j => abortJob j stTimeout d) d)

/-- REVOKE_DEADLINE. -/
def execRevokeDeadline (revoke : Nat) (s : State) : Host.Outcome State Fault Refusal := .next (onDev (revokeDeadline revoke) s)

/-- The lines of a region that agents hold. -/
def heldLines (d : Dev) (r : Nat) : List (Nat × DirEntry) :=
  d.dir.filter fun e => e.1 / 16384 == r && e.2.state != 0

/-- The media of a sealed-tier object given back once none of its regions is in use or awaits scrubbing (R167). -/
def returnMedia (d : Dev) : Dev :=
  let gone (e : Nat × Extent) : Bool := (regionRun e.1 e.2.count).all fun r =>
    (tGet? d.regions r).isNone && !d.scrubbing.contains r
  let d := (d.extents.filter gone).foldl (fun d e =>
    { d with namespaces := tMod d.namespaces e.2.ns fun n => { n with free := n.free + e.2.blocks } }) d
  { d with extents := d.extents.filter fun e => !gone e }

/-- A released region scrubbed (R99 step 4, R142): agents' copies are invalidated first; then it reads as zero, its pages are
dropped and it may be registered again. -/
def regionScrub (r : Nat) (d : Dev) : Dev :=
  if !d.scrubbing.contains r then d
  else match heldLines d r with
    | [] =>
      let here (p : Nat) : Bool := p / 32 == r
      returnMedia { d with
        scrubbing := d.scrubbing.filter (· != r)
        mem := memClear d.mem (r * 2 ^ 21) (2 ^ 21)
        poison := d.poison.filter fun l => l / 16384 != r
        pages := d.pages.filter fun p => !here p.1
        appended := d.appended.filter fun x => regionNo x.1 != r
        counters := d.counters.filter fun c => !here c.1 }
    | held => held.foldl (fun d e =>
        if transient e.2.state then d
        else startSnoops e.1 (if e.2.state = 1 then 8 else 9) false (holdersOf d e.1)
          (setDir e.1 { e.2 with evicting := true } d)) d

/-- REGION_SCRUB_DONE. -/
def execRegionScrubDone (region : Nat) (s : State) : Host.Outcome State Fault Refusal := .next (onDev (regionScrub region) s)

/-! ### SEGMENT_SET -/

/-- The descriptor that 32 bytes spell (Table 3-5). -/
def parseSeg (l : List Byte) : Seg :=
  let w1 := fieldLe l 8 8
  { hallBase := fieldLe l 0 8, stream := bitAt w1 51, a := bitAt w1 50, w := bitAt w1 49, r := bitAt w1 48, p := bitAt w1 47,
    lenU := bitsOf w1 45 23, baseU := bitsOf w1 22 0, key := fieldLe l 16 5 }

/-- Whether a descriptor's reserved fields are all zero. -/
def segReserved (l : List Byte) : Bool :=
  bitsOf (fieldLe l 8 8) 63 52 != 0 || bitAt (fieldLe l 8 8) 46 || fieldLe l 21 3 != 0 || fieldLe l 24 8 != 0

/-- Whether a header's reserved fields are not all zero (Table 3-4). -/
def headerReserved (l : List Byte) : Bool :=
  bitsOf (fieldLe l 0 8) 62 56 != 0 || bitsOf (fieldLe l 8 8) 63 24 != 0 || !allZero (slice l 16 16)

/-- The refusals of a present descriptor (R88). -/
def segRefused (g : Seg) : Bool :=
  let l := g.lenU * 2 ^ 21
  g.hallBase % 2 ^ 21 != 0
  || (decide (0 < g.lenU) && (g.hallBase + l - 1) / 2 ^ 50 != g.hallBase / 2 ^ 50)
  || decide (2 ^ 23 < g.baseU + g.lenU)
  || addrSpace g.hallBase == 3
  || (addrSpace g.hallBase == 1 && (g.w || g.a))

/-- The checks of SEGMENT_SET in their order (R102), and a PLACE that runs on the segment (R147). -/
def segmentCheck (d : Dev) (q : QCmd) : Option Nat :=
  let c := q.cmd
  let n := pNat c 0 2
  let sg := pNat c 2 1
  let data := slice c.params 8 32
  let k := ctxOf d n
  let en := bitAt (fieldLe data 0 8) 63
  let w1 := fieldLe data 8 8
  let owner := if k.en then k.crew else c.crew
  if n ≥ 2 ^ 14 ∨ sg > 64 then some stBadField
  else if k.en ∧ k.crew ≠ c.crew ∧ !fromManagement d q then some stNoRights
  else if !k.en ∧ sg < 64 then some stNoRights
  else if sg = 64 ∧ !k.en ∧ !en then some stOk
  else if sg = 64 ∧ headerReserved data then some stBadField
  else if sg < 64 ∧ segReserved data then some stBadField
  else if sg = 64 ∧ bitAt w1 15 ∧ (!(crewOf d owner).hasQueue (bitsOf w1 14 0) ∨ !(queueOf d (bitsOf w1 14 0)).present) then
    some stBadField
  else if sg < 64 ∧ (parseSeg data).p ∧ segRefused (parseSeg data) then some stBadField
  else if placeOn d n (if sg = 64 then none else some sg) then some stBusy
  else none

/-- SEGMENT_SET (R85, R92, R102): a descriptor is stored whole and its cached entries are dropped; a header with EN = 1 claims a
free context, and one with EN = 0 releases it. -/
def segmentSetBody (q : QCmd) (d : Dev) : Dev :=
  match segmentCheck d q with
  | some st => completeSt q st d
  | none =>
    let c := q.cmd
    let n := pNat c 0 2
    let sg := pNat c 2 1
    let data := slice c.params 8 32
    let k := ctxOf d n
    let w0 := fieldLe data 0 8
    let w1 := fieldLe data 8 8
    let owner := if k.en then k.crew else c.crew
    let d := logCmd q owner 5 (n + k.gen * 2 ^ 16) 0 (leNat data + 1) d
    let d := if sg < 64 then dropCache n (some sg) (setCtx n { k with segs := tSet k.segs sg (parseSeg data) } d)
      else if bitAt w0 63 then
        setCtx n { k with en := true, crew := owner, reqMask := bitsOf w0 47 24, reqId := bitsOf w0 23 0,
                          gen := if k.en then k.gen else nextGen8 k.gen, faultEn := bitAt w1 15, faultQueue := bitsOf w1 14 0,
                          lost := if k.en then k.lost else false } d
      else dropCache n none (setCtx n { gen := k.gen } d)
    completeSt q stOk d

/-- SEGMENT_SET. -/
def execSegmentSet (c : Cmd) (s : State) : Host.Outcome State Fault Refusal := .next (runRow 0x0109 c (devBody segmentSetBody) s)

/-! ### FAULT_RESOLVE -/

/-- The jobs parked on a fault slot. -/
def slotJobs (d : Dev) (s : Nat) : List (Nat × Job) := d.jobs.filter fun j => j.2.slot == some s

/-- An access parked on a fault replayed (R93 step 3): it is translated again, and a segment still not present ends it with
SEGMENT_FAULT. -/
def replayJob (jid : Nat) (j : Job) (d : Dev) : Dev :=
  let d := { d with jobs := tDel d.jobs jid }
  match translateAll d j.context j.requester j.parts with
  | (ps, none) => launch jid j ps d
  | (_, some (.fail st)) => failJob j st d
  | (_, some _) => failJob j stSegmentFault d

/-- FAULT_RESOLVE (R93, R94, R103): every parked access of the fault is replayed or ends with SEGMENT_FAULT, and the slot is
freed. -/
def faultResolveBody (q : QCmd) (d : Dev) : Dev :=
  let c := q.cmd
  let h := pNat c 0 4
  let slot := h % 1024
  let f := slotOf d slot
  let action := pNat c 4 1
  if bitsOf h 23 10 ≠ 0 ∨ action ≥ 2 then completeSt q stBadField d
  else if !f.used ∨ f.gen ≠ h / 2 ^ 24 then completeSt q stStale d
  else if (ctxOf d f.context).crew ≠ c.crew ∧ !fromManagement d q then completeSt q stNoRights d
  else
    let d := completeSt q stOk d
    let d := (slotJobs d slot).foldl (fun d j => if action = 0 then replayJob j.1 j.2 d
      else failJob j.2 stSegmentFault { d with jobs := tDel d.jobs j.1 }) d
    freeFault slot d

/-- FAULT_RESOLVE_REPLAY. -/
def execFaultResolveReplay (c : Cmd) (s : State) : Host.Outcome State Fault Refusal :=
  .next (runRow 0x010A (withByte c 4 0) (devBody faultResolveBody) s)

/-- FAULT_RESOLVE_FAIL. -/
def execFaultResolveFail (c : Cmd) (s : State) : Host.Outcome State Fault Refusal :=
  .next (runRow 0x010A (withByte c 4 1) (devBody faultResolveBody) s)

end Sys2Proof.Machine
end

