-- ==== Sys2Proof/Machine/Tiers.lean ====
section
/-! DEFINITION. Machine/Tiers.lean: the tier cache and its fills, PLACE, SEAL, weight windows, TIER_EVICT, access counters and the
NVMe side (Chapter 5). -/

namespace Sys2Proof.Machine

/-! ### Recall, capacity and allocation -/

/-- The device's reads and writes of a run of regions wait until no agent holds a line in the way (Table 4-3): whether the way
is clear, and the recalls sent. -/
def recallLines (write : Bool) (first count : Nat) (d : Dev) : Bool × Dev :=
  let lines := d.dir.filter fun e => decide (first * 16384 ≤ e.1) && decide (e.1 < (first + count) * 16384)
    && (decide (2 ≤ e.2.state) || (write && e.2.state == 1))
  (lines.isEmpty, lines.foldl (fun d e =>
    if transient e.2.state then d
    else if write then startSnoops e.1 (if e.2.state = 1 then 8 else 9) false (holdersOf d e.1) d
    else startSnoops e.1 0xA true e.2.holders d) d)

/-- Whether a poisoned line lies in a run of bytes. -/
def poisonIn (d : Dev) (a n : Nat) : Bool :=
  d.poison.any fun l => decide (lineOf a ≤ l) && decide (l ≤ lineOf (a + n - 1)) && decide (0 < n)

/-- Blocks of the largest container that n regions could need: every chunk raw, plus map, check and header blocks (R158). -/
def containerBlocks (n : Nat) : Nat :=
  let chunks := n * 32
  1 + ceilDiv chunks 4080 + chunks * 16 + ceilDiv (chunks * 16) 170

/-- Offset of namespace i's configuration register. -/
def nsConf (d : Dev) (i : Nat) : Nat := regInForce d (0xA1000 + 0x20 * i)

/-- Whether a namespace holds regions of another crew. -/
def nsOther (d : Dev) (i crew : Nat) : Bool := d.regions.any fun r => addrSpace (r.1 * 2 ^ 21) == 1 && r.2.ns == i && r.2.crew != crew

/-- Whether a crew's sealed-tier regions may be placed on a namespace (R168). -/
def nsEligible (d : Dev) (crew : Nat) (i : Nat) (n : Ns) : Bool :=
  let v := nsConf d i
  let excl := bitAt v 61
  let mine := excl && bitsOf v 55 48 == crew
  n.en && n.available &&
  (if crewSealed d crew then
    mine && d.namespaces.all fun m => m.2.link != n.link || !m.2.en || !nsOther d m.1 crew
  else !excl || mine)

/-- The namespace on which a sealing reserves blocks: the lowest eligible one with room (R158). -/
def pickNs (d : Dev) (crew blocks : Nat) : Option Nat :=
  (d.namespaces.find? fun n => nsEligible d crew n.1 n.2 && decide (blocks ≤ n.2.free)).map (·.1)

/-- Sealed-tier regions that are not FREE. -/
def sealedBusy (d : Dev) : List Nat :=
  (d.regions.map (·.1) ++ d.scrubbing).filter fun r => addrSpace (r * 2 ^ 21) = 1

/-- The lowest free run of n sealed-tier regions (R134). -/
def freeSealed (d : Dev) (n : Nat) : Nat :=
  let used := sealedBusy d
  let base := hallAddr (ownModule d) 1 0 / 2 ^ 21
  let fits (c : Nat) : Bool := used.all fun u => decide (u < c) || decide (c + n ≤ u)
  (leastBy id ((base :: used.map (· + 1)).filter fits)).getD base

/-- Blocks taken from a namespace, and given back. -/
def takeBlocks (ns n : Nat) (d : Dev) : Dev := { d with namespaces := tMod d.namespaces ns fun x => { x with free := x.free - n } }
/-- Blocks given back to a namespace. -/
def giveBlocks (ns n : Nat) (d : Dev) : Dev := { d with namespaces := tMod d.namespaces ns fun x => { x with free := x.free + n } }

/-- The common end of the acceptance of a sealing (R146 step 1, R148): share, quota, media and operation limit. -/
def sealLimits (d : Dev) (crew n : Nat) : Option Nat :=
  let c := crewOf d crew
  if sharePages d crew = 0 then some stBadField
  else if c.denseUsed + n > c.denseQuota then some stBadField
  else if (pickNs d crew (containerBlocks n)).isNone ∨ (freeOp d).isNone then some stBusy
  else none

/-- Sealed-tier regions reserved for a sealing: charged, entered as RESERVED, and the media taken. -/
def reserveSealed (crew n format : Nat) (prot : Bool) (d : Dev) : Nat × Nat × Dev :=
  let first := freeSealed d n
  let ns := (pickNs d crew (containerBlocks n)).getD 0
  let r : Region := { crew, key := 2 ^ 40, prot, state := .reserved, ns, format }
  let d := (regionRun first n).foldl (fun d i => { d with regions := tSet d.regions i r }) d
  let d := modCrew crew (fun c => { c with denseUsed := c.denseUsed + n }) (takeBlocks ns (containerBlocks n) d)
  (first, ns, { d with extents := tSet d.extents first { count := n, ns, blocks := containerBlocks n } })

/-- RESERVED regions back to FREE (Table 5-2): media returned and quota uncharged. -/
def freeReserved (first n : Nat) (d : Dev) : Dev :=
  let r := (tGet? d.regions first).getD {}
  let d := (regionRun first n).foldl (fun d i => { d with regions := tDel d.regions i }) d
  returnMedia (modCrew r.crew (fun c => { c with denseUsed := c.denseUsed - n }) d)

/-- The stored blocks of a sealing at its commit: the chunks' blocks are the device's own compression (R155), drawn; raw where
the format stores raw. -/
def storedBlocks (n : Nat) (compressed : Bool) (d : Dev) : Nat × Dev :=
  let chunks := n * 32
  let (data, d) := if compressed then
      ((List.range chunks).foldl (fun a i => a + (Config.zstdBlocks i d.draws).val + 1) 0, { d with draws := d.draws + 1 })
    else (chunks * 16, d)
  (1 + ceilDiv chunks 4080 + data + ceilDiv data 170, d)

/-- The commit of a sealing: the regions become SEALED under a new key word with a new DGEN (R148, R352), they hold the source's
bytes, and the unused media is returned. The stored size in blocks comes with it. -/
def commitSealed (first src n : Nat) (compressed : Bool) (s : State) : Nat × Nat × State :=
  let (v, s) := drawKey s
  let r := (tGet? s.dev.regions first).getD {}
  let (g, s) := if r.prot then drawKey s else (0, s)
  let (blocks, d) := storedBlocks n compressed s.dev
  let d := (regionRun first n).foldl (fun d i => modRegion i (fun x =>
      { x with key := newKeyWord v, dgen := g, state := .sealedExtent }) d) d
  let d := { d with mem := memCopy d.mem (src * 2 ^ 21) (first * 2 ^ 21) (n * 2 ^ 21) }
  let e := (tGet? d.extents first).getD {}
  let d := giveBlocks e.ns (e.blocks - blocks) { d with extents := tMod d.extents first fun e => { e with blocks } }
  (v, blocks, { s with dev := d })

/-! ### PLACE -/

/-- The segment that a PLACE names. -/
def placeSeg (d : Dev) (c : Cmd) : Seg := (tGet? (ctxOf d (pNat c 0 2)).segs (pNat c 2 1)).getD {}

/-- The checks of PLACE in their order (R146 step 1), reserved encodings first. -/
def placeCheck (d : Dev) (q : QCmd) : Option Nat :=
  let c := q.cmd
  let k := ctxOf d (pNat c 0 2)
  let g := placeSeg d c
  let dir := pNat c 3 1
  let flags := pNat c 4 1
  let first := regionNo g.hallBase
  let run := regionRun first g.lenU
  let dst := regionNo (pNat c 8 8)
  let inState (f : Region → Bool) (l : List Nat) : Bool := l.all fun r => match tGet? d.regions r with
    | some x => x.crew == c.crew && f x
    | none => false
  let prot := ((tGet? d.regions first).getD {}).prot
  if pNat c 0 2 ≥ 2 ^ 14 ∨ pNat c 2 1 ≥ 64 ∨ dir ≥ 2 ∨ flags ≥ 4 ∨ pNat c 5 1 ≥ 8
    ∨ (dir = 1 ∧ bitAt flags 1) ∨ (dir = 0 ∧ !allZero (slice c.params 5 16)) then some stBadField
  else if !k.en ∨ k.crew ≠ c.crew then some stNoRights
  else if !g.p ∨ g.lenU = 0 then some stBadField
  else if dir = 0 ∧ (addrModule g.hallBase ≠ ownModule d ∨ addrSpace g.hallBase ≠ 0
      ∨ !inState (fun x => x.key == g.key && x.state == .registered) run
      ∨ (bitAt flags 1 ∧ run.any fun r => ((tGet? d.regions r).getD {}).prot) ∨ sharePages d c.crew = 0) then some stBadField
  else if dir = 1 ∧ (addrModule g.hallBase ≠ ownModule d ∨ addrSpace g.hallBase ≠ 1
      ∨ !inState (fun x => x.state == .sealedExtent && x.key == g.key) run
      ∨ !aligned (pNat c 8 8) (2 ^ 21) ∨ addrModule (pNat c 8 8) ≠ ownModule d ∨ addrSpace (pNat c 8 8) ≠ 0
      ∨ !inState (fun x => x.key == pNat c 16 5 && x.state == .registered && (x.prot || !prot)) (regionRun dst g.lenU)) then
    some stBadField
  else if dir = 0 ∧ (crewOf d c.crew).denseUsed + g.lenU > (crewOf d c.crew).denseQuota then some stBadField
  else if placeOn d (pNat c 0 2) (some (pNat c 2 1)) ∨ (dir = 0 ∧ (pickNs d c.crew (containerBlocks g.lenU)).isNone)
      ∨ (freeOp d).isNone then some stBusy
  else none

/-- PLACE accepted (R146): TO_DENSE reserves its sealed-tier regions. -/
def placeBody (q : QCmd) (d : Dev) : Dev :=
  match placeCheck d q with
  | some st => completeSt q st d
  | none =>
    let c := q.cmd
    let g := placeSeg d c
    let first := regionNo g.hallBase
    if pNat c 3 1 = 0 then
      let prot := ((tGet? d.regions first).getD {}).prot
      let (dest, ns, d) := reserveSealed c.crew g.lenU (b2n prot) prot d
      startOp q { first, count := g.lenU, dest, ns, rights := b2n g.w + 2 * b2n g.a } d
    else startOp q { first, count := g.lenU, dest := regionNo (pNat c 8 8) } d

/-- PLACE_TO_DENSE: PLACE with DIRECTION TO_DENSE. -/
def execPlaceToDense (c : Cmd) (s : State) : Host.Outcome State Fault Refusal :=
  .next (runRow 0x0201 (withByte c 3 0) (devBody placeBody) s)

/-- PLACE_TO_DRAM: PLACE with DIRECTION TO_DRAM. -/
def execPlaceToDram (c : Cmd) (s : State) : Host.Outcome State Fault Refusal :=
  .next (runRow 0x0201 (withByte c 3 1) (devBody placeBody) s)

/-- The segment of a PLACE changed, with its cached entries dropped (R92). -/
def editSeg (c : Cmd) (f : Seg → Seg) (d : Dev) : Dev :=
  let n := pNat c 0 2
  let k := ctxOf d n
  dropCache n (some (pNat c 2 1)) (setCtx n { k with segs := tMod k.segs (pNat c 2 1) f } d)

/-- The first slice of a PLACE: TO_DENSE clears W and A and takes the accesses then admitted as those to drain (R146 step 2). -/
def placeFirst (i : Nat) (d : Dev) : Dev :=
  let l := opOf d i
  if pNat l.q.cmd 3 1 = 1 then d
  else editSeg l.q.cmd (fun g => { g with w := false, a := false })
    (modOp i (fun l => { l with phase := 1, since := d.stk.number, admitted := flightJobs d l.first l.count }) d)

/-- The drain of a PLACE judged: it ends with the accesses, or after STK_TIMEOUT.REQUEST strokes. -/
def placeDrainEnd (i : Nat) (d : Dev) : Dev :=
  let l := opOf d i
  if l.state = 5 ∨ l.opcode ≠ 0x201 ∨ l.phase ≠ 1 then d
  else if (l.admitted.any fun j => (flightJobs d l.first l.count).contains j) ∧ d.stk.number < l.since + reqTimeout d then d
  else modOp i (fun l => { l with phase := 2 }) d

/-- PLACE_DRAIN_END. -/
def execPlaceDrainEnd (op : Nat) (s : State) : Host.Outcome State Fault Refusal := .next (onDev (placeDrainEnd op) s)

/-- The words of a PLACE's or SEAL's final completion after the handle (R146, R148). -/
def sealWords (base key gen size : Nat) : List Nat := [base % 2 ^ 32, base / 2 ^ 32, key, gen + size * 256]

/-- What a cancelled, failed or reset PLACE undoes before its commit point (R146 step 3). -/
def placeUndo (i : Nat) (d : Dev) : Dev :=
  let l := opOf d i
  if l.committed ∨ pNat l.q.cmd 3 1 = 1 then d
  else
    let d := if l.phase = 0 then d
      else editSeg l.q.cmd (fun g => { g with w := bitAt l.rights 0, a := bitAt l.rights 1 }) d
    freeReserved l.dest l.count d

/-- The last slice of a PLACE (R146 steps 2 to 4): the copy, the commit as one event, and the release of the source. -/
def placeFinish (i : Nat) (s : State) : State :=
  let l := opOf s.dev i
  let c := l.q.cmd
  let dense := pNat c 3 1 = 0
  if dense ∧ l.phase ≠ 2 then s
  else if dense ∧ poisonIn s.dev (l.first * 2 ^ 21) (l.count * 2 ^ 21) then
    { s with dev := endOp i stPoisoned [] (placeUndo i s.dev) }
  else
    let (clear, d) := if dense then recallLines false l.first l.count s.dev else recallLines true l.dest l.count s.dev
    if !clear then { s with dev := d }
    else
      let s := { s with dev := d }
      let s := if dense then (commitSealed l.dest l.first l.count (bitAt (pNat c 4 1) 1) s).2.2
        else { s with dev := { s.dev with mem := memCopy s.dev.mem (l.first * 2 ^ 21) (l.dest * 2 ^ 21) (l.count * 2 ^ 21) } }
      let base := l.dest * 2 ^ 21
      let key := devKey s.dev base
      let rights := pNat c 5 1
      let d := editSeg c (fun g => if dense then { g with hallBase := base, key }
        else { g with hallBase := base, key, r := bitAt rights 0, w := bitAt rights 1, a := bitAt rights 2 }) s.dev
      let words := sealWords base (key % 2 ^ 32) (key / 2 ^ 32) 0
      if bitAt (pNat c 4 1) 0 then
        let rid := d.nextId
        let s := beginRevoke none l.first l.count true { s with dev := d }
        { s with dev := modOp i (fun l => { l with committed := true, state := 4, words, revoke := some rid }) s.dev }
      else { s with dev := endOp i stOk words d }

/-- The operation that waits for a device's own revocation ends with it (R146 step 4). -/
def revokeOps (d : Dev) : Dev :=
  (liveOps d).foldl (fun d l => match l.2.revoke with
    | some r => if (tGet? d.revokes r).isNone then endOp l.1 stOk l.2.words d else d
    | none => d) d

/-! ### SEAL -/

/-- The image key slot of a crew (R148): the slot, where it holds an image key of the crew. -/
def imageSlot (d : Dev) (crew slot : Nat) : Option KeySlot :=
  (tGet? d.keySlots slot).filter fun k => k.use == 1 && k.crew == crew

/-- The checks of a SEAL's source regions (R148): as R136 states, and BAD_FIELD where they carry more than one key word. -/
def sealSource (d : Dev) (crew a n key : Nat) : Option Nat :=
  match rangeCheck d crew a (2 ^ 21) key with
  | some st => some st
  | none =>
    let run := regionRun (regionNo a) n
    if run.any fun r => (liveRegion d r).isNone || ((tGet? d.regions r).getD {}).crew != crew then some stNoRights
    else if run.any fun r => ((tGet? d.regions r).getD {}).key != key then some stBadField
    else none

/-- The checks of SEAL with KIND EXTENT in their order (R136, R148). -/
def sealExtentCheck (d : Dev) (q : QCmd) : Option Nat :=
  let c := q.cmd
  let a := pNat c 0 8
  let n := pNat c 16 4
  let flags := pNat c 14 1
  let prot := isProtected d a
  let image := bitAt flags 1
  if Cmd.ctx c ∨ flags ≥ 4 ∨ !allZero (slice c.params 20 24) then some stBadField
  else if n = 0 then some stOk
  else if !aligned a (2 ^ 21) ∨ addrModule a ≠ ownModule d ∨ addrSpace a ≠ 0 then some stBadField
  else (sealSource d c.crew a n (pNat c 8 5)).orElse fun _ =>
    if (bitAt flags 0 ∧ prot) ∨ (image ∧ (imageSlot d c.crew (pNat c 15 1)).isNone) then some stBadField
    else sealLimits d c.crew n

/-- SEAL with KIND EXTENT (R148). -/
def sealExtentBody (q : QCmd) (d : Dev) : Dev :=
  let c := q.cmd
  let a := pNat c 0 8
  let n := pNat c 16 4
  let prot := isProtected d a
  let image := bitAt (pNat c 14 1) 1
  match sealExtentCheck d q with
  | some st => completeSt q st d
  | none =>
    let (dest, ns, d) := reserveSealed c.crew n (if image then 2 else b2n prot) prot d
    startOp q { first := regionNo a, count := n, dest, ns } d

/-- The last slice of a SEAL EXTENT: the commit point is the acknowledgement of the last block (R148). -/
def sealFinish (i : Nat) (s : State) : State :=
  let l := opOf s.dev i
  let c := l.q.cmd
  let flags := pNat c 14 1
  if poisonIn s.dev (l.first * 2 ^ 21) (l.count * 2 ^ 21) then
    { s with dev := endOp i stPoisoned [] (freeReserved l.dest l.count s.dev) }
  else
    let (clear, d) := recallLines false l.first l.count s.dev
    if !clear then { s with dev := d }
    else
      let (v, blocks, s) := commitSealed l.dest l.first l.count (flags != 0) { s with dev := d }
      let k := (tGet? s.dev.keySlots (pNat c 15 1)).getD {}
      let d := if bitAt flags 1 then
          { s.dev with extents := tMod s.dev.extents l.dest fun e => { e with keyId := k.keyId, key := k.key } }
        else s.dev
      let d := logCmd l.q l.crew 2 (l.dest * 2 ^ 21) 0 (newKeyWord v) d
      { s with dev := endOp i stOk (sealWords (l.dest * 2 ^ 21) v 1 (ceilDiv blocks 16)) d }

/-- The checks of SEAL with KIND LOG_CREATE in their order (R149). -/
def logCreateCheck (d : Dev) (q : QCmd) : Option Nat :=
  let c := q.cmd
  let n := pNat c 16 4
  let flags := pNat c 14 1
  if Cmd.ctx c ∨ (flags ≠ 0 ∧ flags ≠ 4) ∨ !allZero (slice c.params 0 13) ∨ !allZero (slice c.params 20 24) then some stBadField
  else if n = 0 then some stOk
  else if sharePages d c.crew = 0 ∨ (crewOf d c.crew).denseUsed + n > (crewOf d c.crew).denseQuota then some stBadField
  else if (pickNs d c.crew 0).isNone then some stBusy
  else none

/-- SEAL with KIND LOG_CREATE (R149): OPEN regions under a new key word. -/
def logCreateBody (q : QCmd) (s : State) : State :=
  let c := q.cmd
  let d := s.dev
  let n := pNat c 16 4
  let prot := bitAt (pNat c 14 1) 2
  match logCreateCheck d q with
  | some st => { s with dev := completeSt q st d }
  | none =>
    let first := freeSealed d n
    let ns := (pickNs d c.crew 0).getD 0
    let (v, s) := drawKey s
    let (g, s) := if prot then drawKey s else (0, s)
    let r : Region := { crew := c.crew, key := newKeyWord v, prot, dgen := g, state := .opened, ns, format := 3 }
    let d := (regionRun first n).foldl (fun d i => { d with regions := tSet d.regions i r }) s.dev
    let d := modCrew c.crew (fun x => { x with denseUsed := x.denseUsed + n })
      { d with extents := tSet d.extents first { count := n, ns }, mem := memClear d.mem (first * 2 ^ 21) (n * 2 ^ 21) }
    let d := logCmd q c.crew 2 (first * 2 ^ 21) 0 r.key d
    { s with dev := complete q stOk (0 :: sealWords (first * 2 ^ 21) v 1 0) [] d }

/-- Whether a run of bytes meets bytes already appended (R150). -/
def alreadyAppended (d : Dev) (a n : Nat) : Bool := d.appended.any fun x => bytesMeet x.1 x.2 a n

/-- The layers of an append: source and destination addresses. -/
def appendLayers (c : Cmd) : List (Nat × Nat) :=
  (List.range (pNat c 16 4)).map fun l => (pNat c 0 8 + l * pNat c 36 4, pNat c 20 8 + l * pNat c 40 4)

/-- The checks of KV_APPEND (R136, R150, R353). -/
def appendCheck (d : Dev) (q : QCmd) : Option Nat :=
  let c := q.cmd
  let flags := pNat c 14 1
  let n := pNat c 33 1 * pNat c 34 2
  let interval := cfgField d (0x71008 + 0x20 * c.crew) 7 0
  let ls := appendLayers c
  if Cmd.ctx c ∨ (flags ≠ 0 ∧ flags ≠ 8) then some stBadField
  else if pNat c 16 4 = 0 then some stOk
  else if pNat c 16 4 > 256 then some stBadLength
  else if n = 0 then some stOk
  else if n * pNat c 16 4 > 2 ^ 28 then some stBadLength
  else if pNat c 33 1 > interval ∨ (flags = 0 ∧ pNat c 33 1 ≠ interval) then some stBadField
  else if addrModule (pNat c 0 8) ≠ ownModule d ∨ addrSpace (pNat c 0 8) ≠ 0 ∨ addrModule (pNat c 20 8) ≠ ownModule d
      ∨ addrSpace (pNat c 20 8) ≠ 1 then some stBadField
  else
    (ls.findSome? fun l => (rangeCheck d c.crew l.1 n (pNat c 8 5)).orElse fun _ => rangeCheck d c.crew l.2 n (pNat c 28 5)).orElse
    fun _ =>
      if ls.any fun l => (rangeRegions l.2 n).any fun r => ((tGet? d.regions r).getD {}).state != .opened then some stNoRights
      else if ls.any fun l => alreadyAppended d l.2 n then some stBadField
      else if ls.any fun l => (rangeRegions l.1 n).any (fun r => ((tGet? d.regions r).getD {}).prot)
          && !(rangeRegions l.2 n).all (fun r => ((tGet? d.regions r).getD {}).prot) then some stBadField
      else none

/-- Media blocks that an append writes (R156): every log block it touches whole, and a check block for each 170. -/
def appendBlocks (ls : List (Nat × Nat)) (n : Nat) : Nat :=
  let b := ls.foldl (fun a l => a + ((l.2 + n - 1) / 4096 + 1 - l.2 / 4096)) 0
  b + ceilDiv b 170

/-- Source bytes of every layer, read now; none where a line cannot be read at once. The status is that of a line that cannot be
read at all. -/
def readLayers (owner : Owner) (key n : Nat) : List (Nat × Nat) → Dev → List (List Byte) × Nat × Bool × Dev
  | [], d => ([], stOk, true, d)
  | l :: ls, d =>
    let ps := splitParts l.1 n key .read []
    let (ps, d) := tryParts 0 owner 0 ps.length 0 ps d
    let (rest, st, ready, d) := readLayers owner key n ls d
    (gatherBytes n ps :: rest, if stSuccess (firstBad ps) then st else firstBad ps, ready && ps.all Part.done, d)

/-- SEAL with KIND KV_APPEND (R150): the source rows are read and one append is issued; the drive's acknowledgement completes
it. -/
def kvAppendBody (q : QCmd) (d : Dev) : Dev :=
  match appendCheck d q with
  | some st => completeSt q st d
  | none =>
    let c := q.cmd
    let n := pNat c 33 1 * pNat c 34 2
    let ls := appendLayers c
    let ns := ((regionAt d (pNat c 20 8)).getD {}).ns
    let blocks := appendBlocks ls n
    if (tGet d.namespaces ns : Ns).free < blocks then completeSt q stBusy d
    else
      let (rows, st, ready, d) := readLayers .device (pNat c 8 5) n ls d
      if !stSuccess st then completeSt q st d
      else
        let (i, d) := freshId d
        if !ready then
          let parts := ls.flatMap fun l => splitParts l.1 n (pNat c 8 5) .read []
          runJob i (setJob i { owner := .command q, crew := c.crew, stamp := d.stk.number, goal := .retry, parts } d)
        else
          let parts : List Part := (ls.zip rows).map fun x =>
            { addr := x.1.2, len := n, act := .write, data := x.2, admitted := true, state := .waiting .append,
              since := d.stk.number }
          issueNvme ns (.append i) (takeBlocks ns blocks
            (setJob i { owner := .command q, crew := c.crew, stamp := d.stk.number, goal := .output stOk [], parts } d))

/-- SEAL by its KIND (Table 5-5). -/
def sealBody (q : QCmd) (s : State) : State :=
  match pNat q.cmd 13 1 with
  | 0 => { s with dev := sealExtentBody q s.dev }
  | 1 => logCreateBody q s
  | 2 => { s with dev := kvAppendBody q s.dev }
  | _ => { s with dev := completeSt q stBadField s.dev }

/-- SEAL_EXTENT: SEAL with KIND EXTENT. -/
def execSealExtent (c : Cmd) (s : State) : Host.Outcome State Fault Refusal := .next (runRow 0x0202 (withByte c 13 0) sealBody s)

/-- SEAL_LOG_CREATE: SEAL with KIND LOG_CREATE. -/
def execSealLogCreate (c : Cmd) (s : State) : Host.Outcome State Fault Refusal := .next (runRow 0x0202 (withByte c 13 1) sealBody s)

/-- SEAL_KV_APPEND: SEAL with KIND KV_APPEND. -/
def execSealKvAppend (c : Cmd) (s : State) : Host.Outcome State Fault Refusal := .next (runRow 0x0202 (withByte c 13 2) sealBody s)

/-! ### TIER_EVICT and COUNTERS_READ -/

/-- Whether a page has accesses in flight. -/
def pageBusy (d : Dev) (p : Nat) : Bool := d.jobs.any fun j => j.2.parts.any fun x => !x.done && x.admitted && pageNo x.addr == p

/-- A page dropped from its share now, or marked to be dropped with its last access (R162). -/
def evictPage (p : Nat) (d : Dev) : Dev :=
  let d := { d with fills := tMod d.fills p fun f => { f with keep := false } }
  if pageBusy d p then { d with pages := tMod d.pages p fun x => { x with doomed := true } } else dropPage p d

/-- The marked pages whose accesses have ended dropped. -/
def dropDoomed (d : Dev) : Dev :=
  (d.pages.filter fun p => p.2.doomed && !pageBusy d p.1).foldl (fun d p => dropPage p.1 d) d

/-- The checks of TIER_EVICT in their order (R136, R162). -/
def tierEvictCheck (d : Dev) (q : QCmd) : Option Nat :=
  let c := q.cmd
  let a := pNat c 0 8
  let n := pNat c 16 4
  let flags := pNat c 20 1
  if Cmd.ctx c ∨ flags ≥ 2 then some stBadField
  else if flags = 1 then (if allZero (slice c.params 0 20) then none else some stBadField)
  else if n = 0 then some stOk
  else if n > 1048576 then some stBadLength
  else if !aligned a 65536 ∨ addrModule a ≠ ownModule d ∨ addrSpace a ≠ 1 then some stBadField
  else rangeCheck d c.crew a (n * 65536) (pNat c 8 5)

/-- TIER_EVICT (R162). -/
def tierEvictBody (q : QCmd) (d : Dev) : Dev :=
  let c := q.cmd
  let a := pNat c 0 8
  let n := pNat c 16 4
  let flags := pNat c 20 1
  match tierEvictCheck d q with
  | some st => completeSt q st d
  | none =>
    let named (p : Nat) (crew : Nat) : Bool :=
      crew == c.crew && (flags == 1 || (decide (pageNo a ≤ p) && decide (p < pageNo a + n)))
    let res := (d.pages.filter fun p => named p.1 p.2.crew).map (·.1)
    let fil := (d.fills.filter fun f => named f.1 f.2.crew && f.2.keep).map (·.1)
    complete q stOk [(res ++ fil.filter fun p => !res.contains p).length] [] ((res ++ fil).foldl (fun d p => evictPage p d) d)

/-- TIER_EVICT. -/
def execTierEvict (c : Cmd) (s : State) : Host.Outcome State Fault Refusal := .next (runRow 0x0203 c (devBody tierEvictBody) s)

/-- An access begun whose data is already at hand: the output of an operation, written to one range (R136). -/
def writeOut (q : QCmd) (dest key : Nat) (data : List Byte) (st : Nat) (words : List Nat) (d : Dev) : Dev :=
  startAccess { owner := .command q, crew := q.cmd.crew, requester := unitId (ownModule d) 3, stamp := d.stk.number,
                goal := .output st words,
                parts := [{ addr := dest, len := data.length, key, act := .write, data }] } false none d

/-- The checks of COUNTERS_READ in their order (R136, R145). -/
def countersReadCheck (d : Dev) (q : QCmd) : Option Nat :=
  let c := q.cmd
  let a := pNat c 0 8
  let n := pNat c 16 4
  let dest := pNat c 24 8
  let flags := pNat c 13 1
  if Cmd.ctx c ∨ flags ≥ 2 then some stBadField
  else if n = 0 then some stOk
  else if n > 1048576 then some stBadLength
  else if !aligned a 65536 ∨ addrModule a ≠ ownModule d ∨ addrSpace a ≥ 2 ∨ !aligned dest 2 ∨ addrModule dest ≠ ownModule d
      ∨ addrSpace dest ≠ 0 then some stBadField
  else (rangeCheck d c.crew a (n * 65536) (pNat c 8 5)).orElse fun _ => rangeCheck d c.crew dest (2 * n) (pNat c 32 5)

/-- COUNTERS_READ (R145). -/
def countersReadBody (q : QCmd) (d : Dev) : Dev :=
  let c := q.cmd
  let a := pNat c 0 8
  let n := pNat c 16 4
  let dest := pNat c 24 8
  let flags := pNat c 13 1
  match countersReadCheck d q with
  | some st => completeSt q st d
  | none =>
    let pagesRead := (List.range n).map (pageNo a + ·)
    let data := pagesRead.flatMap fun p => toLe 2 (tGet d.counters p)
    let d := if flags = 1 then { d with counters := d.counters.filter fun x => !(decide (pageNo a ≤ x.1) && decide (x.1 < pageNo a + n)) }
      else d
    writeOut q dest (pNat c 32 5) data stOk [] d

/-- COUNTERS_READ. -/
def execCountersRead (c : Cmd) (s : State) : Host.Outcome State Fault Refusal := .next (runRow 0x0205 c (devBody countersReadBody) s)

/-- Every counter halved (R144). -/
def counterDecay (d : Dev) : Dev :=
  if d.stk.number % 2 ^ cfgField d 0x70000 12 8 = 0 then
    { d with counters := d.counters.filterMap fun c => if c.2 / 2 = 0 then none else some (c.1, c.2 / 2) }
  else d

/-- COUNTER_DECAY. -/
def execCounterDecay (s : State) : Host.Outcome State Fault Refusal := .next (onDev counterDecay s)

/-! ### Weight windows -/

/-- A window's record. -/
def winOf (d : Dev) (w : Nat) : Win := (tGet? d.wins w).getD {}
/-- A window's record replaced. -/
def setWin (w : Nat) (x : Win) (d : Dev) : Dev := { d with wins := tSet d.wins w x }

/-- The status word of a slot written (R160). -/
def slotStatus (x : Win) (k v : Nat) (d : Dev) : Dev :=
  let a := x.ring + 8 * k
  deviceWrite a (devKey d a) (toLe 8 v) d

/-- All-ones: a slot that is empty or being filled. -/
def slotEmpty : Nat := 2 ^ 64 - 1

/-- The fills of counts started in order (R159): the slots of those counts are empty until each ends. -/
def startSpans (w : Nat) (counts : List Nat) (d : Dev) : Dev :=
  counts.foldl (fun d c =>
    let x := winOf d w
    let r := (regionAt d x.source).getD {}
    issueNvme r.ns (.windowFill w c) (setWin w { x with filling := x.filling ++ [c] } d)) d

/-- The checks of WINDOW_SET with OP CREATE in their order (R136, R159). -/
def windowCreateCheck (d : Dev) (q : QCmd) : Option Nat :=
  let c := q.cmd
  let slots := pNat c 3 1
  let spans := pNat c 4 4
  let src := pNat c 8 8
  let ring := pNat c 24 8
  let sb := pNat c 40 4
  let srcProt := isProtected d src
  if Cmd.ctx c ∨ pNat c 1 2 ≠ 0 ∨ pNat c 44 4 ≠ 0 then some stBadField
  else if slots = 0 ∨ spans = 0 ∨ sb = 0 then some stOk
  else if slots < 2 ∨ sb > 2 ^ 28 then some stBadLength
  else if !aligned sb 65536 ∨ !aligned src 65536 ∨ !aligned ring 65536 ∨ addrModule src ≠ ownModule d ∨ addrSpace src ≠ 1
      ∨ addrModule ring ≠ ownModule d ∨ addrSpace ring ≠ 0 then some stBadField
  else (rangeCheck d c.crew src (spans * sb) (pNat c 16 5)).orElse fun _ =>
    if (rangeRegions src (spans * sb)).any fun r => ((tGet? d.regions r).getD {}).state != .sealedExtent then some stNoRights
    else (rangeCheck d c.crew ring (65536 + slots * sb) (pNat c 32 5)).orElse fun _ =>
      if srcProt ∧ !rangeProtected d c.crew ring (65536 + slots * sb) then some stBadField
      else if (List.range 64).all fun w => (winOf d w).state != 0 then some stBusy
      else none

/-- WINDOW_SET with OP CREATE (R159). -/
def windowCreateBody (q : QCmd) (d : Dev) : Dev :=
  let c := q.cmd
  let slots := pNat c 3 1
  let spans := pNat c 4 4
  let src := pNat c 8 8
  let ring := pNat c 24 8
  let sb := pNat c 40 4
  match windowCreateCheck d q with
  | some st => completeSt q st d
  | none =>
    let w := ((List.range 64).find? fun w => (winOf d w).state == 0).getD 0
    let g := nextGen8 (winOf d w).gen
    let x : Win := { gen := g, state := 1, crew := c.crew, slots, spans, source := src, ring, spanBytes := sb }
    let d := (List.range slots).foldl (fun d k => slotStatus x k slotEmpty d) (setWin w x d)
    complete q stOk [w + g * 256] [] (startSpans w (List.range slots) d)

/-- The checks that ADVANCE and DELETE share (R161). -/
def windowCheck (d : Dev) (q : QCmd) : Option Nat :=
  let c := q.cmd
  let x := winOf d (pNat c 1 1)
  if Cmd.ctx c ∨ pNat c 1 1 ≥ 64 ∨ !allZero (slice c.params 3 41) then some stBadField
  else if x.state = 0 ∨ x.gen ≠ pNat c 2 1 then some stStale
  else if x.crew ≠ c.crew then some stNoRights
  else none

/-- The checks of WINDOW_SET with OP ADVANCE in their order (R160, R161). -/
def windowAdvanceCheck (d : Dev) (q : QCmd) : Option Nat :=
  let c := q.cmd
  let w := pNat c 1 1
  let x := winOf d w
  let n := pNat c 44 4
  (windowCheck d q).orElse fun _ =>
    if n = 0 then some stOk
    else if n > x.slots then some stBadLength
    else if x.state ≠ 1 then some stBusy
    else none

/-- WINDOW_SET with OP ADVANCE (R160): passed slots become empty and take the next counts. -/
def windowAdvanceBody (q : QCmd) (d : Dev) : Dev :=
  let c := q.cmd
  let w := pNat c 1 1
  let x := winOf d w
  let n := pNat c 44 4
  match windowAdvanceCheck d q with
  | some st => completeSt q st d
  | none =>
    let passed := (List.range n).map (x.cursor + ·)
    let d := passed.foldl (fun d k => slotStatus x (k % x.slots) slotEmpty d) d
    let y := winOf d w
    let y := { y with cursor := y.cursor + n, counts := passed.foldl (fun t k => tDel t (k % x.slots)) y.counts }
    completeSt q stOk (startSpans w (passed.map (· + x.slots)) (setWin w y d))

/-- The checks of WINDOW_SET with OP DELETE in their order (R161). -/
def windowDeleteCheck (d : Dev) (q : QCmd) : Option Nat :=
  let c := q.cmd
  let w := pNat c 1 1
  let x := winOf d w
  (windowCheck d q).orElse fun _ =>
    if pNat c 44 4 ≠ 0 then some stBadField else if x.state ≠ 1 then some stBusy else none

/-- WINDOW_SET with OP DELETE (R161): no new fills start, and WINDOW_DELETE_END completes the command. -/
def windowDeleteBody (q : QCmd) (d : Dev) : Dev :=
  let c := q.cmd
  let w := pNat c 1 1
  let x := winOf d w
  match windowDeleteCheck d q with
  | some st => completeSt q st d
  | none => setWin w { x with state := 2, deleteBy := some q } d

/-- WINDOW_SET by its OP (Table 5-9). -/
def windowBody (q : QCmd) (d : Dev) : Dev :=
  match pNat q.cmd 0 1 with
  | 0 => windowCreateBody q d
  | 1 => windowAdvanceBody q d
  | 2 => windowDeleteBody q d
  | _ => completeSt q stBadField d

/-- WINDOW_CREATE: WINDOW_SET with OP CREATE. -/
def execWindowCreate (c : Cmd) (s : State) : Host.Outcome State Fault Refusal := .next (runRow 0x0204 (withByte c 0 0) (devBody windowBody) s)

/-- WINDOW_ADVANCE: WINDOW_SET with OP ADVANCE. -/
def execWindowAdvance (c : Cmd) (s : State) : Host.Outcome State Fault Refusal := .next (runRow 0x0204 (withByte c 0 1) (devBody windowBody) s)

/-- WINDOW_DELETE: WINDOW_SET with OP DELETE. -/
def execWindowDelete (c : Cmd) (s : State) : Host.Outcome State Fault Refusal := .next (runRow 0x0204 (withByte c 0 2) (devBody windowBody) s)

/-- A deleted window's fills have ended: its status words read all-ones and its generation is bumped (R161). -/
def windowDeleteEnd (w : Nat) (d : Dev) : Dev :=
  let x := winOf d w
  if x.state ≠ 2 ∨ !x.filling.isEmpty then d
  else
    let d := (List.range x.slots).foldl (fun d k => slotStatus x k slotEmpty d) d
    let d := setWin w { gen := nextGen8 x.gen } d
    match x.deleteBy with
    | some q => completeSt q stOk d
    | none => d

/-- WINDOW_DELETE_END. -/
def execWindowDeleteEnd (window : Nat) (s : State) : Host.Outcome State Fault Refusal := .next (onDev (windowDeleteEnd window) s)

/-- The NVMe commands of a piece of work ended. -/
def endNvme (f : NvmeWork → Bool) (d : Dev) : Dev := { d with nvme := d.nvme.filter fun n => !f n.work }

/-- A contained fault of the dense tier for the crew that owns an address (Table 13-2). -/
def denseFault (source a st : Nat) (d : Dev) : Dev :=
  let r := (regionAt d a).getD {}
  recordFault { cls := 2, source, status := st, unit := 0x6000 + r.ns, addr := a } (some r.crew) d

/-- The end of a span's fill (R160): the span is written to its slot and then its count to the status word; a failed fill
writes FFFF_FFFF_FFFF_FFFE and opens a fault record. A count already passed is dropped. -/
def windowFillEnd (w c : Nat) (ok : Bool) (d : Dev) : Dev :=
  let x := winOf d w
  if x.state = 0 ∨ !x.filling.contains c then d
  else
    let d := endNvme (· == .windowFill w c) (setWin w { x with filling := x.filling.filter (· != c) } d)
    let k := c % x.slots
    if x.state ≠ 1 ∨ c < x.cursor then d
    else if !ok then
      slotStatus x k (2 ^ 64 - 2) (denseFault 6 (x.source + c % x.spans * x.spanBytes) 0 d)
    else
      let dst := x.ring + 65536 + k * x.spanBytes
      let data := memRead d.mem (x.source + c % x.spans * x.spanBytes) x.spanBytes
      let d := deviceWrite dst (devKey d dst) data d
      let y := winOf d w
      slotStatus x k c (bumpReg 0x70008 47 32 1 (setWin w { y with counts := tSet y.counts k c } d))

/-- WINDOW_FILL_END. -/
def execWindowFillEnd (window count : Nat) (ok : Bool) (s : State) : Host.Outcome State Fault Refusal :=
  .next (onDev (windowFillEnd window count ok) s)

/-! ### Fills and the drives -/

/-- A fill that has failed (R140): its parked accesses complete with POISONED and a contained record is opened. -/
def fillFailed (page : Nat) (d : Dev) : Dev :=
  let d := endNvme (· == .pageFill page) { d with fills := tDel d.fills page }
  endParts (· == .fill page) stPoisoned (denseFault 6 (page * 65536) stPoisoned (bumpReg 0x70010 31 0 1 d))

/-- The end of a tier-cache fill (R138 to R141): result 0 is success, 1 a block whose CRC-64 fails, anything else a drive
error. -/
def tierFillEnd (page result : Nat) (d : Dev) : Dev :=
  match tGet? d.fills page with
  | none => d
  | some f =>
    let r := (tGet? d.regions (page / 32)).getD { state := .scrubbing }
    if r.state ≠ .sealedExtent ∧ r.state ≠ .opened then
      bumpSat 0x70008 63 48 1 (endNvme (· == .pageFill page) { d with fills := tDel d.fills page })
    else if result = 1 ∧ !f.retried then
      bumpReg 0x70010 63 32 1 { d with fills := tSet d.fills page { f with retried := true } }
    else if result ≠ 0 then fillFailed page d
    else
      let (i, d) := freshId (endNvme (· == .pageFill page) { d with fills := tDel d.fills page })
      let d := { d with pages := tSet d.pages page { crew := f.crew, used := i, doomed := !f.keep },
                        counters := tDel d.counters page }
      let d := bumpReg 0x70008 31 0 1 (if f.keep then bumpReg (0x71010 + 0x20 * f.crew) 63 0 1 d else d)
      wakeJobs (· == .fill page) d

/-- TIER_FILL_END. -/
def execTierFillEnd (page result : Nat) (s : State) : Host.Outcome State Fault Refusal := .next (onDev (tierFillEnd page result) s)

/-- An append acknowledged by the drive (R150, R151): all its bytes become readable together. -/
def appendDone (jid : Nat) (d : Dev) : Dev :=
  match tGet? d.jobs jid with
  | none => d
  | some j =>
    let d := j.parts.foldl (fun d p =>
      { d with mem := memWrite d.mem p.addr (slice p.data 0 p.len), appended := d.appended ++ [(p.addr, p.len)] }) d
    runJob jid (setJob jid { j with parts := j.parts.map (·.fin stOk) } d)

/-- An append that the drive ends with an error leaves every destination byte unwritten (R150). -/
def appendFailed (jid : Nat) (d : Dev) : Dev :=
  match tGet? d.jobs jid with
  | none => d
  | some j =>
    let a := (j.parts.head?.map (·.addr)).getD 0
    let d := denseFault 6 a stDeviceFault d
    runJob jid (setJob jid { j with parts := j.parts.map (·.fin stDeviceFault) } d)

/-- What follows from the end of an NVMe command's work. -/
def nvmeWorkEnd (w : NvmeWork) (ok : Bool) (d : Dev) : Dev :=
  match w with
  | .pageFill p => tierFillEnd p (if ok then 0 else 2) d
  | .windowFill w c => windowFillEnd w c ok d
  | .append j => if ok then appendDone j d else appendFailed j d
  | .other => d

/-- A completed NVMe command (R166); a completion ends the run of consecutive timeouts of its link. -/
def nvmeCompletion (link command : Nat) (ok : Bool) (d : Dev) : Dev :=
  match d.nvme.find? fun n => n.link == link && n.command == command with
  | none => d
  | some n => nvmeWorkEnd n.work ok { d with nvme := d.nvme.filter (fun m => !(m == n)), nvmeTimeouts := tDel d.nvmeTimeouts link }

/-- NVME_COMPLETION. -/
def execNvmeCompletion (link command : Nat) (ok : Bool) (s : State) : Host.Outcome State Fault Refusal :=
  .next (onDev (nvmeCompletion link command ok) s)

/-- Crews with regions on the namespaces of a link. -/
def linkCrews (d : Dev) (link : Nat) : List Nat :=
  d.regions.foldl (fun l r =>
    if addrSpace (r.1 * 2 ^ 21) = 1 ∧ (tGet d.namespaces r.2.ns : Ns).link = link ∧ (tGet d.namespaces r.2.ns : Ns).en then
      addTo l r.2.crew else l) []

/-- A controller reset (R166): its namespaces are unavailable until they return, its commands end with an error, and a contained
record is opened for each crew with regions on them. -/
def resetController (link source detail : Nat) (d : Dev) : Dev :=
  let d := { d with namespaces := tMap d.namespaces fun _ n => if n.link = link then { n with available := false } else n,
                    nvmeTimeouts := tDel d.nvmeTimeouts link }
  let d := (linkCrews d link).foldl (fun d c => recordFault { cls := 2, source, unit := 0x5000 + link, detail } (some c) d) d
  let dead := d.nvme.filter fun n => n.link = link
  dead.foldl (fun d n => nvmeWorkEnd n.work false d) { d with nvme := d.nvme.filter fun n => n.link != link }

/-- An NVMe command past CMD_TIMEOUT (R166): aborted and treated as a drive error; the third in a row resets the controller. -/
def nvmeTimeout (link command : Nat) (d : Dev) : Dev :=
  match d.nvme.find? fun n => n.link == link && n.command == command with
  | none => d
  | some n =>
    let k := tGet d.nvmeTimeouts link + 1
    let d := nvmeWorkEnd n.work false { d with nvme := d.nvme.filter (fun m => !(m == n)), nvmeTimeouts := tSet d.nvmeTimeouts link k }
    if k ≥ 3 then resetController link 6 0 d else d

/-- NVME_CMD_TIMEOUT. -/
def execNvmeCmdTimeout (link command : Nat) (s : State) : Host.Outcome State Fault Refusal :=
  .next (onDev (nvmeTimeout link command) s)

/-- A reset controller's namespaces return (R166). -/
def namespaceReturn (link : Nat) (d : Dev) : Dev :=
  { d with namespaces := tMap d.namespaces fun _ n => if n.link = link then { n with available := true } else n }

/-- NAMESPACE_RETURN. -/
def execNamespaceReturn (link : Nat) (s : State) : Host.Outcome State Fault Refusal := .next (onDev (namespaceReturn link) s)

/-- A PCIe error (R166, Table 13-2): correctable is a CE; uncorrectable resets the controller. -/
def pcieAer (link : Nat) (correctable : Bool) (detail : Nat) (d : Dev) : Dev :=
  if correctable then faultCE 5 (0x5000 + link) detail d else resetController link 5 detail d

/-- PCIE_AER_EVENT. -/
def execPcieAerEvent (link : Nat) (correctable : Bool) (detail : Nat) (s : State) : Host.Outcome State Fault Refusal :=
  .next (onDev (pcieAer link correctable detail) s)

end Sys2Proof.Machine
end

