-- ==== Sys2Proof/Machine/Engines.lean ====
section
/-! DEFINITION. Machine/Engines.lean: what the engines, the Whisk, the Ladle and the Sieve share: reads of their operands, output
slots (R242 to R244), scratchpad windows (R239, R240), home-cache space (R110), factored tiles (R268 to R271) and expansion
profiles (R276 to R281). -/

namespace Sys2Proof.Machine

/-! ### Operand reads -/

/-- One range that an operation reads: address, bytes and key word. -/
abbrev Span := Nat × Nat × Nat

/-- A range's line parts tried at their homes; have are those that other modules have answered already. -/
def trySpan (have_ : List Part) (r : Span) (d : Dev) : List Part × Dev :=
  let ps := (splitParts r.1 r.2.1 r.2.2 .read []).map fun p =>
    match have_.find? fun x => x.addr == p.addr && x.len == p.len && x.done with
    | some x => { p with data := x.data, state := x.state }
    | none => p
  tryParts 0 .device (unitId (ownModule d) 3) ps.length 0 ps d

/-- Several ranges tried in order. -/
def trySpans (have_ : List Part) : List Span → Dev → List (List Part) × Dev
  | [], d => ([], d)
  | r :: rs, d =>
    let (ps, d) := trySpan have_ r d
    let (l, d) := trySpans have_ rs d
    (ps :: l, d)

/-- The ranges of an operation read, if every line can be read now; their accesses are then counted (R143). -/
def fetchNow (rs : List Span) (d : Dev) : Option (List (List Part)) × Dev :=
  let (l, d) := trySpans [] rs d
  if l.all (·.all Part.done) then (some l, l.flatten.foldl (fun d p => countAccess p.addr d) d) else (none, d)

/-- The ranges of an operation read; where a line cannot be read now, the command parks on it and starts again once its data
has arrived (R54, R258). -/
def fetch (q : QCmd) (rs : List Span) (d : Dev) : Option (List (List Part)) × Dev :=
  let (l, d) := trySpans (tGet d.got q.id) rs d
  if l.all (·.all Part.done) then (some l, l.flatten.foldl (fun d p => countAccess p.addr d) d)
  else
    let (i, d) := freshId d
    (none, putJob i { owner := .command q, crew := q.cmd.crew, requester := unitId (ownModule d) 3, stamp := d.stk.number,
                      parts := l.flatten, goal := .retry, ready := false } d)

/-- Ranges cleared of every agent's copy before the device itself changes them (Table 4-3): true where none is held; otherwise the
copies are invalidated and the command parks until the answers are in. -/
def claim (q : QCmd) (rs : List (Nat × Nat)) (d : Dev) : Bool × Dev :=
  let es := d.dir.filter fun e => e.2.state != 0 && rs.any fun r =>
    decide (0 < r.2) && decide (lineOf r.1 ≤ e.1) && decide (e.1 ≤ lineOf (r.1 + r.2 - 1))
  if es.isEmpty then (true, d)
  else
    let d := es.foldl (fun d e => if transient e.2.state then d
      else startSnoops e.1 (if e.2.state = 1 then 8 else 9) false (holdersOf d e.1) d) d
    let (i, d) := freshId d
    (false, setJob i { owner := .command q, crew := q.cmd.crew, requester := unitId (ownModule d) 3, stamp := d.stk.number,
                       parts := es.map fun e => { addr := e.1 * 128, len := 128, key := devKey d (e.1 * 128),
                                                  state := .waiting (.snoop e.1), admitted := true },
                       goal := .retry, ready := false, parked := true } d)

/-- The bytes of a range that was read. -/
def spanBytes (ps : List Part) : List Byte := gatherBytes (ps.foldl (fun a p => max a (p.off + p.len)) 0) ps

/-- The first failure of several ranges. -/
def spansBad (l : List (List Part)) : Nat := firstBad l.flatten

/-- Whether no agent holds a line of a range in a way that keeps the device from reading it, or from writing it (Table 4-3), and the
recalls sent. -/
def recallRange (write : Bool) (a n : Nat) (d : Dev) : Bool × Dev :=
  let es := d.dir.filter fun e => decide (0 < n) && decide (lineOf a ≤ e.1) && decide (e.1 ≤ lineOf (a + n - 1))
    && (decide (2 ≤ e.2.state) || (write && e.2.state == 1))
  (es.isEmpty, es.foldl (fun d e => if transient e.2.state then d
    else if write then startSnoops e.1 (if e.2.state = 1 then 8 else 9) false (holdersOf d e.1) d
    else startSnoops e.1 0xA true e.2.holders d) d)

/-- Several ranges recalled. -/
def recallRanges (write : Bool) (l : List (Nat × Nat)) (d : Dev) : Bool × Dev :=
  l.foldl (fun x r =>
    let (ok, d) := recallRange write r.1 r.2 x.2
    (x.1 && ok, d)) (true, d)

/-- Whether a range is home DRAM of this module on a boundary of n bytes. -/
def homeDram (d : Dev) (a n : Nat) : Bool := addrModule a == ownModule d && addrSpace a == 0 && aligned a n

/-! ### Output slots -/

/-- An array padded with zeros to whole lines (R242). -/
def padLine (l : List Byte) : List Byte := l ++ zeros ((128 - l.length % 128) % 128)

/-- A slot header (Table 8-4). -/
def slotHeader (step status index kind ofmt elements heads modNo stroke : Nat) : List Byte :=
  slice (toLe 4 step ++ toLe 1 status ++ toLe 1 index ++ toLe 1 kind ++ toLe 1 ofmt ++ toLe 4 elements ++ toLe 2 heads
    ++ toLe 2 modNo ++ toLe 4 (stroke % 2 ^ 32)) 0 128

/-- Where a slot goes and how it is labelled: address, key word, STEP, INDEX and KIND. -/
structure SlotOut where
  out : Nat := 0
  key : Nat := 0
  step : Nat := 0
  index : Nat := 0
  kind : Nat := 1
  ofmt : Nat := 0
  elements : Nat := 0
  heads : Nat := 1
  deriving DecidableEq, Repr, Inhabited

/-- The header of a slot with a status. -/
def SlotOut.header (o : SlotOut) (st : Nat) (d : Dev) : List Byte :=
  slotHeader o.step st o.index o.kind o.ofmt o.elements o.heads (ownModule d) d.stk.number

/-- Data written with one line released after it (R243, R244): to another module the line is sent at once behind the data, and at
home it follows once the data is the home value. -/
def writeRelease (q : QCmd) (a : Nat) (data : List Byte) (last key : Nat) (line : List Byte) (st : Nat) (words : List Nat)
    (d : Dev) : Dev :=
  let (i, d) := freshId d
  let ps := splitParts a data.length key .write data
  let j : Job := { owner := .command q, crew := q.cmd.crew, requester := unitId (ownModule d) 3, stamp := d.stk.number }
  if homedHere d a then runJob i (setJob i { j with parts := ps, goal := .slot last key line st words } d)
  else
    let end_ := (splitParts last 128 key .write line).map fun p => { p with flags := 0x14 }
    runJob i (setJob i { j with parts := ps ++ end_, goal := .output st words } d)

/-- A slot written (R243, R244), where a nonzero STATUS in its header says that no data was written: its data lines first and then its header. -/
def writeSlot (q : QCmd) (o : SlotOut) (st : Nat) (words : List Nat) (data : List Byte) (d : Dev) : Dev :=
  writeRelease q (o.out + 128) data o.out o.key (o.header (if data.isEmpty then st else stOk) d) st words d

/-- A slot whose work has failed: the header alone, with the failing status (R243). -/
def failSlot (q : QCmd) (o : SlotOut) (st : Nat) (words : List Nat) (d : Dev) : Dev := writeSlot q o st words [] d

/-! ### Scratchpads and home-cache space -/

/-- Whether a core is in a crew's set. -/
def Crew.hasCore (c : Crew) (core : Nat) : Bool := c.state != 0 && decide (core < 128) && bitAt c.cores core

/-- Whether a core is retired (R374). -/
def coreRetired (d : Dev) (core : Nat) : Bool := bitAt d.flt.retired core

/-- Whether a core is in the set of another crew. -/
def coreShared (d : Dev) (crew core : Nat) : Bool := d.crews.any fun c => c.1 != crew && c.2.hasCore core

/-- A crew's window on a core: its first byte and its size (R240). -/
def windowOf (d : Dev) (crew core : Nat) : Nat × Nat :=
  if !(crewOf d crew).hasCore core then (0, 0)
  else match tGet? d.windows (crew * 128 + core) with
    | some (b, n) => (b * 65536, n * 65536)
    | none => if tGet d.spadSet crew ≠ 0 ∨ coreShared d crew core then (0, 0) else (0, 0x1C0000)

/-- Where a crew's home-cache space on a die begins in the model's array of it. -/
def cspaceAddr (die crew off : Nat) : Nat := (die * 256 + crew) * 2 ^ 27 + off

/-- A crew's share of a die's home-cache space in bytes (R110). -/
def cspaceShare (d : Dev) (die crew : Nat) : Nat :=
  bitsOf (regInForce d (0x61000 + 8 * crew)) (8 * die + 7) (8 * die) * 2 ^ 20

/-- The die of a core. -/
def dieOfCore (core : Nat) : Nat := core / 64

/-- Bytes written to the scratchpad of a core. -/
def spadWrite (core off : Nat) (l : List Byte) (d : Dev) : Dev :=
  { d with scratch := memWrite d.scratch (scratchAddr core off) l }

/-! ### Factored tiles -/

/-- The rank that a RANK code names (Table 9-3). -/
def rankOf (code : Nat) : Nat := 4 * 2 ^ code

/-- The format that an FFMT code names (Table 9-3). -/
def factorFmt (ffmt : Nat) : Nat := if ffmt = 0 then 2 else if ffmt = 1 then 3 else 1

/-- The check of a slot (R270): CRC-32 over bytes [7:0], bytes [15:12] and every factor byte. -/
def slotCheck (l : List Byte) : Nat := (crc32 (slice l 0 8 ++ slice l 12 4 ++ l.drop 16)).toNat

/-- Whether a slot passes its check under a rank and factor format (R270). -/
def slotGood (rank ffmt : Nat) (l : List Byte) : Bool :=
  fieldLe l 8 4 == slotCheck l && fieldLe l 12 4 == rank + 4 * ffmt

/-- Element U(k, ρ) of a slot (R269). -/
def slotU (ffmt : Nat) (l : List Byte) (k p : Nat) : FVal :=
  elemVal (factorFmt ffmt) (elemPat (factorFmt ffmt) (l.drop 16) (p * 128 + k))

/-- Element V(ρ, n) of a slot (R269). -/
def slotV (rank ffmt : Nat) (l : List Byte) (p n : Nat) : FVal :=
  elemVal (factorFmt ffmt) (elemPat (factorFmt ffmt) (l.drop 16) (128 * rankOf rank + n * rankOf rank + p))

/-- A value scaled by a slot's two scales. -/
def slotScale (l : List Byte) (v : BitVec 32) : BitVec 32 :=
  mulF32 (mulF32 (BitVec.ofNat 32 (fieldLe l 0 4)) (BitVec.ofNat 32 (fieldLe l 4 4))) v

/-- W(k, n) of a slot in the order of a dense tile, position n × 128 + k (R245, R269); the sums are drawn from number n0 on. -/
def slotTile (rank ffmt n0 : Nat) (l : List Byte) : List FVal :=
  (List.range 16384).map fun i =>
    f32Val (slotScale l (matrixSum (n0 + i) ((List.range (rankOf rank)).map fun p =>
      (slotU ffmt l (i % 128) p).mul (slotV rank ffmt l p (i / 128)))))

/-- A slot's dense tile in a format (R277). -/
def expandSlot (rank ffmt dfmt : Nat) (l : List Byte) (d : Dev) : List Byte × Dev :=
  (encodeArray dfmt (slotTile rank ffmt d.draws l), { d with draws := d.draws + 16384 })

/-- Slots that failed their checks counted in WSK_TILES. -/
def countCheckFails (n : Nat) (d : Dev) : Dev := if n = 0 then d else bumpReg 0xC0010 63 32 n d

/-- Whether every region that a range touches is marked with a rank and factor format (R274). -/
def rangeMarked (d : Dev) (a n rank ffmt : Nat) : Bool :=
  (rangeRegions a n).all fun r => match liveRegion d r with
    | some x => x.mark == some (rank, ffmt)
    | none => false

/-! ### Expansion profiles -/

/-- A profile's record. -/
def profOf (d : Dev) (p : Nat) : Profile := (tGet? d.profiles p).getD {}

/-- A profile's record replaced. -/
def setProf (p : Nat) (x : Profile) (d : Dev) : Dev := { d with profiles := tSet d.profiles p x }

/-- The rank, factor format and dense format of a profile's generation, where it is live for work of a crew stamped in a stroke
(R276, R279). -/
def profLive (d : Dev) (crew p gen stamp : Nat) : Option (Nat × Nat × Nat) :=
  let x := profOf d p
  if p ≥ 64 ∨ gen = 0 ∨ x.crew ≠ crew then none
  else if x.gen = gen then some (x.rank, x.ffmt, x.dfmt)
  else if x.oldGen = gen ∧ stamp ≤ x.since then some (x.oldRank, x.oldFfmt, x.oldDfmt)
  else none

/-- Every command of a crew that the device holds: held in queues and sessions, waiting, or started. -/
def crewCmds (d : Dev) (crew : Nat) : List QCmd :=
  (startedCmds d ++ (d.queues.flatMap fun r => r.2.held) ++ d.sessions.flatMap fun r => r.2.held).filter fun q =>
    q.cmd.crew == crew

/-- The holders of a profile's draining generation (R280). -/
def profHolders (d : Dev) (x : Profile) : Nat :=
  (((crewCmds d x.crew).filter fun q =>
    (q.opcode == 0x301 || q.opcode == 0x304 || q.opcode == 0x305 || q.opcode == 0x206) && decide (q.stamp ≤ x.since)).map
      (·.id)).dedup.length

/-- The draining generation of a profile retired where it has no holders left (R280). -/
def profileRetire (p : Nat) (d : Dev) : Dev :=
  let x := profOf d p
  if x.oldGen ≠ 0 ∧ profHolders d x = 0 then setProf p { x with oldGen := 0, oldRank := 0, oldFfmt := 0, oldDfmt := 0 } d
  else d

end Sys2Proof.Machine
end

