-- ==== Sys2Proof/Machine/Factors.lean ====
section
/-! DEFINITION. Machine/Factors.lean: region marks, expansion profiles, EXPAND and FACTOR (Chapter 9). -/

namespace Sys2Proof.Machine

/-! ### Marks -/

/-- The charge of a region under a mark (R273). -/
def markCharge : Option (Nat × Nat) → Nat
  | none => 1
  | some (rank, _) => 64 / rankOf rank

/-- A region marked or unmarked, with its charge (R273). -/
def markRegion (m : Option (Nat × Nat)) (r : Nat) (d : Dev) : Dev := match tGet? d.regions r with
  | none => d
  | some x => modRegion r (fun x => { x with mark := m, charge := markCharge m })
      (modCrew x.crew (fun c => { c with dramUsed := c.dramUsed + markCharge m - x.charge }) d)

/-- What a crew would be charged with a run of its regions under a mark. -/
def chargeAfter (d : Dev) (crew : Nat) (m : Option (Nat × Nat)) (run : List Nat) : Nat :=
  (crewOf d crew).dramUsed + run.length * markCharge m
    - run.foldl (fun a r => a + ((tGet? d.regions r).getD {}).charge) 0

/-- The slots of a FACTOR: their address and bytes. -/
def factorDest (l : LongOp) : Nat × Nat :=
  (pNat l.q.cmd 24 8, pNat l.q.cmd 18 2 * pNat l.q.cmd 16 2 * slotBytes (l.words.getD 0 0) (l.words.getD 1 0))

/-- Whether a run of regions meets the destination of a FACTOR that has not ended. -/
def factorMeets (d : Dev) (run : List Nat) : Bool :=
  (liveOps d).any fun l => l.2.opcode == 0x305 && (rangeRegions (factorDest l.2).1 (factorDest l.2).2).any run.contains

/-- WSK_MARK with APPLY = 1 acting in step 4 (R272): the status of the write. crew is the writer's crew, none for management. -/
def wskMarkApply (crew : Option Nat) (v : Nat) (d : Dev) : Nat × Dev :=
  let n := bitsOf v 47 32
  let first := regionNo (hallAddr (ownModule d) 0 (bitsOf v 28 0 * 2 ^ 21))
  let run := regionRun first n
  let m := if bitAt v 62 then some (bitsOf v 61 60, bitsOf v 59 58) else none
  let owner := match crew with
    | some c => c
    | none => ((tGet? d.regions first).getD {}).crew
  let owned (r : Nat) : Bool := match liveRegion d r with
    | some x => x.crew == owner
    | none => false
  if n = 0 then (stOk, d)
  else if !run.all owned then (stNoRights, d)
  else if bitAt v 62 ∧ bitsOf v 59 58 = 3 then (stOkPartial, d)
  else if (run.any fun r => ((tGet? d.regions r).getD {}).prot) ∨ chargeAfter d owner m run > (crewOf d owner).dramQuota
    ∨ factorMeets d run then (stOkPartial, d)
  else
    let d := run.foldl (fun d r => markRegion m r d) d
    let x := (tGet? d.regions first).getD {}
    (stOk, if x.paired then sendRegion first n 4 x d else d)

/-! ### Profiles -/

/-- WSK_PROF_DEF with PUBLISH = 1 acting in step 4 (R278): s is the stroke of the write. -/
def profPublish (p v s : Nat) (d : Dev) : Nat × Dev :=
  let x := profOf d p
  let dfmt := bitsOf v 15 8
  if x.oldGen ≠ 0 then (stBusy, d)
  else if bitsOf v 5 4 = 3 ∨ !(dfmt = 1 ∨ dfmt = 2 ∨ dfmt = 3 ∨ dfmt = 5 ∨ dfmt = 6) then (stOkPartial, d)
  else if !x.en then (stOkPartial, d)
  else
    let g := nextGen8 x.last
    (stOk, setProf p { x with
      oldGen := x.gen, oldRank := x.rank, oldFfmt := x.ffmt, oldDfmt := x.dfmt, since := if x.gen = 0 then x.since else s
      gen := g, last := g, rank := bitsOf v 1 0, ffmt := bitsOf v 5 4, dfmt } d)

/-- WSK_PROF_CTL with EN = 0 acting in step 4 (R281): the active generation drains and none becomes active. -/
def profDisable (p s : Nat) (d : Dev) : Nat × Dev :=
  let x := profOf d p
  if x.oldGen ≠ 0 then (stBusy, d)
  else (stOk, setProf p { x with en := false, oldGen := x.gen, oldRank := x.rank, oldFfmt := x.ffmt, oldDfmt := x.dfmt,
                                 since := if x.gen = 0 then x.since else s, gen := 0, rank := 0, ffmt := 0, dfmt := 0 } d)

/-- A write of WSK_PROF_CTL acting in step 4 (R276, R281): one that changes CREW while a generation is live leaves the register
unchanged. -/
def profCtl (p v s : Nat) (d : Dev) : Nat × Dev :=
  let x := profOf d p
  let crew := bitsOf v 15 8
  if crew ≠ x.crew ∧ (x.gen ≠ 0 ∨ x.oldGen ≠ 0) then (stOkPartial, d)
  else if !bitAt v 0 ∧ x.en = true then
    let (st, d) := profDisable p s d
    (st, if st = stOk then setProf p { profOf d p with crew } d else d)
  else (stOk, setProf p { x with en := bitAt v 0, crew } d)

/-- PROFILE_RETIRE: a draining generation without holders retires (R280). -/
def execProfileRetire (profile : Nat) (s : State) : Host.Outcome State Fault Refusal := .next (onDev (profileRetire profile) s)

/-! ### EXPAND -/

/-- The first slot and the slot of block tile (i, j) of an EXPAND. -/
def expandSlotAddr (c : Cmd) (slot i j : Nat) : Nat :=
  pNat c 0 8 + ((pNat c 18 2 + i) * pNat c 16 2 + pNat c 20 2 + j) * slot

/-- The ranges of slots of an EXPAND: one for each tile row. -/
def expandSrc (c : Cmd) (slot : Nat) : List (Nat × Nat) :=
  (List.range (pNat c 22 2)).map fun i => (expandSlotAddr c slot i 0, pNat c 24 2 * slot)

/-- The checks of EXPAND in their order (R283). -/
def expandCheck (d : Dev) (q : QCmd) : Option Nat :=
  let c := q.cmd
  let spad := bitAt (pNat c 15 1) 0
  let rows := pNat c 22 2
  let cols := pNat c 24 2
  let dest := pNat c 32 8
  let core := pNat c 26 2
  if pNat c 15 1 ≥ 2 ∨ core ≥ 128 ∨ (!spad ∧ core ≠ 0) ∨ (spad ∧ (dest ≥ 2 ^ 32 ∨ pNat c 40 5 ≠ 0)) then some stBadField
  else if rows = 0 ∨ cols = 0 then some stOk
  else if Cmd.ctx c ∨ pNat c 16 2 = 0 ∨ pNat c 16 2 > 4096 ∨ pNat c 20 2 + cols > pNat c 16 2 ∨ !homeDram d (pNat c 0 8) 4096
    ∨ (spad ∧ !aligned dest 64) ∨ (!spad ∧ !homeDram d dest 4096) then some stBadField
  else match profLive d c.crew (pNat c 13 1) (pNat c 14 1) q.stamp with
    | none => some stBadField
    | some (rank, ffmt, dfmt) =>
      let src := expandSrc c (slotBytes rank ffmt)
      let bytes := rows * cols * tileBytes dfmt
      let w := windowOf d c.crew core
      let owned (r : Nat × Nat) : Bool := (rangeRegions r.1 r.2).all fun x => (liveRegion d x).any fun y => y.crew == c.crew
      let keyed (r : Nat × Nat) (k : Nat) : Bool := (rangeRegions r.1 r.2).all fun x => (liveRegion d x).any fun y => y.key == k
      if !(src.all fun r => rangeMarked d r.1 r.2 rank ffmt) then some stBadField
      else if bytes > 268435456 ∨ (spad ∧ bytes > 1835008) then some stBadLength
      else if spad ∧ (!(crewOf d c.crew).hasCore core ∨ dest + bytes > w.2) then some stNoRights
      else if !src.all owned ∨ (!spad ∧ !owned (dest, bytes)) then some stNoRights
      else if !(src.all fun r => keyed r (pNat c 8 5)) ∨ (!spad ∧ !keyed (dest, bytes) (pNat c 40 5)) then some stKeyMismatch
      else if spad ∧ coreRetired d core then some stDeviceFault
      else none

/-- The tiles of an EXPAND: for each slot in row-major order its dense bytes, or none where the slot fails its check. -/
def expandTiles (rank ffmt dfmt : Nat) : List (List Byte × Bool) → Dev → List (Option (List Byte)) × Dev
  | [], d => ([], d)
  | (l, ok) :: rest, d =>
    if ok ∧ slotGood rank ffmt l then
      let (t, d) := expandSlot rank ffmt dfmt l d
      let (ts, d) := expandTiles rank ffmt dfmt rest d
      (some t :: ts, d)
    else
      let (ts, d) := expandTiles rank ffmt dfmt rest d
      (none :: ts, d)

/-- A run of bytes that was read cut into pieces of equal size; a piece touched by a line that failed is not good. -/
def cutPieces (ps : List Part) (size n : Nat) : List (List Byte × Bool) :=
  let b := spanBytes ps
  (List.range n).map fun i =>
    (slice b (i * size) size,
     ps.all fun p => stSuccess p.status || decide (p.off + p.len ≤ i * size) || decide ((i + 1) * size ≤ p.off))

/-- EXPAND computed (R284): the tiles whose slots pass are written, the others poisoned, or zero in a scratchpad. -/
def expandRun (q : QCmd) (d : Dev) : Dev :=
  let c := q.cmd
  let (rank, ffmt, dfmt) := (profLive d c.crew (pNat c 13 1) (pNat c 14 1) q.stamp).getD (0, 0, 2)
  let slot := slotBytes rank ffmt
  let t := tileBytes dfmt
  match fetch q ((expandSrc c slot).map fun r => (r.1, r.2, pNat c 8 5)) d with
  | (none, d) => d
  | (some l, d) =>
    let (tiles, d) := expandTiles rank ffmt dfmt (l.flatMap fun ps => cutPieces ps slot (pNat c 24 2)) d
    let good := (tiles.filter Option.isSome).length
    let bad := tiles.length - good
    let d := countCheckFails bad (bumpReg 0xC0010 31 0 good d)
    let st := if bad = 0 then stOk else stPoisoned
    let dest := pNat c 32 8
    if bitAt (pNat c 15 1) 0 then
      let bytes := tiles.flatMap fun x => x.getD (zeros t)
      complete q st [good, bad] [] (spadWrite (pNat c 26 2) ((windowOf d c.crew (pNat c 26 2)).1 + dest) bytes d)
    else
      let parts := ((List.range tiles.length).zip tiles).flatMap fun x =>
        (splitParts (dest + x.1 * t) t (pNat c 40 5) .write (x.2.getD (zeros t))).map fun p =>
          { p with off := x.1 * t + p.off, poisoned := x.2.isNone }
      let (i, d) := freshId d
      runJob i (setJob i { owner := .command q, crew := c.crew, requester := unitId (ownModule d) 3, stamp := d.stk.number,
                           parts, goal := .output st [good, bad] } d)

/-- EXPAND accepted and computed. -/
def expandBody (q : QCmd) (d : Dev) : Dev := match expandCheck d q with
  | some st => completeSt q st d
  | none => expandRun q d

/-- EXPAND. -/
def execExpand (c : Cmd) (s : State) : Host.Outcome State Fault Refusal := .next (runRow 0x0304 c (devBody expandBody) s)

/-! ### FACTOR -/

/-- The checks of FACTOR in their order (R285). -/
def factorCheck (d : Dev) (q : QCmd) : Option Nat :=
  let c := q.cmd
  let cols := pNat c 16 2
  let rows := pNat c 18 2
  let sfmt := pNat c 13 1
  let tiles := rows * cols
  let src := pNat c 0 8
  let dest := pNat c 24 8
  let regs (a n : Nat) (f : Region → Bool) : Bool := (rangeRegions a n).all fun r => (liveRegion d r).any f
  if sfmt ≥ 4 then some stBadField
  else if cols = 0 ∨ rows = 0 then some stOk
  else if tiles * tileBytes sfmt > 268435456 then some stBadLength
  else if Cmd.ctx c ∨ cols > 4096 ∨ rows > 4096 ∨ !homeDram d src 4096 ∨ !homeDram d dest 4096 then some stBadField
  else match profLive d c.crew (pNat c 14 1) (pNat c 15 1) q.stamp with
    | none => some stBadField
    | some (rank, ffmt, _) =>
      let n := tiles * tileBytes sfmt
      let m := tiles * slotBytes rank ffmt
      let run := rangeRegions dest m
      let unmarked := run.filter fun r => ((tGet? d.regions r).getD {}).mark.isNone
      if ((rangeRegions src n) ++ run).any (fun r => ((tGet? d.regions r).getD {}).prot)
        ∨ run.any (fun r => match ((tGet? d.regions r).getD {}).mark with
          | some f => f != (rank, ffmt)
          | none => false)
        ∨ chargeAfter d c.crew (some (rank, ffmt)) unmarked > (crewOf d c.crew).dramQuota then some stBadField
      else if !regs src n (fun x => x.crew == c.crew) ∨ !regs dest m (fun x => x.crew == c.crew) then some stNoRights
      else if !regs src n (fun x => x.key == pNat c 8 5) ∨ !regs dest m (fun x => x.key == pNat c 32 5) then some stKeyMismatch
      else none

/-- FACTOR accepted (R285): its destination regions are marked and charged; marked keeps those that it marked itself. -/
def factorBody (q : QCmd) (d : Dev) : Dev := match factorCheck d q with
  | some st => completeSt q st d
  | none =>
    if (freeOp d).isNone then completeSt q stBusy d
    else
      let c := q.cmd
      let (rank, ffmt, _) := (profLive d c.crew (pNat c 14 1) (pNat c 15 1) q.stamp).getD (0, 0, 0)
      let dest := pNat c 24 8
      let m := pNat c 18 2 * pNat c 16 2 * slotBytes rank ffmt
      let fresh := (rangeRegions dest m).filter fun r => ((tGet? d.regions r).getD {}).mark.isNone
      let d := fresh.foldl (fun d r => markRegion (some (rank, ffmt)) r d) d
      let x := (tGet? d.regions (regionNo dest)).getD {}
      let d := if x.paired then sendRegion (regionNo dest) (rangeRegions dest m).length 4 x d else d
      startOp q { first := regionNo dest, count := (rangeRegions dest m).length, marked := fresh, words := [rank, ffmt] } d

/-- FACTOR. -/
def execFactor (c : Cmd) (s : State) : Host.Outcome State Fault Refusal := .next (runRow 0x0305 c (devBody factorBody) s)

/-- What a FACTOR that ends before its commit point undoes (R287): its slots are zeroed and the regions it marked are
unmarked. -/
def factorUndo (i : Nat) (d : Dev) : Dev :=
  let l := opOf d i
  let (a, n) := factorDest l
  let d := if l.phase = 0 then d else { d with mem := memClear d.mem a n }
  let d := l.marked.foldl (fun d r => markRegion none r d) d
  modOp i (fun l => { l with marked := [] }) d

/-- A slot with factors under its own scales and a correct check (R270). -/
def makeSlot (rank ffmt su sv : Nat) (factors : List Byte) : List Byte :=
  let head := toLe 4 su ++ toLe 4 sv
  let form := toLe 4 (rank + 4 * ffmt)
  head ++ toLe 4 (crc32 (head ++ form ++ factors)).toNat ++ form ++ factors

/-- Whether a value is a NaN or an infinity. -/
def FVal.nonFinite : FVal → Bool
  | .nan => true
  | .inf _ => true
  | .fin _ _ _ => false

/-- The slot of a tile (R286): the factors of a tile that is neither zero nor non-finite are the device's own. -/
def factorSlot (rank ffmt draw tile : Nat) (vals : List FVal) : List Byte :=
  let n := 256 * rankOf rank
  let e := elemBits (factorFmt ffmt) / 8
  if vals.any FVal.nonFinite then makeSlot rank ffmt 0x7FC00000 (Config.factorElem draw tile (n + 1)).toNat (zeros (n * e))
  else if vals.all FVal.isZero then makeSlot rank ffmt 0x3F800000 0x3F800000 (zeros (n * e))
  else makeSlot rank ffmt (Config.factorElem draw tile n).toNat (Config.factorElem draw tile (n + 1)).toNat
    ((List.range n).flatMap fun i => toLe e (Config.factorElem draw tile i).toNat)

/-- The last slice of a FACTOR: every slot written, the commit point being the last (R286, R287). A source line that is poisoned
ends it with POISONED. -/
def factorFinish (i : Nat) (d : Dev) : Dev :=
  let l := opOf d i
  let c := l.q.cmd
  let rank := l.words.getD 0 0
  let ffmt := l.words.getD 1 0
  let t := tileBytes (pNat c 13 1)
  let n := pNat c 18 2 * pNat c 16 2
  let a := pNat c 0 8
  let dest := pNat c 24 8
  if poisonIn d a (n * t) then endOp i stPoisoned [0, 0] (factorUndo i d)
  else
    let (clear, d) := recallLines false (regionNo a) (rangeRegions a (n * t)).length d
    let (clear2, d) := recallLines true (regionNo dest) l.count d
    if !clear ∨ !clear2 then d
    else
      let tiles := (List.range n).map fun k => decodeArray (pNat c 13 1) 16384 (memRead d.mem (a + k * t) t)
      let bytes := ((List.range n).zip tiles).flatMap fun x => factorSlot rank ffmt d.draws x.1 x.2
      let odd := (tiles.filter fun v => v.any FVal.nonFinite).length
      let d := { d with draws := d.draws + 1 }
      let d := deviceWrite dest (devKey d dest) bytes d
      endOp i stOk [n, odd] (modOp i (fun l => { l with committed := true, phase := 1 }) d)

end Sys2Proof.Machine
end

