-- ==== Sys2Proof/Machine/Images.lean ====
section
/-! DEFINITION. Machine/Images.lean: IMAGE_LOAD and the image container (R152 to R156, R163, R288, R355). -/

namespace Sys2Proof.Machine

/-- Bytes read so far with the status that stopped the reading, OK where nothing did. -/
structure Loaded where
  bytes : List Byte := []
  status : Nat := 0
  blocks : Nat := 0
  deriving DecidableEq, Repr, Inhabited

/-- The extent, if any, that begins at an address. -/
def extentAt (d : Dev) (a : Nat) : Option Extent :=
  if aligned a (2 ^ 21) ∧ addrSpace a = 1 then tGet? d.extents (regionNo a) else none

/-- The checks of IMAGE_LOAD at acceptance (R136, R163, R288, R353). -/
def imageLoadCheck (d : Dev) (q : QCmd) : Option Nat :=
  let c := q.cmd
  let src := pNat c 0 8
  let dest := pNat c 20 8
  let n := pNat c 36 4
  let sealedSrc := addrSpace src = 1
  if pNat c 13 1 ≥ 2 ∨ Cmd.ctx c then some stBadField
  else if n = 0 then some stOk
  else if addrModule src ≠ ownModule d ∨ addrSpace src ≥ 2 ∨ !homeDram d dest (2 ^ 21) then some stBadField
  else if (imageSlot d c.crew (pNat c 15 1)).isNone then some stBadField
  else if bitAt (pNat c 13 1) 0 ∧ (profLive d c.crew (pNat c 14 1) (pNat c 16 1) q.stamp).isNone then some stBadField
  else (rangeCheck d c.crew src (if sealedSrc then 1 else 4096) (pNat c 8 5)).orElse fun _ =>
    (rangeCheck d c.crew dest (n * 2 ^ 21) (pNat c 28 5)).orElse fun _ =>
      if sealedSrc ∧ ((extentAt d src).isNone ∨ ((regionAt d src).getD {}).state ≠ .sealedExtent) then some stBadField
      else if isProtected d src ∧ !rangeProtected d c.crew dest (n * 2 ^ 21) then some stBadField
      else none

/-- IMAGE_LOAD accepted: the slot's KEY_ID and key are taken with it. -/
def imageLoadBody (q : QCmd) (d : Dev) : Dev := match imageLoadCheck d q with
  | some st => completeSt q st d
  | none =>
    let k := (imageSlot d q.cmd.crew (pNat q.cmd 15 1)).getD {}
    startOp q { first := regionNo (pNat q.cmd 20 8), count := pNat q.cmd 36 4, words := [leNat k.keyId, leNat k.key] } d

/-- IMAGE_LOAD. -/
def execImageLoad (c : Cmd) (s : State) : Host.Outcome State Fault Refusal := .next (runRow 0x0206 c (devBody imageLoadBody) s)

/-- Block b of a staged container. -/
def imgBlock (d : Dev) (src b : Nat) : List Byte := memRead d.mem (src + b * 4096) 4096

/-- Whether a header, map or check block holds its own CRC-64, and zero after it (R155). -/
def blockSound (l : List Byte) : Bool :=
  fieldLe l 4080 8 == (crc64 (l.take 4080)).toNat && allZero (slice l 4088 8)

/-- The media block of data block n of a container with m map blocks (R155). -/
def dataBlockAt (m n : Nat) : Nat := 1 + m + n / 170 * 171 + 1 + n % 170

/-- The media block of the check block of data block n. -/
def checkBlockAt (m n : Nat) : Nat := 1 + m + n / 170 * 171

/-- One data block checked and decrypted (R155, R163, R355): its clear bytes, or the failure. -/
def openBlock (d : Dev) (src m n key : Nat) (h : List Byte) : List Byte × Nat :=
  let b := imgBlock d src (dataBlockAt m n)
  let cb := imgBlock d src (checkBlockAt m n)
  let e := n % 170 * 24
  if !blockSound cb ∨ fieldLe cb e 8 ≠ (crc64 b).toNat ∨ poisonIn d (src + dataBlockAt m n * 4096) 4096 then ([], stPoisoned)
  else match Config.gcmOpen (BitVec.ofNat 256 key) (slice h 32 8 ++ toLe 4 n) (h.take 56) b (slice cb (e + 8) 16) with
    | none => ([], stAuthFailed)
    | some l => (l, stOk)

/-- The data blocks of one chunk in order. -/
def openBlocks (d : Dev) (src m key : Nat) (h : List Byte) : Nat → Nat → List Byte × Nat
  | _, 0 => ([], stOk)
  | n, k + 1 =>
    match openBlock d src m n key h with
    | (l, st) => if st ≠ stOk then ([], st)
      else
        let (ls, st) := openBlocks d src m key h (n + 1) k
        (l ++ ls, st)

/-- The chunks of a container in order, each of the blocks that the map gives it. -/
def openChunks (d : Dev) (src m key : Nat) (h : List Byte) : Nat → List Nat → Loaded
  | n, [] => { blocks := n }
  | n, k :: ks =>
    match openBlocks d src m key h n k with
    | (l, st) =>
      if st ≠ stOk then { status := st, blocks := n }
      else
        let chunk := if k = 16 then some l else Config.zstdDecode l
        match chunk with
        | none => { status := stBadField, blocks := n + k }
        | some b =>
          if b.length ≠ 65536 then { status := stBadField, blocks := n + k }
          else
            let r := openChunks d src m key h (n + k) ks
            { r with bytes := b ++ r.bytes }

/-- A container staged in home DRAM read (R155, R163, R355). keyId and key are those of the key slot. -/
def readStaged (d : Dev) (src keyId key : Nat) : Loaded :=
  let h := imgBlock d src 0
  let chunks := fieldLe h 24 4
  let m := ceilDiv chunks 4080
  if !blockSound h ∨ poisonIn d src 4096 then { status := stPoisoned }
  else if fieldLe h 0 8 ≠ 0x4E5A5345414C0001 ∨ fieldLe h 8 1 ≠ 2 ∨ fieldLe h 9 1 ≥ 2 ∨ fieldLe h 10 6 ≠ 0
    ∨ fieldLe h 16 8 ≠ chunks * 65536 ∨ !allZero (slice h 56 4024) then { status := stBadField }
  else if fieldLe h 40 16 ≠ keyId then { status := stAuthFailed }
  else
    let maps := (List.range m).map fun i => imgBlock d src (1 + i)
    if maps.any (fun b => !blockSound b) ∨ poisonIn d (src + 4096) (m * 4096) then { status := stPoisoned }
    else
      let ns := (List.range chunks).map fun i => ((maps.getD (i / 4080) []).getD (i % 4080) 0).toNat
      if ns.any (fun n => n = 0 ∨ n > 16 ∨ (n ≠ 16 ∧ fieldLe h 9 1 = 0)) ∨ ns.sum ≠ fieldLe h 28 4 then { status := stBadField }
      else openChunks d src m key h 0 ns

/-- An image sealed on the dense tier read: the extent keeps its identifier and key (R148). -/
def readExtent (d : Dev) (src keyId key : Nat) : Loaded :=
  let e := (extentAt d src).getD {}
  let r := (regionAt d src).getD {}
  let x := e.blocks - 1 - ceilDiv (e.count * 32) 4080
  if r.format ≠ 2 then { status := stBadField }
  else if leNat e.keyId ≠ keyId ∨ leNat e.key ≠ key then { status := stAuthFailed }
  else if poisonIn d src (e.count * 2 ^ 21) then { status := stPoisoned }
  else { bytes := memRead d.mem src (e.count * 2 ^ 21), blocks := x - ceilDiv x 171 }

/-- The tiles of an image expanded (R288): none where a slot fails its check. -/
def expandImage (rank ffmt dfmt : Nat) : List (List Byte) → Dev → Option (List Byte) × Dev
  | [], d => (some [], d)
  | l :: ls, d =>
    if slotGood rank ffmt l then
      let (t, d) := expandSlot rank ffmt dfmt l d
      let (r, d) := expandImage rank ffmt dfmt ls d
      (r.map (t ++ ·), d)
    else (none, countCheckFails 1 d)

/-- What an IMAGE_LOAD writes: the image's bytes, expanded where EXPAND is set, and the first failure. -/
def imageResult (q : QCmd) (x : Loaded) (d : Dev) : Loaded × Dev :=
  let c := q.cmd
  if !bitAt (pNat c 13 1) 0 then (x, d)
  else
    let (rank, ffmt, dfmt) := (profLive d c.crew (pNat c 14 1) (pNat c 16 1) q.stamp).getD (0, 0, 2)
    let slot := slotBytes rank ffmt
    let n := x.bytes.length / slot
    match expandImage rank ffmt dfmt ((List.range n).map fun i => slice x.bytes (i * slot) slot) d with
    | (none, d) => ({ x with status := stPoisoned }, d)
    | (some b, d) =>
      let tail := x.bytes.drop (n * slot)
      ({ x with bytes := b, status := if x.status = stOk ∧ !allZero tail then stBadField else x.status }, bumpReg 0xC0010 31 0 n d)

/-- Bytes that an image announces: those that its header or extent gives, expanded where EXPAND is set (R163, R288). -/
def imageSize (d : Dev) (q : QCmd) : Nat :=
  let src := pNat q.cmd 0 8
  let n := if addrSpace src = 1 then ((extentAt d src).getD {}).count * 2 ^ 21 else fieldLe (imgBlock d src 0) 16 8
  if !bitAt (pNat q.cmd 13 1) 0 then n
  else match profLive d q.cmd.crew (pNat q.cmd 14 1) (pNat q.cmd 16 1) q.stamp with
    | some (rank, ffmt, dfmt) => n / slotBytes rank ffmt * tileBytes dfmt
    | none => n

/-- The last slice of an IMAGE_LOAD (R163): the result is written to DEST in order, and nothing is written on a failure. -/
def imageLoadFinish (i : Nat) (d : Dev) : Dev :=
  let l := opOf d i
  let q := l.q
  let src := pNat q.cmd 0 8
  let dest := pNat q.cmd 20 8
  let (clear1, d) := if addrSpace src = 0 then recallLines false (regionNo src) 1 d else (true, d)
  let (clear2, d) := recallLines true l.first l.count d
  if !clear1 ∨ !clear2 then d
  else
    let x := if addrSpace src = 1 then readExtent d src (l.words.getD 0 0) (l.words.getD 1 0)
      else readStaged d src (l.words.getD 0 0) (l.words.getD 1 0)
    let headBad := x.blocks = 0 ∧ x.status ≠ stOk
    if headBad then endOp i x.status [0, x.blocks] d
    else if imageSize d q > l.count * 2 ^ 21 then endOp i stBadLength [0, 0] d
    else
      let (y, d) := imageResult q x d
      if y.status ≠ stOk then endOp i y.status [0, y.blocks] d
      else endOp i stOk [ceilDiv y.bytes.length 65536, y.blocks]
        (modOp i (fun l => { l with committed := true }) (deviceWrite dest (devKey d dest) y.bytes d))

end Sys2Proof.Machine
end

