-- ==== Sys2Proof/Machine/Compute.lean ====
section
/-! DEFINITION. Machine/Compute.lean: SCRATCH_LOAD and SCRATCH_STORE, ENG_CREW_CONF.SPAD, expert batches, attention partials and
COMBINE (Chapter 8). -/

namespace Sys2Proof.Machine

/-! ### Scratchpad windows -/

/-- Whether a run of blocks of a core's crew area lies in no other crew's window (R240). -/
def blocksFree (d : Dev) (crew core first n : Nat) : Bool :=
  d.windows.all fun w => w.1 % 128 != core || w.1 / 128 == crew
    || decide (first + n ≤ w.2.1) || decide (w.2.1 + w.2.2 ≤ first)

/-- The lowest free run of n blocks on a core: none where another crew holds the whole crew area or no run fits. -/
def lowestRun (d : Dev) (crew core n : Nat) : Option Nat :=
  if d.crews.any fun c => c.1 != crew && c.2.hasCore core && decide (0 < (windowOf d c.1 core).2)
      && (tGet? d.windows (c.1 * 128 + core)).isNone then none
  else (List.range (29 - n)).find? fun b => blocksFree d crew core b n

/-- A write of ENG_CREW_CONF.SPAD (R240): the window is placed at once on every core of the crew's set, or the field stays as it
is. -/
def setSpad (crew n : Nat) (d : Dev) : Nat × Dev :=
  let c := crewOf d crew
  let mine := (List.range 128).filter c.hasCore
  let runs := mine.map fun core => (core, lowestRun d crew core n)
  if n = tGet d.spadSet crew then (stOk, d)
  else if n > 28 ∨ n = 0 ∨ tGet d.spadSet crew ≠ 0 ∨ runs.any (fun r => r.2.isNone) then (stOkPartial, d)
  else (stOk, runs.foldl (fun d r => { d with windows := tSet d.windows (crew * 128 + r.1) (r.2.getD 0, n) })
      { d with spadSet := tSet d.spadSet crew n })

/-! ### SCRATCH_LOAD and SCRATCH_STORE -/

/-- The checks that the two copies share, in order (R241 steps 1 to 5). -/
def scratchCheck (d : Dev) (q : QCmd) : Option Nat :=
  let c := q.cmd
  let cs := bitAt (pNat c 13 1) 0
  let core := pNat c 14 2
  let rows := pNat c 24 4
  let rb := pNat c 20 4
  let stride := pNat c 28 4
  let a := pNat c 0 8
  let w := windowOf d c.crew core
  if pNat c 13 1 ≥ 2 ∨ core ≥ 128 ∨ ((Cmd.ctx c ∨ cs) ∧ pNat c 8 5 ≠ 0) ∨ (Cmd.ctx c ∧ cs) then some stBadField
  else if rows = 0 ∨ rb = 0 then some stOk
  else if !aligned (pNat c 16 4) 64 ∨ !aligned rb 64 then some stBadAlign
  else if rows > 1 ∧ stride < rb then some stBadField
  else if rb * rows > 1835008 then some stBadLength
  else if !(crewOf d c.crew).hasCore core ∨ pNat c 16 4 + rb * rows > w.2
    ∨ (cs ∧ a + (rows - 1) * stride + rb > cspaceShare d (dieOfCore core) c.crew) then some stNoRights
  else if coreRetired d core then some stDeviceFault
  else none

/-- The rows of a copy on the store side. -/
def scratchRows (c : Cmd) (act : Act) : List Part :=
  (List.range (pNat c 24 4)).map fun k =>
    { addr := pNat c 0 8 + k * pNat c 28 4, len := pNat c 20 4, off := k * pNat c 20 4, key := pNat c 8 5, act }

/-- SCRATCH_LOAD (R241): from the store, or from home-cache space. -/
def scratchLoadBody (q : QCmd) (d : Dev) : Dev := match scratchCheck d q with
  | some st => completeSt q st d
  | none =>
    let c := q.cmd
    let core := pNat c 14 2
    let base := (windowOf d c.crew core).1 + pNat c 16 4
    if bitAt (pNat c 13 1) 0 then
      let ps := (scratchRows c .read).map fun p =>
        { p with data := memRead d.cspace (cspaceAddr (dieOfCore core) c.crew p.addr) p.len, state := .ended stOk,
                 addr := hallAddr (ownModule d) 3 0 }
      let d := ps.foldl (fun d p => spadWrite core (base + p.off) p.data d) d
      complete q stOk [pNat c 24 4 * pNat c 20 4] [] (markBlocks c.crew core base ps d)
    else startAccess { owner := .command q, crew := c.crew, requester := unitId (ownModule d) 3, stamp := d.stk.number,
                       parts := scratchRows c .read, goal := .scratch core base 0 } (Cmd.ctx c) (some c.crew) d

/-- SCRATCH_LOAD. -/
def execScratchLoad (c : Cmd) (s : State) : Host.Outcome State Fault Refusal := .next (runRow 0x0306 c (devBody scratchLoadBody) s)

/-- A row of a window cut where its 64 KiB blocks meet. -/
def cutBlocks (base : Nat) (p : Part) : List Part :=
  let lo := base + p.off
  (List.range ((lo + p.len - 1) / 65536 - lo / 65536 + 1)).map fun i =>
    let a := max lo ((lo / 65536 + i) * 65536)
    let b := min (lo + p.len) ((lo / 65536 + i + 1) * 65536)
    { p with addr := p.addr + (a - lo), off := p.off + (a - lo), len := b - a }

/-- Whether every byte of a destination lies in protected regions of a crew on this module (R354). -/
def storeProtected (d : Dev) (c : Cmd) (ps : List Part) : Bool :=
  !bitAt (pNat c 13 1) 0 && ps.all fun p =>
    if Cmd.ctx c then match translate d (some c.crew) (unitId (ownModule d) 3) p.addr p.len 1 with
      | .ok a _ => rangeProtected d c.crew a p.len
      | _ => false
    else rangeProtected d c.crew p.addr p.len

/-- SCRATCH_STORE (R241, R354): a flagged source is refused unless it goes to a protected region; blocks with an uncorrectable
error are written poisoned. -/
def scratchStoreBody (q : QCmd) (d : Dev) : Dev := match scratchCheck d q with
  | some st => completeSt q st d
  | none =>
    let c := q.cmd
    let core := pNat c 14 2
    let base := (windowOf d c.crew core).1 + pNat c 16 4
    let ps := (scratchRows c .write).flatMap fun p => (cutBlocks base p).map fun x =>
      { x with data := memRead d.scratch (scratchAddr core (base + x.off)) x.len,
               poisoned := d.spadBad.contains (blockNo c.crew core ((base + x.off) / 65536)) }
    if (ps.any fun p => d.flagged.contains (blockNo c.crew core ((base + p.off) / 65536))) ∧ !storeProtected d c ps then
      completeSt q stNoRights d
    else if bitAt (pNat c 13 1) 0 then
      let put (m : List Host.Cell) (p : Part) : List Host.Cell :=
        memWrite m (cspaceAddr (dieOfCore core) c.crew p.addr) p.data
      complete q (if ps.any (·.poisoned) then stPoisoned else stOk) [pNat c 24 4 * pNat c 20 4] []
        { d with cspace := ps.foldl put d.cspace }
    else startAccess { owner := .command q, crew := c.crew, requester := unitId (ownModule d) 3, stamp := d.stk.number, parts := ps,
                       goal := .count } (Cmd.ctx c) (some c.crew) d

/-- SCRATCH_STORE. -/
def execScratchStore (c : Cmd) (s : State) : Host.Outcome State Fault Refusal := .next (runRow 0x0307 c (devBody scratchStoreBody) s)

/-! ### Experts -/

/-- The activation's bytes inline in an EXPERT. -/
def expertInline (c : Cmd) : Bool := bitAt (pNat c 15 1) 0

/-- The checks of an EXPERT on arrival (R247). -/
def expertCheck (d : Dev) (q : QCmd) : Option Nat :=
  let c := q.cmd
  let il := expertInline c
  let afmt := pNat c 13 1
  let ofmt := pNat c 14 1
  if pNat c 15 1 ≥ 2 then some stBadField
  else if (!il ∧ c.length ≠ 64) ∨ (il ∧ c.length < 65) then some stBadLength
  else if Cmd.ctx c ∨ !(afmt = 1 ∨ afmt = 2 ∨ afmt = 3 ∨ afmt = 5) ∨ !(ofmt = 0 ∨ ofmt = 1 ∨ ofmt = 5) ∨ pNat c 37 1 > 63
    ∨ !homeDram d (pNat c 0 8) 128 ∨ !aligned (pNat c 24 8) 128 ∨ addrSpace (pNat c 24 8) ≠ 0
    ∨ (!il ∧ !homeDram d (pNat c 40 8) 1) ∨ (il ∧ (pNat c 40 8 ≠ 0 ∨ pNat c 48 5 ≠ 0)) then some stBadField
  else none

/-- EXPERT on arrival (R247, R248): it passes its checks and joins its expert's inbox, from which a batch is formed at a boundary. -/
def expertBody (q : QCmd) (d : Dev) : Dev := match expertCheck d q with
  | some st => completeSt q st d
  | none => enqueue { q with reserved := 0 } (unreserve q d)

/-- EXPERT. -/
def execExpert (c : Cmd) (s : State) : Host.Outcome State Fault Refusal := .next (runRow 0x0301 c (devBody expertBody) s)

/-- The output slot of an EXPERT with the descriptor's D_MODEL. -/
def expertSlot (q : QCmd) (dModel : Nat) : SlotOut :=
  { out := pNat q.cmd 24 8, key := pNat q.cmd 32 5, step := pNat q.cmd 20 4, index := pNat q.cmd 37 1, kind := 1,
    ofmt := pNat q.cmd 14 1, elements := dModel, heads := 1 }

/-- An expert descriptor's fields (Table 8-6), from its 128 bytes. -/
structure ExpertDesc where
  weights : Nat
  key : Nat
  wfmt : Nat
  flags : Nat
  profile : Nat
  pgen : Nat
  dm : Nat
  ff : Nat
  sg : Nat
  su : Nat
  sd : Nat
  rsv : Bool
  deriving DecidableEq, Repr, Inhabited

/-- The descriptor that 128 bytes spell. -/
def parseExpert (l : List Byte) : ExpertDesc :=
  { weights := fieldLe l 0 8, key := fieldLe l 8 5, wfmt := fieldLe l 13 1, flags := fieldLe l 14 1, profile := fieldLe l 15 1,
    pgen := fieldLe l 16 1, dm := fieldLe l 18 2, ff := fieldLe l 20 2, sg := fieldLe l 24 4, su := fieldLe l 28 4,
    sd := fieldLe l 32 4,
    rsv := fieldLe l 17 1 != 0 || fieldLe l 22 2 != 0 || !allZero (l.drop 36) || decide (fieldLe l 14 1 ≥ 8) }

/-- Whether a descriptor is factored. -/
def ExpertDesc.factored (x : ExpertDesc) : Bool := bitAt x.flags 0

/-- Bytes of one tile or slot of an expert's weights. -/
def ExpertDesc.tile (x : ExpertDesc) (form : Nat × Nat) : Nat :=
  if x.factored then slotBytes form.1 form.2 else tileBytes x.wfmt

/-- Tiles of one of the three matrices. -/
def ExpertDesc.tiles (x : ExpertDesc) : Nat := x.dm * x.ff

/-- The checks of a command of a batch at dispatch (R252, R274, R275, R246). -/
def tokenCheck (d : Dev) (q : QCmd) (x : ExpertDesc) : Option Nat :=
  let c := q.cmd
  let prof := profLive d c.crew x.profile x.pgen q.stamp
  let form := match prof with
    | some (r, f, _) => (r, f)
    | none => (0, 0)
  let n := 3 * x.tiles * x.tile form
  let act := arrayBytes (pNat c 13 1) (x.dm * 128)
  if !homeDram d x.weights 4096 then some stBadField
  else (rangeCheck d c.crew (pNat c 0 8) 128 (pNat c 8 5)).orElse fun _ =>
    (rangeCheck d c.crew x.weights n x.key).orElse fun _ =>
      (if expertInline c then none else rangeCheck d c.crew (pNat c 40 8) act (pNat c 48 5)).orElse fun _ =>
        if x.rsv ∨ x.wfmt = 0 ∨ x.wfmt > 7 ∨ bitsOf x.flags 2 1 = 3 ∨ x.dm = 0 ∨ x.dm > 128 ∨ x.ff = 0 ∨ x.ff > 128
          ∨ (x.wfmt ≠ 4 ∧ (x.sg ≠ 0 ∨ x.su ≠ 0 ∨ x.sd ≠ 0)) then some stBadField
        else if x.factored ∧ (!(x.wfmt = 1 ∨ x.wfmt = 2 ∨ x.wfmt = 3) ∨ prof.isNone ∨ factorFmt form.2 ≠ x.wfmt
          ∨ isProtected d x.weights ∨ !rangeMarked d x.weights n form.1 form.2) then some stBadField
        else if expertInline c ∧ c.length - 64 ≠ act then some stBadLength
        else none

/-- An INT8 operand: its integers and their scale (R251). -/
def toInt8 (x : List FVal) : List Int × BitVec 32 :=
  let top := x.foldl (fun a v => maxF32 a (toF32 v &&& 0x7FFFFFFF#32)) 0
  let s := mulF32 top (Config.recipF32 0x42FE0000#32)
  (x.map fun v => (BitVec.ofNat 8 (encodeElem 4 (f32Val (mulF32 (toF32 v) (Config.recipF32 s))))).toInt, s)

/-- A value as a signed integer, for the elements of an INT8 tile. -/
def asInt : FVal → Int
  | .fin n m e => let v : Int := (m * 2 ^ e.toNat : Nat); if n then -v else v
  | _ => 0

/-- An operand converted to the class of the weights (R251). fmt is the format it has. -/
def toClass (wfmt fmt : Nat) (x : List FVal) : List FVal :=
  if wfmt = 1 then decodeArray 1 x.length (encodeArray 1 x)
  else if wfmt = 7 ∨ fmt = 1 ∨ fmt = 0 then decodeArray 5 x.length (encodeArray 5 x)
  else x

/-- x · M for a dense matrix of rows × cols tiles in a format (R236, R245), with the matrix's scale for INT8 (R251). -/
def denseMul (n0 wfmt rows cols scale : Nat) (tiles : List (List FVal)) (x : List FVal) : List (BitVec 32) :=
  let ix := if wfmt = 4 then toInt8 x else ([], 0)
  (List.range (cols * 128)).map fun n =>
    let col (k : Nat) : FVal := (tiles.getD (k / 128 * cols + n / 128) []).getD (n % 128 * 128 + k % 128) fZero
    if wfmt = 4 then
      mulF32 (mulF32 (toF32 (intVal (intSum (n0 + n) ((List.range (rows * 128)).map fun k => ix.1.getD k 0 * asInt (col k))))) ix.2)
        (BitVec.ofNat 32 scale)
    else matrixSum (n0 + n) ((List.range (rows * 128)).map fun k => (x.getD k fZero).mul (col k))

/-- x · M for a factored matrix, each tile applied as (x_i · U_ij) · V_ij and scaled (R253). -/
def factoredMul (n0 rank ffmt rows cols : Nat) (slots : List (List Byte)) (x : List FVal) : List (BitVec 32) :=
  let r := rankOf rank
  let inner (i j : Nat) : List (BitVec 32) :=
    let l := slots.getD (i * cols + j) []
    let n1 := n0 + (i * cols + j) * 256
    let t := (List.range r).map fun p =>
      matrixSum (n1 + p) ((List.range 128).map fun k => (x.getD (i * 128 + k) fZero).mul (slotU ffmt l k p))
    (List.range 128).map fun n =>
      slotScale l (matrixSum (n1 + 128 + n) (((List.range r).zip t).map fun y => (f32Val y.2).mul (slotV rank ffmt l y.1 n)))
  (List.range cols).flatMap fun j =>
    let parts := (List.range rows).map fun i => inner i j
    (List.range 128).map fun n =>
      matrixSum (n0 + rows * cols * 256 + j * 128 + n) (parts.map fun p => f32Val (p.getD n 0))

/-- The activation functions (R250): 0 SiLU, 1 GELU, 2 ReLU. -/
def actF32 (code : Nat) (z : BitVec 32) : BitVec 32 :=
  let one := 0x3F800000#32
  if code = 0 then mulF32 z (Config.recipF32 (addF32 one (expF32 (z ^^^ 0x80000000#32))))
  else if code = 1 then
    let cube := mulF32 (mulF32 z z) z
    mulF32 (mulF32 0x3F000000#32 z) (addF32 one (Config.tanhF32 (mulF32 0x3F4C4231#32 (addF32 z (mulF32 0x3D372713#32 cube)))))
  else maxF32 0 z

/-- The numbers of sums that one token's computation draws. -/
def expertDraws (x : ExpertDesc) : Nat := 3 * (x.tiles * 256 + 128 * (x.dm + x.ff))

/-- y of R250 for one token, over the three matrices as tiles or slots; sums are drawn from n0 on. -/
def expertOut (n0 : Nat) (x : ExpertDesc) (form : Nat × Nat) (afmt gate ofmt : Nat) (w : List (List Byte)) (act : List Byte) :
    List Byte :=
  let t := x.tiles
  let xv := decodeArray afmt (x.dm * 128) act
  let step := expertDraws x / 3
  let mul (k rows cols scale : Nat) (v : List FVal) : List (BitVec 32) :=
    let m := (w.drop (k * t)).take t
    if x.factored then factoredMul (n0 + k * step) form.1 form.2 rows cols m v
    else denseMul (n0 + k * step) x.wfmt rows cols scale (m.map fun b => decodeArray x.wfmt 16384 b) v
  let xc := if x.wfmt = 4 then xv else toClass x.wfmt afmt xv
  let hg := mul 0 x.dm x.ff x.sg xc
  let hu := mul 1 x.dm x.ff x.su xc
  let a := (hg.zip hu).map fun p => f32Val (mulF32 (actF32 (bitsOf x.flags 2 1) p.1) p.2)
  let ac := if x.wfmt = 4 then a else toClass x.wfmt 0 a
  let y := mul 2 x.ff x.dm x.sd ac
  encodeArray ofmt (y.map fun v => f32Val (mulF32 (BitVec.ofNat 32 gate) v))

/-- A batch at dispatch (R245, R252): the tokens that pass their checks and the descriptor's bytes; the others get their slot
with a failing status. none where the descriptor's line cannot be read in this stroke. -/
def dispatchBatch (qs : List QCmd) (d : Dev) : Option (Nat × List QCmd) × Dev :=
  match qs with
  | [] => (some (0, []), d)
  | q :: _ =>
    let a := pNat q.cmd 0 8
    let fail (q : QCmd) (st : Nat) (d : Dev) : Dev := failSlot q (expertSlot q 0) st [qs.length] d
    match rangeCheck d q.cmd.crew a 128 (devKey d a) with
    | some st => (some (0, []), qs.foldl (fun d q => fail q st d) d)
    | none =>
      if isPoisoned d (lineOf a) then (some (0, []), qs.foldl (fun d q => fail q stPoisoned d) d)
      else match deviceRead a 128 (devKey d a) d with
        | (none, d) => (none, d)
        | (some l, d) =>
          let x := parseExpert l
          let good := qs.filter fun q => (tokenCheck d q x).isNone
          let bad := qs.filter fun q => (tokenCheck d q x).isSome
          let d := bad.foldl (fun d q => failSlot q (expertSlot q (x.dm * 128)) ((tokenCheck d q x).getD stBadField) [good.length] d) d
          (some (leNat l, good), d)

/-- A batch computed (R250 to R254): false where its weights or activations cannot all be read yet. A slot that fails its check
fails every token with POISONED. -/
def runBatch (descriptor : Nat) (qs : List QCmd) (d : Dev) : Bool × Dev :=
  match qs with
  | [] => (true, d)
  | q :: _ =>
    let x := parseExpert (toLe 128 descriptor)
    let form := match profLive d q.cmd.crew x.profile x.pgen q.stamp with
      | some (r, f, _) => (r, f)
      | none => (0, 0)
    let tl := x.tile form
    let wspan : Span := (x.weights, 3 * x.tiles * tl, devKey d x.weights)
    let aspan (q : QCmd) : Span := if expertInline q.cmd then (0, 0, 0)
      else (pNat q.cmd 40 8, arrayBytes (pNat q.cmd 13 1) (x.dm * 128), pNat q.cmd 48 5)
    match fetchNow (wspan :: qs.map aspan) d with
    | (none, d) => (false, d)
    | (some [], d) => (true, d)
    | (some (wps :: aps), d) =>
      let pieces := cutPieces wps tl (3 * x.tiles)
      let bad := if x.factored then (pieces.filter fun p => !(p.2 && slotGood form.1 form.2 p.1)).length else 0
      let wst := if bad > 0 then stPoisoned else firstBad wps
      let d := countCheckFails bad d
      let n := qs.length
      let d := bumpReg 0xB0018 63 32 n (bumpReg 0xB0018 31 0 1 d)
      let cr := 0xB1008 + 0x20 * q.cmd.crew
      let d := bumpReg cr 63 32 n (bumpReg cr 31 0 1 d)
      (true, (qs.zip aps).foldl (fun d y =>
        let q := y.1
        let slot := expertSlot q (x.dm * 128)
        let st := if wst ≠ stOk then wst else firstBad y.2
        if st ≠ stOk then failSlot q slot st [n] d
        else
          let act := if expertInline q.cmd then slice q.cmd.params 64 (q.cmd.length - 64) else spanBytes y.2
          let out := expertOut d.draws x form (pNat q.cmd 13 1) (pNat q.cmd 16 4) (pNat q.cmd 14 1) (pieces.map (·.1)) act
          writeSlot q slot stOk [n] (padLine out) { d with draws := d.draws + expertDraws x }) d)

/-! ### Attention partials -/

/-- Bytes of a query of an ATTN_PARTIAL. -/
def attnQuery (c : Cmd) : Nat := pNat c 16 2 * arrayBytes (pNat c 13 1) (pNat c 18 2)

/-- Bytes of a row of a block (R255). -/
def attnRow (c : Cmd) : Nat :=
  (pNat c 18 2 + if bitAt (pNat c 15 1) 0 then 0 else pNat c 20 2) * arrayBytes (pNat c 14 1) 1

/-- The checks of an ATTN_PARTIAL on arrival (R256). -/
def attnCheck (d : Dev) (q : QCmd) : Option Nat :=
  let c := q.cmd
  let flags := pNat c 15 1
  let il := bitAt flags 1
  let dk := pNat c 18 2
  let dv := pNat c 20 2
  let heads := pNat c 16 2
  let qf := pNat c 13 1
  let kf := pNat c 14 1
  if flags ≥ 4 then some stBadField
  else if pNat c 38 2 = 0 then some stOk
  else if (!il ∧ c.length ≠ 80) ∨ (il ∧ c.length ≠ 80 + attnQuery c) then some stBadLength
  else if Cmd.ctx c ∨ !(qf = 1 ∨ qf = 2) ∨ !(kf = 1 ∨ kf = 2 ∨ kf = 3) ∨ heads = 0 ∨ heads > 128 ∨ dk < 16 ∨ dk > 4096
    ∨ !aligned dk 16 ∨ dv < 16 ∨ dv > 4096 ∨ !aligned dv 16 ∨ (bitAt flags 0 ∧ dv > dk) ∨ pNat c 22 1 ≥ 2 ∨ pNat c 23 1 > 63
    ∨ pNat c 37 1 = 0 ∨ pNat c 37 1 > 32 ∨ !homeDram d (pNat c 24 8) 8 ∨ (!il ∧ !homeDram d (pNat c 0 8) 1)
    ∨ (il ∧ (pNat c 0 8 ≠ 0 ∨ pNat c 8 5 ≠ 0)) ∨ !aligned (pNat c 48 8) 128 ∨ addrSpace (pNat c 48 8) ≠ 0 then some stBadField
  else none

/-- The output slot of an ATTN_PARTIAL. -/
def attnSlot (q : QCmd) : SlotOut :=
  { out := pNat q.cmd 48 8, key := pNat q.cmd 56 5, step := pNat q.cmd 44 4, index := pNat q.cmd 23 1, kind := 2,
    ofmt := pNat q.cmd 22 1, elements := pNat q.cmd 20 2, heads := pNat q.cmd 16 2 }

/-- The partial of one head over the rows (R257): m, l and o. -/
def attnHead (n0 : Nat) (scale : BitVec 32) (qv : List FVal) (ks vs : List (List FVal)) (dv : Nat) :
    BitVec 32 × BitVec 32 × List (BitVec 32) :=
  let s := ((List.range ks.length).zip ks).map fun k =>
    mulF32 scale (matrixSum (n0 + k.1) ((qv.zip k.2).map fun p => p.1.mul p.2))
  let m := s.foldl maxF32 negInfF32
  let e := s.map fun x => expF32 (subF32 x m)
  let n1 := n0 + ks.length
  (m, vectorSum n1 e, (List.range dv).map fun j =>
    vectorSum (n1 + 1 + j) ((e.zip vs).map fun p => mulF32 p.1 (toF32 (p.2.getD j fZero))))

/-- The data of a partial's slot (Table 8-5, KIND 0x02): each array padded on its own. -/
def partialData (ofmt : Nat) (ms ls : List (BitVec 32)) (os : List (List (BitVec 32))) : List Byte :=
  padLine (ms.flatMap fun x => toLe 4 x.toNat) ++ padLine (ls.flatMap fun x => toLe 4 x.toNat)
    ++ padLine (os.flatMap fun o => encodeArray ofmt (o.map f32Val))

/-- ATTN_PARTIAL computed (R255 to R258). -/
def attnRun (q : QCmd) (d : Dev) : Dev :=
  let c := q.cmd
  let blocks := pNat c 38 2
  let heads := pNat c 16 2
  let dk := pNat c 18 2
  let dv := pNat c 20 2
  let kf := pNat c 14 1
  let il := bitAt (pNat c 15 1) 1
  let shared := bitAt (pNat c 15 1) 0
  let qspan : Span := if il then (0, 0, 0) else (pNat c 0 8, attnQuery c, pNat c 8 5)
  match fetch q [(pNat c 24 8, blocks * 8, pNat c 32 5), qspan] d with
  | (none, d) => d
  | (some l, d) =>
    if spansBad l ≠ stOk then failSlot q (attnSlot q) (spansBad l) [] d
    else
      let tab := spanBytes (l.getD 0 [])
      let qb := if il then slice c.params 80 (attnQuery c) else spanBytes (l.getD 1 [])
      let entries := (List.range blocks).map fun i => fieldLe tab (8 * i) 8
      if entries.any fun a => addrModule a != ownModule d || decide (1 < addrSpace a) || !aligned a 128 then
        failSlot q (attnSlot q) stBadField [] d
      else
        let rowsOf (i : Nat) : Nat := if i + 1 = blocks then pNat c 37 1 else 32
        let spans := ((List.range blocks).zip entries).map fun e =>
          (e.2, rowsOf e.1 * attnRow c, if addrSpace e.2 = 0 then pNat c 64 5 else pNat c 69 5)
        match fetch q spans d with
        | (none, d) => d
        | (some l, d) =>
          if spansBad l ≠ stOk then failSlot q (attnSlot q) (spansBad l) [] d
          else
            let rows := ((List.range blocks).zip l).flatMap fun b =>
              (List.range (rowsOf b.1)).map fun t => slice (spanBytes b.2) (t * attnRow c) (attnRow c)
            let e := arrayBytes kf 1
            let ks := rows.map fun r => decodeArray kf dk r
            let vs := rows.map fun r => decodeArray kf dv (if shared then r else r.drop (dk * e))
            let per := rows.length + 1 + dv
            let outs := (List.range heads).map fun h =>
              attnHead (d.draws + h * per) (BitVec.ofNat 32 (pNat c 40 4))
                (decodeArray (pNat c 13 1) dk (qb.drop (h * arrayBytes (pNat c 13 1) dk))) ks vs dv
            writeSlot q (attnSlot q) stOk [] (partialData (pNat c 22 1) (outs.map (·.1)) (outs.map (·.2.1)) (outs.map (·.2.2)))
              { d with draws := d.draws + heads * per }

/-- ATTN_PARTIAL accepted and computed. -/
def attnBody (q : QCmd) (d : Dev) : Dev := match attnCheck d q with
  | some st => completeSt q st d
  | none => attnRun q d

/-- ATTN_PARTIAL. -/
def execAttnPartial (c : Cmd) (s : State) : Host.Outcome State Fault Refusal := .next (runRow 0x0302 c (devBody attnBody) s)

/-! ### COMBINE -/

/-- The checks of COMBINE (R259), with the key check of its inputs' headers and of its residual (R95). -/
def combineCheck (d : Dev) (q : QCmd) : Option Nat :=
  let c := q.cmd
  let mode := pNat c 13 1
  let flags := pNat c 14 1
  let n := pNat c 15 1
  let ofmt := pNat c 25 1
  let res := bitAt flags 2
  if flags ≥ 16 then some stBadField
  else if n = 0 then some stOk
  else if Cmd.ctx c ∨ mode ≥ 2 ∨ n > 64 ∨ (mode = 0 ∧ bitAt flags 1) ∨ (mode = 1 ∧ res) ∨ !homeDram d (pNat c 0 8) 128
    ∨ !aligned (pNat c 16 4) 128 ∨ pNat c 24 1 = 0 ∨ pNat c 24 1 > 15 ∨ !(ofmt = 0 ∨ ofmt = 1 ∨ (ofmt = 5 ∧ mode = 0))
    ∨ (bitAt flags 3 ∧ pNat c 26 1 > 63) ∨ !aligned (pNat c 32 8) 128 ∨ addrSpace (pNat c 32 8) ≠ 0
    ∨ (res ∧ (!homeDram d (pNat c 48 8) 1 ∨ pNat c 61 1 ≥ 2)) ∨ (!res ∧ (pNat c 48 8 ≠ 0 ∨ pNat c 56 5 ≠ 0)) then some stBadField
  else ((List.range n).findSome? fun i => rangeCheck d c.crew (pNat c 0 8 + i * pNat c 16 4) 128 (pNat c 8 5)).orElse fun _ =>
    if res then rangeCheck d c.crew (pNat c 48 8) 1 (pNat c 56 5) else none

/-- Address of input i. -/
def combineIn (c : Cmd) (i : Nat) : Nat := pNat c 0 8 + i * pNat c 16 4

/-- The header line of input i as the home holds it. -/
def combineHeader (d : Dev) (c : Cmd) (i : Nat) : List Byte := memRead d.mem (combineIn c i) 128

/-- Whether input i has arrived (R260): its header carries the COMBINE's STEP. -/
def combineArrived (d : Dev) (c : Cmd) (i : Nat) : Bool := fieldLe (combineHeader d c i) 0 4 == pNat c 20 4

/-- Whether every input has arrived. -/
def combineComplete (d : Dev) (c : Cmd) : Bool := (List.range (pNat c 15 1)).all (combineArrived d c)

/-- Bytes of the data of a slot from its header (Table 8-5). -/
def slotDataBytes (h : List Byte) : Nat :=
  let el := fieldLe h 8 4
  let hd := fieldLe h 12 2
  let pad (n : Nat) : Nat := ceilDiv n 128 * 128
  if fieldLe h 6 1 = 2 then 2 * pad (4 * hd) + pad (hd * arrayBytes (fieldLe h 7 1) el)
  else pad (arrayBytes (fieldLe h 7 1) (hd * el))

/-- The failure of input i: its STATUS, or POISONED where a line of it is poisoned; zero where it may be merged. -/
def inputStatus (d : Dev) (c : Cmd) (i : Nat) : Nat :=
  let h := combineHeader d c i
  if fieldLe h 4 1 ≠ 0 then fieldLe h 4 1
  else if poisonIn d (combineIn c i) (128 + slotDataBytes h) then stPoisoned
  else 0

/-- An input as values: maxima, denominators and rows, as the partial layout gives them. -/
def inputPartial (d : Dev) (c : Cmd) (h : List Byte) (i : Nat) : List (BitVec 32) × List (BitVec 32) × List (List FVal) :=
  let heads := fieldLe h 12 2
  let el := fieldLe h 8 4
  let f := fieldLe h 7 1
  let b := memRead d.mem (combineIn c i + 128) (slotDataBytes h)
  let pad := ceilDiv (4 * heads) 128 * 128
  let w (l : List Byte) (k : Nat) : BitVec 32 := BitVec.ofNat 32 (fieldLe l (4 * k) 4)
  ((List.range heads).map (w b), (List.range heads).map (w (b.drop pad)),
    (List.range heads).map fun k => decodeArray f el ((b.drop (2 * pad)).drop (k * arrayBytes f el)))

/-- The merged rows of a SUM (R263): FP32 values of heads × elements. -/
def combineSum (d : Dev) (c : Cmd) (h : List Byte) (merged : List Nat) : List (BitVec 32) :=
  let n := fieldLe h 12 2 * fieldLe h 8 4
  let ins := merged.map fun i => decodeArray (fieldLe h 7 1) n (memRead d.mem (combineIn c i + 128) (slotDataBytes h))
  let res := if bitAt (pNat c 14 1) 2 then
      [decodeArray (pNat c 61 1) n (memRead d.mem (pNat c 48 8) (arrayBytes (pNat c 61 1) n))] else []
  (List.range n).map fun k => vectorSum (d.draws + k) ((res ++ ins).map fun v => toF32 (v.getD k fZero))

/-- The merge of a SOFTMAX for one head (R263): M, L and O. -/
def combineHead (n0 : Nat) (ins : List (BitVec 32 × BitVec 32 × List FVal)) (el : Nat) : BitVec 32 × BitVec 32 × List (BitVec 32) :=
  let m := ins.foldl (fun a x => maxF32 a x.1) negInfF32
  let e := ins.map fun x => expF32 (subF32 x.1 m)
  (m, vectorSum n0 ((ins.zip e).map fun p => mulF32 p.1.2.1 p.2),
    (List.range el).map fun j => vectorSum (n0 + 1 + j) ((ins.zip e).map fun p => mulF32 (toF32 (p.1.2.2.getD j fZero)) p.2))

/-- The data of a COMBINE's output (R263). -/
def combineData (d : Dev) (c : Cmd) (h : List Byte) (merged : List Nat) : List Byte :=
  let ofmt := pNat c 25 1
  let heads := fieldLe h 12 2
  let el := fieldLe h 8 4
  if pNat c 13 1 = 0 then padLine (encodeArray ofmt ((combineSum d c h merged).map f32Val))
  else
    let ins := merged.map (inputPartial d c h)
    let outs := (List.range heads).map fun k =>
      combineHead (d.draws + k * (el + 1)) (ins.map fun x => (x.1.getD k 0, x.2.1.getD k 0, x.2.2.getD k [])) el
    if bitAt (pNat c 14 1) 1 then
      padLine (outs.flatMap fun o => encodeArray ofmt (o.2.2.map fun v =>
        if f32Val o.2.1 |>.isZero then fZero else f32Val (mulF32 v (Config.recipF32 o.2.1))))
    else partialData ofmt (outs.map (·.1)) (outs.map (·.2.1)) (outs.map (·.2.2))

/-- Whether an input's geometry is that of the header that sets it (R263). -/
def sameGeometry (h g : List Byte) : Bool :=
  slice h 6 8 == slice g 6 8

/-- The words of a COMBINE's completion (R262): inputs merged, and the mask of those that were not. -/
def combineWords (n : Nat) (merged : List Nat) : List Nat :=
  let mask := (List.range n).foldl (fun a i => if i ∈ merged then a else a + 2 ^ i) 0
  [merged.length, mask % 2 ^ 32, mask / 2 ^ 32]

/-- The output of a COMBINE written (R263, R243): a slot of KIND 0x03, or the data alone; an input of another geometry makes the
output unpredictable. -/
def combineWrite (q : QCmd) (st : Nat) (merged : List Nat) (d : Dev) : Dev :=
  let c := q.cmd
  let words := combineWords (pNat c 15 1) merged
  match merged with
  | [] => complete q st words [] d
  | i :: _ =>
    let h := combineHeader d c i
    let data := combineData d c h merged
    let n := fieldLe h 12 2 * (fieldLe h 8 4 + 1)
    let d := { d with draws := d.draws + n }
    let (data, d) := if merged.all fun k => sameGeometry h (combineHeader d c k) then (data, d) else drawBytes data.length d
    let o : SlotOut := { out := pNat c 32 8, key := pNat c 40 5, step := pNat c 28 4, index := pNat c 26 1, kind := 3,
                         ofmt := pNat c 25 1, elements := fieldLe h 8 4, heads := fieldLe h 12 2 }
    if bitAt (pNat c 14 1) 3 then writeSlot q o st words data d
    else writeOut q (pNat c 32 8) (pNat c 40 5) data st words d

/-- A COMBINE ended (R261, R262): late is true at its deadline with inputs missing. -/
def combineEnd (id : Nat) (a : Armed) (late : Bool) (d : Dev) : Dev :=
  let c := a.q.cmd
  let n := pNat c 15 1
  let arrived := (List.range n).filter (combineArrived d c)
  let failed := arrived.filter fun i => inputStatus d c i ≠ 0
  let merged := arrived.filter fun i => inputStatus d c i = 0
  let ok := bitAt (pNat c 14 1) 0
  let st := if late then stTimeout else match failed with
    | [] => stOk
    | i :: _ => inputStatus d c i
  let d := { d with armed := tDel d.armed id }
  let cr := 0xB1010 + 0x20 * a.crew
  let d := if late then bumpReg cr 31 0 1 (bumpSat 0xB0020 31 16 1 d) else bumpReg cr 63 32 1 (bumpReg 0xB0020 63 32 1 d)
  if st ≠ stOk ∧ !ok then complete a.q st (combineWords n []) [] d
  else
    let badRes := if bitAt (pNat c 14 1) 2 ∧ !merged.isEmpty then
        let h := combineHeader d c (merged.headD 0)
        let m := arrayBytes (pNat c 61 1) (fieldLe h 12 2 * fieldLe h 8 4)
        (rangeCheck d c.crew (pNat c 48 8) m (pNat c 56 5)).orElse fun _ =>
          if poisonIn d (pNat c 48 8) m then some stPoisoned else none
      else none
    match badRes with
    | some st => complete a.q st (combineWords n []) [] d
    | none => combineWrite a.q st merged d

/-- The data that a COMBINE reads: its arrived inputs and its residual. -/
def combineSpans (d : Dev) (c : Cmd) : List (Nat × Nat) :=
  let arrived := (List.range (pNat c 15 1)).filter (combineArrived d c)
  let h := combineHeader d c (arrived.headD 0)
  (arrived.map fun i => (combineIn c i, 128 + slotDataBytes (combineHeader d c i)))
    ++ if bitAt (pNat c 14 1) 2 then [(pNat c 48 8, arrayBytes (pNat c 61 1) (fieldLe h 12 2 * fieldLe h 8 4))] else []

/-- A COMBINE ended once no agent holds a line that it reads; otherwise the lines are recalled and it stays armed. -/
def combineClose (id : Nat) (a : Armed) (late : Bool) (d : Dev) : Dev :=
  let (clear, d) := recallRanges false (combineSpans d a.q.cmd) d
  if clear then combineEnd id a late d else d

/-- An armed COMBINE fires if all its inputs have arrived (R260). -/
def combineFire (id : Nat) (d : Dev) : Dev := match tGet? d.armed id with
  | none => d
  | some a => if combineComplete d a.q.cmd then combineClose id a false d else d

/-- COMBINE_FIRE. -/
def execCombineFire (item : Nat) (s : State) : Host.Outcome State Fault Refusal := .next (onDev (combineFire item) s)

/-- The deadline of an armed COMBINE, judged at step 3 of the boundary that closes its stroke (R261). -/
def combineDeadline (id : Nat) (d : Dev) : Dev := match tGet? d.armed id with
  | none => d
  | some a =>
    if combineComplete d a.q.cmd then combineClose id a false d
    else if d.stk.number < a.deadline then d
    else combineClose id a true d

/-- COMBINE_DEADLINE. -/
def execCombineDeadline (item : Nat) (s : State) : Host.Outcome State Fault Refusal := .next (onDev (combineDeadline item) s)

/-- A COMBINE armed in stroke c (R260, R261); it fires at once where its inputs are complete. With 4,096 armed it waits at the
head of its queue (R265). -/
def combineBody (q : QCmd) (d : Dev) : Dev := match combineCheck d q with
  | some st => completeSt q st d
  | none =>
    if d.armed.length ≥ 4096 then enqueue { q with reserved := 0 } (unreserve q d)
    else
      let a : Armed := { q, crew := q.cmd.crew, deadline := d.stk.number + pNat q.cmd 24 1 - 1 }
      combineFire q.id { d with armed := tSet d.armed q.id a }

/-- COMBINE. -/
def execCombine (c : Cmd) (s : State) : Host.Outcome State Fault Refusal := .next (runRow 0x0303 c (devBody combineBody) s)

end Sys2Proof.Machine
end

