-- ==== Sys2Proof/Machine/Indexes.lean ====
section
/-! DEFINITION. Machine/Indexes.lean: vector indexes: side-list changes, SEARCH with its list scans, filters and MERGE
(Chapter 11). -/

namespace Sys2Proof.Machine

/-! ### Indexes -/

/-- An index's record. -/
def indexOf (d : Dev) (i : Nat) : Index := (tGet? d.indexes i).getD {}
/-- An index's record replaced. -/
def setIndex (i : Nat) (x : Index) (d : Dev) : Dev := { d with indexes := tSet d.indexes i x }

/-- The index checks of R312. -/
def indexCheck (d : Dev) (crew i gen : Nat) : Option Nat :=
  let x := indexOf d i
  if i ≥ 64 ∨ x.state = 0 ∨ x.state = 3 ∨ x.gen ≠ gen then some stStale
  else if x.crew ≠ crew then some stNoRights
  else none

/-- The descriptor that 128 bytes spell (Table 11-1). -/
def parseIndex (l : List Byte) : IndexDesc :=
  { metric := fieldLe l 0 1, vfmt := fieldLe l 1 1, dim := fieldLe l 2 2, m := 4 * fieldLe l 4 1, degree := fieldLe l 5 1,
    nlist := fieldLe l 8 4, capK := fieldLe l 12 4, sideSlots := fieldLe l 16 4, centroids := fieldLe l 24 8,
    codebook := fieldLe l 32 8, directory := fieldLe l 40 8, lists := fieldLe l 48 8, listBytes := fieldLe l 56 8,
    graph := fieldLe l 64 8, codes := fieldLe l 72 8, side := fieldLe l 80 8 }

/-- Whether no two of the areas meet. -/
def areasApart : List (Nat × Nat) → Bool
  | [] => true
  | a :: as => as.all (fun b => !bytesMeet a.1 a.2 b.1 b.2) && areasApart as

/-- Whether a descriptor breaks Table 11-1 or R313. -/
def badIndex (l : List Byte) : Bool :=
  let g := parseIndex l
  fieldLe l 6 2 != 0 || fieldLe l 20 4 != 0 || !allZero (l.drop 88) || decide (3 ≤ g.metric) || decide (3 ≤ g.vfmt)
    || decide (g.dim < 16) || decide (4096 < g.dim) || !aligned g.dim 16 || g.m == 0 || decide (256 < g.m) || !aligned g.dim g.m
    || decide (64 < g.degree) || !aligned g.degree 8 || g.nlist == 0 || decide (65536 < g.nlist) || g.capK == 0
    || decide (4194304 < g.capK) || decide (g.sideSlots < 1024) || decide (1048576 < g.sideSlots)
    || !([g.centroids, g.codebook, g.directory, g.lists, g.listBytes, g.graph, g.codes, g.side].all fun a => aligned a 128)
    || (g.degree == 0 && (g.graph != 0 || g.codes != 0)) || !areasApart (indexAreas g)

/-- The SEARCHes on an index that have not ended. -/
def searchesOn (d : Dev) (i : Nat) : List (Nat × Search) := d.searches.filter fun s => s.2.index == i

/-- SVE_IDX_RECLAIM (R330). -/
def sveReclaim (d : Dev) (i : Nat) : Nat :=
  match leastBy id ((searchesOn d i).map (·.2.start)) with
  | some q => q - 1
  | none => d.stk.number - 1

/-- The retired side-list entries that no SEARCH can need any more freed (R330). -/
def pruneSide (i : Nat) (d : Dev) : Dev :=
  let x := indexOf d i
  let r := sveReclaim d i
  if x.state = 0 then d
  else setIndex i { x with sideList := x.sideList.filter fun e => match e.retired with
    | some s => decide (r < s)
    | none => true } d

/-- Entries ignored under R314 counted in SVE_IDX_CAP. -/
def countIgnored (i n : Nat) (d : Dev) : Dev :=
  if n = 0 then d else setIndex i { indexOf d i with ignored := ((indexOf d i).ignored + n) % 2 ^ 32 } d

/-! ### Distances -/

/-- A binary32 value with its sign turned. -/
def negF32 (a : BitVec 32) : BitVec 32 := a ^^^ 0x80000000#32

/-- A key by which binary32 values sort: NaN last, the zeros equal. -/
def f32Key (a : BitVec 32) : Nat :=
  let m := a.toNat % 2 ^ 31
  if isNanF32 a then 2 ^ 33 else if a.toNat < 2 ^ 31 then 2 ^ 31 + m else 2 ^ 31 - m

/-- The sum that a metric takes over two vectors: squared differences, or products turned in sign (Table 11-3). -/
def metricSum (metric n0 : Nat) (q x : List (BitVec 32)) : BitVec 32 :=
  if metric = 0 then vectorSum n0 ((q.zip x).map fun p => let t := subF32 p.1 p.2; mulF32 t t)
  else negF32 (vectorSum n0 ((q.zip x).map fun p => mulF32 p.1 p.2))

/-- The exact distance of a metric (Table 11-3). -/
def exactDist (metric n0 : Nat) (q x : List (BitVec 32)) : BitVec 32 :=
  if metric = 2 then addF32 0x3F800000#32 (metricSum 2 n0 q x) else metricSum metric n0 q x

/-- A vector normalised for COSINE; one of norm 0 stays zero (R315). -/
def normalise (n0 : Nat) (x : List (BitVec 32)) : List (BitVec 32) :=
  let s := vectorSum n0 (x.map fun v => mulF32 v v)
  if (f32Val s).isZero then x.map fun _ => 0 else x.map fun v => mulF32 v (Config.rsqrtF32 s)

/-- The sub-centroids of one subspace from a codebook's bytes: 256 vectors of d/M elements. -/
def subCentroids (g : IndexDesc) (book : List Byte) (m : Nat) : List (List (BitVec 32)) :=
  let w := g.dim / max 1 g.m
  (List.range 256).map fun c =>
    (List.range w).map fun i => BitVec.ofNat 32 (fieldLe book (((m * 256 + c) * w + i) * 4) 4)

/-- The table T of a query (Table 11-3): for each subspace 256 values; sums are drawn from n0 on. -/
def distTable (g : IndexDesc) (n0 : Nat) (book : List Byte) (q : List (BitVec 32)) : List (List (BitVec 32)) :=
  let w := g.dim / max 1 g.m
  (List.range g.m).map fun m =>
    ((List.range 256).zip (subCentroids g book m)).map fun c =>
      metricSum g.metric (n0 + m * 256 + c.1) ((q.drop (m * w)).take w) c.2

/-- The code distance of an item (Table 11-3). -/
def codeDist (g : IndexDesc) (n0 : Nat) (t : List (List (BitVec 32))) (code : List Byte) : BitVec 32 :=
  let s := vectorSum n0 ((t.zip code).map fun p => p.1.getD p.2.toNat 0)
  if g.metric = 2 then addF32 0x3F800000#32 s else s

/-- The nearest vector of a list under a metric, the lowest of equals. -/
def nearest (metric n0 : Nat) (x : List (BitVec 32)) (cs : List (List (BitVec 32))) : Nat :=
  (leastBy (fun p : Nat × BitVec 32 => f32Key p.2)
    (((List.range cs.length).zip cs).map fun c => (c.1, exactDist metric (n0 + c.1) x c.2))).elim 0 (·.1)

/-- The centroids from their bytes. -/
def centroidRows (g : IndexDesc) (l : List Byte) : List (List (BitVec 32)) :=
  (List.range g.nlist).map fun c => (decodeArray 1 g.dim (l.drop (c * g.dim * 2))).map toF32

/-! ### INSERT and DELETE -/

/-- The latest of an ordinal's changes among entries in order of appending (R317). -/
def latest (side : List SideEntry) (o : Nat) : Option SideEntry := side.reverse.find? fun e => e.ordinal == o

/-- The range of a side-list slot. -/
def sideAddr (g : IndexDesc) (slot : Nat) : Nat := g.side + slot * sideBytes g

/-- The checks of INSERT and DELETE in their order (R316). -/
def changeCheck (d : Dev) (q : QCmd) : Option Nat :=
  let c := q.cmd
  let i := pNat c 0 1
  let x := indexOf d i
  let ins := q.opcode = 0x502
  let il := bitAt (pNat c 2 1) 0
  let n := x.desc.dim * vfmtBytes x.desc.vfmt
  let known := i < 64 ∧ x.state ≠ 0
  if ins ∧ ((!il ∧ c.length ≠ 32) ∨ (il ∧ known ∧ c.length ≠ 32 + n)) then some stBadLength
  else if Cmd.ctx c ∨ pNat c 2 1 ≥ 2 ∨ (!ins ∧ pNat c 2 1 ≠ 0) ∨ (known ∧ x.desc.capacity ≤ pNat c 4 4)
    ∨ (ins ∧ il ∧ (pNat c 8 8 ≠ 0 ∨ pNat c 16 5 ≠ 0)) ∨ (ins ∧ !il ∧ addrSpace (pNat c 8 8) ≥ 2) then some stBadField
  else (indexCheck d c.crew i (pNat c 1 1)).orElse fun _ =>
    (if ins ∧ !il ∧ addrModule (pNat c 8 8) = ownModule d then rangeCheck d c.crew (pNat c 8 8) n (pNat c 16 5) else none).orElse
      fun _ => if x.desc.sideSlots ≤ x.sideList.length then some stBusy else none

/-- A change appended to the side list and written whole in this stroke (R316). -/
def appendSide (q : QCmd) (i : Nat) (isDelete : Bool) (vector : List Byte) (d : Dev) : Dev :=
  let x := indexOf d i
  let p := d.stk.number
  let slot := x.sideNext % max 1 x.desc.sideSlots
  let o := pNat q.cmd 4 4
  let bytes := slice (toLe 8 p ++ toLe 4 o ++ toLe 1 (if isDelete then 2 else 1) ++ zeros 3 ++ vector) 0 (sideBytes x.desc)
  let a := sideAddr x.desc slot
  writeOut q a (devKey d a) bytes stOk [p % 2 ^ 32]
    (setIndex i { x with sideNext := x.sideNext + 1,
                         sideList := x.sideList ++ [{ slot, publish := p, ordinal := o, isDelete }] } d)

/-- INSERT accepted and appended (R315, R316). -/
def insertBody (q : QCmd) (d : Dev) : Dev :=
  let c := q.cmd
  let i := pNat c 0 1
  let d := pruneSide i d
  match changeCheck d q with
  | some st => completeSt q st d
  | none =>
    let g := (indexOf d i).desc
    let n := g.dim * vfmtBytes g.vfmt
    let il := bitAt (pNat c 2 1) 0
    match fetch q [if il then (0, 0, 0) else (pNat c 8 8, n, pNat c 16 5)] d with
    | (none, d) => d
    | (some l, d) =>
      if spansBad l ≠ stOk then completeSt q (spansBad l) d
      else
        let v := if il then slice c.params 32 n else spanBytes (l.getD 0 [])
        let w := if g.metric = 2 then
            encodeArray g.vfmt ((normalise d.draws ((decodeArray g.vfmt g.dim v).map toF32)).map f32Val) else v
        appendSide q i false w { d with draws := d.draws + 1 }

/-- INSERT. -/
def execInsert (c : Cmd) (s : State) : Host.Outcome State Fault Refusal := .next (runRow 0x0502 c (devBody insertBody) s)

/-- DELETE appended (R316). -/
def deleteBody (q : QCmd) (d : Dev) : Dev :=
  let i := pNat q.cmd 0 1
  let d := pruneSide i d
  match changeCheck d q with
  | some st => completeSt q st d
  | none => appendSide q i true [] d

/-- DELETE. -/
def execDelete (c : Cmd) (s : State) : Host.Outcome State Fault Refusal := .next (runRow 0x0503 c (devBody deleteBody) s)

/-! ### SEARCH -/

/-- Bytes of a SEARCH's query. -/
def queryBytes (g : IndexDesc) (c : Cmd) : Nat := g.dim * (if pNat c 3 1 = 0 then 4 else 2)

/-- The checks of SEARCH in their order (R319). -/
def searchCheck (d : Dev) (q : QCmd) : Option Nat :=
  let c := q.cmd
  let i := pNat c 0 1
  let x := indexOf d i
  let g := x.desc
  let known := i < 64 ∧ x.state ≠ 0
  let il := bitAt (pNat c 2 1) 0
  let filter := bitAt (pNat c 2 1) 1
  let k := pNat c 4 2
  let hops := pNat c 8 1
  let ef := pNat c 12 2
  let f := (tGet? x.filters (pNat c 9 1)).getD {}
  if (!il ∧ c.length ≠ 64) ∨ (il ∧ known ∧ c.length ≠ 64 + queryBytes g c) then some stBadLength
  else if Cmd.ctx c ∨ pNat c 2 1 ≥ 4 ∨ pNat c 3 1 ≥ 2 ∨ k = 0 ∨ k > 1024 ∨ pNat c 6 2 = 0 ∨ pNat c 6 2 > 1024
    ∨ (known ∧ pNat c 6 2 > g.nlist) ∨ hops > 8 ∨ (known ∧ g.degree = 0 ∧ hops ≠ 0) ∨ pNat c 9 1 > 15
    ∨ (!filter ∧ (pNat c 9 1 ≠ 0 ∨ pNat c 10 1 ≠ 0)) ∨ (hops = 0 ∧ ef ≠ 0) ∨ (hops ≠ 0 ∧ (ef < k ∨ ef > 4096))
    ∨ (!il ∧ !homeDram d (pNat c 16 8) (if pNat c 3 1 = 0 then 4 else 2)) ∨ (il ∧ (pNat c 16 8 ≠ 0 ∨ pNat c 24 5 ≠ 0))
    ∨ !aligned (pNat c 32 8) 128 ∨ addrSpace (pNat c 32 8) ≠ 0 then some stBadField
  else (indexCheck d c.crew i (pNat c 1 1)).orElse fun _ =>
    (if filter ∧ (!f.bound ∨ f.gen ≠ pNat c 10 1) then some stStale else none).orElse fun _ =>
      if il then none else rangeCheck d c.crew (pNat c 16 8) (queryBytes g c) (pNat c 24 5)

/-- The result of a SEARCH written (R323): results, then the header line released. -/
def searchWrite (q : QCmd) (start st shared : Nat) (found : List Cand) (d : Dev) : Dev :=
  let c := q.cmd
  let data := padLine (found.flatMap fun x => toLe 4 x.ordinal ++ toLe 4 x.dist.toNat)
  let h := slice (toLe 4 (pNat c 48 4) ++ toLe 1 st ++ zeros 3 ++ toLe 4 found.length ++ toLe 4 (start % 2 ^ 32)) 0 128
  writeRelease q (pNat c 32 8 + 128) data (pNat c 32 8) (pNat c 40 5) h st [found.length, start % 2 ^ 32, shared] d

/-- Whether an ordinal's filter bit allows it (R324). -/
def allowed (d : Dev) (bitmap : Option Nat) (o : Nat) : Bool := match bitmap with
  | none => true
  | some a => bitAt (memByte d.mem (a + o / 8)).toNat (o % 8)

/-- The coarse stage (R321): the probed lists and the visible side-list inserts scored; sums are drawn from the device's count on. -/
def coarse (id : Nat) (s : Search) (cents : List Byte) (vecs : List (List Byte)) (d : Dev) : Dev :=
  let g := s.desc
  let qb := (encodeArray 1 (s.query.map f32Val))
  let qc := (decodeArray 1 g.dim qb).map toF32
  let rows := centroidRows g cents
  let ds := ((List.range g.nlist).zip rows).map fun r => (r.1, exactDist g.metric (d.draws + r.1) qc r.2)
  let order := sortBy (fun p : Nat × BitVec 32 => f32Key p.2) ds
  let visits := (order.take (pNat s.q.cmd 6 2)).map (·.1)
  let d := { d with draws := d.draws + g.nlist }
  let ins := s.side.filter fun e => latest s.side e.ordinal == some e && !e.isDelete
  let cands := ((List.range ins.length).zip (ins.zip vecs)).map fun p =>
    let dist := exactDist g.metric (d.draws + p.1) s.query ((decodeArray g.vfmt g.dim p.2.2).map toF32)
    { ordinal := p.2.1.ordinal, dist, returnable := allowed d s.bitmap p.2.1.ordinal && !isNanF32 dist : Cand }
  { d with draws := d.draws + ins.length,
           searches := tSet d.searches id { s with visits, cands, seen := cands.map (·.ordinal), stage := 1 } }

/-- A SEARCH started (R317, R320, R321): it binds its index version and its filter's bitmap, and runs its coarse stage. -/
def searchRun (q : QCmd) (d : Dev) : Dev :=
  let c := q.cmd
  let i := pNat c 0 1
  let x := indexOf d i
  let (s, d) : Search × Dev := match tGet? d.searches q.id with
    | some s => (s, d)
    | none =>
      let f := (tGet? x.filters (pNat c 9 1)).getD {}
      let start := d.stk.number
      let s : Search := {
        q, crew := c.crew, index := i, desc := x.desc, start,
        bitmap := if bitAt (pNat c 2 1) 1 then some f.bitmap else none,
        side := x.sideList.filter fun e => e.retired.isNone && decide (e.publish < start) }
      (s, bumpReg (0xE8000 + 0x10 * c.crew) 63 0 1 (bumpReg 0xE0008 63 32 1 { d with searches := tSet d.searches q.id s }))
  let g := s.desc
  let il := bitAt (pNat c 2 1) 0
  let ins := s.side.filter fun e => latest s.side e.ordinal == some e && !e.isDelete
  let spans := [if il then (0, 0, 0) else (pNat c 16 8, queryBytes g c, pNat c 24 5),
                (g.centroids, g.nlist * g.dim * 2, devKey d g.centroids)]
    ++ ins.map fun e => (sideAddr g e.slot + 16, g.dim * vfmtBytes g.vfmt, devKey d (sideAddr g e.slot))
  match fetch q spans d with
  | (none, d) => d
  | (some l, d) =>
    if spansBad l ≠ stOk then searchWrite q s.start (spansBad l) 0 [] { d with searches := tDel d.searches q.id }
    else
      let qb := if il then slice c.params 64 (queryBytes g c) else spanBytes (l.getD 0 [])
      let qv := (decodeArray (pNat c 3 1) g.dim qb).map toF32
      let qn := if g.metric = 2 then normalise d.draws qv else qv
      coarse q.id { s with query := qn } (spanBytes (l.getD 1 [])) ((l.drop 2).map spanBytes) { d with draws := d.draws + 1 }

/-- SEARCH accepted and started; with 16,384 active it waits at the head of its queue (R320). -/
def searchBody (q : QCmd) (d : Dev) : Dev :=
  match (if (tGet? d.searches q.id).isSome then none else searchCheck d q) with
  | some st => completeSt q st d
  | none =>
    if d.searches.length ≥ 16384 ∧ (tGet? d.searches q.id).isNone then enqueue { q with reserved := 0 } (unreserve q d)
    else searchRun q d

/-- SEARCH. -/
def execSearch (c : Cmd) (s : State) : Host.Outcome State Fault Refusal := .next (runRow 0x0501 c (devBody searchBody) s)

/-- The entries of a list as ordinal and code, and how many the device ignores (Table 11-2, R314). -/
def listItems (d : Dev) (g : IndexDesc) (l : Nat) : List (Nat × List Byte) × Nat :=
  let e := memRead d.mem (g.directory + 16 * l) 16
  let off := fieldLe e 0 8
  let n := fieldLe e 8 4
  let blk := 128 + 32 * g.m
  if off + ceilDiv n 32 * blk > g.listBytes then ([], 1)
  else
    let at_ (i : Nat) : Nat := g.lists + off + i / 32 * blk
    let all := (List.range n).map fun i =>
      (leNat (memRead d.mem (at_ i + i % 32 * 4) 4), memRead d.mem (at_ i + 128 + i % 32 * g.m) g.m)
    let good := all.filter fun x => decide (x.1 < g.capacity)
    (good, n - good.length)

/-- Whether a line of a list or of its directory entry is poisoned. -/
def listPoisoned (d : Dev) (g : IndexDesc) (l : Nat) : Bool :=
  let e := memRead d.mem (g.directory + 16 * l) 16
  let n := ceilDiv (fieldLe e 8 4) 32 * (128 + 32 * g.m)
  poisonIn d (g.directory + 16 * l) 16 || (decide (fieldLe e 0 8 + n ≤ g.listBytes) && poisonIn d (g.lists + fieldLe e 0 8) n)

/-- A candidate's place in the order of R322: by distance, then by ordinal. -/
def Cand.key (c : Cand) : Nat := f32Key c.dist * 2 ^ 32 + c.ordinal

/-- The EF smallest of the candidates. -/
def keepBest (ef : Nat) (l : List Cand) : List Cand := (sortBy Cand.key l).take ef

/-- Whether an ordinal is tombstoned for a SEARCH (R318): a visible change has replaced or deleted it. -/
def tombstoned (s : Search) (o : Nat) : Bool := (latest s.side o).isSome

/-- One list scanned for a SEARCH: its entries as candidates. -/
def scanList (d : Dev) (s : Search) (n0 : Nat) (t : List (List (BitVec 32))) (items : List (Nat × List Byte)) : List Cand :=
  ((List.range items.length).zip items).map fun x =>
    let dist := codeDist s.desc (n0 + x.1) t x.2.2
    { ordinal := x.2.1, dist, returnable := !tombstoned s x.2.1 && allowed d s.bitmap x.2.1 && !isNanF32 dist }

/-- The state of a graph walk: candidates, ordinals seen, sums drawn, neighbours ignored and whether a poisoned line was met. -/
structure Walk where
  cands : List Cand := []
  seen : List Nat := []
  draws : Nat := 0
  ignored : Nat := 0
  bad : Bool := false
  deriving DecidableEq, Repr, Inhabited

/-- One neighbour considered (R322). -/
def visitNeighbour (d : Dev) (s : Search) (t : List (List (BitVec 32))) (ef c n : Nat) (w : Walk) : Walk :=
  let g := s.desc
  if n = c then w
  else if n ≥ g.capacity then { w with ignored := w.ignored + 1 }
  else if n ∈ w.seen then w
  else
    let dist := codeDist g w.draws t (memRead d.mem (g.codes + n * g.m) g.m)
    let x : Cand := { ordinal := n, dist, returnable := !tombstoned s n && allowed d s.bitmap n && !isNanF32 dist }
    { w with cands := keepBest ef (w.cands ++ [x]), seen := w.seen ++ [n], draws := w.draws + 1,
             bad := w.bad || poisonIn d (g.codes + n * g.m) g.m }

/-- One candidate expanded (R322), if it is still a candidate. -/
def expandCand (d : Dev) (s : Search) (t : List (List (BitVec 32))) (ef : Nat) (w : Walk) (o : Nat) : Walk :=
  if w.cands.any fun c => c.ordinal == o then
    let g := s.desc
    let a := g.graph + o * g.degree * 4
    let ns := (List.range g.degree).map fun j => leNat (memRead d.mem (a + 4 * j) 4)
    let w := ns.foldl (fun w n => visitNeighbour d s t ef o n w) { w with bad := w.bad || poisonIn d a (g.degree * 4) }
    { w with cands := w.cands.map fun c => if c.ordinal = o then { c with expanded := true } else c }
  else w

/-- The graph hops of a SEARCH (R322). -/
def hop (d : Dev) (s : Search) (t : List (List (BitVec 32))) (ef : Nat) : Nat → Walk → Walk
  | 0, w => w
  | n + 1, w =>
    let todo := ((sortBy Cand.key w.cands).filter fun c => !c.expanded).map (·.ordinal)
    hop d s t ef n (todo.foldl (expandCand d s t ef) w)

/-- The scans and the final stage of one SEARCH (R321 to R323). shared are its visits whose scan served another query too. -/
def finishSearch (id shared : Nat) (s : Search) (d : Dev) : Dev :=
  let g := s.desc
  let c := s.q.cmd
  let book := memRead d.mem g.codebook (1024 * g.dim)
  let t := distTable g d.draws book s.query
  let d := { d with draws := d.draws + 256 * g.m }
  let lists := s.visits.map fun l => (listItems d g l)
  let badList := (s.visits.any (listPoisoned d g)) || poisonIn d g.codebook (1024 * g.dim)
  let scanned := lists.foldl (fun acc l => acc ++ scanList d s (d.draws + acc.length) t l.1) []
  let d := countIgnored s.index (lists.foldl (fun a l => a + l.2) 0) { d with draws := d.draws + scanned.length }
  let all := s.cands ++ scanned
  let k := pNat c 4 2
  let w : Walk := { cands := keepBest (pNat c 12 2) all, seen := all.map (·.ordinal), draws := d.draws }
  let w := if pNat c 8 1 = 0 then { w with cands := all } else hop d s t (pNat c 12 2) (pNat c 8 1) w
  let d := countIgnored s.index w.ignored { d with draws := w.draws, searches := tDel d.searches id }
  if badList || w.bad then searchWrite s.q s.start stPoisoned shared [] d
  else searchWrite s.q s.start stOk shared (((sortBy Cand.key w.cands).filter (·.returnable)).take k) d

/-- The memory that a SEARCH's scans and final stage read. -/
def searchSpans (s : Search) : List (Nat × Nat) :=
  let g := s.desc
  [(g.codebook, 1024 * g.dim), (g.directory, g.nlist * 16), (g.lists, g.listBytes)]
    ++ (if pNat s.q.cmd 8 1 = 0 then [] else [(g.graph, g.capacity * g.degree * 4), (g.codes, g.capacity * g.m)])
    ++ match s.bitmap with
      | some a => [(a, g.capacity / 8)]
      | none => []

/-- The group of a visit: the place of its query among those that visit the list, over the tables that a Sieve holds (R321). -/
def visitShared (g : IndexDesc) (ss : List Search) (l place : Nat) : Bool :=
  let size := max 1 (1024 / max 1 g.m)
  let n := (ss.filter fun s => s.visits.contains l).length
  decide (1 < min size (n - place / size * size))

/-- The list scans of an index at a boundary that ends its window (R321): visits grouped by list, each list scanned once for every
group of queries, and the queries then finished. -/
def listScan (i : Nat) (d : Dev) : Dev :=
  let window := max 1 (cfgField d 0xE0000 3 0)
  let due := (searchesOn d i).filter fun s => s.2.stage == 1 && decide (s.2.start < d.stk.number)
  if d.stk.number % window ≠ 0 then d
  else
    let (clear, d) := recallRanges false (due.flatMap fun s => searchSpans s.2) d
    if !clear then d
    else
      let ss := due.map (·.2)
      let lists := (ss.flatMap (·.visits)).dedup
      let g := (ss.head?.map (·.desc)).getD {}
      let size := max 1 (1024 / max 1 g.m)
      let visitors (l : Nat) : Nat := (ss.filter fun s => s.visits.contains l).length
      let scans := lists.foldl (fun a l => a + ceilDiv (visitors l) size) 0
      let place (k l : Nat) : Nat := ((ss.take k).filter fun s => s.visits.contains l).length
      let sharedOf (k : Nat) (s : Search) : Nat := (s.visits.filter fun l => visitShared g ss l (place k l)).length
      let withShared := (due.zip (List.range due.length)).map fun x => (x.1, sharedOf x.2 x.1.2)
      let total := withShared.foldl (fun a x => a + x.2) 0
      let crew := (indexOf d i).crew
      let cr := 0xE8008 + 0x10 * crew
      let d := bumpReg cr 31 0 scans (bumpReg 0xE0010 31 0 scans d)
      let d := bumpReg cr 63 32 total (bumpReg 0xE0010 63 32 total d)
      withShared.foldl (fun d x => finishSearch x.1.1 x.2 x.1.2 d) d

/-- LIST_SCAN. -/
def execListScan (index : Nat) (s : State) : Host.Outcome State Fault Refusal := .next (onDev (listScan index) s)

/-! ### Filters -/

/-- The checks of FILTER_SET in their order (R324). -/
def filterCheck (d : Dev) (q : QCmd) : Option Nat :=
  let c := q.cmd
  let set := pNat c 2 1 = 0
  let a := pNat c 8 8
  let n := (indexOf d (pNat c 0 1)).desc.capK * 128
  if Cmd.ctx c ∨ pNat c 2 1 ≥ 2 ∨ pNat c 3 1 > 15 ∨ (set ∧ !aligned a 128) ∨ (!set ∧ (a ≠ 0 ∨ pNat c 16 5 ≠ 0)) then some stBadField
  else (indexCheck d c.crew (pNat c 0 1) (pNat c 1 1)).orElse fun _ =>
    if set ∧ (!homeDram d a 128 ∨ !rangeOwned d c.crew a n) then some stNoRights
    else if set ∧ !rangeKey d a n (pNat c 16 5) then some stKeyMismatch
    else none

/-- FILTER_SET by its OP (R324). -/
def filterBody (q : QCmd) (d : Dev) : Dev := match filterCheck d q with
  | some st => completeSt q st d
  | none =>
    let c := q.cmd
    let i := pNat c 0 1
    let x := indexOf d i
    let f := (tGet? x.filters (pNat c 3 1)).getD {}
    let set := pNat c 2 1 == 0
    let g := nextGen8 f.gen
    let new : Filter := { bound := set, gen := g, bitmap := if set then pNat c 8 8 else 0 }
    complete q stOk [g, d.stk.number % 2 ^ 32] [] (setIndex i { x with filters := tSet x.filters (pNat c 3 1) new } d)

/-- FILTER_SET: the row with OP SET. -/
def execFilterSet (c : Cmd) (s : State) : Host.Outcome State Fault Refusal :=
  .next (runRow 0x0505 (withByte c 2 0) (devBody filterBody) s)

/-- FILTER_CLEAR: FILTER_SET with OP CLEAR. -/
def execFilterClear (c : Cmd) (s : State) : Host.Outcome State Fault Refusal :=
  .next (runRow 0x0505 (withByte c 2 1) (devBody filterBody) s)

/-! ### MERGE -/

/-- Whether a MERGE of an index has not ended. -/
def mergeOn (d : Dev) (i : Nat) : Bool :=
  (liveOps d).any fun l => l.2.opcode == 0x504 && pNat l.2.q.cmd 0 1 != 0 && l.2.first == i

/-- Free indexes beyond those that pending ATTACHes will take. -/
def freeIndexes (d : Dev) : Nat :=
  ((List.range 64).filter fun i => (indexOf d i).state == 0).length
    - ((liveOps d).filter fun l => l.2.opcode == 0x504 && pNat l.2.q.cmd 0 1 == 0).length

/-- The areas of an index that a FOLD writes anew. -/
def foldAreas (g : IndexDesc) : List (Nat × Nat) :=
  [(g.directory, g.nlist * 16), (g.lists, g.listBytes)]
    ++ if g.degree = 0 then [] else [(g.graph, g.capacity * g.degree * 4), (g.codes, g.capacity * g.m)]

/-- A descriptor with the fields that a FOLD may change taken out. -/
def foldFixed (g : IndexDesc) : IndexDesc := { g with directory := 0, lists := 0, listBytes := 0, graph := 0, codes := 0 }

/-- The checks of MERGE before its descriptor is read (R325). -/
def mergeCheck (d : Dev) (q : QCmd) : Option Nat :=
  let c := q.cmd
  let op := pNat c 0 1
  if Cmd.ctx c ∨ op ≥ 3 ∨ (op = 0 ∧ pNat c 1 2 ≠ 0) ∨ (op ≠ 2 ∧ !homeDram d (pNat c 8 8) 128)
    ∨ (op = 2 ∧ (pNat c 8 8 ≠ 0 ∨ pNat c 16 5 ≠ 0)) then some stBadField
  else if op = 2 then none
  else rangeCheck d c.crew (pNat c 8 8) 128 (pNat c 16 5)

/-- The checks of MERGE once its descriptor is known (R325 steps 2 to 6). -/
def mergeLate (d : Dev) (q : QCmd) (l : List Byte) : Option Nat :=
  let c := q.cmd
  let op := pNat c 0 1
  let i := pNat c 1 1
  let x := indexOf d i
  let g := parseIndex l
  if op ≠ 2 ∧ badIndex l then some stBadField
  else (if op = 0 then none else indexCheck d c.crew i (pNat c 2 1)).orElse fun _ =>
    if op = 1 ∧ (foldFixed g ≠ foldFixed x.desc
        ∨ (foldAreas g).any fun a => (indexAreas x.desc).any fun b => bytesMeet a.1 a.2 b.1 b.2) then some stBadField
    else if op ≠ 2 ∧ (indexAreas g).any fun a => !homeDram d a.1 1 || !rangeOwned d c.crew a.1 a.2 then some stNoRights
    else if (op = 0 ∧ freeIndexes d = 0) ∨ (op ≠ 0 ∧ mergeOn d i) ∨ (freeOp d).isNone then some stBusy
    else none

/-- MERGE by its OP, accepted (R325); words keep the descriptor read. -/
def mergeBody (q : QCmd) (d : Dev) : Dev := match mergeCheck d q with
  | some st => completeSt q st d
  | none =>
    let c := q.cmd
    let span : Span := if pNat c 0 1 = 2 then (0, 0, 0) else (pNat c 8 8, 128, pNat c 16 5)
    match fetch q [span] d with
    | (none, d) => d
    | (some l, d) =>
      let b := spanBytes (l.getD 0 [])
      if spansBad l ≠ stOk then completeSt q (spansBad l) d
      else match mergeLate d q b with
        | some st => completeSt q st d
        | none =>
          let i := if pNat c 0 1 = 0 then 64 else pNat c 1 1
          let d := if pNat c 0 1 = 1 then setIndex i { indexOf d i with state := 2 } d else d
          startOp q { first := i, words := [leNat b] } d

/-- MERGE_ATTACH: MERGE with OP ATTACH. -/
def execMergeAttach (c : Cmd) (s : State) : Host.Outcome State Fault Refusal :=
  .next (runRow 0x0504 (withByte c 0 0) (devBody mergeBody) s)

/-- MERGE_FOLD: MERGE with OP FOLD. -/
def execMergeFold (c : Cmd) (s : State) : Host.Outcome State Fault Refusal :=
  .next (runRow 0x0504 (withByte c 0 1) (devBody mergeBody) s)

/-- MERGE_DETACH: MERGE with OP DETACH. -/
def execMergeDetach (c : Cmd) (s : State) : Host.Outcome State Fault Refusal :=
  .next (runRow 0x0504 (withByte c 0 2) (devBody mergeBody) s)

/-- The first slice of a MERGE: FOLD takes its cut (R327); DETACH commits (R328). -/
def mergeFirst (i : Nat) (d : Dev) : Dev :=
  let l := opOf d i
  let op := pNat l.q.cmd 0 1
  if op = 1 then modOp i (fun l => { l with cut := d.stk.number, phase := 1 }) d
  else if op = 2 ∧ !l.committed then
    setIndex l.first { indexOf d l.first with state := 3 } (modOp i (fun l => { l with committed := true, state := 4 }) d)
  else d

/-- A detached index freed once the SEARCHes that bound it have ended (R328). -/
def indexFree (i : Nat) (d : Dev) : Dev :=
  let x := indexOf d i
  if x.state ≠ 3 ∨ !(searchesOn d i).isEmpty then d
  else
    let g := nextGen8 x.gen
    let d := setIndex i { gen := g } d
    match (liveOps d).find? fun l => l.2.opcode == 0x504 && l.2.first == i && l.2.committed with
    | some l => endOp l.1 stOk [] (logCmd l.2.q x.crew 9 (i + g * 256) x.gen g d)
    | none => d

/-- INDEX_FREE. -/
def execIndexFree (index : Nat) (s : State) : Host.Outcome State Fault Refusal := .next (onDev (indexFree index) s)

/-- The commit of an ATTACH (R326). -/
def attachFinish (i : Nat) (d : Dev) : Dev :=
  let l := opOf d i
  match (List.range 64).find? fun k => (indexOf d k).state == 0 with
  | none => endOp i stBusy [] d
  | some k =>
    let x := indexOf d k
    let g := nextGen8 x.gen
    let new : Index := { gen := g, state := 1, crew := l.crew, version := 1, desc := parseIndex (toLe 128 (l.words.getD 0 0)) }
    endOp i stOk [0, k + g * 256 + 65536] (logCmd l.q l.crew 9 (k + g * 256) x.gen g (setIndex k new d))

/-- An item of the new lists: list, ordinal and code. -/
abbrev FoldItem := Nat × Nat × List Byte

/-- The bytes of one list (R313): blocks of 32 ordinals and 32 codes. -/
def listBlocks (m : Nat) (items : List FoldItem) : List Byte :=
  (List.range (ceilDiv items.length 32)).flatMap fun b =>
    let blk := (items.drop (32 * b)).take 32
    slice (blk.flatMap fun x => toLe 4 x.2.1) 0 128 ++ slice (blk.flatMap fun x => slice x.2.2 0 m) 0 (32 * m)

/-- The new edges of a graph (R327 step 4): the device's own for changed nodes and for edges to dropped nodes. -/
def foldGraph (g old : IndexDesc) (changed dropped : List Nat) (d : Dev) : Dev :=
  let d := { d with mem := memCopy d.mem old.graph g.graph (g.capacity * g.degree * 4) }
  let patch (d : Dev) (e : Nat) : Dev :=
    let n := e / max 1 g.degree
    let nb := leNat (memRead d.mem (old.graph + 4 * e) 4)
    if n ∈ changed ∨ nb ∈ dropped then
      let (f, d) := drawNat d
      { d with mem := memWrite d.mem (g.graph + 4 * e) (toLe 4 f) }
    else d
  (List.range (g.capacity * g.degree)).foldl patch d

/-- The last slice of a FOLD (R327). -/
def foldFinish (i : Nat) (d : Dev) : Dev :=
  let l := opOf d i
  let k := l.first
  let x := indexOf d k
  let old := x.desc
  let g := parseIndex (toLe 128 (l.words.getD 0 0))
  let (clear1, d) := recallRanges false (indexAreas old) d
  let (clear2, d) := recallRanges true (foldAreas g) d
  let side := x.sideList.filter fun e => e.retired.isNone && decide (e.publish < l.cut)
  let last := side.filter fun e => latest side e.ordinal == some e
  let ins := last.filter fun e => !e.isDelete
  let del := last.filter (·.isDelete)
  if l.phase = 0 ∨ !clear1 ∨ !clear2 then d
  else if (indexAreas old).any fun a => poisonIn d a.1 a.2 then endOp i stPoisoned [0, 0, x.version] (setIndex k { x with state := 1 } d)
  else
    let cents := centroidRows g (memRead d.mem g.centroids (g.nlist * g.dim * 2))
    let book := memRead d.mem g.codebook (1024 * g.dim)
    let w := g.dim / max 1 g.m
    let base := d.draws
    let per := g.nlist + g.m * 256
    let d := { d with draws := d.draws + per * ins.length }
    let code (n0 : Nat) (v : List (BitVec 32)) : List Byte := (List.range g.m).map fun m =>
      BitVec.ofNat 8 (nearest 0 (n0 + m * 256) ((v.drop (m * w)).take w) (subCentroids g book m))
    let newItems : List FoldItem := ((List.range ins.length).zip ins).map fun e =>
      let v := (decodeArray g.vfmt g.dim (memRead d.mem (sideAddr old e.2.slot + 16) (g.dim * vfmtBytes g.vfmt))).map toF32
      (nearest g.metric (base + e.1 * per) v cents, e.2.ordinal, code (base + e.1 * per + g.nlist) v)
    let oldLists := (List.range g.nlist).map fun n => listItems d old n
    let kept : List FoldItem := ((List.range g.nlist).zip oldLists).flatMap fun y =>
      (y.2.1.filter fun it => (latest side it.1).isNone).map fun it => (y.1, it.1, it.2)
    let items (n : Nat) : List FoldItem := sortBy (fun it : FoldItem => it.2.1) ((kept ++ newItems).filter fun it => it.1 == n)
    let lists := (List.range g.nlist).map items
    let blocks := lists.map (listBlocks g.m)
    let offs := blocks.foldl (fun a b => a ++ [a.getLastD 0 + b.length]) [0]
    let d := countIgnored k (oldLists.foldl (fun a y => a + y.2) 0) d
    if offs.getLastD 0 > g.listBytes then endOp i stBadLength [0, 0, x.version] (setIndex k { indexOf d k with state := 1 } d)
    else
      let dirb := ((List.range g.nlist).zip lists).flatMap fun y => toLe 8 (offs.getD y.1 0) ++ toLe 4 y.2.length ++ zeros 4
      let d := { d with mem := memWrite (memWrite d.mem g.lists blocks.flatten) g.directory dirb }
      let d := if g.degree = 0 then d else
        let m := memCopy d.mem old.codes g.codes (g.capacity * g.m)
        foldGraph g old (ins.map (·.ordinal)) (del.map (·.ordinal))
          { d with mem := newItems.foldl (fun m it => memWrite m (g.codes + it.2.1 * g.m) it.2.2) m }
      let x := indexOf d k
      let v := nextGen8 x.version
      let s := d.stk.number
      let new : Index := { x with
        state := 1, version := v, desc := g, cut := l.cut
        sideList := x.sideList.map fun e => if e.retired.isNone ∧ e.publish < l.cut then { e with retired := some s } else e }
      let d := logCmd l.q l.crew 9 (k + x.gen * 256) x.version v (setIndex k new d)
      endOp i stOk [ins.length, del.length, v] (modOp i (fun l => { l with committed := true }) d)

/-- What a MERGE that ends before its commit point undoes: the index is as it was. -/
def mergeUndo (i : Nat) (d : Dev) : Dev :=
  let l := opOf d i
  if l.committed ∨ pNat l.q.cmd 0 1 ≠ 1 then d else setIndex l.first { indexOf d l.first with state := 1 } d

/-- The last slice of a MERGE. -/
def mergeFinish (i : Nat) (d : Dev) : Dev :=
  match pNat (opOf d i).q.cmd 0 1 with
  | 0 => attachFinish i d
  | 1 => foldFinish i d
  | _ => indexFree (opOf d i).first (mergeFirst i d)

end Sys2Proof.Machine
end

