-- ==== Sys2Proof/Machine/Trust.lean ====
section
/-! DEFINITION. Machine/Trust.lean: Trivet's attestation, keys, signed images, change log and usage ledger (Chapter 12). -/

namespace Sys2Proof.Machine

/-! ### Byte strings and trees -/

/-- The n bytes of a number, most significant first: the order of the standards that R332 names. -/
def beBytes (n v : Nat) : List Byte := (toLe n v).reverse

/-- SHA-384 as 48 bytes (R332). -/
def digest (l : List Byte) : List Byte := beBytes 48 (Config.sha384 l).toNat

/-- One level of a Merkle tree: each pair of nodes hashed (R345). -/
def merkleUp : List (List Byte) → List (List Byte)
  | a :: b :: l => digest (1 :: (a ++ b)) :: merkleUp l
  | l => l

/-- The siblings of leaf i over k levels, leaf level first, and the node above them (R345). -/
def merklePath : Nat → Nat → List (List Byte) → List (List Byte) × List Byte
  | 0, i, l => ([], l.getD i [])
  | k + 1, i, l =>
    let r := merklePath k (i / 2) (merkleUp l)
    (l.getD (if i % 2 = 0 then i + 1 else i - 1) [] :: r.1, r.2)

/-- Random leaves drawn as number n (R345, R361): 48 free bytes each. -/
def randomLeaf (n i : Nat) : List Byte := (List.range 48).map fun k => Config.freeByte (n + 48 * i + k)

/-- The leaves of a tree: those given at their places, and random ones elsewhere. -/
def treeLeaves (n count : Nat) (l : List (Nat × List Byte)) : List (List Byte) :=
  (List.range count).map fun i => match l.find? fun x => x.1 == i with
    | some x => x.2
    | none => randomLeaf n i

/-! ### Reports -/

/-- The credentials bound to a crew, in slot order. -/
def credSlots (d : Dev) (crew : Nat) : List KeySlot :=
  (d.keySlots.filter fun k => k.2.use == 2 && k.2.crew == crew).map (·.2)

/-- A crew's record (Table 12-6). -/
def crewRecord (d : Dev) (n : Nat) : List Byte :=
  let c := crewOf d n
  let cs := credSlots d n
  slice (toLe 1 n ++ toLe 1 c.gen ++ toLe 1 cs.length ++ zeros 5 ++ slice c.params 0 48 ++ cs.flatMap fun k => digest k.key) 0 440

/-- LAYOUT (R346): the hash of the records of every existing crew. -/
def layoutDigest (d : Dev) : List Byte :=
  digest (((List.range 256).filter (crewLives d)).flatMap (crewRecord d))

/-- Measurement i in the order of Table 12-5. -/
def measure (d : Dev) (i : Nat) : List Byte :=
  if i = 6 then layoutDigest d else if i = 7 then beBytes 48 d.banks.lastStage.toNat else beBytes 48 (d.banks.measures.getD i 0).toNat

/-- Bytes [959:0] of a report (Table 12-5). owner is the crew of the session, none for management. -/
def reportHead (s : State) (owner : Option Nat) (nonce : List Byte) (importId draw : Nat) : List Byte :=
  let d := s.dev
  let own := owner.getD 0
  toLe 2 1 ++ toLe 2 (ownModule d) ++ toLe 1 d.cfg.role ++ toLe 1 own ++ toLe 1 (b2n owner.isNone) ++ zeros 1 ++ toLe 8 d.stk.number
    ++ toLe 8 d.cfg.serial ++ toLe 4 d.cfg.hall ++ zeros 4 ++ slice nonce 0 32 ++ (List.range 7).flatMap (measure d)
    ++ (List.range 6).flatMap (fun t => toLe 2 (tGet s.nv.rollback (t + 1))) ++ zeros 4 ++ toLe 4 importId ++ zeros 4
    ++ beBytes 96 (Config.importPub draw).toNat
    ++ (match owner with
      | some c => crewRecord d c
      | none => zeros 440)

/-- LMS leaves left (SEC_LMS). -/
def lmsLeft (d : Dev) : Nat := bitsOf (regRaw d 0x120018) 20 0

/-- One LMS leaf spent (R339): the stored counter is raised to the next multiple of 1,024 above it before it signs. -/
def spendLeaf (s : State) : Nat × State :=
  let q := 2 ^ 20 - lmsLeft s.dev
  (q, { s with nv := { s.nv with lmsStored := max s.nv.lmsStored (q / 1024 * 1024 + 1024) },
               dev := setField 0x120018 20 0 (lmsLeft s.dev - 1) s.dev })

/-- The import-key index that ATTEST takes (R347): one that is not pending and has rested longest, else the oldest pending. -/
def importIndex (d : Dev) : Nat :=
  (leastBy (fun i => (match tGet? d.importKeys i with
    | some k => b2n k.live * 2 ^ 64 + k.made
    | none => 0) * 256 + i) (List.range 256)).getD 0

/-- An import key created for an owner (R347): its index and the draw that made it. -/
def newImport (owner : Option Nat) (d : Dev) : Nat × Nat × Dev :=
  let i := importIndex d
  let g := nextGen8 ((tGet? d.importKeys i).getD {}).gen
  let (t, d) := freshId d
  let draw := d.draws
  (g * 2 ^ 24 + i, draw,
    { d with draws := d.draws + 1, importKeys := tSet d.importKeys i { gen := g, live := true, made := t, owner, draw } })

/-- Reports of a batch completed (R345), each with its siblings and the two signatures over 0x02 and the root. -/
def sendReports (leaves : List (List Byte)) (sig lms : List Byte) : List Report → Dev → Dev
  | [], d => d
  | r :: rs, d =>
    let (path, _) := merklePath 8 r.leaf leaves
    let i := r.import_ % 256
    let d := { d with importKeys := tMod d.importKeys i fun k =>
      if k.gen = r.import_ / 2 ^ 24 then { k with signed := true, report := r.body } else k }
    sendReports leaves sig lms rs
      (complete r.q stOk [r.import_, d.stk.number % 2 ^ 32]
        (r.body ++ toLe 2 r.leaf ++ zeros 6 ++ path.flatten ++ sig ++ lms) d)

/-- A batch closed (R345): its tree is built and signed with both device keys, and its reports complete. -/
def attestClose (s : State) : State :=
  if s.dev.attest.isEmpty then s
  else if lmsLeft s.dev = 0 then
    { s with dev := s.dev.attest.foldl (fun d r => completeSt r.q stDeviceFault d) { s.dev with attest := [], attestFrom := none } }
  else
    let rs := s.dev.attest.map fun r =>
      let owner := if fieldLe r.body 0 1 = 1 then none else some r.q.cmd.crew
      { r with body := reportHead s owner r.q.cmd.params r.import_ (leNat (r.body.drop 1)) }
    let n := s.dev.draws
    let leaves := treeLeaves n 256 (rs.map fun r => (r.leaf, digest (0 :: r.body)))
    let root := (merklePath 8 0 leaves).2
    let (q, s) := spendLeaf { s with dev := { s.dev with draws := n + 256 * 48, attest := [], attestFrom := none } }
    let sig := beBytes 96 (Config.deviceSign (2 :: root)).toNat
    let lms := beBytes 2828 (Config.deviceLms q (2 :: root)).toNat
    { s with dev := sendReports leaves sig lms rs s.dev }

/-- ATTEST (R345, R347): the report waits at a random free leaf of the open batch; a batch of 256 closes. -/
def attestBody (q : QCmd) (s : State) : State :=
  if lmsLeft s.dev = 0 then { s with dev := completeSt q stDeviceFault s.dev }
  else
    let man := fromManagement s.dev q
    let (imp, draw, d) := newImport (if man then none else some q.cmd.crew) s.dev
    let (f, d) := drawNat d
    let free := (List.range 256).filter fun i => d.attest.all fun r => r.leaf != i
    let r : Report := { q, body := toLe 1 (b2n man) ++ toLe 16 draw, import_ := imp, leaf := free.getD (f % free.length) 0 }
    let d := { d with attest := d.attest ++ [r], attestFrom := some (d.attestFrom.getD d.stk.number) }
    if d.attest.length ≥ 256 then attestClose { s with dev := d } else { s with dev := d }

/-- ATTEST. -/
def execAttest (c : Cmd) (s : State) : Host.Outcome State Fault Refusal := .next (runRow 0x0701 c attestBody s)

/-- ATTEST_BATCH_CLOSE. -/
def execAttestBatchClose (s : State) : Host.Outcome State Fault Refusal := .next (settle (attestClose s))

/-- An import key whose report was signed IMPORT_TTL ms ago expires (R347). -/
def importExpire (i : Nat) (d : Dev) : Dev :=
  { d with importKeys := tMod d.importKeys i fun k => if k.signed then { k with live := false } else k }

/-- IMPORT_KEY_EXPIRY. -/
def execImportKeyExpiry (index : Nat) (s : State) : Host.Outcome State Fault Refusal := .next (onDev (importExpire index) s)

/-! ### Key slots -/

/-- A key slot's record. -/
def keySlot (d : Dev) (i : Nat) : KeySlot := (tGet? d.keySlots i).getD {}

/-- The import key that an IMPORT_ID names, where it is pending, signed and of the generation named (R347). -/
def importKey (d : Dev) (id : Nat) : Option ImportKey :=
  if bitsOf id 23 8 ≠ 0 then none
  else (tGet? d.importKeys (id % 256)).filter fun k => k.live && k.signed && k.gen == id / 2 ^ 24

/-- Steps 1 to 4 of KEY_IMPORT (R349). -/
def keyImportCheck (d : Dev) (q : QCmd) : Option Nat :=
  let c := q.cmd
  let use := pNat c 1 1
  let man := fromManagement d q
  if (keySlot d (pNat c 0 1)).use ≠ 0 then some stBusy
  else if use = 2 ∧ !man then some stNoRights
  else if use = 2 ∧ 8 ≤ (credSlots d c.crew).length then some stBusy
  else if (use ≠ 1 ∧ use ≠ 2) ∨ (use = 1 ∧ pNat c 8 16 = 0) ∨ !Config.onCurve (slice c.params 24 96)
    ∨ (use = 2 ∧ (pNat c 4 4 ≠ 0 ∨ pNat c 8 16 ≠ 0 ∨ pNat c 120 40 ≠ 0)) then some stBadField
  else if use = 2 then none
  else match importKey d (pNat c 4 4) with
    | none => some stStale
    | some k => match k.owner with
      | some w => if w = c.crew then none else some stNoRights
      | none => if man then none else some stNoRights

/-- A slot given a key at its next generation (R348, R349). -/
def fillSlot (q : QCmd) (i : Nat) (k : KeySlot) (d : Dev) : Dev :=
  let g := nextGen8 (keySlot d i).gen
  complete q stOk [i + g * 256] []
    (logCmd q q.cmd.crew 6 (i + g * 256) (keySlot d i).gen g
      { d with keySlots := tSet d.keySlots i { k with gen := g, crew := q.cmd.crew } })

/-- KEY_IMPORT (R349): step 5 consumes the import key whatever its outcome. -/
def keyImportBody (q : QCmd) (d : Dev) : Dev := match keyImportCheck d q with
  | some st => completeSt q st d
  | none =>
    let c := q.cmd
    let i := pNat c 0 1
    let pub := slice c.params 24 96
    if pNat c 1 1 = 2 then fillSlot q i { use := 2, keyId := (digest pub).take 16, key := pub } d
    else
      let id := pNat c 4 4
      let k := (importKey d id).getD {}
      let d := { d with importKeys := tMod d.importKeys (id % 256) fun k => { k with live := false } }
      match Config.unwrapKey k.draw id (slice c.params 8 16) pub (slice c.params 120 40) k.report with
      | none => completeSt q stAuthFailed d
      | some v => fillSlot q i { use := 1, keyId := slice c.params 8 16, key := toLe 32 v.toNat } d

/-- KEY_IMPORT. -/
def execKeyImport (c : Cmd) (s : State) : Host.Outcome State Fault Refusal := .next (runRow 0x0702 c (devBody keyImportBody) s)

/-- Whether a long operation that has not ended names a key slot (R350). -/
def slotNamed (d : Dev) (i : Nat) : Bool :=
  (liveOps d).any fun l => pNat l.2.q.cmd 15 1 == i &&
    (l.2.opcode == 0x206 || (l.2.opcode == 0x202 && pNat l.2.q.cmd 13 1 == 0 && bitAt (pNat l.2.q.cmd 14 1) 1))

/-- The sessions opened under a credential slot (R350). -/
def credSessions (d : Dev) (crew slot : Nat) : List Nat :=
  ((openSessions d).filter fun s => !s.2.management && s.2.cred == slot && s.2.crew == crew).map (·.1)

/-- A slot zeroised and freed, its generation bumped (R350). -/
def freeKeySlot (i : Nat) (d : Dev) : Dev :=
  let k := keySlot d i
  logDev k.crew 6 (i + nextGen8 k.gen * 256) k.gen (nextGen8 k.gen)
    { d with keySlots := tSet d.keySlots i { gen := nextGen8 k.gen } }

/-- KEY_RETIRE (R350): the completion goes out before the credential's sessions close. -/
def keyRetireBody (q : QCmd) (d : Dev) : Dev :=
  let i := pNat q.cmd 0 1
  let k := keySlot d i
  if k.use = 0 ∨ k.gen ≠ pNat q.cmd 1 1 then completeSt q stStale d
  else if k.crew ≠ q.cmd.crew ∧ !fromManagement d q then completeSt q stNoRights d
  else if slotNamed d i then completeSt q stBusy d
  else
    let ss := if k.use = 2 then credSessions d k.crew i else []
    ss.foldl (fun d j => closeSession j d) (complete q stOk [ss.length] [] (freeKeySlot i d))

/-- KEY_RETIRE. -/
def execKeyRetire (c : Cmd) (s : State) : Host.Outcome State Fault Refusal := .next (runRow 0x0703 c (devBody keyRetireBody) s)

/-! ### Signed images -/

/-- Whether the owner's or the vendor's keys sign a header (R335, R340). keys are the ECDSA key and the LMS key. -/
def signedUnder (keys : List Byte × List Byte) (h : List Byte) : Bool :=
  Config.ecdsaVerify keys.1 (h.take 128) (slice h 128 96) && Config.lmsVerify keys.2 (h.take 128) (slice h 224 2828)

/-- The owner keys that a CONFIG body names (Table 16-2). -/
def bodyOwner (b : List Byte) : List Byte := slice b 128 152

/-- The keys under which an image must be signed (R335, R340): the vendor's, or the owner's, and where no owner is set those that
a CONFIG body itself names. -/
def imageKeys (d : Dev) (type : Nat) (b : List Byte) : Option (List Byte × List Byte) :=
  if type ≤ 4 then some (Config.vendorEcdsa, Config.vendorLms)
  else match d.banks.owner with
    | some o => some (o.take 96, o.drop 96)
    | none => if type = 6 then some ((bodyOwner b).take 96, (bodyOwner b).drop 96) else none

/-- Whether a field of a configuration record lies in a range. -/
def within (lo v hi : Nat) : Bool := decide (lo ≤ v) && decide (v ≤ hi)

/-- Whether a crew entry keeps Table 16-3 and the reserved bits of Table 1-7. -/
def entryOk (e : List Byte) : Bool :=
  let n := fieldLe e 1 1
  decide (n ≤ 8) && allZero ((e.drop 2).take 14) && decide (fieldLe e (16 + 18) 1 < 2) && decide (fieldLe e (16 + 36) 2 < 2 ^ 15)
    && decide (fieldLe e (16 + 38) 2 ≤ 2 ^ 15) && allZero (e.drop (64 + 96 * n))

/-- Whether a configuration record keeps Tables 16-2 and 16-3 and the ranges of the registers that it sets (R439). -/
def configOk (b : List Byte) : Bool :=
  let n := fieldLe b 2496 2
  fieldLe b 0 8 == 0x4E5A434647310001 && decide (fieldLe b 12 2 < 4096) && decide (fieldLe b 14 1 ≤ 2) && decide (fieldLe b 15 1 < 64)
    && within 213 (fieldLe b 16 2) 6800 && fieldLe b 18 1 % 16 != fieldLe b 18 1 / 16
    && within 16 (fieldLe b 19 1) 24
    && (List.range 16).all (fun p => fieldLe b (20 + 2 * p) 2 % 2 ^ 15 < 4096)
    && within 1280 (fieldLe b 52 2) 9000 && within 1 (fieldLe b 54 2) 4094 && allZero ((b.drop 67).take 1)
    && decide (fieldLe b 65 1 ≤ 32) && decide (fieldLe b 66 1 ≤ 128)
    && (fieldLe b 108 4 == 0 || within 100 (fieldLe b 108 4) 10000000) && within 16 (fieldLe b 112 1) 26 && allZero ((b.drop 113).take 15)
    && decide (fieldLe b 280 4 < 4096) && aligned (fieldLe b 384 8) 8 && allZero ((b.drop 397).take 3) && decide (fieldLe b 400 1 < 32)
    && allZero ((b.drop 401).take 7) && allZero ((b.drop 2426).take 6)
    && (List.range 32).all (fun k => fieldLe b (2432 + 2 * k) 2 % 2 ^ 15 < 256)
    && decide (n ≤ 256) && allZero ((b.drop 2498).take 62) && b.length == 2560 + n * 832
    && (List.range n).all (fun i => entryOk ((b.drop (2560 + 832 * i)).take 832))

/-- Whether a header is well formed over a body of n bytes (Table 12-1, R335). -/
def headerOk (h : List Byte) (n : Nat) : Bool :=
  let t := fieldLe h 8 1
  fieldLe h 0 8 == 0x4E5A494D41470001 && within 1 t 6 && fieldLe h 9 1 == (if t ≤ 4 then 1 else 2) && fieldLe h 10 2 == 0x5860
    && decide (1 ≤ fieldLe h 12 2) && fieldLe h 14 2 == 0 && fieldLe h 16 4 == n && decide (n ≤ 2 ^ 26) && fieldLe h 20 4 == 0
    && allZero ((h.drop 72).take 56) && allZero (h.drop 3052) && h.length == 4096

/-- An image judged (R335, R341, R439): the status of a refusal. -/
def imageRefused (s : State) (h b : List Byte) : Option Nat :=
  let t := fieldLe h 8 1
  if !headerOk h b.length then some stBadField
  else if fieldLe h 12 2 < tGet s.nv.rollback t then some stBadField
  else if slice h 24 48 ≠ digest b then some stAuthFailed
  else if t = 6 ∧ !configOk b then some stBadField
  else match imageKeys s.dev t b with
    | none => some stAuthFailed
    | some k => if signedUnder k h then none else some stAuthFailed

/-- The images of a bank by type. -/
def bankImages (d : Dev) (b : Nat) : Tbl Image := if b = 0 then d.banks.imagesA else d.banks.imagesB

/-- An image put into a bank; a CONFIG image fills the bank's CONFIG area (R457). -/
def putImage (b t : Nat) (x : Image) (d : Dev) : Dev :=
  let area (old : List Byte) : List Byte := if t = 6 then x.header ++ x.body else old
  if b = 0 then { d with banks := { d.banks with imagesA := tSet d.banks.imagesA t x, configA := area d.banks.configA } }
  else { d with banks := { d.banks with imagesB := tSet d.banks.imagesB t x, configB := area d.banks.configB } }

/-- FW_STAGE (R341): the checked image replaces that of its type in the inactive bank. -/
def fwStageBody (q : QCmd) (s : State) : State :=
  let c := q.cmd
  let src := pNat c 0 8
  let n := pNat c 16 4
  let b := 1 - s.dev.banks.active
  if n = 0 then { s with dev := completeSt q stOk s.dev }
  else if n < 4097 ∨ 67112960 < n then { s with dev := completeSt q stBadLength s.dev }
  else if !homeDram s.dev src 4096 then { s with dev := completeSt q stBadField s.dev }
  else match rangeCheck s.dev c.crew src n (pNat c 8 5) with
    | some st => { s with dev := completeSt q st s.dev }
    | none =>
      if s.dev.banks.trial = some b then { s with dev := completeSt q stBusy s.dev }
      else match fetch q [(src, n, pNat c 8 5)] s.dev with
        | (none, d) => { s with dev := d }
        | (some l, d) =>
          let bytes := spanBytes l.flatten
          let h := bytes.take 4096
          if spansBad l ≠ stOk then { s with dev := completeSt q (spansBad l) d }
          else match imageRefused { s with dev := d } h (bytes.drop 4096) with
            | some st => { s with dev := completeSt q st d }
            | none =>
              let m := Config.sha384 (h.take 128)
              let t := fieldLe h 8 1
              let old := ((tGet? (bankImages d b) t).map fun x => digest (x.header.take 128)).getD (zeros 48)
              let d := putImage b t { svn := fieldLe h 12 2, header := h, body := bytes.drop 4096 } d
              let d := { d with banks := { d.banks with lastStage := m } }
              let o := routeOrigin c.crew c.route
              { s with dev := completeSt q stOk (logChange o.1 o.2 0x8000 7 (b * 256 + t) true old (beBytes 48 m.toNat) d) }

/-- FW_STAGE. -/
def execFwStage (c : Cmd) (s : State) : Host.Outcome State Fault Refusal := .next (runRow 0x0704 c fwStageBody s)

/-- Whether every image of a bank passes R335; only OPERATOR_SERVICE may be absent (R336). -/
def bankPasses (s : State) (b : Nat) : Bool :=
  (List.range 6).all fun i => match tGet? (bankImages s.dev b) (i + 1) with
    | some x => (imageRefused s x.header x.body).isNone
    | none => i == 4

/-- FW_ACTIVATE (R342): the bank is marked for a trial at the next module reset. -/
def fwActivateBody (q : QCmd) (s : State) : State :=
  let b := pNat q.cmd 0 1
  if b ≥ 2 then { s with dev := completeSt q stBadField s.dev }
  else if !bankPasses s b then { s with dev := completeSt q stAuthFailed s.dev }
  else
    let old := match s.dev.banks.trial with
      | some x => x + 1
      | none => 0
    { s with dev := completeSt q stOk (logCmd q 0x8000 7 (b * 256) old (b + 1)
        { s.dev with banks := { s.dev.banks with trial := some b } }) }

/-- FW_ACTIVATE. -/
def execFwActivate (c : Cmd) (s : State) : Host.Outcome State Fault Refusal := .next (runRow 0x0705 c fwActivateBody s)

/-! ### Change log and ledger -/

/-- The 64 bytes of a change-log record (Table 12-9). -/
def logBytes (r : LogRec) : List Byte :=
  toLe 8 r.stroke ++ toLe 8 r.tod ++ toLe 8 r.seq ++ toLe 1 r.originKind ++ toLe 1 (b2n r.security) ++ toLe 2 r.origin
    ++ toLe 2 r.owner ++ toLe 2 r.objectKind ++ toLe 8 r.object ++ beBytes 12 r.old ++ beBytes 12 r.new

/-- Bytes [71:0] of a batch entry (R360). -/
def batchHead (b : LogBatch) : List Byte :=
  toLe 8 b.first ++ toLe 8 b.last ++ toLe 8 b.stroke ++ beBytes 48 b.chain.toNat

/-- The 192 bytes of a batch entry (R360). -/
def batchBytes (b : LogBatch) : List Byte := batchHead b ++ beBytes 96 b.signature.toNat ++ zeros 24

/-- A batch of the change log closed (R360), where a record is open: at most LOG_CTL.BATCH records. -/
def logBatchClose (d : Dev) : Dev :=
  let l := d.log
  if l.next ≤ l.batchFrom then d
  else
    let last := min (l.next - 1) (l.batchFrom + max 1 (cfgField d 0x150000 20 8) - 1)
    let rs := l.recs.filter fun r => decide (l.batchFrom ≤ r.seq) && decide (r.seq ≤ last)
    let chain := Config.sha384 (beBytes 48 l.chain.toNat ++ rs.flatMap logBytes)
    let b : LogBatch := { number := l.batchNext, first := l.batchFrom, last, stroke := d.stk.number, chain }
    let b := { b with signature := Config.deviceSign (batchHead b) }
    pulse (9 * 32 + 12) (pulse (8 * 32 + 12)
      { d with log := { l with chain, batches := (l.batches ++ [b]).drop (l.batches.length + 1 - 4096),
                               batchNext := l.batchNext + 1, batchFrom := last + 1 } })

/-- LOG_BATCH_CLOSE. -/
def execLogBatchClose (s : State) : Host.Outcome State Fault Refusal := .next (onDev logBatchClose s)

/-- Nanoseconds of a sum weighted by cycles of the 850 MHz clock. -/
def nsOfCycles (c : Nat) : Nat := c * 20 / 17

/-- A crew's entry of the interval that is ending, without its leaf (R361). -/
def ledgerEntry (d : Dev) (n : Nat) (c : Crew) (d0 : Dev) : LedgerEntry × Dev :=
  let (salt, d1) := drawBytes 16 d0
  ({ finish := d.stk.number, start := d.log.ledgerStart, coreNs := nsOfCycles c.cycCore, stackNs := nsOfCycles c.cycStack,
     linkNs := nsOfCycles c.cycLink, crew := n, gen := c.gen, salt }, d1)

/-- The entry of a crew that ends before the interval does. -/
def closeEntry (n : Nat) (d : Dev) : Dev :=
  let (e, d) := ledgerEntry d n (crewOf d n) d
  { d with log := { d.log with ended := d.log.ended ++ [e] } }

/-- The 64 bytes of a ledger entry (R361). -/
def entryBytes (e : LedgerEntry) : List Byte :=
  toLe 8 e.finish ++ toLe 8 e.start ++ toLe 8 e.coreNs ++ toLe 8 e.stackNs ++ toLe 8 e.linkNs ++ toLe 1 e.crew ++ toLe 1 e.gen
    ++ zeros 6 ++ slice e.salt 0 16

/-- The leaves that the entries of an interval take: the j-th of a crew number n takes n + 256j (R361). -/
def placeEntries : List LedgerEntry → List LedgerEntry → List LedgerEntry
  | done, [] => done
  | done, e :: es =>
    let j := (done.filter fun x => x.crew == e.crew).length
    placeEntries (done ++ [{ e with leaf := e.crew + 256 * j }]) es

/-- The leaves of an interval's tree (R361). -/
def ledgerLeaves (draw : Nat) (es : List LedgerEntry) : List (List Byte) :=
  treeLeaves draw 4096 (es.map fun e => (e.leaf, digest (0 :: entryBytes e)))

/-- The entries of the crews that exist as an interval ends. -/
def liveEntries : List (Nat × Crew) → Dev → List LedgerEntry × Dev
  | [], d => ([], d)
  | (n, c) :: cs, d =>
    let (e, d) := ledgerEntry d n c d
    let (es, d) := liveEntries cs d
    (e :: es, d)

/-- A ledger interval ended (R40, R361), at a stroke that is a multiple of 2^SHIFT as the interval was judged: each crew's entry is
closed, the tree is signed, the meters start again, and a new SHIFT takes effect. -/
def ledgerEnd (d : Dev) : Dev :=
  let k := cfgField d 0x20008 4 0
  if !aligned d.stk.number (2 ^ k) ∨ d.stk.number ≤ d.log.ledgerStart then d
  else
    let (es, d) := liveEntries (d.crews.filter fun c => c.2.state != 0) d
    let all := placeEntries [] ((d.log.ended.map fun e => { e with finish := d.stk.number }) ++ es)
    let draw := d.draws
    let root := (merklePath 12 0 (ledgerLeaves draw all)).2
    let g : Ledger := { finish := d.stk.number, entries := all, draw,
                        signature := Config.deviceSign (3 :: (toLe 8 d.stk.number ++ root)) }
    { d with
      draws := draw + 4096 * 48
      log := { d.log with ledgers := (d.log.ledgers ++ [g]).drop (d.log.ledgers.length + 1 - 1024), ended := [],
                          ledgerStart := d.stk.number, created := [] }
      crews := tMap d.crews fun _ c => { c with meterCore := 0, meterStack := 0, meterLink := 0, cycCore := 0, cycStack := 0, cycLink := 0 }
      inForce := tSet d.inForce 0x20008 (BitVec.ofNat 64 (regRaw d 0x20008)) }

/-- LEDGER_INTERVAL_END. -/
def execLedgerIntervalEnd (s : State) : Host.Outcome State Fault Refusal := .next (onDev ledgerEnd s)

/-- The checks of LOG_READ (R362, R363). -/
def logReadCheck (d : Dev) (q : QCmd) : Option Nat :=
  let c := q.cmd
  let w := pNat c 0 1
  let n := pNat c 16 4
  let man := fromManagement d q
  if w ≥ 4 ∨ (w ≠ 3 ∧ (pNat c 1 1 ≠ 0 ∨ pNat c 2 1 ≠ 0)) then some stBadField
  else if n = 0 then some stOk
  else if (if w < 2 then 128 else if w = 2 then 42 else 1) < n then some stBadLength
  else if !man ∧ (w = 1 ∨ w = 2 ∨ (w = 3 ∧ pNat c 1 1 ≠ c.crew)) then some stNoRights
  else none

/-- LOG_READ of RECORDS or SECURE: those from FIRST on that the session may read (R362, R363). -/
def logReadRecs (q : QCmd) (rs : List LogRec) (d : Dev) : Dev :=
  let c := q.cmd
  let mine (r : LogRec) : Bool := fromManagement d q || (decide (r.owner < 2 ^ 15) && r.owner % 256 == c.crew)
  let sel := ((rs.filter fun r => decide (pNat c 8 8 ≤ r.seq) && mine r).take (pNat c 16 4))
  let next := if sel.length < pNat c 16 4 then d.log.next else ((sel.getLast?.map (·.seq)).getD 0) + 1
  let oldest := (rs.head?.map (·.seq)).getD d.log.next
  complete q stOk [sel.length, next % 2 ^ 32, oldest % 2 ^ 32] (sel.flatMap logBytes) d

/-- LOG_READ (R362): data inline; of a ledger the entry, its twelve siblings and the signature. -/
def logReadBody (q : QCmd) (d : Dev) : Dev := match logReadCheck d q with
  | some st => completeSt q st d
  | none =>
    let c := q.cmd
    let first := pNat c 8 8
    if pNat c 0 1 = 0 then logReadRecs q d.log.recs d
    else if pNat c 0 1 = 1 then logReadRecs q d.log.secure d
    else if pNat c 0 1 = 2 then
      let sel := (d.log.batches.filter fun b => decide (first ≤ b.number)).take (pNat c 16 4)
      let next := if sel.length < pNat c 16 4 then d.log.batchNext else ((sel.getLast?.map (·.number)).getD 0) + 1
      complete q stOk [sel.length, next % 2 ^ 32, ((d.log.batches.head?.map (·.number)).getD d.log.batchNext) % 2 ^ 32]
        (sel.flatMap batchBytes) d
    else
      match (d.log.ledgers.find? fun g => g.finish == first).bind fun g =>
          (g.entries.find? fun e => e.crew == pNat c 1 1 && e.gen == pNat c 2 1).map fun e => (g, e) with
      | none => completeSt q stBadField d
      | some (g, e) =>
        let (w1, d) := drawNat d
        let (w2, d) := drawNat d
        complete q stOk [1, w1 % 2 ^ 32, w2 % 2 ^ 32]
          (entryBytes e ++ ((merklePath 12 e.leaf (ledgerLeaves g.draw g.entries)).1).flatten ++ beBytes 96 g.signature.toNat) d

/-- LOG_READ. -/
def execLogRead (c : Cmd) (s : State) : Host.Outcome State Fault Refusal := .next (runRow 0x0706 c (devBody logReadBody) s)

end Sys2Proof.Machine
end

