-- ==== Sys2Proof/Machine/Faults.lean ====
section
/-! DEFINITION. Machine/Faults.lean: fault collection, retirement, patrol scrubbing, the fatal events and snapshots (Chapter 13). -/

namespace Sys2Proof.Machine

/-! ### Reading and acknowledging records -/

/-- A ring of fault records: those held, the next SEQ and LOST. ring is 0 for a crew's, 1 the device's, 2 the saved area. -/
def faultRing (d : Dev) (ring crew : Nat) : List FaultRec × Nat × Nat :=
  if ring = 0 then
    let c := (tGet? d.flt.crews crew).getD {}
    (c.recs, c.next, c.lost)
  else if ring = 1 then (d.flt.ring, d.flt.next, d.flt.lost)
  else (d.flt.saved, d.flt.next, 0)

/-- The checks of RING and CREW that FAULT_READ and FAULT_ACK share (R379): the fields, then the rights. -/
def ringFields (c : Cmd) : Bool := decide (3 ≤ pNat c 0 1) || (pNat c 0 1 != 0 && pNat c 1 1 != 0)
/-- The right to a ring (R379). -/
def ringRight (d : Dev) (q : QCmd) : Bool :=
  fromManagement d q || (pNat q.cmd 0 1 == 0 && pNat q.cmd 1 1 == q.cmd.crew)

/-- Whether a command came from a session. -/
def fromSession (q : QCmd) : Bool := match q.cmd.route with
  | .session _ => true
  | .ring _ => false

/-- The checks of FAULT_READ (R379). -/
def faultReadCheck (d : Dev) (q : QCmd) : Option Nat :=
  let c := q.cmd
  let n := pNat c 16 4
  let dest := pNat c 24 8
  if ringFields c ∨ Cmd.ctx c then some stBadField
  else if n = 0 then some stOk
  else if n > 128 then some stBadLength
  else if !ringRight d q then some stNoRights
  else if (dest = 0 ∧ (!fromSession q ∨ pNat c 32 5 ≠ 0)) ∨ (dest ≠ 0 ∧ !homeDram d dest 64) then some stBadField
  else none

/-- FAULT_READ (R379): records from FIRST on in SEQ order, inline or to DEST. -/
def faultReadBody (q : QCmd) (d : Dev) : Dev := match faultReadCheck d q with
  | some st => completeSt q st d
  | none =>
    let c := q.cmd
    let (recs, next, lost) := faultRing d (pNat c 0 1) (pNat c 1 1)
    let sel := (recs.filter fun r => decide (pNat c 8 8 ≤ r.seq)).take (pNat c 16 4)
    let ask := match sel.getLast? with
      | some r => r.seq + 1
      | none => next
    let words := [sel.length, ask % 2 ^ 32, ((recs.head?.map (·.seq)).getD next) % 2 ^ 32, lost % 2 ^ 32]
    let data := sel.flatMap faultBytes
    if pNat c 24 8 = 0 then complete q stOk words data d
    else writeOut q (pNat c 24 8) (pNat c 32 5) data stOk words d

/-- FAULT_READ. -/
def execFaultRead (c : Cmd) (s : State) : Host.Outcome State Fault Refusal := .next (runRow 0x0801 c (devBody faultReadBody) s)

/-- FAULT_ACK (R379): every held record up to UPTO is freed. -/
def faultAckBody (q : QCmd) (d : Dev) : Dev :=
  let c := q.cmd
  let ring := pNat c 0 1
  let crew := pNat c 1 1
  let upto := pNat c 8 8
  let (recs, next, _) := faultRing d ring crew
  if ringFields c then completeSt q stBadField d
  else if !ringRight d q then completeSt q stNoRights d
  else if next ≤ upto then completeSt q stBadField d
  else
    let keep := if ring = 2 then [] else recs.filter fun r => decide (upto < r.seq)
    let f := d.flt
    let f := if ring = 0 then { f with crews := tMod f.crews crew fun x => { x with recs := keep } }
      else if ring = 1 then { f with ring := keep } else { f with saved := keep }
    complete q stOk [recs.length - keep.length] [] { d with flt := f }

/-- FAULT_ACK. -/
def execFaultAck (c : Cmd) (s : State) : Host.Outcome State Fault Refusal := .next (runRow 0x0802 c (devBody faultAckBody) s)

/-! ### Fatal events -/

/-- BRIDGE_FAILURE: the die-to-die bridge has not recovered within 1 ms (Table 13-2). -/
def execBridgeFailure (s : State) : Host.Outcome State Fault Refusal := .next (onDev (enterFatal 0x04) s)

/-- A junction at 105 °C (R445, Table 13-2): the die's temperature is shown. -/
def thermalTrip (die : Nat) (d : Dev) : Dev :=
  enterFatal 0x0D { d with power := if die = 1 then { d.power with d1 := max d.power.d1 105 } else { d.power with d0 := max d.power.d0 105 } }

/-- THERMAL_TRIP. -/
def execThermalTrip (die : Nat) (s : State) : Host.Outcome State Fault Refusal := .next (onDev (thermalTrip die) s)

/-- A fault of the module's power conversion (Table 13-2, R452). -/
def conversionFault (d : Dev) : Dev := enterFatal 0x0E d

/-- CONVERSION_FAULT. -/
def execConversionFault (s : State) : Host.Outcome State Fault Refusal := .next (onDev conversionFault s)

/-- TRIVET_CHECK_FAILURE: any failed self-check of Trivet is an FT with SOURCE FIRMWARE (Table 13-2). -/
def execTrivetCheckFailure (s : State) : Host.Outcome State Fault Refusal := .next (onDev (enterFatal 0x10) s)

/-- The pulse on FAULT_N ends; the pin follows HOLD (R381). -/
def faultPulseEnd (d : Dev) : Dev := { d with flt := { d.flt with pulse := false } }

/-- FAULT_N_PULSE_END. -/
def execFaultNPulseEnd (s : State) : Host.Outcome State Fault Refusal := .next (onDev faultPulseEnd s)

/-! ### Lines and arrays -/

/-- A record of a fault at an address, for the crew of its region or for the device. -/
def faultAt (cls source status unit flags a : Nat) (d : Dev) : Dev :=
  recordFault { cls, source, status, unit, flags, addr := a } ((liveRegion d (regionNo a)).map (·.crew)) d

/-- An uncorrectable stack line (R367): marked poisoned, and in a paired region the partner is asked for its copy first. -/
def lineUncorrectable (line : Nat) (d : Dev) : Dev :=
  let a := line * 128
  let r := (regionAt d a).getD {}
  let d := poisonLine line d
  if r.paired ∧ d.pair.state = 4 then
    let (i, d) := freshId d
    sendPkt { kind := 0x94, dest := unitId (partnerModule d) 0, source := unitId (ownModule d) 0, body := toLe 8 a }
      (setJob i { stamp := d.stk.number, ready := false,
                  parts := [{ addr := a, len := 128, key := r.key, admitted := true, since := d.stk.number,
                              state := .waiting (.repair line) }] } d)
  else faultAt 2 0x01 stPoisoned (0x2000 + stackOf d a) 1 a d

/-- PATROL_SCRUB_READ (R370): symbols is the number of symbols of the line found wrong. -/
def patrolRead (line symbols : Nat) (d : Dev) : Dev :=
  if symbols = 0 then d
  else if symbols = 1 then faultAt 1 0x01 0 (0x2000 + stackOf d (line * 128)) 0 (line * 128) d
  else lineUncorrectable line d

/-- PATROL_SCRUB_READ. -/
def execPatrolScrubRead (line symbols : Nat) (s : State) : Host.Outcome State Fault Refusal := .next (onDev (patrolRead line symbols) s)

/-- A directory entry whose holders are lost (R368): treated as evicted, with every agent of the die's table as a holder. -/
def directoryLost (line : Nat) (d : Dev) : Dev :=
  let d := faultAt 1 0x02 0 (0x9000 + dieOf d (line * 128)) 0 (line * 128) d
  match tGet? d.dir line with
  | none => d
  | some e =>
    let all := agentsOn d (dieOf d (line * 128))
    if all.isEmpty then { d with dir := tDel d.dir line }
    else startSnoops line 8 false all (setDir line { e with holders := all, coarse := none, evicting := true } d)

/-- An item ended by a fault of the unit that ran it (R368): its commands complete with DEVICE_FAULT. -/
def failItem (i : Nat) (d : Dev) : Dev :=
  match tGet? d.items i with
  | none => d
  | some x =>
    let qs := match x.kind with
      | .command q => [q]
      | .batch _ l => l
    qs.foldl (fun d q => completeSt q stDeviceFault d) { d with items := tDel d.items i }

/-- A double-bit error by the array that holds it (R368). -/
def sramDouble (x : SramArray) (d : Dev) : Dev := match x with
  | .homeCacheClean line => faultAt 1 0x02 0 (0x9000 + dieOf d (line * 128)) 0 (line * 128) d
  | .homeCacheModified line =>
    faultAt 2 0x02 stPoisoned (0x9000 + dieOf d (line * 128)) 1 (line * 128) (poisonLine line d)
  | .directory line => directoryLost line d
  | .descriptorCache die c sg tile =>
    faultCE 0x02 (0x9000 + die) 0 { d with dcache := d.dcache.filter (· != (die, c, sg, tile)) }
  | .scratchCrew core crew block =>
    recordFault { cls := 2, source := 0x02, status := stPoisoned, unit := 0x1000 + core, flags := 1 } (some crew)
      { d with spadBad := addTo d.spadBad (blockNo crew core block) }
  | .operationArea core item =>
    let crew := (tGet? d.items item).map (·.crew)
    failItem item (recordFault { cls := 2, source := 0x02, status := stDeviceFault, unit := 0x1000 + core } crew d)
  | .context c =>
    recordFault { cls := 2, source := 0x02, status := stPoisoned } (some (ctxOf d c).crew) (setCtx c { ctxOf d c with lost := true } d)
  | .catalogue r =>
    let crew := (liveRegion d r).map (·.crew)
    recordFault { cls := 2, source := 0x02, status := stPoisoned, addr := r * 2 ^ 21 } crew (modRegion r (fun x => { x with lost := true }) d)
  | .deviceTable => enterFatal 0x02 d

/-- SRAM_DOUBLE_BIT_ERROR. -/
def execSramDoubleBitError (array : SramArray) (s : State) : Host.Outcome State Fault Refusal := .next (onDev (sramDouble array) s)

/-! ### Retirement -/

/-- A core retired (R374): the windows on it lose their contents. -/
def retireCore (core : Nat) (d : Dev) : Dev :=
  if coreRetired d core then d
  else
    { d with flt := { d.flt with retired := d.flt.retired + 2 ^ core }, scratch := memClear d.scratch (scratchAddr core 0) (2 ^ 21),
             flagged := d.flagged.filter (fun x => x / 32 % 128 != core), spadBad := d.spadBad.filter fun x => x / 32 % 128 != core }

/-- A residue mismatch on a core in a command's item (R371): the output is withheld, the command ends with DEVICE_FAULT, and the
core is retired after RESIDUE_LIMIT mismatches within 2^20 strokes. -/
def residueMismatch (core item : Nat) (d : Dev) : Dev :=
  let now := d.stk.number
  let times := (tGet d.flt.residue core).filter (fun t => decide (now < t + 2 ^ 20)) ++ [now]
  let d := bumpSat 0x100048 15 0 1 { d with flt := { d.flt with residue := tSet d.flt.residue core times } }
  let out := decide (max 1 (cfgField d 0x100000 7 0) ≤ times.length) && !coreRetired d core
  let d := recordFault { cls := 2, source := 0x07, status := stDeviceFault, unit := 0x1000 + core, flags := 2 * b2n out }
    ((tGet? d.items item).map (·.crew)) d
  let d := failItem item d
  if out then retireCore core d else d

/-- A sentinel run on a core (R372), and its failure: the core is retired at once. -/
def sentinelRun (core : Nat) (ok : Bool) (d : Dev) : Dev :=
  let d := bumpReg 0x100048 63 32 1 d
  if ok then d
  else
    retireCore core (recordFault { cls := 2, source := 0x08, unit := 0x1000 + core, flags := 2 } none (bumpSat 0x100048 31 16 1 d))

/-! ### Snapshots -/

/-- The origin of a command's snapshot (R383): its session. -/
def snapOrigin (q : QCmd) : Nat × Nat := routeOrigin q.cmd.crew q.cmd.route

/-- SNAPSHOT (R384): NOW latches and completes after it, AT arms a named trigger, DISARM disarms it. -/
def snapshotBody (q : QCmd) (s : State) : State :=
  let c := q.cmd
  let mode := pNat c 0 1
  let t := pNat c 8 8
  if mode ≥ 3 ∨ (mode ≠ 1 ∧ t ≠ 0) then { s with dev := completeSt q stBadField s.dev }
  else if mode = 0 then
    (if s.snap.frozen then { s with dev := completeSt q stBusy s.dev }
     else
       let s := latchSnap 1 (snapOrigin q) none s
       { s with dev := complete q stOk [s.snap.stroke % 2 ^ 32, s.snap.cycle] [] s.dev })
  else if mode = 1 then
    (if t < q.stamp + 2 then { s with dev := completeSt q stBadField s.dev }
     else if s.snap.armedAt.isSome then { s with dev := completeSt q stBusy s.dev }
     else { s with dev := completeSt q stOk s.dev, snap := { s.snap with armedAt := some t, armedBy := snapOrigin q } })
  else { s with dev := completeSt q stOk s.dev, snap := { s.snap with armedAt := none } }

/-- SNAPSHOT_NOW: SNAPSHOT with MODE NOW. -/
def execSnapshotNow (c : Cmd) (s : State) : Host.Outcome State Fault Refusal := .next (runRow 0x000B (withByte c 0 0) snapshotBody s)

/-- SNAPSHOT_AT: SNAPSHOT with MODE AT. -/
def execSnapshotAt (c : Cmd) (s : State) : Host.Outcome State Fault Refusal := .next (runRow 0x000B (withByte c 0 1) snapshotBody s)

/-- SNAPSHOT_DISARM: SNAPSHOT with MODE DISARM. -/
def execSnapshotDisarm (c : Cmd) (s : State) : Host.Outcome State Fault Refusal :=
  .next (runRow 0x000B (withByte c 0 2) snapshotBody s)

/-- The named trigger at the boundary that opens its stroke, before step 1 (R384): a snapshot already held is counted as missed;
either way the trigger is disarmed. -/
def snapTrigger (s : State) : State := match s.snap.armedAt with
  | some t => if t ≤ s.dev.stk.number + 1 then
      let s := latchSnap 2 s.snap.armedBy (some 0) s
      { s with snap := { s.snap with armedAt := none } }
    else s
  | none => s

/-- SNAPSHOT_AT_TRIGGER. -/
def execSnapshotAtTrigger (s : State) : Host.Outcome State Fault Refusal := .next (snapTrigger s)

/-- A falling edge on SNAP_IN (R383, R421), at a cycle of the stroke: the pin's source falls and, while PIN_EN is set, a snapshot is
latched; the pin acts only while PHASE is 0x09 (R451). -/
def snapPin (cycle : Nat) (s : State) : State :=
  if s.dev.power.phase ≠ 9 then s
  else
  let d := setWire 832 true (setWire 832 false s.dev)
  if !bitAt (regRaw d 0x130000) 0 then { s with dev := d } else latchSnap 3 (3, 3) (some cycle) { s with dev := d }

/-- SNAP_IN. -/
def execSnapIn (cycle : Nat) (s : State) : Host.Outcome State Fault Refusal := .next (snapPin cycle s)

end Sys2Proof.Machine
end

