-- ==== Sys2Proof/Machine/Pairs.lean ====
section
/-! DEFINITION. Machine/Pairs.lean: pairs: mirroring, heartbeat, witness, takeover, joining, switching, sampling and expulsion; and
the anchor records of the pools (Chapter 14). -/

namespace Sys2Proof.Machine

/-! ### States -/

/-- The pair's state changed (Table 14-2), with its source (Table 15-3). -/
def pairTo (st : Nat) (d : Dev) : Dev :=
  if d.pair.state = st then d
  else pulse 839 (logDev 0x8000 0x0A (ownModule d) d.pair.state st { d with pair := { d.pair with state := st } })

/-- A pair packet to the partner. -/
def sendPair (kind : Nat) (body : List Byte) (d : Dev) : Dev :=
  sendPkt { kind, dest := unitId (partnerModule d) 0, source := unitId (ownModule d) 0, body } d

/-- A pair packet on one of the two pair ports. -/
def sendPairPort (port kind : Nat) (body : List Byte) (d : Dev) : Dev :=
  sendPkt { kind, dest := unitId (partnerModule d) 0, source := unitId (ownModule d) 0, port := some port, body } d

/-- The two pair ports (FAB_CTL). -/
def pairPorts (d : Dev) : List Nat := [cfgField d 0x80000 11 8, cfgField d 0x80000 15 12]

/-- The highest MSEQ such that every request of that MSEQ and below has been answered (Table 14-1). -/
def answeredNow (d : Dev) : Nat :=
  let open_ := (d.pair.waits.map (·.mseq)) ++ (d.pair.owed.filter fun o => (tGet? d.jobs o.kind).isSome).map (·.mseq)
  match leastBy id open_ with
  | some m => m - 1
  | none => d.pair.mseq

/-- The body of a HEARTBEAT (Table 14-1). -/
def heartbeatBody (d : Dev) (state : Nat) : List Byte :=
  let serves := pairServes d
  toLe 8 d.stk.number ++ toLe 8 d.pair.mseq ++ toLe 8 d.pair.applied
    ++ toLe 8 (if serves then answeredNow d else d.pair.answered) ++ toLe 4 d.pair.epoch ++ toLe 1 state ++ zeros 3

/-- A HEARTBEAT on both pair ports (R396), unless the member has stopped sending (R408). -/
def heartbeatSend (d : Dev) : Dev :=
  if d.cfg.role = 0 ∨ d.pair.state = 0 ∨ d.pair.noHeartbeat ∨ d.flt.fatal then d
  else (pairPorts d).foldl (fun d p => sendPairPort p 0x90 (heartbeatBody d d.pair.state) d) d

/-! ### Changes acknowledged -/

/-- Whether a wait is for the mirror, up to an MSEQ. -/
def waitsMirror (m : Nat) : Wait → Bool
  | .mirrored x => decide (x ≤ m)
  | _ => false

/-- The parts of a job that the mirror's acknowledgement of an MSEQ frees (R391): changes are performed, reads are tried again. -/
def freeParts (m : Nat) (ps : List Part) : List Part :=
  ps.map fun p => if p.waitsFor (waitsMirror m) then
    (if p.act = .read then { p with state := .todo } else p.fin (if p.poisoned then stPoisoned else stOk)) else p

/-- Changes up to an MSEQ become home values, in their order, and what waited for them goes on (R391). -/
def commitMirror (m : Nat) (d : Dev) : Dev :=
  let now := d.pair.waits.filter fun w => decide (w.mseq ≤ m)
  let d := now.foldl (fun d w => setLine (lineOf w.addr) w.line d) d
  let hit := (d.jobs.filter fun j => j.2.parts.any fun p => p.waitsFor (waitsMirror m)).map (·.1)
  let d := { d with
    pair := { d.pair with
      acked := max d.pair.acked m
      waits := d.pair.waits.filter fun w => decide (m < w.mseq)
      owed := (d.pair.owed.filter fun o => (tGet? d.jobs o.kind).isSome) ++ now.map fun w => { mseq := w.mseq, kind := w.job } }
    jobs := tMap d.jobs fun _ j => if j.parts.any fun p => p.waitsFor (waitsMirror m) then
      { j with ready := true, parts := freeParts m j.parts } else j }
  hit.foldl (fun d i => match tGet? d.jobs i with
    | some j => if j.parts.all Part.done then runJob i d else d
    | none => d) d

/-- Whether a wait is for the pair. -/
def waitsPair : Wait → Bool
  | .pair => true
  | _ => false

/-- A member begins to serve, or goes on serving, without a mirror: every change stands, and parked requests go on. -/
def enterSolo (d : Dev) : Dev :=
  pairTo 6 (wakeJobs waitsPair (commitMirror d.pair.mseq { d with pair := { d.pair with asking := none, expelling := false } }))

/-- A member deposed (R402): what it never mirrored is answered TAKEOVER, and what it did mirror is left to the reconciliation. -/
def enterDeposed (d : Dev) : Dev :=
  let mirrored := (d.jobs.filter fun j => j.2.parts.any fun p => p.waitsFor (waitsMirror d.pair.mseq)).map (·.1)
  let d := mirrored.foldl (fun d i => match tGet? d.jobs i with
    | some j => (match j.owner with
      | .fabric _ => dropJob i d
      | _ => abortJob i stTakeover d)
    | none => d) d
  let d := { d with pair := { d.pair with waits := [], owed := [], asking := none, expelling := false, switching := false } }
  let d := match d.pair.joinBy with
    | some q => completeSt q stTakeover { d with pair := { d.pair with joinBy := none } }
    | none => d
  pairTo 9 (endParts waitsPair stTakeover d)

/-! ### The witness -/

/-- A witness record (Table 14-3). -/
def witnessWord (epoch holder : Nat) : Nat := epoch * 2 ^ 32 + 2 ^ 12 + holder

/-- One 8-byte CAS at the witness's home, as requester unit 3 under PAR_WITNESS_KEY (R398). -/
def witnessCas (compare operand : Nat) (d : Dev) : Dev :=
  let t := d.nextTag % 65536
  let g := d.nextTag / 65536 % 255 + 1
  let a := regRaw d 0x110010
  sendPkt { kind := 0x03, dest := unitId (routeModule d a) 0, source := unitId (ownModule d) 3, tag := t, tagGen := g,
            body := reqBody a (regRaw d 0x110018) 9 8 0 0 0 0 ++ toLe 16 operand ++ toLe 16 compare }
    { d with nextTag := d.nextTag + 1, pair := { d.pair with asking := some (t, g), askedAt := d.stk.number } }

/-- An ask for epoch E + 1 for a module, from the record (E, holder) (R398). -/
def askWitness (holder who : Nat) (d : Dev) : Dev :=
  witnessCas (witnessWord d.pair.epoch holder) (witnessWord (d.pair.epoch + 1) who)
    { d with pair := { d.pair with askHolder := holder } }

/-- Whom an ask is made for: the partner in a switch, else this member. -/
def askFor (d : Dev) : Nat := if d.pair.switching then partnerModule d else ownModule d

/-- An ask with no answer is repeated every 8 strokes (R398). The joining exchange's read of the record is repeated likewise. -/
def witnessRetry (d : Dev) : Dev :=
  if d.pair.asking.isNone ∨ d.stk.number < d.pair.askedAt + 8 then d
  else if d.pair.state = 1 ∧ d.pair.joinMsg = 4 then
    witnessCas 0 (if d.cfg.role = 1 then witnessWord 1 (ownModule d) else 0) d
  else askWitness d.pair.askHolder (askFor d) d

/-- WITNESS_ASK_RETRY. -/
def execWitnessAskRetry (s : State) : Host.Outcome State Fault Refusal := .next (onDev witnessRetry s)

/-- The serving member stops serving at MISS_LIMIT − 8 missed strokes and asks (R397). -/
def serveMissLimit (d : Dev) : Dev :=
  if d.pair.state = 4 ∧ cfgField d 0x110000 7 0 - 8 ≤ d.pair.missed ∧ !d.pair.expelling then
    pairTo 7 (askWitness (ownModule d) (ownModule d) { d with pair := { d.pair with detectedAt := d.stk.number, switching := false } })
  else d

/-- SERVE_MISS_LIMIT. -/
def execServeMissLimit (s : State) : Host.Outcome State Fault Refusal := .next (onDev serveMissLimit s)

/-- The mirror member asks for the grant at MISS_LIMIT missed strokes (R397). -/
def mirrorMissLimit (d : Dev) : Dev :=
  if d.pair.state = 5 ∧ cfgField d 0x110000 7 0 ≤ d.pair.missed ∧ d.pair.asking.isNone ∧ d.pair.expelUntil.isNone then
    askWitness (partnerModule d) (ownModule d) { d with pair := { d.pair with detectedAt := d.stk.number } }
  else d

/-- MIRROR_MISS_LIMIT. -/
def execMirrorMissLimit (s : State) : Host.Outcome State Fault Refusal := .next (onDev mirrorMissLimit s)

/-! ### The mirror's stream -/

/-- Whether this member's region table itself holds the mirrored regions: a bow that mirrors after a switch. -/
def mirrorsOwn (d : Dev) : Bool := d.cfg.role == 1

/-- The mirrored region at an address. -/
def mirroredAt (d : Dev) (a : Nat) : Option Region := if mirrorsOwn d then regionAt d a else tGet? d.pair.mirrored (regionNo a)

/-- A line change applied (R391, R393). -/
def applyMirror (p : MirrorPkt) (d : Dev) : Dev :=
  let r := (mirroredAt d p.addr).getD {}
  let line := if bitAt p.kind 6 then toLe 128 (Config.xtsDecrypt (tGet d.pair.keys r.crew) p.addr r.dgen p.line).toNat else p.line
  let d := unpoison (lineOf p.addr) (setLine (lineOf p.addr) line d)
  let k := p.kind % 8
  if bitAt p.kind 7 ∧ p.requester ≠ 0 then
    { d with pair := { d.pair with owed := d.pair.owed ++
      [{ mseq := p.mseq, requester := p.requester, tag := p.tag, tagGen := p.tagGen, kind := k, old := p.old }] } }
  else d

/-- The mirrored regions replaced by a change of each in a run. -/
def modMirrored (f : Tbl Region → Nat → Tbl Region) (run : List Nat) (d : Dev) : Dev :=
  if mirrorsOwn d then { d with regions := run.foldl f d.regions }
  else { d with pair := { d.pair with mirrored := run.foldl f d.pair.mirrored } }

/-- A region change applied (R389, R390): registrations are charged to the partner crew. The packet of a mark carries no rank or
format, so the mark is free. -/
def applyRegion (p : RegionPkt) (d : Dev) : Dev :=
  let run := regionRun (regionNo p.first) p.count
  let held := (run.filter fun r => (mirroredAt d (r * 2 ^ 21)).isSome).length
  let charge (up down : Nat) (d : Dev) : Dev := modCrew p.crew (fun c => { c with dramUsed := c.dramUsed + up - down }) d
  if p.op = 1 then
    let x : Region := { crew := p.crew, key := p.key, paired := true, prot := bitAt p.flags 1, revert := bitAt p.flags 2, dgen := p.dgen }
    let d := charge p.count held (modMirrored (fun t r => tSet t r x) run d)
    { d with mem := memClear d.mem (p.first / 2 ^ 21 * 2 ^ 21) (p.count * 2 ^ 21) }
  else if p.op = 2 then modMirrored (fun t r => tMod t r fun x => { x with key := p.key, dgen := p.dgen }) run d
  else if p.op = 3 then charge 0 held (modMirrored tDel run d)
  else
    let (m, d) := drawNat d
    let mark := if m % 13 = 0 then none else some (m % 13 / 3 % 4, m % 3)
    modMirrored (fun t r => tMod t r fun x => { x with mark }) run d

/-- Buffered packets applied in MSEQ order up to the first gap (R391). -/
def applyBuffered : Nat → Dev → Dev
  | 0, d => d
  | fuel + 1, d =>
    let m := d.pair.applied + 1
    match tGet? d.pair.buffer m, tGet? d.pair.regionBuffer m with
    | some p, _ => applyBuffered fuel (applyMirror p
        { d with pair := { d.pair with applied := m, buffer := tDel d.pair.buffer m } })
    | none, some p => applyBuffered fuel (applyRegion p
        { d with pair := { d.pair with applied := m, regionBuffer := tDel d.pair.regionBuffer m } })
    | none, none => d

/-- Whether this member takes mirror packets. -/
def mirrorListens (d : Dev) : Bool := d.pair.state = 3 ∨ d.pair.state = 5

/-- What is applied after a packet has been taken, and its acknowledgement (R391). -/
def mirrorTake (d : Dev) : Dev :=
  let n := d.pair.applied
  let d := applyBuffered (d.pair.buffer.length + d.pair.regionBuffer.length) d
  if d.pair.applied = n then d else sendPair 0x91 (toLe 8 d.pair.applied) d

/-- MIRROR received: applied strictly in MSEQ order. -/
def mirrorIn (p : MirrorPkt) (d : Dev) : Dev :=
  if !mirrorListens d ∨ p.mseq ≤ d.pair.applied then d
  else mirrorTake { d with pair := { d.pair with mseq := max d.pair.mseq p.mseq, buffer := tSet d.pair.buffer p.mseq p } }

/-- MIRROR. -/
def execMirror (p : MirrorPkt) (s : State) : Host.Outcome State Fault Refusal := .next (onDev (mirrorIn p) s)

/-- REGION received: applied strictly in MSEQ order. -/
def regionIn (p : RegionPkt) (d : Dev) : Dev :=
  if !mirrorListens d ∨ p.mseq ≤ d.pair.applied then d
  else mirrorTake { d with pair := { d.pair with mseq := max d.pair.mseq p.mseq, regionBuffer := tSet d.pair.regionBuffer p.mseq p } }

/-- REGION. -/
def execRegion (p : RegionPkt) (s : State) : Host.Outcome State Fault Refusal := .next (onDev (regionIn p) s)

/-- The long operation of a resynchronisation (R405), where a PAIR_JOIN started one. -/
def resyncOp (d : Dev) : Option Nat := ((liveOps d).find? fun l => l.2.opcode == 0x803).map (·.1)

/-- The commit point of a resynchronisation: the ACK of the last copy (R405). -/
def resyncCommit (d : Dev) : Dev :=
  if d.pair.state = 2 ∧ d.pair.resync ∧ d.pair.resyncAt.isNone ∧ d.pair.resyncLast ≤ d.pair.acked then
    let d := pairTo 4 { d with pair := { d.pair with resync := false, missed := 0 } }
    match resyncOp d with
    | some i => endOp i stOk [] (modOp i (fun l => { l with committed := true }) d)
    | none => d
  else d

/-- A switch goes to the witness once every change has been acknowledged (R406 steps 1 and 2). -/
def switchAsk (d : Dev) : Dev :=
  if d.pair.state = 4 ∧ d.pair.switching ∧ d.pair.asking.isNone ∧ d.pair.waits.isEmpty then
    askWitness (ownModule d) (partnerModule d) d
  else d

/-- MIRROR_ACK received (R391). -/
def mirrorAck (m : Nat) (d : Dev) : Dev :=
  if d.pair.state = 2 ∨ d.pair.state = 4 then switchAsk (resyncCommit (commitMirror (min m d.pair.mseq) d)) else d

/-- MIRROR_ACK. -/
def execMirrorAck (applied : Nat) (s : State) : Host.Outcome State Fault Refusal := .next (onDev (mirrorAck applied) s)

/-- A line as a pair packet carries it: a protected line as its ciphertext (R393). -/
def pairLine (r : Region) (a : Nat) (d : Dev) : List Byte :=
  let l := lineData d (lineOf a)
  if r.prot then toLe 128 (Config.xtsEncrypt (tGet d.pair.keys r.crew) a r.dgen l).toNat else l

/-- LINE_REQ (R367): the stern returns its copy of a line that it mirrors. -/
def lineReq (a : Nat) (d : Dev) : Dev := match mirroredAt d a with
  | some r => if mirrorListens d then sendPair 0x72 (toLe 8 a ++ pairLine r a d) d else d
  | none => d

/-- LINE_REQ. -/
def execLineReq (addr : Nat) (s : State) : Host.Outcome State Fault Refusal := .next (onDev (lineReq addr) s)

/-- Whether a wait is for a line's repair. -/
def waitsRepair (line : Nat) : Wait → Bool
  | .repair l => l == line
  | _ => false

/-- LINE_DATA (R367): the stern's copy is written back, the read is served, and a corrected fault is recorded. A copy that comes
after the read's request timeout, or that nothing awaits, is discarded. -/
def lineDataIn (a : Nat) (data : List Byte) (d : Dev) : Dev :=
  let line := lineOf a
  if !repairing d line then d
  else
    let r := (regionAt d a).getD {}
    let l := if r.prot then toLe 128 (Config.xtsDecrypt (tGet d.pair.keys r.crew) (line * 128) r.dgen data).toNat else data
    let d := bumpSat 0x110058 15 0 1 (unpoison line (setLine line l d))
    let d := faultAt 1 0x01 0 (0x2000 + stackOf d a) 0 (line * 128) d
    let dead := (d.jobs.filter fun j => j.2.owner == .device && j.2.parts.any (·.waitsFor (waitsRepair line))).map (·.1)
    wakeJobs (waitsRepair line) { d with jobs := d.jobs.filter fun j => !dead.contains j.1 }

/-- LINE_DATA. -/
def execLineData (addr : Nat) (data : List Byte) (s : State) : Host.Outcome State Fault Refusal := .next (onDev (lineDataIn addr data) s)

/-! ### Takeover -/

/-- The regions of the partner that this member serves put aside again as mirrored ones, once the partner serves. -/
def putAside (d : Dev) : Dev :=
  if mirrorsOwn d then d
  else
    let own (r : Nat × Region) : Bool := addrModule (r.1 * 2 ^ 21) == partnerModule d
    { d with regions := d.regions.filter (fun r => !own r), pair := { d.pair with mirrored := d.regions.filter own },
             dir := d.dir.filter fun e => addrModule (e.1 * 128) != partnerModule d }

/-- The partner's paired regions entered into this member's table at their mirrored key words (R400 steps 3 and 4). -/
def takeIn (d : Dev) : Dev :=
  let d := { d with dir := d.dir.filter fun e => addrModule (e.1 * 128) != partnerModule d }
  if mirrorsOwn d then d
  else { d with regions := d.pair.mirrored.foldl (fun t r => tSet t r.1 r.2) d.regions, pair := { d.pair with mirrored := [] } }

/-- A REDIRECT broadcast (R192, R400): FROM the bow, TO the member that serves. -/
def sendRedirect (d : Dev) : Dev :=
  let bow := if d.cfg.role = 1 then ownModule d else partnerModule d
  sendPkt { kind := 0x84, dest := 0xFFFFFF, source := unitId (ownModule d) 0,
            body := toLe 2 bow ++ toLe 2 (ownModule d) ++ toLe 4 d.pair.epoch ++ toLe 8 d.stk.number } d

/-- The first REDIRECT of a serving member, with sixteen repetitions to follow. -/
def startRedirect (d : Dev) : Dev :=
  sendRedirect { d with pair := { d.pair with redirectsLeft := 16, redirectAt := d.stk.number + 64 } }

/-- A REDIRECT repeated after 64 strokes (R192). -/
def redirectRepeat (d : Dev) : Dev :=
  if d.pair.redirectsLeft = 0 ∨ d.stk.number < d.pair.redirectAt then d
  else sendRedirect { d with pair := { d.pair with redirectsLeft := d.pair.redirectsLeft - 1, redirectAt := d.stk.number + 64 } }

/-- REDIRECT_REPEAT. -/
def execRedirectRepeat (s : State) : Host.Outcome State Fault Refusal := .next (onDev redirectRepeat s)

/-- A response that the bow owed (R400 step 2): OK, and for an atomic the old value. -/
def sendOwed (o : Owed) (d : Dev) : Dev :=
  sendRsp 0x21 o.requester o.tag o.tagGen stOk 0 0 (if o.kind = 2 then toLe 16 o.old else []) d

/-- Steps 1 and 2 of a takeover (R400): packets are applied up to the first gap and the rest discarded, and the responses owed for
requests above ANSWERED are sent. -/
def reconcile (d : Dev) : Dev :=
  let d := applyBuffered (d.pair.buffer.length + d.pair.regionBuffer.length) d
  let gaps := d.pair.buffer.length + d.pair.regionBuffer.length
  let due := d.pair.owed.filter fun o => decide (d.pair.answered < o.mseq) && decide (o.mseq ≤ d.pair.applied)
  let d := bumpSat 0x110058 31 16 gaps d
  let d := setField 0x110048 31 16 (min 65535 due.length) d
  let d := due.foldl (fun d o => sendOwed o d)
    { d with pair := { d.pair with buffer := [], regionBuffer := [], owed := [], kept := due, asking := none } }
  pairTo 8 d

/-- Reconciliation ends (R400 steps 3 to 5): the member serves, broadcasts REDIRECT and enters SOLO, and keeps its answers for
2,048 strokes. -/
def reconcileEnd (d : Dev) : Dev :=
  if d.pair.state ≠ 8 then d
  else
    let micros := (d.stk.number - d.pair.detectedAt) * periodNow d / 850
    let d := takeIn d
    let d := { d with pair := { d.pair with mseq := d.pair.applied, acked := d.pair.applied, keptUntil := some (d.stk.number + 2048) } }
    let d := setField 0x110048 63 32 (d.stk.number % 2 ^ 32) (setField 0x110048 15 0 (min 65535 micros) d)
    wakeJobs waitsPair (startRedirect (pairTo 6 d))

/-- RECONCILE_END. -/
def execReconcileEnd (s : State) : Host.Outcome State Fault Refusal := .next (onDev reconcileEnd s)

/-- The kept responses dropped 2,048 strokes after serving (R400). -/
def takeoverExpiry (d : Dev) : Dev := match d.pair.keptUntil with
  | some t => if d.stk.number < t then d else { d with pair := { d.pair with kept := [], keptUntil := none } }
  | none => d

/-- TAKEOVER_RECORD_EXPIRY. -/
def execTakeoverRecordExpiry (s : State) : Host.Outcome State Fault Refusal := .next (onDev takeoverExpiry s)

/-- The mirror that expelled its serving partner has waited MISS_LIMIT strokes and goes on from R400 step 1 (R408). -/
def expelWaitEnd (d : Dev) : Dev := match d.pair.expelUntil with
  | some t => if d.stk.number < t ∨ d.pair.state ≠ 5 then d
    else reconcile { d with pair := { d.pair with expelUntil := none, expelling := false, detectedAt := d.stk.number } }
  | none => d

/-- EXPEL_WAIT_END. -/
def execExpelWaitEnd (s : State) : Host.Outcome State Fault Refusal := .next (onDev expelWaitEnd s)

/-! ### Joining -/

/-- A crew's memory key sent to the partner under the pair wrap key (R404). -/
def sendCrewKey (crew epoch : Nat) (d : Dev) : Dev :=
  sendPair 0x96 (toLe 1 crew ++ zeros 3 ++ toLe 4 epoch ++ beBytes 72 (Config.wrapCrewKey (tGet d.pair.keys crew)).toNat) d

/-- The crews that hold paired regions. -/
def pairedCrews (d : Dev) : List Nat := d.regions.foldl (fun l r => if r.2.paired then addTo l r.2.crew else l) []

/-- The memory keys of a bow's own crews (R351, R393); a serving stern keeps those it received. -/
def ownKeys (s : State) : Tbl Nat :=
  if s.dev.cfg.role = 1 then
    (List.range 256).foldl (fun t c => tSet t c (Config.memoryKey s.dev.cfg.hall (ownModule s.dev) c (tGet s.nv.epochs c)))
      s.dev.pair.keys
  else s.dev.pair.keys

/-- The role taken after an accepted exchange, from the witness record: (epoch, holder), or the bow where it is zero (R404). MSEQ
counts from 1 again (R390). The serving member sends its crews' keys and its paired regions, and starts copying (R405). -/
def joinAs (record : Nat) (s : State) : State :=
  let d := s.dev
  let bow := if d.cfg.role = 1 then ownModule d else partnerModule d
  let holder := if record = 0 then bow else record % 4096
  let d := { d with pair := { d.pair with
    epoch := if record = 0 then 1 else record / 2 ^ 32, mseq := 0, acked := 0, applied := 0, answered := 0, waits := [], buffer := [],
    regionBuffer := [], owed := [], missed := 0, asking := none, joinMsg := 0, joinTrans := [], noHeartbeat := false, keys := ownKeys s } }
  if holder = ownModule d then
    let d := pairTo 2 d
    let d := (pairedCrews d).foldl (fun d c => sendCrewKey c (tGet s.nv.epochs c) d) d
    let d := (d.regions.filter fun r => r.2.paired).foldl (fun d r => sendRegion r.1 1 1 r.2 d) d
    let d := { d with pair := { d.pair with resync := true, resyncAt := some 0, resyncLast := d.pair.mseq } }
    let d := match d.pair.joinBy with
      | some q => startOp q {} { d with pair := { d.pair with joinBy := none } }
      | none => d
    { s with dev := wakeJobs waitsPair d }
  else
    let d := pairTo 3 (putAside d)
    let d := { d with pair := { d.pair with mirrored := if mirrorsOwn d then d.pair.mirrored else [] } }
    { s with dev := match d.pair.joinBy with
      | some q => completeSt q stOk { d with pair := { d.pair with joinBy := none } }
      | none => d }

/-- One slice of a resynchronisation (R405): every line of the next paired region, as copies in the MSEQ stream. -/
def resyncSlice (d : Dev) : Dev := match d.pair.state, d.pair.resyncAt with
  | 2, some n =>
    (match d.regions.find? fun r => r.2.paired && decide (n ≤ r.1) with
    | some r =>
      let d := (List.range 16384).foldl (fun d i =>
        sendMirror (r.1 * 2 ^ 21 + i * 128) 3 (0, 0, 0) false (lineData d (r.1 * 16384 + i)) [] d) d
      { d with pair := { d.pair with resyncAt := some (r.1 + 1), resyncLast := d.pair.mseq } }
    | none => resyncCommit { d with pair := { d.pair with resyncAt := none } })
  | _, _ => d

/-- FW of a JOIN message: the hash of the LOADER, COX, MICROCODE and SERVICE measurements (Table 14-1). -/
def joinFw (d : Dev) : List Byte := digest ((List.range 4).flatMap (measure d))

/-- Bytes [183:0] of a JOIN message. -/
def joinHead (msg : Nat) (nonce pub : List Byte) (d : Dev) : List Byte :=
  toLe 1 msg ++ zeros 7 ++ slice nonce 0 32 ++ slice pub 0 96 ++ joinFw d

/-- A JOIN message sent over the transcript so far (R404). -/
def sendJoin (head trans : List Byte) (d : Dev) : Dev :=
  sendPair 0x95 (head ++ beBytes 96 (Config.deviceSign (trans ++ head)).toNat) d

/-- A member enters JOINING (R404): the bow sends MSG 1 with a fresh nonce and key. -/
def startJoining (d : Dev) : Dev :=
  let d := pairTo 1 { d with pair := { d.pair with asking := none, joinMsg := 0, joinTrans := [] } }
  if d.cfg.role = 1 then
    let (nonce, d) := drawBytes 32 d
    let (pub, d) := drawBytes 96 d
    let h := joinHead 1 nonce pub d
    sendJoin h [] { d with pair := { d.pair with joinMsg := 1, joinTrans := h } }
  else d

/-- MSG 1 repeated each millisecond until MSG 2 arrives (R404). -/
def joinRepeat (d : Dev) : Dev :=
  if d.pair.state = 1 ∧ d.cfg.role = 1 ∧ d.pair.joinMsg = 1 then sendJoin d.pair.joinTrans [] d else d

/-- JOIN_REPEAT. -/
def execJoinRepeat (s : State) : Host.Outcome State Fault Refusal := .next (onDev joinRepeat s)

/-- The exchange accepted: the bow sets the record to epoch 1 by CAS from zero, and the stern reads it by a CAS that changes
nothing. -/
def joinAccepted (d : Dev) : Dev :=
  witnessCas 0 (if d.cfg.role = 1 then witnessWord 1 (ownModule d) else 0) { d with pair := { d.pair with joinMsg := 4 } }

/-- JOIN received (R404). -/
def joinIn (p : JoinPkt) (d : Dev) : Dev :=
  let ok := p.sigOk && p.fwEqual && p.witnessEqual && p.partnerOk
  let expected := if d.cfg.role = 2 then p.msg = 1 ∨ (p.msg = 3 ∧ d.pair.joinMsg = 2) else p.msg = 2 ∧ d.pair.joinMsg = 1
  if d.pair.state ≠ 1 ∨ ¬expected then d
  else if !ok then faultCE 0x10 0 0 d
  else if p.msg = 1 then
    let (nonce, d) := drawBytes 32 d
    let (pub, d) := drawBytes 96 d
    let h1 := joinHead 1 p.nonce p.pub d
    let h2 := joinHead 2 nonce pub d
    sendJoin h2 h1 { d with pair := { d.pair with joinMsg := 2, joinTrans := h1 ++ h2 } }
  else if p.msg = 2 then
    joinAccepted (sendJoin (joinHead 3 [] [] d) (d.pair.joinTrans ++ joinHead 2 p.nonce p.pub d) d)
  else joinAccepted d

/-- JOIN. -/
def execJoin (p : JoinPkt) (s : State) : Host.Outcome State Fault Refusal := .next (onDev (joinIn p) s)

/-- CREW_KEY received (R404): the bow crew's memory key is unwrapped. -/
def crewKeyIn (crew : Nat) (wrapped : List Byte) (d : Dev) : Dev :=
  if mirrorListens d then { d with pair := { d.pair with keys := tSet d.pair.keys crew (Config.unwrapCrewKey wrapped) } } else d

/-- CREW_KEY. -/
def execCrewKey (crew epoch : Nat) (wrapped : List Byte) (s : State) : Host.Outcome State Fault Refusal :=
  .next (onDev (fun d => if epoch < 2 ^ 32 then crewKeyIn crew wrapped d else d) s)

/-- Joining begun by PAIR_JOIN with MODE SYNC (R405): from SOLO this member will serve and the command starts the long operation
once the exchange has ended; from DEPOSED or JOINING it waits for the exchange too. -/
def pairJoinSyncBody (q : QCmd) (d : Dev) : Dev :=
  if pNat q.cmd 0 1 ≠ 0 then completeSt q stBadField d
  else if (d.pair.state ≠ 1 ∧ d.pair.state ≠ 6 ∧ d.pair.state ≠ 9) ∨ d.pair.joinBy.isSome then completeSt q stBusy d
  else
    let d := { d with pair := { d.pair with joinBy := some q } }
    if d.pair.state = 1 ∧ d.pair.joinMsg ≠ 0 then d else startJoining d

/-- PAIR_JOIN_SYNC: PAIR_JOIN with MODE SYNC. -/
def execPairJoinSync (c : Cmd) (s : State) : Host.Outcome State Fault Refusal :=
  .next (runRow 0x0803 (withByte c 0 0) (devBody pairJoinSyncBody) s)

/-- PAIR_JOIN with MODE SWITCH (R406): paired requests are parked and the changes in flight awaited. -/
def pairJoinSwitchBody (q : QCmd) (d : Dev) : Dev :=
  if d.pair.state ≠ 4 ∨ d.pair.switching ∨ d.pair.expelling then completeSt q stBusy d
  else switchAsk { d with pair := { d.pair with switching := true, joinBy := some q } }

/-- PAIR_JOIN_SWITCH: PAIR_JOIN with MODE SWITCH. -/
def execPairJoinSwitch (c : Cmd) (s : State) : Host.Outcome State Fault Refusal :=
  .next (runRow 0x0803 (withByte c 0 1) (devBody pairJoinSwitchBody) s)

/-- The switch granted (R406 steps 2 and 3). -/
def switchDone (d : Dev) : Dev :=
  let e := d.pair.epoch + 1
  let d := sendPair 0x97 (toLe 8 d.stk.number ++ toLe 4 e ++ zeros 4)
    { d with pair := { d.pair with epoch := e, switching := false, asking := none, applied := d.pair.mseq, answered := d.pair.mseq } }
  let d := pairTo 5 (putAside d)
  let d := endParts waitsPair stTakeover d
  match d.pair.joinBy with
  | some q => completeSt q stOk { d with pair := { d.pair with joinBy := none } }
  | none => d

/-- SWITCH received by the mirror (R406 step 4): it serves, with MSEQ going on from the last value. -/
def switchIn (epoch : Nat) (d : Dev) : Dev :=
  if d.pair.state ≠ 5 then d
  else
    let d := takeIn { d with pair := { d.pair with epoch, mseq := d.pair.applied, acked := d.pair.applied, owed := [], missed := 0 } }
    wakeJobs waitsPair (startRedirect (pairTo 4 d))

/-- SWITCH. -/
def execSwitch (stroke epoch : Nat) (s : State) : Host.Outcome State Fault Refusal :=
  .next (onDev (fun d => if stroke < 2 ^ 64 then switchIn epoch d else d) s)

/-- PAIR_LEAVE (R405): the mirror is dropped, its charges are released and the member is UNPAIRED until module reset; its last
HEARTBEAT tells the serving member. -/
def pairLeaveBody (q : QCmd) (d : Dev) : Dev :=
  if pNat q.cmd 0 1 ≠ 0 then completeSt q stBadField d
  else if d.pair.state ≠ 5 ∨ d.pair.expelUntil.isSome ∨ d.pair.asking.isSome then completeSt q stBusy d
  else
    let d := d.pair.mirrored.foldl (fun d r => modCrew r.2.crew (fun c => { c with dramUsed := c.dramUsed - 1 }) d) d
    let d := (pairPorts d).foldl (fun d p => sendPairPort p 0x90 (heartbeatBody d 0) d) d
    completeSt q stOk (pairTo 0 { d with pair := { d.pair with mirrored := [], buffer := [], regionBuffer := [], owed := [] } })

/-- PAIR_LEAVE. -/
def execPairLeave (c : Cmd) (s : State) : Host.Outcome State Fault Refusal := .next (runRow 0x0804 c (devBody pairLeaveBody) s)

/-! ### Answers and events -/

/-- The witness's answer judged (R398): a grant if the CAS succeeded or the record already is what was asked for. What it grants
depends on the state that asked (Table 14-2). -/
def witnessAnswer (returned : Nat) (s : State) : State :=
  let d := s.dev
  if d.pair.asking.isNone then s
  else if d.pair.state = 1 ∧ d.pair.joinMsg = 4 then joinAs returned s
  else
    let granted := returned = witnessWord d.pair.epoch d.pair.askHolder ∨ returned = witnessWord (d.pair.epoch + 1) (askFor d)
    let up (d : Dev) : Dev := { d with pair := { d.pair with epoch := d.pair.epoch + 1, asking := none } }
    let d :=
      if ¬granted then enterDeposed d
      else if d.pair.state = 4 ∧ d.pair.switching then switchDone d
      else if d.pair.state = 5 ∧ d.pair.expelling then
        (let d := up d
         { d with pair := { d.pair with noHeartbeat := true, expelUntil := some (d.stk.number + cfgField d 0x110000 7 0) } })
      else if d.pair.state = 5 then reconcile (up d)
      else if d.pair.expelling then
        (let d := up d
         enterSolo { d with pair := { d.pair with noHeartbeat := true } })
      else enterSolo (up d)
    { s with dev := d }

/-- WITNESS_ANSWER: an answer whose tag is not that of the ask is discarded and counted (R182). -/
def execWitnessAnswer (w : WitnessAns) (s : State) : Host.Outcome State Fault Refusal :=
  .next (settle (if s.dev.pair.asking = some (w.tag, w.tagGen) then witnessAnswer w.returned s
    else { s with dev := bumpReg 0x80038 31 0 1 s.dev }))

/-- HEARTBEAT received (R396): one of the pair's epoch, stamped in this stroke, resets the count of missed strokes; a serving member
in SERVE also tells the mirror that resynchronisation has committed, and one from a member that has left ends the pair. -/
def heartbeatIn (h : Heartbeat) (d : Dev) : Dev :=
  if d.pair.state = 0 ∨ h.epoch ≠ d.pair.epoch ∨ !(pairPorts d).contains h.port then d
  else if h.state = 0 ∧ d.pair.state = 4 then enterSolo d
  else
    let d := if h.stroke = d.stk.number then { d with pair := { d.pair with heard := true, missed := 0 } } else d
    let d := if mirrorListens d then { d with pair := { d.pair with answered := max d.pair.answered h.answered } } else d
    if d.pair.state = 3 ∧ h.state = 4 then pairTo 5 d else d

/-- HEARTBEAT. -/
def execHeartbeat (h : Heartbeat) (s : State) : Host.Outcome State Fault Refusal := .next (onDev (heartbeatIn h) s)

/-- Step 3 of the boundary (R396): a stroke with no valid HEARTBEAT is missed, and the limits of R397 are judged. -/
def heartbeatStep (d : Dev) : Dev :=
  if d.pair.state < 2 then d
  else
    let d := if d.pair.heard then { d with pair := { d.pair with heard := false, missed := 0 } }
      else bumpReg 0x110058 63 32 1 { d with pair := { d.pair with missed := min 255 (d.pair.missed + 1) } }
    mirrorMissLimit (serveMissLimit d)

/-- FAULT_NOTICE received (R395, R403): it replaces the missed strokes. -/
def faultNotice (d : Dev) : Dev :=
  if d.pair.state = 4 then enterSolo d
  else if d.pair.state = 5 ∧ d.pair.asking.isNone ∧ d.pair.expelUntil.isNone then
    askWitness (partnerModule d) (ownModule d) { d with pair := { d.pair with detectedAt := d.stk.number } }
  else d

/-- FAULT_NOTICE. -/
def execFaultNotice (stroke source : Nat) (s : State) : Host.Outcome State Fault Refusal :=
  .next (onDev (fun d => if stroke < 2 ^ 64 ∧ source < 256 then faultNotice d else d) s)

/-! ### Sampling -/

/-- The stern's own y for a sample (R373), from its mirrored weights. The packet names no format for the token, so the format is a
free one of those that its length allows. -/
def sampleOut (desc : Nat) (bytes : List Byte) (d : Dev) : List (BitVec 32) × List (BitVec 32) × Dev :=
  let x := parseExpert (memRead d.mem desc 128)
  let n := bytes.length - 512 * x.dm
  let (f, d) := drawNat d
  let afmt := if n = 128 * x.dm then 2 + f % 2 else if f % 2 = 0 then 1 else 5
  let form := ((mirroredAt d x.weights).bind (·.mark)).getD (0, 0)
  let tl := x.tile form
  let w := (List.range (3 * x.tiles)).map fun i => memRead d.mem (x.weights + i * tl) tl
  let mine := expertOut d.draws x form afmt 0x3F800000 0 w (bytes.take n)
  let words (l : List Byte) : List (BitVec 32) := (List.range (128 * x.dm)).map fun i => BitVec.ofNat 32 (fieldLe l (4 * i) 4)
  (words mine, words (bytes.drop n), { d with draws := d.draws + expertDraws x })

/-- The comparison of R373: in every block of 128 elements, the largest difference is at most 2^−TOL of the largest value. -/
def samplePasses (tol : Nat) (mine theirs : List (BitVec 32)) : Bool :=
  let abs (v : BitVec 32) : BitVec 32 := v &&& 0x7FFFFFFF#32
  let top (l : List (BitVec 32)) : BitVec 32 := l.foldl maxF32 0
  (List.range (theirs.length / 128)).all fun b =>
    let t := (theirs.drop (128 * b)).take 128
    let m := (mine.drop (128 * b)).take 128
    let lhs := top ((t.zip m).map fun p => abs (subF32 p.1 p.2))
    let rhs := mulF32 (top (t.map abs)) (BitVec.ofNat 32 ((127 - tol) * 2 ^ 23))
    lhs == rhs || ltF32 lhs rhs

/-- A failed comparison (R373): a PAIR_COMPARE record for the crew that owns the expert. -/
def sampleFault (desc step : Nat) (d : Dev) : Dev :=
  let d := bumpSat 0x100050 15 0 1 d
  recordFault { cls := 2, source := 0x09, addr := desc, detail := step } ((mirroredAt d desc).orElse (fun _ => regionAt d desc) |>.map (·.crew)) d

/-- SAMPLE (R373): parts are collected, the last being one of fewer than 1,024 bytes; the stern then recomputes y and sends its
verdict. -/
def sampleIn (number desc step part : Nat) (data : List Byte) (d : Dev) : Dev :=
  if !mirrorListens d then d
  else
    let old := if part = 0 then [] else (tGet d.pair.samples number : Nat × Nat × List Byte).2.2
    let bytes := old ++ data
    if old.length ≠ part * 1024 then d
    else if data.length = 1024 then { d with pair := { d.pair with samples := tSet d.pair.samples number (desc, step, bytes) } }
    else
      let (mine, theirs, d) := sampleOut desc bytes { d with pair := { d.pair with samples := tDel d.pair.samples number } }
      let ok := samplePasses (cfgField d 0x100000 31 24) mine theirs
      let d := bumpReg 0x100050 63 32 1 d
      sendPair 0x93 (toLe 8 number ++ toLe 1 (b2n (!ok)) ++ zeros 7) (if ok then d else sampleFault desc step d)

/-- SAMPLE. -/
def execSample (number desc step part : Nat) (data : List Byte) (s : State) : Host.Outcome State Fault Refusal :=
  .next (onDev (sampleIn number desc step part data) s)

/-- SAMPLE_VERDICT (R373): the bow's sample is compared; a failure opens its own record. -/
def sampleVerdict (number : Nat) (failed : Bool) (d : Dev) : Dev := match tGet? d.pair.samples number with
  | none => d
  | some (desc, step, _) =>
    let d := bumpReg 0x100050 63 32 1 { d with pair := { d.pair with samples := tDel d.pair.samples number } }
    if failed then sampleFault desc step d else d

/-- SAMPLE_VERDICT. -/
def execSampleVerdict (number : Nat) (failed : Bool) (s : State) : Host.Outcome State Fault Refusal :=
  .next (onDev (sampleVerdict number failed) s)

/-- The parts of a SAMPLE: the bytes in runs of 1,024 and a last one that is shorter. -/
def sampleParts (number desc step : Nat) (bytes : List Byte) (d : Dev) : Dev :=
  (List.range (bytes.length / 1024 + 1)).foldl (fun d i =>
    sendPair 0x73 (toLe 8 number ++ toLe 8 desc ++ toLe 4 step ++ toLe 2 i ++ zeros 2 ++ (bytes.drop (1024 * i)).take 1024) d) d

/-! ### Expulsion -/

/-- The manager index and signature of entry i of an EXPEL (Table 14-7). -/
def expelSig (c : Cmd) (i : Nat) : Nat × List Byte := (pNat c (64 + 104 * i) 1, slice c.params (64 + 104 * i + 8) 96)

/-- The distinct enrolled managers whose signatures verify (R407). -/
def expelVotes (d : Dev) (c : Cmd) : List Nat :=
  (List.range 5).foldl (fun l i =>
    let (m, sig) := expelSig c i
    if m < 5 ∧ bitAt d.cfg.enrolled m ∧ Config.ecdsaVerify (d.cfg.managers.getD m []) (slice c.params 0 64) sig then addTo l m else l) []

/-- The checks of EXPEL in their order (R407). -/
def expelCheck (s : State) (c : Cmd) : Option Nat :=
  let d := s.dev
  let target := pNat c 12 2
  let known := target = ownModule d ∨ (d.cfg.role ≠ 0 ∧ target = partnerModule d)
  if pNat c 0 8 ≠ 0x4E5A455850454C01 ∨ pNat c 8 4 ≠ d.cfg.hall ∨ target ≥ 4096 ∨ pNat c 14 2 ≠ 0 ∨ ¬known
    ∨ ((List.range 5).any fun i => pNat c (64 + 104 * i + 1) 7 != 0 || (decide (4 < (expelSig c i).1) && (expelSig c i).1 != 0xFF)) then
    some stBadField
  else if pNat c 16 8 ≠ s.nv.expelNext % 2 ^ 32 ∨ pNat c 24 8 < d.stk.number then some stStale
  else if (expelVotes d c).length < 3 then some stAuthFailed
  else none

/-- The action of an EXPEL (R408). -/
def expelAct (target : Nat) (d : Dev) : Dev :=
  if target = ownModule d then enterFatal 0x10 d
  else if d.pair.state = 5 then
    askWitness (partnerModule d) (ownModule d) { d with pair := { d.pair with expelling := true, detectedAt := d.stk.number } }
  else if d.pair.state = 4 then
    askWitness (ownModule d) (ownModule d) { d with pair := { d.pair with expelling := true, switching := false } }
  else d

/-- EXPEL (R407, R408): NEXT rises, the statement is logged, and the command completes before the action begins. -/
def expelBody (q : QCmd) (s : State) : State := match expelCheck s q.cmd with
  | some st => { s with dev := completeSt q st s.dev }
  | none =>
    let n := s.nv.expelNext
    let o := routeOrigin q.cmd.crew q.cmd.route
    let d := logChange o.1 o.2 0x8000 0x0A (pNat q.cmd 12 2) true (val8 n) (slice q.cmd.params 0 64) s.dev
    { s with nv := { s.nv with expelNext := n + 1 }, dev := expelAct (pNat q.cmd 12 2) (completeSt q stOk (setField 0x110050 31 0 (n + 1) d)) }

/-- EXPEL. -/
def execExpel (c : Cmd) (s : State) : Host.Outcome State Fault Refusal := .next (runRow 0x0805 c expelBody s)

/-! ### Anchor records -/

/-- An anchor core word (Table 14-8). -/
structure Anchor where
  lease : Nat := 0
  rtag : Nat := 0
  phase : Nat := 0
  target : Nat := 0
  owner : Nat := 0
  epoch : Nat := 0
  deriving DecidableEq, Repr, Inhabited

/-- The core word that 16 bytes spell. -/
def parseAnchor (w : Nat) : Anchor :=
  { lease := bitsOf w 127 96, rtag := bitsOf w 95 66, phase := bitsOf w 65 64, target := bitsOf w 63 48, owner := bitsOf w 47 32,
    epoch := bitsOf w 31 0 }

/-- The 16 bytes of a core word as a number. -/
def Anchor.word (a : Anchor) : Nat :=
  a.lease * 2 ^ 96 + a.rtag * 2 ^ 66 + a.phase * 2 ^ 64 + a.target * 2 ^ 48 + a.owner * 2 ^ 32 + a.epoch

/-- The CRC-64 of a request identifier (R409). -/
def anchorCrc (req : Nat) : Nat := (crc64 (toLe 8 req)).toNat

/-- The address of a request's anchor record (R409). -/
def anchorAddr (c : Cmd) : Nat := pNat c 8 8 + anchorCrc (pNat c 24 8) % 2 ^ pNat c 1 1 * 128

/-- Whether a lease has expired at a stroke (R410). -/
def Anchor.expired (a : Anchor) (stroke : Nat) : Bool := decide (0 ≤ diff32 (stroke % 2 ^ 32) a.lease)

/-- An anchor operation judged against a core word (Table 14-10): its status and the word it makes. -/
def anchorJudge (c : Cmd) (stroke w : Nat) : Nat × Option Nat :=
  let a := parseAnchor w
  let pool := pNat c 2 2
  let tag := anchorCrc (pNat c 24 8) / 2 ^ 34
  let same := a.rtag = tag
  let epochOk := a.epoch = pNat c 36 4
  let dead := a.expired stroke
  let lease := (stroke + pNat c 32 4) % 2 ^ 32
  let e := (a.epoch + 1) % 2 ^ 32
  let own : Anchor := { lease, rtag := tag, phase := 1, owner := pool, epoch := e }
  let held := if ¬(same ∧ a.owner = pool) then some 0x30 else if ¬epochOk then some 0x32 else none
  match pNat c 0 1 with
  | 0 => (if same ∧ (a.phase = 1 ∨ a.phase = 2) ∧ dead then 0x31 else 0x00, none)
  | 1 => if a.phase = 0 then (0x00, some own.word)
    else if ¬same then (0x14, none)
    else if a.owner = pool ∧ !dead then (0x00, none)
    else if dead then (0x31, none) else (0x30, none)
  | 2 => match held with
    | some st => (st, none)
    | none => if dead then (0x31, none) else (0x00, some { a with lease, epoch := e }.word)
  | 3 => match held with
    | some st => (st, none)
    | none => if dead then (0x31, none) else if a.phase ≠ 1 then (0x14, none)
      else (0x00, some { a with phase := 2, target := pNat c 4 2, epoch := e }.word)
  | 4 => if ¬(same ∧ a.phase = 2 ∧ a.target = pool) then (0x30, none)
    else if ¬epochOk then (0x32, none) else (0x00, some own.word)
  | 5 => match held with
    | some st => (st, none)
    | none => if dead then (0x31, none) else if a.phase ≠ 2 then (0x14, none)
      else (0x00, some { a with phase := 1, target := 0, epoch := e }.word)
  | 6 => match held with
    | some st => (st, none)
    | none => (0x00, some { epoch := e : Anchor }.word)
  | _ => if ¬(same ∧ a.phase ≠ 0) then (0x30, none) else if !dead then (0x30, none) else (0x00, some own.word)

/-- The core word in result words 0 to 3 (R410). -/
def anchorWords (w : Nat) : List Nat := (List.range 4).map fun i => w / 2 ^ (32 * i) % 2 ^ 32

/-- The checks of OWNER_HANDOFF's fields (Table 14-9). -/
def ownerCheck (c : Cmd) : Option Nat :=
  let op := pNat c 0 1
  let leased := op = 1 ∨ op = 2 ∨ op = 4 ∨ op = 7
  let epoched := 2 ≤ op ∧ op ≤ 6
  if op ≥ 8 ∨ pNat c 1 1 < 4 ∨ pNat c 1 1 > 30 ∨ (op ≠ 3 ∧ pNat c 4 2 ≠ 0) ∨ !aligned (pNat c 8 8) 4096 ∨ Cmd.ctx c
    ∨ (¬leased ∧ pNat c 32 4 ≠ 0) ∨ (leased ∧ (pNat c 32 4 = 0 ∨ pNat c 32 4 > 16777216)) ∨ (¬epoched ∧ pNat c 36 4 ≠ 0)
  then some stBadField else none

/-- OWNER_HANDOFF (R411): the core word is read by a CAS of zeros, judged, and changed by a CAS; when another change came between,
it is judged again, at most four times. The CASes that have ended stand in got; one that must wait parks the command. -/
def ownerRun (q : QCmd) : Nat → Dev → Dev
  | 0, d => completeSt q stBusy d
  | fuel + 1, d =>
    let c := q.cmd
    let hist := tGet d.got q.id
    let a := anchorAddr c
    let key := pNat c 16 5
    let issue (compare operand : Nat) (d : Dev) : Dev :=
      let p : Part := { addr := a, len := 16, key, act := .atomic 9 16 operand compare }
      let (i, d) := freshId d
      let (ps, d) := tryParts i (.command q) (unitId (ownModule d) 3) 1 0 [p] d
      if ps.all Part.done then ownerRun q fuel { d with got := tSet d.got q.id (hist ++ ps) }
      else setJob i { owner := .command q, crew := c.crew, requester := unitId (ownModule d) 3, stamp := d.stk.number, parts := ps,
                      goal := .retry, ready := false } d
    let finish (st w : Nat) (d : Dev) : Dev := complete q st (anchorWords w) [] { d with got := tDel d.got q.id }
    match hist.getLast? with
    | none => issue 0 0 d
    | some p =>
      let w := leNat p.data
      match p.act with
      | .atomic _ _ operand compare =>
        if !stSuccess p.status then completeSt q p.status { d with got := tDel d.got q.id }
        else if hist.length > 1 ∧ w = compare then
          let d := if pNat c 0 1 = 1 ∨ pNat c 0 1 = 7 then deviceWrite (a + 16) key (slice c.params 24 8) d else d
          finish stOk operand d
        else match anchorJudge c d.stk.number w with
          | (st, none) => finish st w d
          | (_, some n) => if hist.length > 4 then finish stBusy w d else issue w n d
      | _ => completeSt q stBusy { d with got := tDel d.got q.id }

/-- OWNER_HANDOFF begun. -/
def ownerBody (q : QCmd) (d : Dev) : Dev := match ownerCheck q.cmd with
  | some st => completeSt q st d
  | none => ownerRun q 7 d

/-- OWNER_QUERY. -/
def execOwnerQuery (c : Cmd) (s : State) : Host.Outcome State Fault Refusal := .next (runRow 0x0806 (withByte c 0 0) (devBody ownerBody) s)
/-- OWNER_CLAIM. -/
def execOwnerClaim (c : Cmd) (s : State) : Host.Outcome State Fault Refusal := .next (runRow 0x0806 (withByte c 0 1) (devBody ownerBody) s)
/-- OWNER_RENEW. -/
def execOwnerRenew (c : Cmd) (s : State) : Host.Outcome State Fault Refusal := .next (runRow 0x0806 (withByte c 0 2) (devBody ownerBody) s)
/-- OWNER_OFFER. -/
def execOwnerOffer (c : Cmd) (s : State) : Host.Outcome State Fault Refusal := .next (runRow 0x0806 (withByte c 0 3) (devBody ownerBody) s)
/-- OWNER_ACCEPT. -/
def execOwnerAccept (c : Cmd) (s : State) : Host.Outcome State Fault Refusal :=
  .next (runRow 0x0806 (withByte c 0 4) (devBody ownerBody) s)
/-- OWNER_ABORT. -/
def execOwnerAbort (c : Cmd) (s : State) : Host.Outcome State Fault Refusal := .next (runRow 0x0806 (withByte c 0 5) (devBody ownerBody) s)
/-- OWNER_RELEASE. -/
def execOwnerRelease (c : Cmd) (s : State) : Host.Outcome State Fault Refusal :=
  .next (runRow 0x0806 (withByte c 0 6) (devBody ownerBody) s)
/-- OWNER_TAKE. -/
def execOwnerTake (c : Cmd) (s : State) : Host.Outcome State Fault Refusal := .next (runRow 0x0806 (withByte c 0 7) (devBody ownerBody) s)

end Sys2Proof.Machine
end

