-- ==== Sys2Proof/Machine/Tables.lean ====
section
/-! DEFINITION. Machine/Tables.lean: embedding tables: look-ups, POOL, hot sets, replicas, row publication and TABLE_SWITCH
(Chapter 10). -/

namespace Sys2Proof.Machine

/-! ### Tables and rows -/

/-- A table's record. -/
def tableOf (d : Dev) (t : Nat) : EmbTable := (tGet? d.tables t).getD {}
/-- A table's record replaced. -/
def setTable (t : Nat) (x : EmbTable) (d : Dev) : Dev := { d with tables := tSet d.tables t x }
/-- The dimension D of a table (R290). -/
def EmbTable.elems (x : EmbTable) : Nat := x.dim * 32
/-- Bytes of a row's body in a width class (Table 10-2). -/
def bodyBytes (cls elems : Nat) : Nat :=
  if cls = 0 then 4 * elems else if cls = 1 then 2 * elems else if cls = 2 then elems + 16 else elems / 2 + 16

/-- The table checks of R290: the table must exist at the generation, not be going, and belong to the crew. -/
def tableCheck (d : Dev) (crew t gen : Nat) : Option Nat :=
  let x := tableOf d t
  if x.state = 0 ∨ x.state = 3 ∨ x.gen ≠ gen then some stStale
  else if x.crew ≠ crew then some stNoRights
  else none

/-- The TABLE_SWITCH of a table that has not ended. -/
def switchOf (d : Dev) (t : Nat) : Option LongOp :=
  ((liveOps d).find? fun l => l.2.opcode == 0x405 && l.2.first == t && pNat l.2.q.cmd 0 1 != 0).map (·.2)

/-- A row descriptor's fields (Table 10-1). -/
structure RowDesc where
  cls : Nat := 0
  replica : Bool := false
  version : Nat := 0
  rsv : Nat := 0
  offset : Nat := 0
  deriving DecidableEq, Repr, Inhabited

/-- The descriptor that 8 bytes spell. -/
def parseRow (l : List Byte) : RowDesc :=
  let w := fieldLe l 0 8
  { cls := bitsOf w 63 62, replica := bitAt w 61, version := bitsOf w 60 51, rsv := bitsOf w 50 40, offset := bitsOf w 39 0 }

/-- The 8 bytes of a descriptor. -/
def RowDesc.bytes (r : RowDesc) : List Byte :=
  toLe 8 (r.cls * 2 ^ 62 + b2n r.replica * 2 ^ 61 + r.version % 1024 * 2 ^ 51 + r.rsv % 2048 * 2 ^ 40 + r.offset % 2 ^ 40)

/-- Whether a body lies within a body area (R292). -/
def bodyFits (elems regions : Nat) (r : RowDesc) : Bool :=
  decide (r.offset * 16 + bodyBytes r.cls elems ≤ regions * 2 ^ 21)

/-- The values of a body (Table 10-2), each with one rounding. -/
def bodyValues (cls elems : Nat) (l : List Byte) : List (BitVec 32) :=
  let scale := BitVec.ofNat 32 (fieldLe l 0 4)
  if cls < 2 then (decodeArray cls elems l).map toF32
  else if cls = 2 then (List.range elems).map fun i =>
    toF32 ((f32Val scale).mul (fmtE4m3.decode (l.getD (16 + i) 0).toNat))
  else (List.range elems).map fun i =>
    let q := (l.getD (16 + i / 2) 0).toNat / 16 ^ (i % 2) % 16
    toF32 (((f32Val scale).mul (intVal q)).add (f32Val (BitVec.ofNat 32 (fieldLe l 4 4))))

/-! ### Look-ups -/

/-- The clusters that hold a core of a crew, in order. -/
def crewClusters (d : Dev) (crew : Nat) : List Nat :=
  (List.range 16).filter fun k => (List.range 8).any fun i => (crewOf d crew).hasCore (8 * k + i)

/-- A look-up that has been resolved: its bytes under a class, a failure, or a body still to be read. -/
inductive Look where
  | have_ (cls : Nat) (body : List Byte)
  | bad (status : Nat)
  | body (r : RowDesc)
  deriving DecidableEq, Repr, Inhabited

/-- The hot copy of a row in a cluster, where a hot set of the table is enabled there (R293 step 1). -/
def hotCopy (d : Dev) (t k row : Nat) : Option HotCopy :=
  if d.hotOn.contains (t, k) then d.hot.find? fun h => h.table == t && h.cluster == k && h.row == row else none

/-- The replica of a row in a cluster at a version (R293 step 3). -/
def replicaOf (d : Dev) (t k row version : Nat) : Option Replica :=
  d.replicas.find? fun r => r.table == t && r.cluster == k && r.row == row && r.filled && r.version == version

/-- The range of a row's descriptor. -/
def descSpan (d : Dev) (descs row : Nat) : Span := (descs + 8 * row, 8, devKey d (descs + 8 * row))

/-- A look-up after its descriptor has been read: R292's checks, then a replica, then the body (R293 steps 2 to 4). -/
def resolveRow (d : Dev) (b : Bound) (elems k row : Nat) (ps : List Part) : Look :=
  if firstBad ps ≠ stOk then .bad (firstBad ps)
  else
    let r := parseRow (spanBytes ps)
    if r.rsv ≠ 0 ∨ !bodyFits elems b.bodyRegions r then .bad stBadField
    else match (if r.replica then replicaOf d b.table k row r.version else none) with
      | some x => .have_ x.cls x.body
      | none => .body r

/-- The range that a look-up still reads. -/
def lookSpan (d : Dev) (b : Bound) (elems : Nat) : Look → Span
  | .body r => (b.body + r.offset * 16, bodyBytes r.cls elems, devKey d (b.body + r.offset * 16))
  | _ => (0, 0, 0)

/-- A replica refilled with the body that a look-up has read (R293 step 4). -/
def refill (t k row : Nat) (r : RowDesc) (body : List Byte) (d : Dev) : Dev :=
  if !r.replica then d
  else { d with replicas := d.replicas.map fun x => if x.table == t && x.cluster == k && x.row == row then
      { x with version := r.version, cls := r.cls, filled := true, body } else x }

/-- Rows looked up in their clusters (R293): (cluster, row) pairs in, class and body or a failing status out. hotToo is false for a
HOTSET_LOAD, which begins with step 2. none where the command parks. -/
def lookRows (q : QCmd) (b : Bound) (elems : Nat) (hotToo : Bool) (rows : List (Nat × Nat)) (d : Dev) :
    Option (List Look) × Dev :=
  let hots := rows.map fun x => if hotToo then hotCopy d b.table x.1 x.2 else none
  let need (x : (Nat × Nat) × Option HotCopy) : Span :=
    if x.2.isSome ∨ b.rows ≤ x.1.2 then (0, 0, 0) else descSpan d b.descs x.1.2
  match fetch q ((rows.zip hots).map need) d with
  | (none, d) => (none, d)
  | (some l, d) =>
    let looks := ((rows.zip hots).zip l).map fun x => match x.1.2 with
      | some h => Look.have_ h.cls h.body
      | none => if b.rows ≤ x.1.1.2 then .bad stBadField else resolveRow d b elems x.1.1.1 x.1.1.2 x.2
    match fetch q (looks.map (lookSpan d b elems)) d with
    | (none, d) => (none, d)
    | (some l, d) =>
      let done := (looks.zip l).map fun x => match x.1 with
        | .body r => if firstBad x.2 ≠ stOk then Look.bad (firstBad x.2) else .have_ r.cls (spanBytes x.2)
        | y => y
      let d := ((rows.zip looks).zip l).foldl (fun d x => match x.1.2 with
        | .body r => if firstBad x.2 ≠ stOk then d else refill b.table x.1.1.1 x.1.1.2 r (spanBytes x.2) d
        | _ => d) d
      let hn := (hots.filter Option.isSome).length
      let rn := ((hots.zip looks).filter fun x => x.1.isNone && (match x.2 with
        | .have_ _ _ => true
        | _ => false)).length
      let cr := 0xD8000 + 0x10 * (tableOf d b.table).crew
      let d := bumpReg cr 63 0 rows.length (bumpReg 0xD0000 63 0 rows.length d)
      let d := bumpReg (cr + 8) 63 32 hn (bumpReg 0xD0008 63 32 hn d)
      (some done, bumpReg (cr + 8) 31 0 rn (bumpReg 0xD0008 31 0 rn d))

/-- The table version that a command has bound, or binds now (R297). -/
def bindTable (q : QCmd) (t : Nat) (d : Dev) : Bound × Dev :=
  match d.bound.find? fun b => b.work == q.id with
  | some b => (b, d)
  | none =>
    let x := tableOf d t
    let b : Bound := { work := q.id, table := t, version := x.version, stamp := q.stamp, rows := x.rows, descs := x.descs,
                       body := x.body, bodyRegions := x.bodyRegions }
    (b, { d with bound := d.bound ++ [b] })

/-- The bindings of commands that have not ended. -/
def liveBound (d : Dev) : List Bound :=
  let ids := (startedCmds d).map (·.id)
  d.bound.filter fun b => ids.contains b.work

/-! ### POOL -/

/-- Bytes of a POOL's list (R295). -/
def poolList (c : Cmd) : Nat := 4 * ceilDiv (pNat c 4 2) 2 + 4 * pNat c 8 4 * (if bitAt (pNat c 2 1) 1 then 2 else 1)

/-- The checks of POOL in their order (R296). -/
def poolCheck (d : Dev) (q : QCmd) : Option Nat :=
  let c := q.cmd
  let il := bitAt (pNat c 2 1) 0
  let bags := pNat c 4 2
  let n := pNat c 8 4
  if pNat c 2 1 ≥ 8 then some stBadField
  else if bags = 0 ∨ n = 0 then some stOk
  else if (!il ∧ c.length ≠ 48) ∨ (il ∧ c.length ≠ 48 + poolList c) ∨ bags > 1024 ∨ n > 65536 then some stBadLength
  else if Cmd.ctx c ∨ pNat c 3 1 ≥ 2 ∨ (!il ∧ !homeDram d (pNat c 12 8) 4) ∨ (il ∧ (pNat c 12 8 ≠ 0 ∨ pNat c 20 5 ≠ 0))
    ∨ !aligned (pNat c 28 8) 128 ∨ addrSpace (pNat c 28 8) ≠ 0 then some stBadField
  else (tableCheck d c.crew (pNat c 0 1) (pNat c 1 1)).orElse fun _ =>
    if il then none else rangeCheck d c.crew (pNat c 12 8) (poolList c) (pNat c 20 5)

/-- Fused sums in the vector unit, in the device's own order (R236, R238). -/
def fusedSum (n0 : Nat) (l : List FVal) : BitVec 32 := (ownOrder n0 l).foldl (fun a v => toF32 ((f32Val a).add v)) 0

/-- Where each bag's indices begin. -/
def bagStarts (lens : List Nat) : List Nat := lens.foldl (fun l n => l ++ [l.getLastD 0 + n]) [0]

/-- The rows of one bag summed (R297). -/
def bagSum (n0 elems : Nat) (rows : List (BitVec 32 × List (BitVec 32))) : List (BitVec 32) :=
  (List.range elems).map fun e => fusedSum (n0 + e) (rows.map fun r => (f32Val r.1).mul (f32Val (r.2.getD e 0)))

/-- The status of a bag: that of its first failed look-up. -/
def bagStatus (looks : List Look) : Nat :=
  (looks.findSome? fun l => match l with
    | .bad st => some st
    | _ => none).getD stOk

/-- The values that a look-up gives. -/
def lookValues (elems : Nat) : Look → List (BitVec 32)
  | .have_ cls b => bodyValues cls elems b
  | _ => []

/-- The look-ups of a POOL done and its output written (R297, R298). -/
def poolOut (q : QCmd) (b : Bound) (lens idx wts : List Nat) (d : Dev) : Dev :=
  let c := q.cmd
  let elems := (tableOf d b.table).elems
  let ks := crewClusters d c.crew
  let bags := lens.length
  let starts := bagStarts lens
  let cluster (i : Nat) : Nat := ks.getD (Config.freeNat (d.draws + i) % max 1 ks.length) 0
  let rows := (List.range bags).flatMap fun i => ((idx.drop (starts.getD i 0)).take (lens.getD i 0)).map fun r => (cluster i, r)
  match lookRows q b elems true rows { d with draws := d.draws + bags } with
  | (none, d) => d
  | (some looks, d) =>
    let per (i : Nat) : List Look := (looks.drop (starts.getD i 0)).take (lens.getD i 0)
    let wper (i : Nat) : List (BitVec 32) := ((wts.drop (starts.getD i 0)).take (lens.getD i 0)).map (BitVec.ofNat 32 ·)
    let sts := (List.range bags).map fun i => bagStatus (per i)
    let e := elemBits (pNat c 3 1) / 8
    let data := (List.range bags).flatMap fun i =>
      if sts.getD i 0 ≠ stOk then zeros (elems * e)
      else encodeArray (pNat c 3 1) ((bagSum (d.draws + i * elems) elems ((wper i).zip ((per i).map (lookValues elems)))).map f32Val)
    let failed := (List.range bags).filter fun i => sts.getD i 0 ≠ stOk
    let st := match failed with
      | [] => stOk
      | i :: _ => sts.getD i 0
    let words := [bags - failed.length, failed.length, failed.headD 0]
    let d := { d with draws := d.draws + bags * elems }
    let out := pNat c 28 8
    if bitAt (pNat c 2 1) 2 then
      writeRelease q out data (out + 128 * ceilDiv data.length 128) (pNat c 36 5)
        (slice (toLe 4 (pNat c 44 4) ++ toLe 1 st) 0 128) st words d
    else writeOut q out (pNat c 36 5) data st words d

/-- A POOL computed: it binds the active version, reads its list and checks the bag lengths (R296, R297). -/
def poolRun (q : QCmd) (d : Dev) : Dev :=
  let c := q.cmd
  let il := bitAt (pNat c 2 1) 0
  let bags := pNat c 4 2
  let n := pNat c 8 4
  let (b, d) := bindTable q (pNat c 0 1) d
  match fetch q [if il then (0, 0, 0) else (pNat c 12 8, poolList c, pNat c 20 5)] d with
  | (none, d) => d
  | (some l, d) =>
    if spansBad l ≠ stOk then completeSt q (spansBad l) d
    else
      let bytes := if il then slice c.params 48 (poolList c) else spanBytes (l.getD 0 [])
      let lens := (List.range bags).map fun i => fieldLe bytes (2 * i) 2
      let o := 4 * ceilDiv bags 2
      let idx := (List.range n).map fun i => fieldLe bytes (o + 4 * i) 4
      let wts := (List.range n).map fun i => if bitAt (pNat c 2 1) 1 then fieldLe bytes (o + 4 * n + 4 * i) 4 else 0x3F800000
      if lens.any (4096 < ·) then completeSt q stBadLength d
      else if lens.sum ≠ n then completeSt q stBadField d
      else poolOut q b lens idx wts d

/-- POOL accepted and computed. -/
def poolBody (q : QCmd) (d : Dev) : Dev := match poolCheck d q with
  | some st => completeSt q st d
  | none => poolRun q d

/-- POOL. -/
def execPool (c : Cmd) (s : State) : Host.Outcome State Fault Refusal := .next (runRow 0x0401 c (devBody poolBody) s)

/-! ### The hot set -/

/-- The lowest-numbered core of a crew in a cluster (R299). -/
def lowCore (d : Dev) (crew k : Nat) : Option Nat := ((List.range 8).map (8 * k + ·)).find? (crewOf d crew).hasCore

/-- The hot set of a table in a cluster disabled and freed. -/
def dropHot (t k : Nat) (d : Dev) : Dev :=
  { d with hotOn := d.hotOn.filter (· != (t, k)), hot := d.hot.filter fun h => !(h.table == t && h.cluster == k) }

/-- The checks of HOTSET_LOAD (Table 10-4, R299, R300). -/
def hotsetCheck (d : Dev) (q : QCmd) : Option Nat :=
  let c := q.cmd
  let t := pNat c 0 1
  let load := pNat c 2 1 = 0
  let ks := maskBits 16 (pNat c 4 2)
  let n := pNat c 8 4
  let room (k : Nat) : Bool := match lowCore d c.crew k with
    | none => false
    | some core => !load || decide (pNat c 12 4 + pNat c 16 4 ≤ (windowOf d c.crew core).2)
  if load ∧ c.length ≠ 40 ∨ !load ∧ c.length ≠ 8 then some stBadLength
  else if load ∧ n = 0 then some stOk
  else if load ∧ n > 65536 then some stBadLength
  else if Cmd.ctx c ∨ pNat c 2 1 ≥ 2 ∨ (load ∧ (!aligned (pNat c 12 4) 65536 ∨ !aligned (pNat c 16 4) 65536
      ∨ !homeDram d (pNat c 20 8) 4)) then some stBadField
  else (tableCheck d c.crew t (pNat c 1 1)).orElse fun _ =>
    if (switchOf d t).isSome then some stBusy
    else if !ks.all room then some stNoRights
    else if load then rangeCheck d c.crew (pNat c 20 8) (4 * n) (pNat c 28 5) else none

/-- How many of the bodies fit a hot area in order: a 4 KiB directory, and 16 bytes beside each body (R299). -/
def hotFit : Nat → List Nat → Nat
  | _, [] => 0
  | room, b :: bs => if b + 16 ≤ room then hotFit (room - b - 16) bs + 1 else 0

/-- HOTSET_LOAD with OP LOAD (R299): the listed rows are copied into each named cluster's hot area, up to the first that does not
fit. A failed look-up ends it with the hot sets disabled. -/
def hotsetLoadRun (q : QCmd) (d : Dev) : Dev :=
  let c := q.cmd
  let t := pNat c 0 1
  let ks := maskBits 16 (pNat c 4 2)
  let n := pNat c 8 4
  let (b, d) := bindTable q t (ks.foldl (fun d k => dropHot t k d) d)
  let elems := (tableOf d t).elems
  match fetch q [(pNat c 20 8, 4 * n, pNat c 28 5)] d with
  | (none, d) => d
  | (some l, d) =>
    if spansBad l ≠ stOk then completeSt q (spansBad l) d
    else
      let rows := ((List.range n).map fun i => fieldLe (spanBytes (l.getD 0 [])) (4 * i) 4).filter (· < b.rows)
      match lookRows q b elems false (rows.map fun r => (ks.headD 0, r)) d with
      | (none, d) => d
      | (some looks, d) =>
        let sizes := looks.map fun x => match x with
          | .have_ _ bd => bd.length
          | _ => 0
        let m := hotFit (pNat c 16 4 - 4096) sizes
        let taken := (rows.zip looks).take m
        let st := bagStatus (taken.map (·.2))
        if st ≠ stOk then completeSt q st d
        else
          let copy (k : Nat) (x : Nat × Look) : HotCopy := match x.2 with
            | .have_ cls body => { table := t, cluster := k, row := x.1, cls, body }
            | _ => {}
          let d := ks.foldl (fun d k =>
            let core := (lowCore d c.crew k).getD 0
            let (free, d) := drawBytes (pNat c 16 4) d
            spadWrite core ((windowOf d c.crew core).1 + pNat c 12 4) free
              { d with hot := d.hot ++ taken.map (copy k), hotOn := d.hotOn ++ [(t, k)] }) d
          complete q stOk [m, n - m] [] d

/-- HOTSET_LOAD with OP DROP (R299). -/
def hotsetDropRun (q : QCmd) (d : Dev) : Dev :=
  completeSt q stOk ((maskBits 16 (pNat q.cmd 4 2)).foldl (fun d k => dropHot (pNat q.cmd 0 1) k d) d)

/-- HOTSET_LOAD by its OP. -/
def hotsetBody (q : QCmd) (d : Dev) : Dev := match hotsetCheck d q with
  | some st => completeSt q st d
  | none => if pNat q.cmd 2 1 = 0 then hotsetLoadRun q d else hotsetDropRun q d

/-- HOTSET_LOAD: the row with OP LOAD. -/
def execHotsetLoad (c : Cmd) (s : State) : Host.Outcome State Fault Refusal :=
  .next (runRow 0x0403 (withByte c 2 0) (devBody hotsetBody) s)

/-- HOTSET_DROP: HOTSET_LOAD with OP DROP. -/
def execHotsetDrop (c : Cmd) (s : State) : Host.Outcome State Fault Refusal :=
  .next (runRow 0x0403 (withByte c 2 1) (devBody hotsetBody) s)

/-! ### Replicas -/

/-- Bytes of replica store that a crew's own cores give it in a cluster (R301). -/
def replicaRoom (d : Dev) (crew k : Nat) : Nat :=
  ((List.range 8).filter fun i => (crewOf d crew).hasCore (8 * k + i)).length * 65536

/-- Bytes of a crew's replicas in a cluster. -/
def replicaUsed (d : Dev) (crew k : Nat) : Nat :=
  d.replicas.foldl (fun a r => if r.cluster = k ∧ (tableOf d r.table).crew = crew then a + r.size else a) 0

/-- The replicas of a row freed. -/
def freeReplicas (t row : Nat) (d : Dev) : Dev :=
  { d with replicas := d.replicas.filter fun r => !(r.table == t && r.row == row) }

/-- ROW_REPLICATE (R301): SET reserves and fills a replica in every cluster of the crew and sets REPLICA at home; CLEAR undoes it. -/
def rowReplicateRun (q : QCmd) (d : Dev) : Dev :=
  let c := q.cmd
  let t := pNat c 0 1
  let row := pNat c 4 4
  let x := tableOf d t
  let ds := descSpan d x.descs row
  match fetch q [ds] d with
  | (none, d) => d
  | (some l, d) =>
    if spansBad l ≠ stOk then completeSt q (spansBad l) d
    else
      let r := parseRow (spanBytes (l.getD 0 []))
      let put (v : Bool) (d : Dev) : Dev :=
        writeOut q ds.1 ds.2.2 ({ r with replica := v } : RowDesc).bytes stOk [] d
      if pNat c 2 1 = 1 then
        let (ok, d) := claim q [(ds.1, 8)] d
        if !ok then d else put false (freeReplicas t row d)
      else if r.rsv ≠ 0 ∨ !bodyFits x.elems x.bodyRegions r then completeSt q stBadField d
      else
        let a := x.body + r.offset * 16
        match fetch q [(a, bodyBytes r.cls x.elems, devKey d a)] d with
        | (none, d) => d
        | (some l, d) =>
          if spansBad l ≠ stOk then completeSt q (spansBad l) d
          else
            let (ok, d) := claim q [(ds.1, 8)] d
            if !ok then d
            else
              let d := freeReplicas t row d
              let size := ceilDiv (bodyBytes r.cls x.elems) 256 * 256
              let ks := crewClusters d c.crew
              if ks.any fun k => decide (replicaRoom d c.crew k < replicaUsed d c.crew k + size) then completeSt q stBusy d
              else
                let new (k : Nat) : Replica :=
                  { table := t, cluster := k, row, size, version := r.version, cls := r.cls, filled := true,
                    body := spanBytes (l.getD 0 []) }
                put true { d with replicas := d.replicas ++ ks.map new }

/-- The checks of ROW_REPLICATE (Table 10-5). -/
def rowReplicateCheck (d : Dev) (q : QCmd) : Option Nat :=
  let c := q.cmd
  if Cmd.ctx c ∨ pNat c 2 1 ≥ 2 then some stBadField
  else (tableCheck d c.crew (pNat c 0 1) (pNat c 1 1)).orElse fun _ =>
    if (tableOf d (pNat c 0 1)).rows ≤ pNat c 4 4 then some stBadField else none

/-- ROW_REPLICATE by its OP. -/
def rowReplicateBody (q : QCmd) (d : Dev) : Dev := match rowReplicateCheck d q with
  | some st => completeSt q st d
  | none => rowReplicateRun q d

/-- ROW_REPLICATE_SET. -/
def execRowReplicateSet (c : Cmd) (s : State) : Host.Outcome State Fault Refusal :=
  .next (runRow 0x0404 (withByte c 2 0) (devBody rowReplicateBody) s)

/-- ROW_REPLICATE_CLEAR. -/
def execRowReplicateClear (c : Cmd) (s : State) : Host.Outcome State Fault Refusal :=
  .next (runRow 0x0404 (withByte c 2 1) (devBody rowReplicateBody) s)

/-! ### ROW_PUBLISH -/

/-- The row-move slot that a command holds. -/
def moveOf (d : Dev) (q : QCmd) : Option (Nat × RowMove) := d.moves.find? fun m => m.2.q.id == q.id && m.2.swapped.isNone

/-- The class of a ROW_PUBLISH's new body. -/
def newClass (c : Cmd) (r : RowDesc) : Nat := if pNat c 2 1 = 1 then r.cls else pNat c 4 1

/-- The checks of ROW_PUBLISH before its row's descriptor is read (R302 steps 1 to 4 but for the current body). -/
def rowPublishCheck (d : Dev) (q : QCmd) : Option Nat :=
  let c := q.cmd
  let t := pNat c 0 1
  let x := tableOf d t
  let op := pNat c 2 1
  let il := bitAt (pNat c 3 1) 0
  let expect := bitAt (pNat c 3 1) 1
  let size := bodyBytes (pNat c 4 1) x.elems
  if (!il ∧ c.length ≠ 48) ∨ (il ∧ x.state ≠ 0 ∧ c.length ≠ 48 + size) then some stBadLength
  else if Cmd.ctx c ∨ op ≥ 3 ∨ pNat c 3 1 ≥ 4 ∨ (il ∧ op ≠ 0) ∨ pNat c 4 1 ≥ 4 ∨ (op = 1 ∧ pNat c 4 1 ≠ 0)
    ∨ pNat c 6 2 ≥ 1024 ∨ (!expect ∧ pNat c 6 2 ≠ 0) ∨ pNat c 16 8 ≥ 2 ^ 40
    ∨ ((il ∨ op ≠ 0) ∧ (pNat c 24 8 ≠ 0 ∨ pNat c 32 5 ≠ 0)) ∨ (op = 0 ∧ !il ∧ addrSpace (pNat c 24 8) ≥ 2)
    ∨ (x.state ≠ 0 ∧ x.rows ≤ pNat c 8 4)
    ∨ (x.state ≠ 0 ∧ op ≠ 1 ∧ pNat c 16 8 * 16 + size > x.bodyRegions * 2 ^ 21) then some stBadField
  else (tableCheck d c.crew t (pNat c 1 1)).orElse fun _ =>
    (if op = 0 ∧ !il ∧ addrModule (pNat c 24 8) = ownModule d then rangeCheck d c.crew (pNat c 24 8) size (pNat c 32 5) else none).orElse
      fun _ => match switchOf d t with
        | some l => some (if l.state = 3 then stSuspended else stBusy)
        | none =>
          if d.moves.any fun m => m.2.table == t && m.2.row == pNat c 8 4 && m.2.swapped.isNone then some stBusy
          else if d.moves.length ≥ 1024 then some stBusy
          else none

/-- The largest and the smallest of finite values, and the largest magnitude, in binary32. -/
def valueRange (l : List (BitVec 32)) : BitVec 32 × BitVec 32 × BitVec 32 :=
  l.foldl (fun a v => (maxF32 a.1 v, if ltF32 v a.2.1 then v else a.2.1, maxF32 a.2.2 (v &&& 0x7FFFFFFF#32)))
    (l.headD 0, l.headD 0, 0)

/-- A quotient in binary32, correctly rounded: a NaN only where the divisor is zero and so is the dividend. -/
def divF32 (a b : BitVec 32) : BitVec 32 := match f32Val a, f32Val b with
  | .fin n m e, .fin k w f =>
    if w = 0 then (if m = 0 then 0x7FC00000#32 else toF32 (.inf (n != k)))
    else
      let q := m * 2 ^ 80 / w
      let sticky := if m * 2 ^ 80 % w = 0 then 0 else 1
      toF32 (.fin (n != k) (2 * q + sticky) (e - f - 81))
  | _, _ => 0x7FC00000#32

/-- Whole part of a quotient rounded to nearest even, as an integer. -/
def roundInt (v : BitVec 32) : Int := match f32Val v with
  | .fin n m e => let r : Int := if e ≥ 0 then (m * 2 ^ e.toNat : Nat) else (shiftRound m (-e).toNat : Nat); if n then -r else r
  | _ => 0

/-- A body encoded in a class by CONVERT (R303): none where a value is not finite. -/
def convertBody (cls : Nat) (l : List (BitVec 32)) : Option (List Byte) :=
  let (top, low, amax) := valueRange l
  if l.any fun v => (match f32Val v with
      | .fin _ _ _ => false
      | _ => true) then none
  else if cls < 2 then some (encodeArray cls (l.map f32Val))
  else if cls = 2 then
    let scale := if (f32Val amax).isZero then 0x3F800000#32 else divF32 amax 0x43E00000#32
    some (toLe 4 scale.toNat ++ zeros 12 ++ l.map fun v => BitVec.ofNat 8 (encodeElem 2 (f32Val (divF32 v scale))))
  else
    let scale := divF32 (subF32 top low) 0x41700000#32
    let q (v : BitVec 32) : Nat := if (f32Val scale).isZero then 0
      else (max 0 (min 15 (roundInt (divF32 (subF32 v low) scale)))).toNat
    some (toLe 4 scale.toNat ++ toLe 4 low.toNat ++ zeros 8
      ++ (List.range (ceilDiv l.length 2)).map fun i => BitVec.ofNat 8 (q (l.getD (2 * i) 0) + 16 * q (l.getD (2 * i + 1) 0)))

/-- The hot copies of a row removed in every cluster (R300). -/
def dropHotRow (t row : Nat) (d : Dev) : Dev := { d with hot := d.hot.filter fun h => !(h.table == t && h.row == row) }

/-- The next row version: 1 to 1,023, then 1 again (Table 10-1). -/
def nextRowVersion (v : Nat) : Nat := if v ≥ 1023 then 1 else v + 1

/-- A ROW_PUBLISH that ends without a swap frees its slot. -/
def endMove (q : QCmd) (st : Nat) (d : Dev) : Dev :=
  completeSt q st { d with moves := d.moves.filter fun m => !(m.2.q.id == q.id && m.2.swapped.isNone) }

/-- The new body written, and the descriptor swapped as one event (R304). -/
def rowSwap (q : QCmd) (slot : Nat) (m : RowMove) (x : EmbTable) (r : RowDesc) (body : List Byte) (d : Dev) : Dev :=
  let c := q.cmd
  let ds := descSpan d x.descs m.row
  if bitAt (pNat c 3 1) 1 ∧ r.version ≠ pNat c 6 2 then endMove q stStale d
  else
    let (ok, d) := claim q [(ds.1, 8), (m.newBody, body.length)] d
    if !ok then d
    else
      let v := nextRowVersion r.version
      let new : RowDesc := { cls := newClass c r, replica := r.replica, version := v, rsv := 0, offset := pNat c 16 8 }
      let d := dropHotRow m.table m.row
        { d with moves := tSet d.moves slot { m with swapped := some d.stk.number } }
      let (i, d) := freshId d
      runJob i (setJob i {
        owner := .command q, crew := c.crew, requester := unitId (ownModule d) 3, stamp := d.stk.number,
        parts := splitParts m.newBody body.length (devKey d m.newBody) .write body ++ splitParts ds.1 8 ds.2.2 .write new.bytes,
        goal := .output stOk [v, d.stk.number % 2 ^ 32] } d)

/-- A ROW_PUBLISH that holds its slot: its new body is obtained and swapped in (R303, R304). -/
def rowPublishRun (q : QCmd) (slot : Nat) (m : RowMove) (r : RowDesc) (d : Dev) : Dev :=
  let c := q.cmd
  let x := tableOf d m.table
  let size := bodyBytes (newClass c r) x.elems
  if pNat c 2 1 = 0 then
    if bitAt (pNat c 3 1) 0 then rowSwap q slot m x r (slice c.params 48 size) d
    else match fetch q [(pNat c 24 8, size, pNat c 32 5)] d with
      | (none, d) => d
      | (some l, d) => if spansBad l ≠ stOk then endMove q (spansBad l) d else rowSwap q slot m x r (spanBytes (l.getD 0 [])) d
  else match fetch q [(m.oldBody, m.oldBytes, devKey d m.oldBody)] d with
    | (none, d) => d
    | (some l, d) =>
      let old := spanBytes (l.getD 0 [])
      if spansBad l ≠ stOk then endMove q (spansBad l) d
      else if pNat c 2 1 = 1 then rowSwap q slot m x r old d
      else match convertBody (pNat c 4 1) (bodyValues r.cls x.elems old) with
        | none => endMove q stBadField d
        | some b => rowSwap q slot m x r b d

/-- ROW_PUBLISH by its OP (R302 to R304): it takes the lowest free row-move slot once its row's descriptor has been read. -/
def rowPublishBody (q : QCmd) (d : Dev) : Dev :=
  let c := q.cmd
  let t := pNat c 0 1
  let x := tableOf d t
  match (if (moveOf d q).isSome then none else rowPublishCheck d q) with
  | some st => completeSt q st d
  | none => match fetch q [descSpan d x.descs (pNat c 8 4)] d with
    | (none, d) => d
    | (some l, d) =>
      let r := parseRow (spanBytes (l.getD 0 []))
      let old := x.body + r.offset * 16
      let new := x.body + pNat c 16 8 * 16
      let size := bodyBytes (newClass c r) x.elems
      if spansBad l ≠ stOk then endMove q (spansBad l) d
      else match moveOf d q with
        | some (i, m) => rowPublishRun q i m r d
        | none =>
          if pNat c 16 8 * 16 + size > x.bodyRegions * 2 ^ 21 ∨ bytesMeet new size old (bodyBytes r.cls x.elems)
            ∨ (pNat c 2 1 ≠ 0 ∧ (r.rsv ≠ 0 ∨ !bodyFits x.elems x.bodyRegions r)) then completeSt q stBadField d
          else
            let slot := ((List.range 1024).find? fun i => (tGet? d.moves i).isNone).getD 0
            let m : RowMove := { table := t, row := pNat c 8 4, crew := c.crew, op := pNat c 2 1, q, oldBody := old,
                                 oldBytes := bodyBytes r.cls x.elems, newBody := new }
            rowPublishRun q slot m r { d with moves := tSet d.moves slot m }

/-- ROW_PUBLISH: the row with OP PUBLISH. -/
def execRowPublish (c : Cmd) (s : State) : Host.Outcome State Fault Refusal :=
  .next (runRow 0x0402 (withByte c 2 0) (devBody rowPublishBody) s)

/-- ROW_MOVE: ROW_PUBLISH with OP MOVE. -/
def execRowMove (c : Cmd) (s : State) : Host.Outcome State Fault Refusal :=
  .next (runRow 0x0402 (withByte c 2 1) (devBody rowPublishBody) s)

/-- ROW_CONVERT: ROW_PUBLISH with OP CONVERT. -/
def execRowConvert (c : Cmd) (s : State) : Host.Outcome State Fault Refusal :=
  .next (runRow 0x0402 (withByte c 2 2) (devBody rowPublishBody) s)

/-- The end of a fence (R304): the slot is freed once step 3 of the boundary that closes stroke S + STK_TIMEOUT.REQUEST has come. -/
def rowFenceEnd (slot : Nat) (d : Dev) : Dev := match tGet? d.moves slot with
  | some m => match m.swapped with
    | some s => if d.stk.number < s + reqTimeout d then d else { d with moves := tDel d.moves slot }
    | none => d
  | none => d

/-- ROW_FENCE_END. -/
def execRowFenceEnd (slot : Nat) (s : State) : Host.Outcome State Fault Refusal := .next (onDev (rowFenceEnd slot) s)

/-- LDL_TBL_RECLAIM of a table (R306). -/
def reclaimStroke (d : Dev) (t : Nat) : Nat :=
  let c := d.stk.number - reqTimeout d - 1
  match leastBy id (((liveBound d).filter fun b => b.table == t).map (·.stamp)) with
  | some s => min c (s - 1)
  | none => c

/-! ### TABLE_SWITCH -/

/-- The lowest free table that no CREATE has taken. -/
def freeTable (d : Dev) : Option Nat :=
  (List.range 256).find? fun t => (tableOf d t).state == 0
    && !((liveOps d).any fun l => l.2.opcode == 0x405 && l.2.first == t && pNat l.2.q.cmd 0 1 == 0)

/-- The checks of TABLE_SWITCH in their order (R307). -/
def tableSwitchCheck (d : Dev) (q : QCmd) : Option Nat :=
  let c := q.cmd
  let op := pNat c 0 1
  let create := op = 0
  let rows := pNat c 24 4
  let regions := pNat c 48 4
  let descs := pNat c 8 8
  let body := pNat c 32 8
  let x := tableOf d (pNat c 1 1)
  if pNat c 3 1 ≥ 2 ∨ op ≥ 3 then some stBadField
  else if op ≠ 2 ∧ (rows = 0 ∨ regions = 0) then some stOk
  else if Cmd.ctx c ∨ (create ∧ (pNat c 1 2 ≠ 0 ∨ pNat c 4 1 = 0 ∨ pNat c 4 1 > 128)) ∨ (!create ∧ pNat c 4 1 ≠ 0)
    ∨ (op = 2 ∧ (pNat c 3 1 ≠ 0 ∨ !allZero (slice c.params 8 44)))
    ∨ (op ≠ 2 ∧ (!homeDram d descs 4096 ∨ !homeDram d body 4096)) then some stBadField
  else (if create then none else if x.state = 2 ∧ x.gen = pNat c 2 1 ∧ x.crew = c.crew then none
      else tableCheck d c.crew (pNat c 1 1) (pNat c 2 1)).orElse fun _ =>
    if op ≠ 2 ∧ (!rangeOwned d c.crew descs (rows * 8) ∨ !rangeOwned d c.crew body (regions * 2 ^ 21)) then some stNoRights
    else if op ≠ 2 ∧ (!rangeKey d descs (rows * 8) (pNat c 16 5) ∨ !rangeKey d body (regions * 2 ^ 21) (pNat c 40 5)) then
      some stKeyMismatch
    else if (create ∧ (freeTable d).isNone) ∨ (!create ∧ (switchOf d (pNat c 1 1)).isSome) ∨ (freeOp d).isNone then some stBusy
    else none

/-- TABLE_SWITCH accepted (R307). -/
def tableSwitchBody (q : QCmd) (d : Dev) : Dev := match tableSwitchCheck d q with
  | some st => completeSt q st d
  | none =>
    let c := q.cmd
    if pNat c 0 1 = 0 then startOp q { first := (freeTable d).getD 0 } d
    else
      let t := pNat c 1 1
      startOp q { first := t } (if pNat c 0 1 = 1 then setTable t { tableOf d t with state := 2 } d else d)

/-- TABLE_CREATE: TABLE_SWITCH with OP CREATE. -/
def execTableCreate (c : Cmd) (s : State) : Host.Outcome State Fault Refusal :=
  .next (runRow 0x0405 (withByte c 0 0) (devBody tableSwitchBody) s)

/-- TABLE_SWITCH: the row with OP SWITCH. -/
def execTableSwitch (c : Cmd) (s : State) : Host.Outcome State Fault Refusal :=
  .next (runRow 0x0405 (withByte c 0 1) (devBody tableSwitchBody) s)

/-- TABLE_DELETE: TABLE_SWITCH with OP DELETE. -/
def execTableDelete (c : Cmd) (s : State) : Host.Outcome State Fault Refusal :=
  .next (runRow 0x0405 (withByte c 0 2) (devBody tableSwitchBody) s)

/-- Whether a ROW_PUBLISH of a table has not ended (R308 step 1). -/
def publishing (d : Dev) (t : Nat) : Bool := d.moves.any fun m => m.2.table == t && m.2.swapped.isNone

/-- The words of a TABLE_SWITCH's final completion after the handle (R308). -/
def tableWords (w1 t : Nat) (d : Dev) : List Nat := [w1, t + (tableOf d t).gen * 256 + (tableOf d t).version * 65536]

/-- The hot sets and replicas of a table gone (R300, R301). -/
def clearTable (t : Nat) (d : Dev) : Dev :=
  { d with hot := d.hot.filter (·.table != t), hotOn := d.hotOn.filter (·.1 != t), replicas := d.replicas.filter (·.table != t) }

/-- Whether a POOL or HOTSET_LOAD still holds a version of a table before the commit (R308 step 4). -/
def oldBound (d : Dev) (t : Nat) : Bool :=
  let x := tableOf d t
  (liveBound d).any fun b => b.table == t && (b.version != x.version || x.state == 3)

/-- The end of a TABLE_SWITCH whose earlier version is no longer bound: DELETE frees the table and bumps its generation. -/
def tableDrainEnd (i : Nat) (d : Dev) : Dev :=
  let l := opOf d i
  let t := l.first
  if l.state = 5 ∨ l.opcode ≠ 0x405 ∨ !l.committed ∨ oldBound d t then d
  else
    let x := tableOf d t
    if pNat l.q.cmd 0 1 = 2 then
      let g := nextGen8 x.gen
      let w := tableWords 0 t d
      endOp i stOk w (logCmd l.q x.crew 9 (t + g * 256) x.gen g (setTable t { gen := g } d))
    else endOp i stOk (tableWords 0 t d) (setTable t { x with state := 1 } d)

/-- TABLE_DRAIN_END. -/
def execTableDrainEnd (op : Nat) (s : State) : Host.Outcome State Fault Refusal := .next (onDev (tableDrainEnd op) s)

/-- The first slice of a TABLE_SWITCH: it is DELETE's commit point, once no ROW_PUBLISH of the table is open. -/
def tableFirst (i : Nat) (d : Dev) : Dev :=
  let l := opOf d i
  if pNat l.q.cmd 0 1 ≠ 2 ∨ l.committed ∨ publishing d l.first then d
  else clearTable l.first (setTable l.first { tableOf d l.first with state := 3 }
    (modOp i (fun l => { l with committed := true, state := 4 }) d))

/-- The first row of a new array whose descriptor R292 rejects. -/
def badRow (d : Dev) (descs rows elems regions : Nat) : Option Nat :=
  (List.range rows).find? fun n =>
    let r := parseRow (memRead d.mem (descs + 8 * n) 8)
    r.rsv != 0 || !bodyFits elems regions r

/-- What a TABLE_SWITCH that ends before its commit point undoes: the table is as it was. -/
def tableUndo (i : Nat) (d : Dev) : Dev :=
  let l := opOf d i
  if l.committed ∨ pNat l.q.cmd 0 1 ≠ 1 then d else setTable l.first { tableOf d l.first with state := 1 } d

/-- The last slice of a TABLE_SWITCH (R308): validation, the commit, and the wait for the earlier version. -/
def tableFinish (i : Nat) (d : Dev) : Dev :=
  let l := opOf d i
  let c := l.q.cmd
  let t := l.first
  let op := pNat c 0 1
  let x := tableOf d t
  let dim := if op = 0 then pNat c 4 1 else x.dim
  let descs := pNat c 8 8
  let rows := pNat c 24 4
  let regions := pNat c 48 4
  if op = 2 then tableDrainEnd i (tableFirst i d)
  else if l.committed then tableDrainEnd i d
  else if publishing d t then d
  else
    let (clear, d) := if bitAt (pNat c 3 1) 0 then recallRange false descs (rows * 8) d else (true, d)
    if !clear then d
    else if bitAt (pNat c 3 1) 0 ∧ poisonIn d descs (rows * 8) then endOp i stPoisoned (tableWords 0 t d) (tableUndo i d)
    else match (if bitAt (pNat c 3 1) 0 then badRow d descs rows (dim * 32) regions else none) with
      | some n => endOp i stBadField (tableWords n t d) (tableUndo i d)
      | none =>
        let g := if op = 0 then nextGen8 x.gen else x.gen
        let new : EmbTable := { gen := g, state := if op = 0 then 1 else 2, crew := c.crew,
                                version := if op = 0 then 1 else nextGen8 x.version, dim, rows, descs, body := pNat c 32 8,
                                bodyRegions := regions }
        let d := logCmd l.q c.crew 9 (t + g * 256) (x.gen * 256 + x.version) (g * 256 + new.version) (clearTable t (setTable t new d))
        tableDrainEnd i (modOp i (fun l => { l with committed := true, state := 4 }) d)

end Sys2Proof.Machine
end

