-- ==== Sys2Proof/Machine/LongCmds.lean ====
section
/-! DEFINITION. Machine/LongCmds.lean: LONGOP_QUERY, SUSPEND, RESUME and CANCEL, and what an operation that ends early undoes (R59
to R64, Table 2-4). -/

namespace Sys2Proof.Machine

/-- What an operation that ends before its commit point undoes, by the opcode that started it (R61). -/
def undoOp (i : Nat) (d : Dev) : Dev :=
  let l := opOf d i
  if l.committed ∨ l.state = 5 then d
  else match l.opcode with
    | 0x201 => placeUndo i d
    | 0x202 => freeReserved l.dest l.count d
    | 0x305 => factorUndo i d
    | 0x405 => tableUndo i d
    | 0x504 => mergeUndo i d
    | _ => d

/-- The result words of Table 2-6. -/
def opWords (l : LongOp) : List Nat :=
  [l.state * 2 ^ 28 + l.crew * 65536 + min 65535 l.progress, (if l.state = 5 then l.final else 0) * 65536 + l.opcode]

/-- The checks of Table 2-5 and R63. -/
def opCheck (d : Dev) (q : QCmd) : Option Nat :=
  let h := pNat q.cmd 0 4
  let l := opOf d (h % 4096)
  if bitsOf h 23 12 ≠ 0 then some stBadField
  else if l.gen = 0 ∨ l.gen ≠ h / 2 ^ 24 then some stStale
  else if l.crew ≠ q.cmd.crew ∧ !fromManagement d q then some stNoRights
  else none

/-- LONGOP_QUERY (R64). -/
def longopQueryBody (q : QCmd) (d : Dev) : Dev := match opCheck d q with
  | some st => completeSt q st d
  | none => complete q stOk (opWords (opOf d (pNat q.cmd 0 4 % 4096))) [] d

/-- LONGOP_QUERY. -/
def execLongopQuery (c : Cmd) (s : State) : Host.Outcome State Fault Refusal := .next (runRow 0x0601 c (devBody longopQueryBody) s)

/-- What SUSPEND, RESUME and CANCEL do to an operation (Table 2-4): the table lists no SUSPEND of a queued one. -/
def controlOp (op i : Nat) (d : Dev) : Dev :=
  let l := opOf d i
  if op = 0x602 then (if l.state = 2 ∨ l.state = 4 then modOp i (fun l => { l with state := 3 }) d else d)
  else if op = 0x603 then
    (if l.state = 3 then modOp i (fun l => { l with state := if l.committed then 4 else 2 }) d else d)
  else if l.state = 5 ∨ l.committed then d
  else endOp i stCancelled [] (undoOp i d)

/-- SUSPEND, RESUME or CANCEL acts, in step 7 of the boundary, and completes with the state after it (R64). -/
def controlAct (q : QCmd) (d : Dev) : Dev :=
  match (lengthCheck q.opcode q.cmd).orElse fun _ => opCheck d q with
  | some st => completeSt q st d
  | none =>
    let i := pNat q.cmd 0 4 % 4096
    let d := controlOp q.opcode i d
    complete q stOk (opWords (opOf d i)) [] d

/-- Whether an opcode is one that acts in step 7. -/
def isControl (op : Nat) : Bool := op == 0x602 || op == 0x603 || op == 0x604

/-- A held command taken from its queue. -/
def takeHeld (q : QCmd) (d : Dev) : Dev :=
  { d with queues := tMap d.queues fun _ r => { r with held := r.held.filter fun x => x.id != q.id },
           sessions := tMap d.sessions fun _ r => { r with held := r.held.filter fun x => x.id != q.id } }

/-- The commands held in queues and sessions, in order of arrival. -/
def heldCmds (d : Dev) : List QCmd :=
  sortBy (fun q : QCmd => q.id) ((d.queues.flatMap fun r => r.2.held) ++ d.sessions.flatMap fun r => r.2.held)

/-- Step 7 of the boundary (Table 2-2): the SUSPEND, RESUME and CANCEL commands of the stroke act in arrival order. One whose
completion ring has no room waits (R217). -/
def controlStep (d : Dev) : Dev :=
  ((heldCmds d).filter fun q => isControl q.opcode && q.admitted).foldl (fun d q =>
    if cqRoom d q then
      let (q, d) := reserveCq q (takeHeld q d)
      controlAct q d
    else d) d

/-- SUSPEND, RESUME and CANCEL on arrival: they wait for step 7. -/
def controlBody (q : QCmd) (d : Dev) : Dev := enqueue { q with reserved := 0 } (unreserve q d)

/-- SUSPEND. -/
def execSuspend (c : Cmd) (s : State) : Host.Outcome State Fault Refusal := .next (runRow 0x0602 c (devBody controlBody) s)
/-- RESUME. -/
def execResume (c : Cmd) (s : State) : Host.Outcome State Fault Refusal := .next (runRow 0x0603 c (devBody controlBody) s)
/-- CANCEL. -/
def execCancel (c : Cmd) (s : State) : Host.Outcome State Fault Refusal := .next (runRow 0x0604 c (devBody controlBody) s)

end Sys2Proof.Machine
end

