-- ==== Sys2Proof/Machine/Crews.lean ====
section
/-! DEFINITION. Machine/Crews.lean: creating, resetting and deleting a crew (Chapter 1). -/

namespace Sys2Proof.Machine

/-! ### CREW_CREATE -/

/-- The weight on port p that CREW_CREATE parameters give (Table 1-7); port 16 is the Ethernet port. -/
def paramWeight (l : List Byte) (p : Nat) : Nat := if p = 16 then fieldLe l 19 1 else fieldLe l (20 + p) 1

/-- A crew's weight on a port; port 16 is the Ethernet port. -/
def Crew.weight (c : Crew) (p : Nat) : Nat := if p = 16 then c.ethWeight else c.portWeights.getD p 0

/-- The crews that exist. -/
def liveCrews (d : Dev) : List (Nat × Crew) := d.crews.filter fun c => c.2.state != 0

/-- Whether a namespace may hold a sealed crew's regions (R168). -/
def nsForSealed (d : Dev) (crew i : Nat) (n : Ns) : Bool :=
  bitAt (nsConf d i) 61 && bitsOf (nsConf d i) 55 48 == crew
    && d.namespaces.all fun m => m.2.link != n.link || !m.2.en || !nsOther d m.1 crew

/-- Regions of the namespaces in use that meet a test (R31). -/
def nsCapacity (d : Dev) (f : Nat → Ns → Bool) : Nat :=
  d.namespaces.foldl (fun a n => if n.2.en && f n.1 n.2 then a + n.2.total else a) 0

/-- The checks of R33 on CREW_CREATE parameters, in order. -/
def crewCheck (d : Dev) (crew : Nat) (l : List Byte) : Option Nat :=
  let cores := fieldLe l 0 16
  let isSealed := bitAt (fieldLe l 18 1) 0
  let first := fieldLe l 36 2
  let count := fieldLe l 38 2
  let dram := fieldLe l 40 4
  let dense := fieldLe l 44 4
  let live := liveCrews d
  let sum (f : Crew → Nat) : Nat := live.foldl (fun a c => a + f c.2) 0
  if crewLives d crew ∨ 16 ≤ tGet d.log.created crew then some stBusy
  else if count = 0 then some stOk
  else if cores = 0 ∨ fieldLe l 16 2 = 0 then some stBadField
  else if first + count > 32768 ∨ live.any (fun c => runsMeet c.2.qFirst c.2.qCount first count) then some stBadField
  else if (List.range 17).any fun p => decide (256 < sum (·.weight p) + paramWeight l p) then some stBadField
  else if live.any fun c => (isSealed || c.2.sealedCrew) && (c.2.cores &&& cores) != 0 then some stBadField
  else if regRaw d 0x18 < sum (·.dramQuota) + dram then some stBadField
  else if nsCapacity d (fun _ _ => true) < sum (·.denseQuota) + dense then some stBadField
  else if isSealed ∧ nsCapacity d (nsForSealed d crew) < dense then some stBadField
  else none

/-- The crew area of a core scrubbed, with the flags of every window on it (R240, R354). -/
def scrubCrewArea (core : Nat) (d : Dev) : Dev :=
  { d with scratch := memClear d.scratch (scratchAddr core 0) 0x1C0000, flagged := d.flagged.filter (fun x => x / 32 % 128 != core),
           spadBad := d.spadBad.filter fun x => x / 32 % 128 != core }

/-- Offsets of a crew's counters, which return to zero when the crew is created (Chapters 2, 7, 8, 10, 11). -/
def crewCounters (n : Nat) : List Nat :=
  (List.range 4).map (fun i => 0x31000 + 0x40 * n + [0x08, 0x18, 0x20, 0x28].getD i 0)
    ++ [0x91000 + 8 * n, 0xB1008 + 0x20 * n, 0xB1010 + 0x20 * n, 0xD8000 + 0x10 * n, 0xD8008 + 0x10 * n, 0xE8000 + 0x10 * n,
        0xE8008 + 0x10 * n]

/-- A register set at once to a value, in force too. -/
def forceReg (off v : Nat) (d : Dev) : Dev :=
  { setReg off v d with inForce := tSet d.inForce off (BitVec.ofNat 64 v) }

/-- A field of a register cleared at once, in force too. -/
def clearField (off hi lo : Nat) (d : Dev) : Dev :=
  let v := putBits (regRaw d off) hi lo 0
  let w := putBits (regInForce d off) hi lo 0
  { setReg off v d with inForce := tSet d.inForce off (BitVec.ofNat 64 w) }

/-- A crew created from parameters that pass the checks (R33, R101): its generation is bumped, its control key word is drawn, its
counters start again, and a core that now serves a second crew is scrubbed. Answers the generation and the key word. -/
def makeCrew (crew : Nat) (l : List Byte) (s : State) : Nat × Nat × State :=
  let s := countCrew crew s
  let (v, s) := drawKey s
  let gen := genOfCount (tGet s.nv.crewCount crew)
  let key := newKeyWord v
  let c : Crew := {
    state := 1, gen, sealedCrew := bitAt (fieldLe l 18 1) 0, cores := fieldLe l 0 16, stackMask := fieldLe l 16 2,
    ethWeight := fieldLe l 19 1, portWeights := (List.range 16).map (paramWeight l), qFirst := fieldLe l 36 2,
    qCount := fieldLe l 38 2, dramQuota := fieldLe l 40 4, denseQuota := fieldLe l 44 4, ctlKey := key, params := slice l 0 48 }
  let d := s.dev
  let second := (List.range 128).filter fun k => bitAt c.cores k && ((liveCrews d).filter fun x => x.2.hasCore k).length == 1
  let d : Dev := second.foldl (fun d k => scrubCrewArea k d) d
  let d : Dev := (crewCounters crew).foldl (fun (d : Dev) o => { d with regs := tDel d.regs o, latched := tDel d.latched o }) d
  let d := clearField (0x71000 + 0x20 * crew) 31 0 d
  let d : Dev := { d with
    crews := tSet d.crews crew c
    flt := { d.flt with crews := tDel d.flt.crews crew }
    log := { d.log with created := tSet d.log.created crew (tGet d.log.created crew + 1) } }
  let d : Dev := if d.cfg.role ≠ 0 ∧ pairServes d = true then
      sendCrewKey crew (tGet s.nv.epochs crew) { d with pair := { d.pair with
        keys := tSet d.pair.keys crew (Config.memoryKey d.cfg.hall (ownModule d) crew (tGet s.nv.epochs crew)) } }
    else d
  (gen, key, { s with dev := d })

/-- Whether CREW_CREATE parameters have a reserved bit set (Table 1-7). -/
def crewReserved (l : List Byte) : Bool := decide (2 ≤ fieldLe l 18 1) || bitAt (fieldLe l 36 2) 15

/-- CREW_CREATE (R33, R444). -/
def crewCreateBody (q : QCmd) (s : State) : State :=
  let n := q.cmd.crew
  match (if crewReserved q.cmd.params then some stBadField else if s.dev.power.mode = 1 then some stBusy
    else crewCheck s.dev n q.cmd.params) with
  | some st => { s with dev := completeSt q st s.dev }
  | none =>
    let old := (crewOf s.dev n).gen
    let (gen, key, s) := makeCrew n q.cmd.params s
    { s with dev := complete q stOk [gen, key % 2 ^ 32, key / 2 ^ 32] [] (logCmd q n 4 (n + gen * 256) old gen s.dev) }

/-- CREW_CREATE. -/
def execCrewCreate (c : Cmd) (s : State) : Host.Outcome State Fault Refusal := .next (runRow 0x0006 c crewCreateBody s)

/-! ### The drain of a crew -/

/-- A job of a crew's command ended with CREW_RESET (R35 step 2): what it has performed stays performed. -/
def resetJob (jid : Nat) (j : Job) (d : Dev) : Dev := match j.owner, j.goal with
  | .command q, .retry => completeSt q stCrewReset (dropJob jid d)
  | _, _ => abortJob jid stCrewReset d

/-- Whether a command is one of a crew. -/
def QCmd.ofCrew (n : Nat) (q : QCmd) : Bool := q.cmd.crew == n && !crewOp q.opcode

/-- The jobs of a crew's commands, and those parked on its contexts' faults (R103). -/
def crewJobs (d : Dev) (n : Nat) : List (Nat × Job) :=
  d.jobs.filter fun j => (match j.2.owner with
    | .command q => q.ofCrew n
    | _ => false) || (match j.2.slot with
    | some s => (ctxOf d (slotOf d s).context).crew == n
    | none => false)

/-- Every command of a list completes with CREW_RESET. -/
def resetAll (qs : List QCmd) (d : Dev) : Dev := qs.foldl (fun d q => completeSt q stCrewReset d) d

/-- A long operation of a crew ended by its reset (Table 2-4); one past its commit point has already taken effect, and what it
waited for has ended. -/
def resetOp (i : Nat) (d : Dev) : Dev :=
  let l := opOf d i
  let d := endOp i stCrewReset [] (undoOp i d)
  if !l.committed then d
  else match l.opcode with
    | 0x405 =>
      let x := tableOf d l.first
      setTable l.first (if x.state = 3 then { gen := nextGen8 x.gen } else { x with state := 1 }) d
    | 0x504 => indexFree l.first d
    | _ => d

/-- Whether a waiting piece of work is a crew's: an item's commands. -/
def Item.cmds (x : Item) : List QCmd := match x.kind with
  | .command q => [q]
  | .batch _ l => l

/-- The crew's work in flight ended (R35 step 2): commands, items, armed COMBINEs, searches, row moves, reports, parked accesses and
faults, and long operations. A revocation that is under way goes on as the device's own. -/
def drainCrew (n : Nat) (d : Dev) : Dev :=
  let d := (crewJobs d n).foldl (fun d j => resetJob j.1 j.2 d) d
  let mine (q : QCmd) : Bool := q.ofCrew n
  let items := d.items.filter fun x => x.2.crew == n
  let d := resetAll (items.flatMap fun x => x.2.cmds) { d with items := d.items.filter fun x => x.2.crew != n }
  let armed := d.armed.filter fun x => mine x.2.q
  let d := resetAll (armed.map (·.2.q)) { d with armed := d.armed.filter fun x => !mine x.2.q }
  let ss := d.searches.filter fun x => mine x.2.q
  let d := resetAll (ss.map (·.2.q)) { d with searches := d.searches.filter fun x => !mine x.2.q }
  let ms := d.moves.filter fun m => m.2.crew == n && m.2.swapped.isNone
  let d := resetAll (ms.map (·.2.q)) { d with moves := d.moves.filter fun m => !(m.2.crew == n && m.2.swapped.isNone) }
  let rs := d.attest.filter fun r => mine r.q
  let d := resetAll (rs.map (·.q)) { d with attest := d.attest.filter fun r => !mine r.q }
  let ts := d.retry.filter fun r => mine r.1
  let d := resetAll (ts.map (·.1)) { d with retry := d.retry.filter fun r => !mine r.1 }
  let vs := d.revokes.filterMap fun r => r.2.q.filter mine
  let d := resetAll vs { d with revokes := tMap d.revokes fun _ r => { r with q := r.q.filter fun q => !mine q } }
  let ws := d.wins.filterMap fun w => w.2.deleteBy.filter mine
  let d := resetAll ws { d with wins := tMap d.wins fun _ w => { w with deleteBy := w.deleteBy.filter fun q => !mine q } }
  let d := ((liveOps d).filter fun l => l.2.crew == n).foldl (fun d l => resetOp l.1 d) d
  (List.range 1024).foldl (fun d s => if (slotOf d s).used && (ctxOf d (slotOf d s).context).crew == n then freeFault s d else d) d

/-- The queues of a crew that exist. -/
def crewQueues (d : Dev) (n : Nat) : List Nat := (d.queues.filter fun r => r.2.present && (crewOf d n).hasQueue r.1).map (·.1)

/-- The generations of a crew's queues bumped and the commands queued in them ended (R35 step 1). -/
def cancelQueues (n : Nat) (d : Dev) : Dev :=
  (crewQueues d n).foldl (fun d q =>
    let r := queueOf d q
    let g := nextGen8 r.gen
    cancelHeld q stCrewReset (logDev n 3 (q + g * 65536) r.gen g (setQueue q { r with gen := g } d))) d

/-- The checks of CREW_RESET and CREW_DELETE (R465). -/
def crewEndCheck (d : Dev) (q : QCmd) : Option Nat :=
  let n := q.cmd.crew
  let c := crewOf d n
  if q.cmd.qgen ≠ 0 ∧ c.hasQueue (q.cmd.queue % 2 ^ 15) then some stBadField
  else if !crewLives d n ∨ c.gen ≠ pNat q.cmd 0 1 then some stStale
  else if c.state ≠ 1 then some stBusy
  else if q.opcode = 8 ∧ ((d.regions.any fun r => r.2.crew == n) || (d.tables.any fun t => t.2.state != 0 && t.2.crew == n)
      || (d.indexes.any fun x => x.2.state != 0 && x.2.crew == n) || (d.pair.mirrored.any fun r => r.2.crew == n)) then some stBusy
  else none

/-- CREW_RESET and CREW_DELETE up to their drain (R35 steps 1 and 2, R38). -/
def crewEndBody (state : Nat) (q : QCmd) (d : Dev) : Dev := match crewEndCheck d q with
  | some st => completeSt q st d
  | none =>
    let n := q.cmd.crew
    let d := modCrew n (fun c => { c with state, resetBy := some q }) (cancelQueues n d)
    let d := drainCrew n d
    (crewQueues d n).foldl (fun d i => queueDeleteEnd i d) d

/-- CREW_RESET. -/
def execCrewReset (c : Cmd) (s : State) : Host.Outcome State Fault Refusal := .next (runRow 0x0007 c (devBody (crewEndBody 2)) s)

/-- CREW_DELETE. -/
def execCrewDelete (c : Cmd) (s : State) : Host.Outcome State Fault Refusal := .next (runRow 0x0008 c (devBody (crewEndBody 3)) s)

/-! ### The end of the drain -/

/-- What a reset scrubs (R35 step 4): the scratchpads of the cores that are the crew's alone, its window on a shared core, and its
home-cache lines. -/
def scrubCrew (n : Nat) (d : Dev) : Dev :=
  let cores := (List.range 128).filter (crewOf d n).hasCore
  let d := cores.foldl (fun d k =>
    if coreShared d n k then
      let w := windowOf d n k
      { d with scratch := memClear d.scratch (scratchAddr k w.1) w.2 }
    else { d with scratch := memClear d.scratch (scratchAddr k 0) (2 ^ 21) }) d
  { d with flagged := d.flagged.filter (fun x => x / 4096 != n), spadBad := d.spadBad.filter (fun x => x / 4096 != n),
           cspace := memClear (memClear d.cspace (cspaceAddr 0 n 0) (2 ^ 27)) (cspaceAddr 1 n 0) (2 ^ 27) }

/-- A crew's records gone (R38, R85, R101, R137, R240, R350, R351, R205): its contexts, key slots, windows, cache share and queues, its
sessions, and its entry of the ledger closes. -/
def dropCrew (n : Nat) (s : State) : State :=
  let d := s.dev
  let done := d.sealedDone.filter fun x => x.1.cmd.crew == n
  let d := done.foldl (fun d x => release x.1 x.2.1 x.2.2.1 x.2.2.2 d) { d with sealedDone := d.sealedDone.filter fun x => x.1.cmd.crew != n }
  let cs := (d.contexts.filter fun c => c.2.en && c.2.crew == n).map (·.1)
  let d := cs.foldl (fun d c => dropCache c none (setCtx c { gen := (ctxOf d c).gen } d)) d
  let ks := (d.keySlots.filter fun k => k.2.use != 0 && k.2.crew == n).map (·.1)
  let d := ks.foldl (fun d k => freeKeySlot k d) d
  let d := closeEntry n d
  let c := crewOf d n
  let qs := (d.queues.filter fun r => c.hasQueue r.1 && (r.2.present || r.2.gen != 0)).map (·.1)
  let d := qs.foldl (fun d q => setQueue q { gen := (queueOf d q).gen, deletedAt := some d.stk.number } d) d
  let d := { d with windows := d.windows.filter fun w => w.1 / 128 != n, spadSet := tDel d.spadSet n,
                    pages := d.pages.filter fun p => p.2.crew != n }
  let d := clearField (0x71000 + 0x20 * n) 31 0 (clearField (0x101000 + 0x20 * n) 15 15 d)
  let d := { d with crews := tSet d.crews n { gen := c.gen } }
  let d := ((openSessions d).filter fun x => !x.2.management && x.2.crew == n).foldl (fun d x => closeSession x.1 d) d
  raiseEpoch n { s with dev := d }

/-- CREW_RESET_DRAIN_END (R35 steps 3 and 4, R38): the scrub ends and the command completes; a deletion then frees the crew. -/
def crewDrainEnd (n : Nat) (s : State) : State :=
  let c := crewOf s.dev n
  if c.state < 2 then s
  else
    let s := { s with dev := scrubCrew n s.dev }
    let s := if c.state = 3 then dropCrew n s
      else { s with dev := modCrew n (fun c => { c with state := 1, resetBy := none }) s.dev }
    match c.resetBy with
    | none => s
    | some q =>
      let d := if c.state = 3 then logCmd q n 4 (n + c.gen * 256) 1 0 s.dev else logCmd q n 4 (n + c.gen * 256) 2 1 s.dev
      { s with dev := completeSt q stOk d }

/-- CREW_RESET_DRAIN_END. -/
def execCrewResetDrainEnd (crew : Nat) (s : State) : Host.Outcome State Fault Refusal := .next (settle (crewDrainEnd crew s))

end Sys2Proof.Machine
end

