-- ==== Sys2Proof/Machine/Power.lean ====
section
/-! DEFINITION. Machine/Power.lean: start-up by its phases, the reset domains, standby and throttling (Chapter 16). -/

namespace Sys2Proof.Machine

/-! ### What a reset keeps -/

/-- Whether a region lies in the sealed tier. -/
def sealedRegion (r : Nat) : Bool := addrSpace (r * 2 ^ 21) == 1

/-- Whether a number of a line lies in the sealed tier. -/
def sealedLine (l : Nat) : Bool := addrSpace (l * 128) == 1

/-- The regions that a reset keeps (Table 16-4, R134): every registered one in a module reset, those of the sealed tier in a power
cycle. A reservation ends with its long operation; a catalogue entry is read again from its namespace. -/
def keptRegions (warm : Bool) (d : Dev) : Tbl Region :=
  (d.regions.filter fun r => (warm || sealedRegion r.1) && r.2.state != .reserved).map fun r =>
    if sealedRegion r.1 then (r.1, { r.2 with lost := false }) else r

/-- The change log after a reset: the secure ring and the numbering stay, the DRAM ring only with power (R359, R360). -/
def keptLog (warm : Bool) (l : Log) : Log :=
  { next := l.next, secure := l.secure, batches := l.batches, batchNext := l.batchNext,
    recs := if warm then l.recs else [], batchFrom := if warm then l.batchFrom else l.next }

/-- The device after a module reset (warm), or without power: every processor and SRAM starts again (Table 16-4). The secure flash,
the sealed tier, the pins and the side band stay, and in a module reset stacked DRAM with its tables. -/
def keptDev (warm : Bool) (d : Dev) : Dev :=
  { draws := d.draws
    nextId := d.nextId
    nextTag := d.nextTag
    pins := { d.pins with ethUp := false, pwrGood := warm && d.pins.pwrGood }
    power := { on := warm, phase := if warm then 1 else 0, vin := d.power.vin, iin := d.power.iin, pin := d.power.pin,
               d0 := if warm then d.power.d0 else 0, d1 := if warm then d.power.d1 else 0 }
    banks := { d.banks with onTrial := false, fallback := false, measures := [] }
    mem := d.mem.filter fun c => warm || addrSpace c.1 == 1
    poison := d.poison.filter fun l => warm || sealedLine l
    regions := keptRegions warm d
    scrubbing := d.scrubbing.filter fun r => warm || sealedRegion r
    namespaces := tMap d.namespaces fun _ n => { n with available := false }
    extents := d.extents
    appended := d.appended
    crews := tMap d.crews fun _ c => { gen := c.gen }
    flt := { saved := d.flt.saved }
    log := keptLog warm d.log
    side := d.side
    fabTx := d.fabTx
    ethTx := d.ethTx
    flitTx := d.flitTx }

/-- The explicit notice with SOURCE POWER that a pair member sends before it resets or powers down (R433, R440). -/
def powerNotice (d : Dev) : Dev :=
  if d.cfg.role = 0 ∨ d.pair.state = 0 then d
  else sendPair 0x92 (toLe 8 d.stk.number ++ toLe 1 0x0E ++ zeros 7) d

/-- The change-log record of a reset (R440). -/
def logReset (origin : Nat × Nat) (d : Dev) : Dev :=
  logChange origin.1 origin.2 deviceWide 1 0x140010 false (val8 0) (val8 1) d

/-! ### Power and reset events -/

/-- POWER_EN rises (R433, R449): ignored without AUX_3V3; start-up begins at phase 0 where the input lies in its range. -/
def powerRise (d : Dev) : Dev :=
  if !d.pins.aux ∨ d.pins.powerEn then d
  else
    let d := { d with pins := { d.pins with powerEn := true } }
    if !d.pins.inputOk then d
    else logReset (3, 1) { d with power := { d.power with on := true, phase := 0, phaseHeld := d.side.busy } }

/-- POWER_EN_RISE. -/
def execPowerEnRise (s : State) : Host.Outcome State Fault Refusal := .next (onDev powerRise s)

/-- The package unpowered (R433): only the secure flash and the sealed tier stay. -/
def powerDown (s : State) : State := { s with dev := keptDev false s.dev, snap := {} }

/-- POWER_EN falls (R433, R451): it overrides every other pin and every phase. -/
def powerFall (s : State) : State :=
  let d := { s.dev with pins := { s.dev.pins with powerEn := false } }
  if !d.power.on then { s with dev := d } else powerDown { s with dev := powerNotice d }

/-- POWER_EN_FALL. -/
def execPowerEnFall (s : State) : Host.Outcome State Fault Refusal := .next (powerFall s)

/-- The input outside 40 V to 50 V for 1 ms (R433, Table 13-2): an FT with SOURCE POWER, and the package is unpowered. -/
def inputFails (vin : Nat) (s : State) : State :=
  let d := { s.dev with power := { s.dev.power with vin }, pins := { s.dev.pins with inputOk := false } }
  if !d.power.on then { s with dev := d } else powerDown { s with dev := enterFatal 0x0E d }

/-- INPUT_OUT_OF_RANGE. -/
def execInputOutOfRange (vin : Nat) (s : State) : Host.Outcome State Fault Refusal := .next (inputFails vin s)

/-- REFCLK_LOSS (R452): a conversion fault while the device starts or serves. -/
def execRefclkLoss (s : State) : Host.Outcome State Fault Refusal :=
  .next (onDev (fun d => if d.power.on then conversionFault d else d) s)

/-- A module reset (R440): it restarts the sequence at phase 1. In the fatal state it is ignored and logged (R380). -/
def moduleReset (origin : Nat × Nat) (s : State) : State :=
  if !s.dev.power.on ∨ !s.dev.pins.pwrGood then s
  else
    let d := logReset origin s.dev
    if s.dev.flt.fatal then { s with dev := d } else { s with dev := keptDev true (powerNotice d), snap := {} }

/-- WARM_RESET_N low for at least 10 µs (Table 16-4, R451): its source falls (Table 15-3), and the module resets. -/
def warmReset (s : State) : State :=
  if !s.dev.pins.powerEn then s
  else moduleReset (3, 2) { s with dev := setWire 833 true (setWire 833 false s.dev) }

/-- WARM_RESET. -/
def execWarmReset (s : State) : Host.Outcome State Fault Refusal := .next (warmReset s)

/-- A write of PWR_RESET.MODULE by a management session (R440, R446). -/
def resetByWrite (who : Writer) (s : State) : State :=
  if isManager s.dev who then moduleReset (writerOrigin who) s else s

/-- PWR_RESET_MODULE. -/
def execPwrResetModule (who : Writer) (s : State) : Host.Outcome State Fault Refusal := .next (resetByWrite who s)

/-! ### A die's cluster domain -/

/-- Whether some crew's core set holds a core of a die (R442). -/
def dieInUse (d : Dev) (die : Nat) : Bool :=
  (liveCrews d).any fun c => (List.range 64).any fun k => bitAt c.2.cores (64 * die + k)

/-- The cluster domain of a die reset (R442, Table 16-4): scratchpads and the units of its eight clusters. -/
def dieReset (die : Nat) (d : Dev) : Dev :=
  let mine (core : Nat) : Bool := core / 64 == die
  { d with
    scratch := memClear d.scratch (scratchAddr (64 * die) 0) (64 * 2 ^ 21)
    flagged := d.flagged.filter fun x => !mine (x / 32 % 128)
    spadBad := d.spadBad.filter fun x => !mine (x / 32 % 128)
    hot := d.hot.filter fun h => h.cluster / 8 != die
    hotOn := d.hotOn.filter fun h => h.2 / 8 != die
    power := { d.power with dieResetting := addTo d.power.dieResetting die } }

/-- A write of PWR_RESET.DIE0 or DIE1 (R442, R446): its status and the device after it. -/
def dieResetWrite (who : Writer) (die : Nat) (d : Dev) : Nat × Dev :=
  if !isManager d who ∨ 2 ≤ die ∨ dieInUse d die then (stOkPartial, d)
  else
    let o := writerOrigin who
    (stOk, logChange o.1 o.2 deviceWide 1 0x140010 false (val8 0) (val8 (2 ^ (die + 1))) (dieReset die d))

/-- PWR_RESET_DIE. -/
def execPwrResetDie (who : Writer) (die : Nat) (s : State) : Host.Outcome State Fault Refusal :=
  .next (onDev (fun d => (dieResetWrite who die d).2) s)

/-- The 64 bits of a 128-bit core mask that belong to a die, set from another mask. -/
def dieMask (die old new : Nat) : Nat := putBits old (64 * die + 63) (64 * die) (bitsOf new (64 * die + 63) (64 * die))

/-- The cores that pass their known-answer tests (ENG_CORES, Table 8-15). -/
def setPassed (m : Nat) (d : Dev) : Dev :=
  forceReg 0xB0008 (bitsOf m 63 0) (forceReg 0xB0010 (bitsOf m 127 64) { d with cfg := { d.cfg with passed := m % 2 ^ 128 } })

/-- A cluster reset and its known-answer tests end (R442): a retired core that passes returns to service. -/
def clusterResetEnd (die passed : Nat) (d : Dev) : Dev :=
  if !d.power.dieResetting.contains die then d
  else
    let d := { d with power := { d.power with dieResetting := d.power.dieResetting.filter (· != die) } }
    let d := setPassed (dieMask die d.cfg.passed passed) d
    { d with flt := { d.flt with retired := dieMask die d.flt.retired (d.flt.retired - (d.flt.retired &&& passed)) } }

/-- CLUSTER_RESET_END. -/
def execClusterResetEnd (die passed : Nat) (s : State) : Host.Outcome State Fault Refusal :=
  .next (onDev (clusterResetEnd die passed) s)

/-! ### Phases 0 to 2 -/

/-- Whether the device is in a start-up phase and goes on with it. -/
def inPhase (d : Dev) (n : Nat) : Bool := d.power.on && d.power.phase == n && !d.flt.fatal

/-- The phase in progress set. -/
def toPhase (n : Nat) (d : Dev) : Dev := { d with power := { d.power with phase := n } }

/-- Phase 0 ends (Table 16-1): the rails are up and PWR_GOOD is asserted; a rail fault leaves it released. Phase 1 waits for a
provisioning command in progress (R459). -/
def bootRails (ok : Bool) (d : Dev) : Dev :=
  if !inPhase d 0 ∨ d.pins.pwrGood ∨ !ok then d
  else
    let d := { d with pins := { d.pins with pwrGood := true } }
    if d.side.busy then { d with power := { d.power with phaseHeld := true } } else toPhase 1 d

/-- BOOT_RAILS. -/
def execBootRails (ok : Bool) (s : State) : Host.Outcome State Fault Refusal := .next (onDev (bootRails ok) s)

/-- Whether an image of a bank stands as Table 12-1 and R335 ask, its signatures apart, which the event judges; OPERATOR_SERVICE
may be absent (R336). -/
def imageStands (s : State) (b t : Nat) : Bool := match tGet? (bankImages s.dev b) t with
  | some x => headerOk x.header x.body.length && fieldLe x.header 8 1 == t && decide (tGet s.nv.rollback t ≤ x.svn)
      && (t != 6 || configOk x.body)
  | none => t == 5

/-- The verdict on a bank. -/
def verdictOn (v : BankVerdict) (b : Nat) : Bool := if b = 0 then v.aOk else v.bOk

/-- Whether the images 2 to 6 of a bank pass (R336 step 2). -/
def bankStands (s : State) (b : Nat) : Bool := (List.range 5).all fun t => imageStands s b (t + 2)

/-- The bank that start-up tries first: one marked for a trial, else the active one (R342). -/
def firstBank (d : Dev) : Nat := d.banks.trial.getD d.banks.active

/-- Neither bank passes (R336, Table 13-2). -/
def noBank (s : State) : State := { s with dev := enterFatal 0x0F s.dev }

/-- A bank chosen (SEC_STATE): a trial where trial says so, a fallback where the active bank was refused. The mark of a trial is
spent, so that a trial that fails leaves the next start-up to the previous bank (R342). -/
def chooseBank (b : Nat) (trial : Bool) (d : Dev) : Dev :=
  { d with banks := { d.banks with booted := b, onTrial := trial, fallback := !trial && d.banks.active != b, trial := none } }

/-- The registers that read the anti-rollback counters (SEC_SVN0 and SEC_SVN1). -/
def svnRegs (nv : Nv) (d : Dev) : Dev :=
  let w (l : List Nat) : Nat := l.foldr (fun t a => tGet nv.rollback t % 2 ^ 16 + 2 ^ 16 * a) 0
  setReg 0x120010 (w [5, 6]) (setReg 0x120008 (w [1, 2, 3, 4]) d)

/-- Phase 1 ends (R336 step 1, R337): the identity, the LMS leaves left (R339) and the LOADER of a bank. -/
def bootRom (identityOk : Bool) (serial : Nat) (v : BankVerdict) (s : State) : State :=
  if !inPhase s.dev 1 then s
  else if !identityOk then { s with dev := enterFatal 0x10 s.dev }
  else
    let d := setField 0x120018 20 0 (2 ^ 20 - s.nv.lmsStored) { s.dev with cfg := { s.dev.cfg with serial } }
    let d := setField 0x110050 31 0 s.nv.expelNext (svnRegs s.nv d)
    let s := { s with dev := d }
    let b := firstBank d
    let pass (b : Nat) : Bool := imageStands s b 1 && verdictOn v b
    let other (ok : Bool) (d : Dev) : Dev := { d with power := { d.power with banksOk := ok } }
    if pass b then { s with dev := toPhase 2 (other (pass (1 - b)) (chooseBank b d.banks.trial.isSome d)) }
    else if pass (1 - b) ∧ bankStands s (1 - b) = true then { s with dev := toPhase 2 (other false (chooseBank (1 - b) false d)) }
    else noBank { s with dev := chooseBank b false d }

/-- BOOT_ROM. -/
def execBootRom (identityOk : Bool) (serial : Nat) (v : BankVerdict) (s : State) : Host.Outcome State Fault Refusal :=
  .next (settle (bootRom identityOk serial v s))

/-- A register of the configuration record written (R334). -/
def cfgReg (off v : Nat) (d : Dev) : Dev := forceReg off v d

/-- Network registers of the configuration record (Table 16-2). -/
def loadNet (b : List Byte) (d : Dev) : Dev :=
  let f (i : Nat) : Nat := b2n (bitAt (fieldLe b 15 1) i)
  let hiLo (i : Nat) (d : Dev) (off : Nat) : Dev := cfgReg off (leNat ((b.drop (i + 8)).take 8)) (cfgReg (off + 8) (leNat ((b.drop i).take 8)) d)
  let d := cfgReg 0x90000 (putBits (putBits (putBits (regReset 0x90000) 47 32 (fieldLe b 52 2)) 12 12 (f 1)) 11 0 (fieldLe b 54 2)) d
  let d := cfgReg 0x90008 (fieldLe b 56 6) d
  let d := cfgReg 0x90010 (f 2 * 2 ^ 63 + fieldLe b 65 1 * 2 ^ 32 + fieldLe b 68 4) d
  let d := cfgReg 0x90018 (fieldLe b 72 4) d
  let d := hiLo 76 d 0x90020
  let d := cfgReg 0x90030 (f 3 * 2 ^ 63 + fieldLe b 66 1) d
  let d := hiLo 92 d 0x90038
  let d := cfgReg 0x90048 (fieldLe b 62 2) d
  cfgReg 0x90060 (fieldLe b 64 1 * 256 + 2 * f 5 + f 4) d

/-- Fabric, pair and remaining registers of the configuration record (Table 16-2). -/
def loadRest (b : List Byte) (d : Dev) : Dev :=
  let d := (List.range 4).foldl (fun d n => cfgReg (0x80010 + 8 * n) (fieldLe b (20 + 8 * n) 8) d) d
  let d := cfgReg 0x80000 (fieldLe b 18 1 * 256) d
  let d := cfgReg 0x10008 (fieldLe b 16 2 * 65536 + fieldLe b 16 2) { d with stk := { d.stk with current := fieldLe b 16 2 } }
  let d := cfgReg 0x10018 (b2n (bitAt (fieldLe b 15 1) 0) * 2 ^ 30) d
  let d := cfgReg 0x20008 (fieldLe b 112 1) d
  let d := cfgReg 0x150000 (putBits (regReset 0x150000) 4 0 (fieldLe b 19 1)) d
  let d := cfgReg 0x110008 (fieldLe b 284 4 * 2 ^ 32 + fieldLe b 280 2) d
  let d := cfgReg 0x110010 (fieldLe b 384 8) d
  let d := cfgReg 0x110018 (fieldLe b 392 5) d
  let d := cfgReg 0x110050 (fieldLe b 400 1 * 2 ^ 32 + regRaw d 0x110050 % 2 ^ 32) d
  [8, 9].foldl (fun d t => setTgt t { tgtOf d t with period := fieldLe b 108 4 } d) d

/-- The record itself: identity, keys and crew entries (Tables 16-2, 16-3), as the device holds them. -/
def loadCfg (b : List Byte) (d : Dev) : Dev :=
  let runs (i n k : Nat) : List (List Byte) := (List.range k).map fun j => (b.drop (i + n * j)).take n
  { d with cfg := { d.cfg with
      loaded := true, hall := fieldLe b 8 4, module := fieldLe b 12 2, role := fieldLe b 14 1, master := bitAt (fieldLe b 15 1) 0,
      partnerKey := (b.drop 288).take 96, enrolled := fieldLe b 400 1, managers := runs 408 96 5, mgmtCreds := runs 888 96 16,
      mgmtValid := fieldLe b 2424 2, nsConf := (List.range 32).map fun i => fieldLe b (2432 + 2 * i) 2,
      crews := runs 2560 832 (fieldLe b 2496 2) } }

/-- ID_MODULE from the record (Table 1-10). -/
def loadId (b : List Byte) (d : Dev) : Dev :=
  setReg 0x8 (fieldLe b 8 4 * 2 ^ 32 + fieldLe b 14 1 * 2 ^ 14 + fieldLe b 12 2) d

/-- The configuration record of a booted bank put in force; the first accepted one sets the owner, and one that the owner signs may
transfer it (R340). -/
def loadConfig (b : List Byte) (d : Dev) : Dev :=
  let d := loadRest b (loadNet b (loadId b (loadCfg b d)))
  let old := d.banks.owner
  let o := bodyOwner b
  if old = some o then d
  else logDev deviceWide 7 0 (leNat (old.getD [])) (leNat o) { d with banks := { d.banks with owner := some o } }

/-- The measurements of a bank's images (R336 step 3); an absent OPERATOR_SERVICE measures as zero. -/
def bankMeasures (d : Dev) (b : Nat) : List (BitVec 384) :=
  (List.range 6).map fun i => match tGet? (bankImages d b) (i + 1) with
    | some x => Config.sha384 (x.header.take 128)
    | none => 0

/-- The images of a bank loaded and its record put in force. -/
def loadBank (b : Nat) (s : State) : State :=
  let d : Dev := { s.dev with banks := { s.dev.banks with measures := bankMeasures s.dev b } }
  let body := ((tGet? (bankImages d b) 6).map Image.body).getD []
  { s with dev := toPhase 3 (loadConfig body d) }

/-- Phase 2 ends (R336 steps 2 and 3). A refused bank gives way to the other, where every image of that one passes; a trial bank
refused here has failed, and the previous bank starts (R342). -/
def bootLoader (v : BankVerdict) (s : State) : State :=
  if !inPhase s.dev 2 then s
  else
    let b := s.dev.banks.booted
    if bankStands s b = true ∧ verdictOn v b = true then loadBank b s
    else if s.dev.power.banksOk = true ∧ bankStands s (1 - b) = true ∧ verdictOn v (1 - b) = true then
      loadBank (1 - b) { s with dev := chooseBank (1 - b) false s.dev }
    else noBank s

/-- BOOT_LOADER. -/
def execBootLoader (v : BankVerdict) (s : State) : Host.Outcome State Fault Refusal := .next (settle (bootLoader v s))

/-! ### Phases 3 to 6 -/

/-- A fabric port's record. -/
def portOf (d : Dev) (p : Nat) : Port := (tGet? d.ports p).getD {}
/-- A fabric port's record replaced. -/
def setPort (p : Nat) (x : Port) (d : Dev) : Dev := { d with ports := tSet d.ports p x }

/-- A port UP or not, with its source (Table 15-3). -/
def portUp (p : Nat) (up : Bool) (d : Dev) : Dev := setWire (840 + p) (!up) (setPort p { portOf d p with up } d)

/-- A link comes up: both sides begin at sequence number 0, every receive buffer is to be returned as credit (R175, Table 6-3), and the
port announces its module (PORT_HELLO, R24). -/
def linkUp (p : Nat) (d : Dev) : Dev :=
  let d := setPort p { delay := (portOf d p).delay, lastSync := (portOf d p).lastSync, refused := (portOf d p).refused,
                       freed := [(1, 256), (2, 256), (3, 64), (4, 512), (5, 32)] } d
  sendPkt { kind := 0x85, dest := 0xFFFFFE, source := unitId (ownModule d) 0, port := some p,
            body := toLe 2 (ownModule d) ++ toLe 4 d.cfg.hall ++ zeros 2 } (portUp p true d)

/-- Phase 3 ends (Table 16-1, R170, R461): a stack that fails counts for nothing, a port or link that fails is a CE, and a bridge
that fails an FT. -/
def training (r : TrainResult) (d : Dev) : Dev :=
  if !inPhase d 3 then d
  else if !r.bridge then enterFatal 0x04 d
  else
    let good := ((List.range 16).filter (bitAt r.stackMask)).length
    let n := good * r.regionsPerStack
    let d := { d with cfg := { d.cfg with stepping := r.stepping % 65536, stackCount := good, pciePorts := r.pciePorts % 256 } }
    let d := setField 0x10 7 0 r.pciePorts (setField 0x0 31 16 r.stepping (forceReg 0x18 n d))
    let d := forceReg 0xA0008 (r.links % 2 ^ 32) d
    let d := (List.range 16).foldl (fun d p =>
      if bitAt r.ports p && !bitAt r.portsCrossed p then linkUp p d else faultCE 0x03 (0x3000 + p) 0 d) d
    let d := (List.range r.pciePorts).foldl (fun d k =>
      if bitAt r.links (8 * k + 3) || bitAt r.links (8 * k + 7) then d else faultCE 0x05 (0x5000 + 2 * k) 0 d) d
    let d := if r.eth then setWire 856 false { d with pins := { d.pins with ethUp := true } } else faultCE 0x03 0x4000 0 d
    toPhase 4 d

/-- TRAINING. -/
def execTraining (r : TrainResult) (s : State) : Host.Outcome State Fault Refusal := .next (onDev (training r) s)

/-- Phase 4 ends (Table 16-1). -/
def selfTest (passed : Nat) (sramOk : Bool) (d : Dev) : Dev :=
  if !inPhase d 4 then d else if !sramOk then enterFatal 0x02 d else toPhase 5 (setPassed passed d)

/-- SELF_TEST. -/
def execSelfTest (passed : Nat) (sramOk : Bool) (s : State) : Host.Outcome State Fault Refusal :=
  .next (onDev (selfTest passed sramOk) s)

/-- A stroke in picoseconds at a period in cycles of the 850 MHz timebase: 20,000 / 17 to a cycle. -/
def periodPs (cycles : Nat) : Nat := max 1 (cycles * 20000 / 17)

/-- Phase 5 ends: the stroke number is taken, the module is aligned, and the change-log chain starts from it (R360). -/
def lockStroke (n : Nat) (d : Dev) : Dev :=
  let d := setWire 837 false { d with stk := { d.stk with number := n, locked := true, lastSync := n } }
  toPhase 6 { d with log := { d.log with chain := Config.sha384 (toLe 8 d.cfg.serial ++ toLe 8 n), ledgerStart := n } }

/-- Whether a SYNC may set the stroke at start-up: of this hall, on an enabled port, from another module (R194, R435). -/
def syncUsable (d : Dev) (p : SyncPkt) : Bool :=
  p.rsvZero && p.hall == d.cfg.hall && decide (p.hops ≤ 15) && bitAt (regRaw d 0x10020) p.port && decide (213 ≤ p.period)
    && decide (p.period ≤ 6800) && p.source / 16 != (unitId (ownModule d) 0) / 16 && (portOf d p.port).up

/-- STROKE_LOCK (R435): number and period from the first valid SYNC; the sender's boundary lies TX_OFFSET and the path delay before
the word's arrival, and strokes that have passed since are counted on. -/
def strokeLock (p : SyncPkt) (d : Dev) : Dev :=
  if !inPhase d 5 ∨ d.cfg.master ∨ !syncUsable d p then d
  else
    let back := p.txOffset + (portOf d p.port).delay
    let d := cfgReg 0x10008 (p.period * 65536 + p.period) { d with stk := { d.stk with current := p.period, source := p.port, hops := p.hops, master := p.master } }
    lockStroke (p.stroke + back / periodPs p.period)
      (setPort p.port { portOf d p.port with lastSync := some p.stroke } d)

/-- STROKE_LOCK. -/
def execStrokeLock (p : SyncPkt) (s : State) : Host.Outcome State Fault Refusal := .next (onDev (strokeLock p) s)

/-- MASTER_LISTEN_END (R435): the highest stroke number heard, with the strokes since, else stroke 1. -/
def masterListenEnd (heard : Option (Nat × Nat)) (d : Dev) : Dev :=
  if !inPhase d 5 ∨ !d.cfg.master then d
  else lockStroke (match heard with
    | some h => h.1 + h.2
    | none => 1) d

/-- MASTER_LISTEN_END. -/
def execMasterListenEnd (heard : Option (Nat × Nat)) (s : State) : Host.Outcome State Fault Refusal :=
  .next (onDev (masterListenEnd heard) s)

/-- Each second of waiting in phase 5 is a corrected fault (Table 16-1). -/
def strokeLockWait (d : Dev) : Dev := if inPhase d 5 then faultCE 0x0B 0 0 d else d

/-- STROKE_LOCK_WAIT. -/
def execStrokeLockWait (s : State) : Host.Outcome State Fault Refusal := .next (onDev strokeLockWait s)

/-- Whether a namespace qualifies (R165). -/
def nsQualifies (n : Namespace) : Bool :=
  n.readable && n.lba4k && n.noMeta && (!n.zoned || (n.zoneAppend && n.zoneCapOk))

/-- The namespaces used, in order of link and NSID: the first 32 that qualify, while their total stays within 256 TiB (R165). -/
def takeNs : Nat → Nat → List Namespace → List Namespace
  | _, _, [] => []
  | k, total, n :: ns =>
    if nsQualifies n && decide (k < 32) && decide (total + n.regions ≤ 2 ^ 27) then n :: takeNs (k + 1) (total + n.regions) ns
    else takeNs k total ns

/-- Blocks of a namespace that its extents and logs use. -/
def usedBlocks (d : Dev) (i : Nat) : Nat := d.extents.foldl (fun a e => if e.2.ns = i then a + e.2.blocks else a) 0

/-- The namespace's configuration register (Table 5-19). -/
def nsConfWord (d : Dev) (i : Nat) (n : Namespace) : Nat :=
  let c := d.cfg.nsConf.getD i 0
  2 ^ 63 + b2n n.zoned * 2 ^ 62 + bitsOf c 15 15 * 2 ^ 61 + c % 256 * 2 ^ 48 + n.link % 8 * 2 ^ 40 + n.nsid % 2 ^ 32

/-- Regions and extents named by the namespaces they lie on: old numbers become new ones, and 255 stands for one not found. -/
def remapNs (old : Tbl Ns) (new : List Namespace) (i : Nat) : Nat :=
  let o := (tGet? old i).getD {}
  (new.findIdx? fun n => n.link == o.link && n.nsid == o.nsid).getD 255

/-- DENSE_TIER_START (R134, R165): namespaces qualified, and the catalogue restored from those found. -/
def denseStart (found : List Namespace) (d : Dev) : Dev :=
  if !inPhase d 6 then d
  else
    let sorted := sortBy (fun n : Namespace => n.link * 2 ^ 32 + n.nsid) found
    let use := takeNs 0 0 sorted
    let map := remapNs d.namespaces use
    let d := returnMedia d
    let bad := sorted.filter fun n => !use.contains n
    let d := { d with
      regions := tMap d.regions fun r x => if sealedRegion r then { x with ns := map x.ns } else x
      extents := tMap d.extents fun _ e => { e with ns := map e.ns }
      namespaces := [] }
    let d := (List.range use.length).foldl (fun d i =>
      let n := use.getD i {}
      let total := n.regions * 512
      forceReg (0xA1000 + 0x20 * i) (nsConfWord d i n)
        { d with namespaces := tSet d.namespaces i { en := true, zoned := n.zoned, link := n.link, nsid := n.nsid, total := n.regions,
                                                     free := total - usedBlocks d i } }) d
    let d := bad.foldl (fun d n => faultCE 0x06 (0x5000 + n.link) n.nsid d) d
    let d := toPhase 7 d
    if d.cfg.role = 0 then d else startJoining d

/-- DENSE_TIER_START. -/
def execDenseTierStart (found : List Namespace) (s : State) : Host.Outcome State Fault Refusal := .next (onDev (denseStart found) s)

/-! ### Phases 7 and 8 -/

/-- PAIR_JOIN_PHASE (R437): phase 7 ends with the joining exchange, or at once where ROLE is unpaired; without the partner the member
stays in JOINING. -/
def pairJoinPhase (joined : Bool) (d : Dev) : Dev :=
  if !inPhase d 7 ∨ (joined ∧ d.cfg.role ≠ 0 ∧ d.pair.state = 1) then d else toPhase 8 d

/-- PAIR_JOIN_PHASE. -/
def execPairJoinPhase (joined : Bool) (s : State) : Host.Outcome State Fault Refusal := .next (onDev (pairJoinPhase joined) s)

/-- JOIN_TIMEOUT (R437): no JOIN in 1 s. A record that is VALID and names this member makes it ask for the next epoch; otherwise it
stays in JOINING. -/
def joinTimeout (record : Nat) (d : Dev) : Dev :=
  if !inPhase d 7 ∨ d.cfg.role = 0 ∨ d.pair.state ≠ 1 then d
  else
    let d := toPhase 8 d
    if bitAt record 12 && record % 4096 == ownModule d then
      askWitness (ownModule d) (ownModule d) { d with pair := { d.pair with epoch := record / 2 ^ 32 } }
    else d

/-- JOIN_TIMEOUT. -/
def execJoinTimeout (witness : Nat) (s : State) : Host.Outcome State Fault Refusal := .next (onDev (joinTimeout witness) s)

/-- A credential of a crew entry imported into the lowest free slot (R438, R348). -/
def restoreCred (crew : Nat) (key : List Byte) (d : Dev) : Dev :=
  match (List.range 256).find? fun i => (keySlot d i).use == 0 with
  | none => d
  | some i =>
    let g := nextGen8 (keySlot d i).gen
    { d with keySlots := tSet d.keySlots i { use := 2, gen := g, crew, keyId := (digest key).take 16, key } }

/-- One crew entry restored as a CREW_CREATE, or skipped with a CE of SOURCE BOOT (R438). done are the crew numbers restored. -/
def restoreEntry (e : Nat × List Byte) (acc : List Nat × State) : List Nat × State :=
  let s := acc.2
  let n := fieldLe e.2 0 1
  let params := (e.2.drop 16).take 48
  match crewCheck s.dev n params with
  | some st => (acc.1, { s with dev := faultCE 0x0F 0 (e.1 * 65536 + n * 256 + st) s.dev })
  | none =>
    let s := (makeCrew n params s).2.2
    let d := (List.range (fieldLe e.2 1 1)).foldl (fun d j => restoreCred n ((e.2.drop (64 + 96 * j)).take 96) d) s.dev
    let g := (crewOf d n).gen
    (acc.1 ++ [n], { s with dev := logDev n 4 (n + g * 256) 0 g d })

/-- The crew entries restored in their order. -/
def restoreAll : List (Nat × List Byte) → List Nat × State → List Nat × State
  | [], acc => acc
  | e :: es, acc => restoreAll es (restoreEntry e acc)

/-- Every region of a table that meets a test released (R99 step 4). -/
def releaseWhere (f : Nat → Region → Bool) (d : Dev) : Dev :=
  (d.regions.filter fun r => f r.1 r.2).foldl (fun d r => leaveRegions r.1 1 d) d

/-- The kept regions after the restore (R438, R441): those of a crew not restored are released, as are those under a RELEASE that the
reset interrupted; the rest are charged to their crews again. -/
def restoreRegions (done : List Nat) (d : Dev) : Dev :=
  let d := releaseWhere (fun _ x => x.state == .revoking || !done.contains x.crew) d
  d.regions.foldl (fun d r => modCrew r.2.crew (fun c =>
    if sealedRegion r.1 then { c with denseUsed := c.denseUsed + r.2.charge } else { c with dramUsed := c.dramUsed + r.2.charge }) d) d

/-- EPOCH raised for every crew number that was not restored (R438, R351). -/
def raiseEpochs : List Nat → State → State
  | [], s => s
  | n :: ns, s => raiseEpochs ns (raiseEpoch n s)

/-- The sources of the Cox cores and sequencers enabled (R432), and the Cox watchdog periods set to what the device firmware chooses
(R420). -/
def enableSources (d : Dev) : Dev :=
  let ts := List.range 8 ++ (List.range 16).map (10 + ·)
  let srcs := (ts.flatMap fun t => (List.range 32).map (32 * t + ·)).filter fun n => !srcReserved n
  let d := srcs.foldl (fun d n => setSrc n { srcOf d n with en := true } d) d
  (List.range 8).foldl (fun d t =>
    let (f, d) := drawNat d
    setTgt t { tgtOf d t with period := 100 + f % 9999901 } d) d

/-- The SVN of a bank's image of a type. -/
def bankSvn (d : Dev) (b t : Nat) : Nat := ((tGet? (bankImages d b) t).map Image.svn).getD 0

/-- A trial that reaches serving (R338, R342): its bank becomes active, and each counter rises to the SVN of its image. -/
def trialServes (s : State) : State :=
  if !s.dev.banks.onTrial then s
  else
    let b := s.dev.banks.booted
    let up := (List.range 6).foldl (fun t i => tSet t (i + 1) (max (tGet t (i + 1)) (bankSvn s.dev b (i + 1)))) s.nv.rollback
    let nv := { s.nv with rollback := up }
    { s with nv
             dev := svnRegs nv <| logDev deviceWide 7 (b * 256) s.dev.banks.active (b + 2)
               { s.dev with banks := { s.dev.banks with active := b } } }

/-- SERVING set (R434, R456). -/
def startServing (d : Dev) : Dev :=
  raiseIbi 2 (toPhase 9 { d with locked := true, power := { d.power with serving := true } })

/-- CREW_RESTORE: phase 8 ends (R438, R441, R334, R432). -/
def crewRestore (s : State) : State :=
  if !inPhase s.dev 8 then s
  else
    let es := (List.range s.dev.cfg.crews.length).map fun i => (i, s.dev.cfg.crews.getD i [])
    let (done, s) := restoreAll es ([], s)
    let s := raiseEpochs ((List.range 256).filter fun n => !done.contains n) s
    let s := { s with dev := enableSources (restoreRegions done s.dev) }
    let s := trialServes s
    { s with dev := startServing s.dev }

/-- CREW_RESTORE. -/
def execCrewRestore (s : State) : Host.Outcome State Fault Refusal := .next (settle (crewRestore s))

/-- A phase past its bound is an FT with SOURCE FIRMWARE (R434); phase 5 waits without bound. -/
def phaseBound (d : Dev) : Dev :=
  if d.power.on && decide (d.power.phase ≤ 8) && d.power.phase != 5 && !d.flt.fatal then enterFatal 0x10 d else d

/-- PHASE_BOUND_EXCEEDED. -/
def execPhaseBoundExceeded (s : State) : Host.Outcome State Fault Refusal := .next (onDev phaseBound s)

/-! ### Standby, throttling and level sources -/

/-- The ports that standby leaves alone (R444): that of the followed SYNC, and on a pair member the pair ports. -/
def standbyKeeps (d : Dev) (p : Nat) : Bool :=
  (!d.cfg.master && d.stk.source == p) || (d.cfg.role != 0 && (pairPorts d).contains p)

/-- Standby entered (R444). -/
def standbyEnter (d : Dev) : Dev :=
  let d := { d with power := { d.power with mode := 1, asleep := 0xFFFF } }
  (List.range 16).foldl (fun d p =>
    if standbyKeeps d p || !(portOf d p).up then d else portUp p false (setPort p { portOf d p with idled := true } d)) d

/-- Standby left (R444): the idle ports are retrained; MODE is 0b10 until they are UP. -/
def standbyLeave (d : Dev) : Dev :=
  let d := { d with ports := tMap d.ports fun _ x => if x.idled then { x with retraining := true } else x }
  { d with power := { d.power with mode := if d.ports.any fun p => p.2.idled then 2 else 0 } }

/-- Leaving standby ends once every idle port is UP again (R444). -/
def standbyDone (d : Dev) : Dev :=
  if d.power.mode = 2 ∧ d.ports.all (fun p => !p.2.idled) then { d with power := { d.power with mode := 0 } } else d

/-- The clock after 1 ms with these readings (R445). -/
def nextClock (d : Dev) (x : Sensors) : Nat :=
  let temp := cfgField d 0x140038 7 0
  let limit := cfgField d 0x140038 47 32
  let top := max x.d0 x.d1
  if temp ≤ top ∨ limit < x.watts then max 400 (d.power.clock - 50)
  else if top + 5 < temp ∧ x.watts + 50 < limit then min 850 (d.power.clock + 50)
  else d.power.clock

/-- THROTTLE_STEP (R445). The package power is measured, and so free; the other readings are the sensors'. -/
def throttleStep (x : Sensors) (d : Dev) : Dev :=
  if !d.power.on then d
  else
    let (p, d) := drawNat d
    let d := { d with power := { d.power with clock := nextClock d x, d0 := x.d0 % 256, d1 := x.d1 % 256, powerW := p % 65536,
                                              vin := x.vin % 65536, iin := x.iin % 65536, pin := x.watts % 65536 } }
    setField 0xB0028 9 0 d.power.clock d

/-- THROTTLE_STEP. -/
def execThrottleStep (sensors : Sensors) (s : State) : Host.Outcome State Fault Refusal := .next (onDev (throttleStep sensors) s)

/-- THROTTLE_THRESHOLD_CROSSING (Table 15-3). -/
def execThrottleThresholdCrossing (die : Nat) (above : Bool) (s : State) : Host.Outcome State Fault Refusal :=
  .next (onDev (fun d => if die < 2 then setWire (834 + die) above d else d) s)

/-- The input voltage leaves or enters the warning band (Table 15-3); within the band it lies in the operating range. -/
def inputWarning (outside : Bool) (d : Dev) : Dev :=
  let d := if outside then d else { d with pins := { d.pins with inputOk := true } }
  setWire 836 outside d

/-- INPUT_WARNING_CROSSING. -/
def execInputWarningCrossing (outside : Bool) (s : State) : Host.Outcome State Fault Refusal := .next (onDev (inputWarning outside) s)

/-- The Ethernet link lost or back (Table 15-3). -/
def ethLink (up : Bool) (d : Dev) : Dev := setWire 856 (!up) { d with pins := { d.pins with ethUp := up } }

/-- ETH_LINK_DOWN. -/
def execEthLinkDown (s : State) : Host.Outcome State Fault Refusal := .next (onDev (ethLink false) s)

/-- ETH_LINK_UP. -/
def execEthLinkUp (s : State) : Host.Outcome State Fault Refusal := .next (onDev (ethLink true) s)

end Sys2Proof.Machine
end

