-- ==== Sys2Proof/Machine/Side.lean ====
section
/-! DEFINITION. Machine/Side.lean: the auxiliary supply, the I3C target and the provisioning port (R449, R455 to R459). -/

namespace Sys2Proof.Machine

/-! ### The auxiliary supply -/

/-- AUX_3V3 rises (R449, R450): the sideband starts afresh and SLOT is sampled. -/
def auxRise (slot : Nat) (d : Dev) : Dev :=
  if d.pins.aux then d else { d with pins := { d.pins with aux := true, slot := slot % 32 }, side := {} }

/-- AUX_3V3_RISE. -/
def execAuxRise (slot : Nat) (s : State) : Host.Outcome State Fault Refusal := .next (onDev (auxRise slot) s)

/-- AUX_3V3 is removed (R449): the I3C target and the provisioning port lose power. -/
def auxFall (d : Dev) : Dev := { d with pins := { d.pins with aux := false }, side := {} }

/-- AUX_3V3_FALL. -/
def execAuxFall (s : State) : Host.Outcome State Fault Refusal := .next (onDev auxFall s)

/-! ### I3C -/

/-- The target's static address (R455). -/
def staticAddress (d : Dev) : Nat := 0x40 + d.pins.slot

/-- The value and byte count of a telemetry index (Table 17-7); a value not yet valid reads as zero. -/
def telemetry (d : Dev) (i : Nat) : Nat × Nat :=
  let from_ (ok : Bool) (v : Nat) : Nat := if ok then v else 0
  let up := d.power.on && decide (1 ≤ d.power.phase)
  match i with
  | 0x00 => (0x4E5A5860, 4)
  | 0x01 => (from_ (d.power.on && decide (2 ≤ d.power.phase)) d.cfg.serial, 8)
  | 0x02 => (from_ d.cfg.loaded (2 ^ 15 + d.cfg.module), 2)
  | 0x03 => (from_ d.power.on (d.power.phase * 256 + d.pair.state % 16 * 16 + b2n d.flt.fatal * 8 + b2n (decide (d.power.clock < 850)) * 4
      + b2n (d.power.mode == 1) * 2 + b2n d.power.serving), 2)
  | 0x04 => (d.power.vin, 2)
  | 0x05 => (d.power.iin, 2)
  | 0x06 => (d.power.pin, 2)
  | 0x07 => (from_ up (d.power.d1 * 256 + d.power.d0), 2)
  | 0x08 => (from_ up d.power.clock, 2)
  | 0x09 => (from_ d.power.on d.flt.ftSource, 1)
  | _ => (0, 1)

/-- A private write of one byte sets the index; a longer one is ignored (R455). -/
def i3cWrite (l : List Byte) (d : Dev) : Dev := match l with
  | [b] => if d.pins.aux then { d with side := { d.side with index := b.toNat } } else d
  | _ => d

/-- I3C_PRIVATE_WRITE. -/
def execI3cPrivateWrite (data : List Byte) (s : State) : Host.Outcome State Fault Refusal := .next (onDev (i3cWrite data) s)

/-- Bytes that the target answers with. -/
def i3cAnswer (l : List Byte) (d : Dev) : Dev :=
  if d.pins.aux then { d with side := { d.side with sent := d.side.sent ++ [l] } } else d

/-- A private read returns the value at the index; a further read continues at the next (R455). -/
def i3cRead (d : Dev) : Dev :=
  if !d.pins.aux then d
  else
    let t := telemetry d d.side.index
    i3cAnswer (toLe t.2 t.1) { d with side := { d.side with index := (d.side.index + 1) % 256 } }

/-- I3C_PRIVATE_READ. -/
def execI3cPrivateRead (s : State) : Host.Outcome State Fault Refusal := .next (onDev i3cRead s)

/-- ENEC enables In-Band Interrupts (R456). -/
def enec (d : Dev) : Dev := if d.pins.aux then { d with side := { d.side with events := true } } else d

/-- ENEC. -/
def execEnec (s : State) : Host.Outcome State Fault Refusal := .next (onDev enec s)

/-- DISEC disables them, and one that waits to be accepted is raised no more (R456). -/
def disec (d : Dev) : Dev :=
  if d.pins.aux then { d with side := { d.side with events := false, ibi := none } } else d

/-- DISEC. -/
def execDisec (s : State) : Host.Outcome State Fault Refusal := .next (onDev disec s)

/-- The dynamic address changed. -/
def setDynamic (a : Option Nat) (d : Dev) : Dev := if d.pins.aux then { d with side := { d.side with dynamic := a } } else d

/-- RSTDAA: the target goes back to its static address. -/
def execRstdaa (s : State) : Host.Outcome State Fault Refusal := .next (onDev (setDynamic none) s)

/-- A dynamic address taken by a target that has none. -/
def takeDynamic (a : Nat) (d : Dev) : Dev := if d.side.dynamic.isNone then setDynamic (some (a % 128)) d else d

/-- SETDASA (R455). -/
def execSetdasa (address : Nat) (s : State) : Host.Outcome State Fault Refusal := .next (onDev (takeDynamic address) s)

/-- ENTDAA (R455). -/
def execEntdaa (address : Nat) (s : State) : Host.Outcome State Fault Refusal := .next (onDev (takeDynamic address) s)

/-- GETPID: six bytes, most significant first; the manual gives no value. -/
def execGetpid (s : State) : Host.Outcome State Fault Refusal := .next (onDev (i3cAnswer (toLe 6 Config.i3cPid.toNat).reverse) s)

/-- GETBCR: the manual gives no value. -/
def execGetbcr (s : State) : Host.Outcome State Fault Refusal := .next (onDev (i3cAnswer [Config.i3cBcr]) s)

/-- GETDCR: the manual gives no value. -/
def execGetdcr (s : State) : Host.Outcome State Fault Refusal := .next (onDev (i3cAnswer [Config.i3cDcr]) s)

/-- GETSTATUS: two bytes whose value the manual does not give. -/
def getStatus (d : Dev) : Dev :=
  let (l, d) := drawBytes 2 d
  i3cAnswer l d

/-- GETSTATUS. -/
def execGetstatus (s : State) : Host.Outcome State Fault Refusal := .next (onDev getStatus s)

/-- 1 ms after a NACK the interrupt is raised again, until it is accepted (R456). -/
def ibiRetry (accepted : Bool) (d : Dev) : Dev := match d.side.ibi with
  | none => d
  | some b =>
    if accepted then i3cAnswer [BitVec.ofNat 8 b] { d with side := { d.side with ibi := none } }
    else d

/-- IBI_RETRY. -/
def execIbiRetry (accepted : Bool) (s : State) : Host.Outcome State Fault Refusal := .next (onDev (ibiRetry accepted) s)

/-! ### The provisioning port -/

/-- Whether the port is open (R457). -/
def provOpen (d : Dev) : Bool := d.pins.aux && !d.pins.powerEn

/-- Whether the port is open and takes a command that is not STATUS. -/
def provReady (d : Dev) : Bool := provOpen d && !d.side.busy

/-- LOCKED (R458). -/
def provLocked (d : Dev) : Bool := d.banks.owner.isSome

/-- The size of the CONFIG area (R457). -/
def areaBytes : Nat := 262144

/-- A byte of the CONFIG area of bank A; one never programmed reads as erased. -/
def areaByte (d : Dev) (i : Nat) : Byte := d.banks.configA.getD i 0xFF

/-- The CONFIG area of bank A replaced, and the image that it now holds (Table 12-1). -/
def setArea (l : List Byte) (d : Dev) : Dev :=
  let h := l.take 4096
  let n := fieldLe h 16 4
  let images := if h.length = 4096 ∧ n ≤ areaBytes - 4096 ∧ n ≤ l.length - 4096 then
      tSet d.banks.imagesA 6 { svn := fieldLe h 12 2, header := h, body := (l.drop 4096).take n }
    else tDel d.banks.imagesA 6
  { d with banks := { d.banks with configA := l, imagesA := images } }

/-- Bytes that the port answers with. -/
def provAnswer (l : List Byte) (d : Dev) : Dev := { d with side := { d.side with out := d.side.out ++ [l] } }

/-- WRITE_ENABLE sets WEL (Table 17-8). -/
def writeEnable (d : Dev) : Dev := if provReady d then { d with side := { d.side with wel := true } } else d

/-- WRITE_ENABLE. -/
def execWriteEnable (s : State) : Host.Outcome State Fault Refusal := .next (onDev writeEnable s)

/-- STATUS: BUSY, WEL and LOCKED (Table 17-8). -/
def provStatus (d : Dev) : Dev :=
  if provOpen d then
    provAnswer [BitVec.ofNat 8 (b2n d.side.busy + 2 * b2n d.side.wel + 4 * b2n (provLocked d))] d
  else d

/-- STATUS. -/
def execStatus (s : State) : Host.Outcome State Fault Refusal := .next (onDev provStatus s)

/-- READ of the area (Table 17-8). -/
def provRead (address count : Nat) (d : Dev) : Dev :=
  if provReady d then provAnswer ((List.range count).map fun i => areaByte d (address + i)) d else d

/-- PROV_READ. -/
def execProvRead (address count : Nat) (s : State) : Host.Outcome State Fault Refusal := .next (onDev (provRead address count) s)

/-- Bytes programmed over an erased or programmed area: a program step clears bits and sets none. -/
def programBytes (old : List Byte) (a : Nat) (new : List Byte) : List Byte :=
  old.take a ++ List.replicate (a - old.length) 0xFF
    ++ (List.range new.length).map (fun i => old.getD (a + i) 0xFF &&& new.getD i 0xFF) ++ old.drop (a + new.length)

/-- Whether a PROGRAM or ERASE acts: WEL is set and the area is not LOCKED (Table 17-8, R458). -/
def provWritable (d : Dev) : Bool := provReady d && d.side.wel && !provLocked d

/-- PROGRAM: 1 to 256 bytes within one page of the area (Table 17-8). -/
def provProgram (a : Nat) (l : List Byte) (d : Dev) : Dev :=
  if provWritable d && decide (1 ≤ l.length) && decide (a % 256 + l.length ≤ 256) && decide (a < areaBytes) then
    setArea (programBytes d.banks.configA a l) { d with side := { d.side with wel := false, busy := true } }
  else d

/-- PROGRAM. -/
def execProgram (address : Nat) (data : List Byte) (s : State) : Host.Outcome State Fault Refusal :=
  .next (onDev (provProgram address data) s)

/-- ERASE (Table 17-8). -/
def provErase (d : Dev) : Dev :=
  if provWritable d then setArea [] { d with side := { d.side with wel := false, busy := true } } else d

/-- ERASE. -/
def execErase (s : State) : Host.Outcome State Fault Refusal := .next (onDev provErase s)

/-- A PROGRAM or ERASE ends: BUSY clears, and a phase 1 that it held begins (R459). -/
def provEnd (d : Dev) : Dev :=
  let held := d.power.phaseHeld && d.pins.pwrGood && inPhase d 0
  let d := { d with side := { d.side with busy := false }, power := { d.power with phaseHeld := false } }
  if held then toPhase 1 d else d

/-- PROVISIONING_BUSY_END. -/
def execProvisioningBusyEnd (s : State) : Host.Outcome State Fault Refusal := .next (onDev provEnd s)

/-- A release token signed by Ngazor clears the owner record, and LOCKED with it (R340, R458). -/
def releaseToken (sigOk : Bool) (d : Dev) : Dev := if sigOk then { d with banks := { d.banks with owner := none } } else d

/-- RELEASE_TOKEN. -/
def execReleaseToken (sigOk : Bool) (s : State) : Host.Outcome State Fault Refusal := .next (onDev (releaseToken sigOk) s)

end Sys2Proof.Machine
end

