-- ==== Sys2Proof/Machine/RegRead.lean ====
section
/-! DEFINITION. Machine/RegRead.lean: what each register of control space reads as: the current value (R14), the selections for
read-back (R79), and what a session bound to a crew is shown (R43, R104, R132, R169, R198, R233, R267, R289, R331, R356, R357,
R364, R385, R386, R416, R431, R446). -/

namespace Sys2Proof.Machine

/-- The number under which a reader's selections are kept: apart for each session and each requester (R79). -/
def readerId : Writer → Nat
  | .session i => i
  | .fabric _ r => 2 ^ 12 + r
  | .service k => 2 ^ 25 + k
  | .firmware => 2 ^ 25 + 2

/-- A reader's selection of a kind: 0 SCH_QCONF, 1 SCH_QSHAPE, 2 XLT_SEG_SEL, 3 DIR_PROBE_SEL, 4 WSK_MARK, 5 SEC_SLOT_SEL,
6 SEC_MEASURE_SEL, 7 SNP_SEL. -/
def selOf (d : Dev) (rd k : Nat) : Nat := tGet d.sels (rd * 16 + k)

/-- A selection made. -/
def setSel (rd k v : Nat) (d : Dev) : Dev := { d with sels := tSet d.sels (rd * 16 + k) v }

/-- The last value written to a kind of register that names its queue in the value, for a queue whose write has not acted yet. -/
def pendingFor (d : Dev) (off n : Nat) : Option Nat :=
  ((d.regQueue.filter fun w => w.offset == off && bitsOf w.value.toNat 62 48 == n).getLast?).map fun w => w.value.toNat

/-- SCH_QCONF of a queue (Table 2-19). -/
def qconfRead (d : Dev) (n : Nat) : Nat :=
  let r := queueOf d n
  if !r.present then n * 2 ^ 48
  else match pendingFor d 0x30008 n with
    | some v => putBits v 63 63 0
    | none => n * 2 ^ 48 + r.policer * 2 ^ 16 + b2n r.polEn * 2 ^ 15 + r.weight

/-- SCH_QSHAPE of a queue (Table 2-20). -/
def qshapeRead (d : Dev) (n : Nat) : Nat :=
  let r := queueOf d n
  if !r.present then n * 2 ^ 48
  else match pendingFor d 0x30010 n with
    | some v => putBits v 63 63 0
    | none => n * 2 ^ 48 + b2n r.shEn * 2 ^ 47 + r.shBurst * 2 ^ 24 + r.shRate

/-- SCH_QVIEW of a queue (Table 2-21): its balance in 64-byte units. -/
def qviewRead (d : Dev) (n : Nat) : Nat :=
  let r := queueOf d n
  n * 2 ^ 32 + (if r.present && r.shEn then (r.balance / 64 % 2 ^ 32).toNat else 0)

/-! ### The blocks, one by one -/

/-- STK block (Tables 2-8 to 2-17). -/
def stkRead (d : Dev) (off : Nat) : Nat :=
  let raw := regRaw d off
  match off with
  | 0x10000 => d.stk.number
  | 0x10008 => putBits raw 12 0 d.stk.current
  | 0x10018 => b2n d.stk.locked * 2 ^ 31 + bitsOf raw 30 30 * 2 ^ 30 + d.stk.source % 16 * 2 ^ 24 + d.stk.hops % 256 * 2 ^ 16
      + satSigned 16 d.stk.offset
  | 0x10020 =>
    let seen (p : Nat) : Bool := match (portOf d p).lastSync with
      | some s => decide (d.stk.number - s < 256)
      | none => false
    putBits raw 31 16 ((List.range 16).foldl (fun a p => a + b2n (seen p) * 2 ^ p) 0)
  | 0x10040 => d.stk.tod
  | 0x10048 => b2n d.stk.ptpLocked
  | _ => raw

/-- CRW block of crew n (Tables 1-13 to 1-15); base is the register of the run. -/
def crwRead (d : Dev) (base n : Nat) : Nat :=
  let c := crewOf d n
  let weights (p : Nat) : Nat := (List.range 8).foldl (fun a i => a + c.portWeights.getD (p + i) 0 * 2 ^ (8 * i)) 0
  match base with
  | 0x20000 => (liveCrews d).length
  | 0x28000 => c.gen * 2 ^ 8 + b2n c.sealedCrew * 4 + c.state
  | 0x28008 => c.cores % 2 ^ 64
  | 0x28010 => c.cores / 2 ^ 64
  | 0x28018 => c.ethWeight * 2 ^ 16 + c.stackMask
  | 0x28020 => weights 0
  | 0x28028 => weights 8
  | 0x28030 => c.qCount * 2 ^ 16 + c.qFirst
  | 0x28038 => c.denseQuota * 2 ^ 32 + c.dramQuota
  | 0x28040 => c.denseUsed * 2 ^ 32 + c.dramUsed
  | 0x28048 => c.meterCore
  | 0x28050 => c.meterStack
  | 0x28058 => c.meterLink
  | _ => regRaw d base

/-- SCH block (Tables 2-18 to 2-23). -/
def schRead (d : Dev) (rd base n off : Nat) : Nat :=
  match base with
  | 0x30008 => qconfRead d (selOf d rd 0)
  | 0x30010 => qshapeRead d (selOf d rd 1)
  | 0x30018 => qviewRead d (selOf d rd 1)
  | 0x31010 => ((liveOps d).filter fun l => l.2.crew == n).length
  | _ => regRaw d off

/-- The words of a context's header (Table 3-4) or of a descriptor (Table 3-5). -/
def segWord (d : Dev) (c sg w : Nat) : Nat :=
  let x := ctxOf d c
  if sg = 64 then
    match w with
    | 0 => b2n x.en * 2 ^ 63 + x.crew * 2 ^ 48 + x.reqMask * 2 ^ 24 + x.reqId
    | 1 => x.gen * 2 ^ 16 + b2n x.faultEn * 2 ^ 15 + x.faultQueue
    | _ => 0
  else
    let s := (tGet? x.segs sg).getD {}
    match w with
    | 0 => s.hallBase
    | 1 => b2n s.stream * 2 ^ 51 + b2n s.a * 2 ^ 50 + b2n s.w * 2 ^ 49 + b2n s.r * 2 ^ 48 + b2n s.p * 2 ^ 47 + s.lenU * 2 ^ 23 + s.baseU
    | 2 => s.key
    | _ => 0

/-- XLT block (Tables 3-14 to 3-24). The walkers finish their walks within the access, so none is busy between steps. -/
def xltRead (d : Dev) (rd base n off : Nat) : Nat :=
  let sel := selOf d rd 2
  match base with
  | 0x50008 => sel
  | 0x50010 => segWord d (bitsOf sel 29 16) (bitsOf sel 6 0) n
  | 0x50050 => putBits (regRaw d off) 10 0 (d.slots.filter fun s => s.2.used).length
  | 0x50060 => d.scrubbing.length
  | 0x50068 => 16384 - (d.contexts.filter fun c => c.2.en).length
  | _ => regRaw d off

/-- DIR block (Tables 4-10 to 4-24). -/
def dirRead (d : Dev) (rd base off : Nat) : Nat :=
  let line := selOf d rd 3 / 128
  let e := dirOf d line
  let used (die : Nat) : Nat := (d.dir.filter fun x => x.2.state != 0 && dieOf d (x.1 * 128) == die).length
  let crashed := (d.agents.filter fun a => a.2.since.isSome).length
  match base with
  | 0x60018 => used 1 * 2 ^ 32 + used 0
  | 0x60030 => putBits (putBits (regRaw d off) 28 16 (agentsOn d 1).length) 12 0 (agentsOn d 0).length
  | 0x60038 => putBits (putBits (regRaw d off) 15 8 crashed) 7 0 crashed
  | 0x60050 => selOf d rd 3
  | 0x60058 => e.gen * 2 ^ 48 + e.state * 2 ^ 8 + b2n (isPoisoned d line) * 32 + b2n e.coarse.isSome * 16
      + (if e.coarse.isSome then 0 else e.holders.length % 4)
  | 0x60060 => (match e.coarse with
    | some v => v
    | none => e.holders.getD 1 0 * 2 ^ 24 + e.holders.getD 0 0)
  | 0x60068 => if e.coarse.isSome then 0 else e.holders.getD 2 0
  | _ => regRaw d off

/-- TIR block (Tables 5-13 to 5-16). -/
def tirRead (d : Dev) (base n off : Nat) : Nat :=
  let w := (tGet? d.wins n).getD {}
  match base with
  | 0x71000 => putBits (regRaw d off) 63 32 (residentPages d n).length
  | 0x78000 => w.gen * 2 ^ 56 + w.crew * 2 ^ 48 + w.slots * 2 ^ 40 + w.state
  | 0x78008 => w.cursor
  | 0x78010 => w.counts.length
  | _ => regRaw d off

/-- DNS block (Tables 5-17 to 5-19). -/
def dnsRead (d : Dev) (base n off : Nat) : Nat :=
  let x := (tGet? d.namespaces n).getD {}
  match base with
  | 0xA1008 => x.free / 512 * 2 ^ 32 + x.total
  | _ => regRaw d off

/-- FAB block (Tables 6-13 to 6-21). -/
def fabRead (d : Dev) (base n off : Nat) : Nat :=
  let nib (p : Nat) : Nat :=
    let x := portOf d p
    b2n x.up * 8 + b2n x.refused * 4 + b2n (d.cfg.role != 0 && (pairPorts d).contains p) * 2 + b2n x.retraining
  match base with
  | 0x80008 => (List.range 16).foldl (fun a p => a + nib p * 2 ^ (4 * p)) 0
  | 0x80030 => putBits (regRaw d off) 18 0 d.outstanding.length
  | 0x80048 => putBits (regRaw d off) 12 0 d.redirects.length
  | 0x81018 => (portOf d n).delay % 2 ^ 32
  | _ => regRaw d off

/-- ENG block (Tables 8-14 to 8-19). -/
def engRead (d : Dev) (base n off : Nat) : Nat :=
  match base with
  | 0xB0020 => putBits (regRaw d off) 12 0 d.armed.length
  | 0xB1000 => putBits (regRaw d off) 15 8 (tGet d.spadSet n)
  | _ => regRaw d off

/-- WSK_MARK_VIEW of a region of this module (Table 9-8). -/
def markView (d : Dev) (r : Nat) : Nat := match liveRegion d r with
  | some x =>
    let (m, k, f) : Bool × Nat × Nat := match x.mark with
      | some (k, f) => (true, k, f)
      | none => (false, 0, 0)
    b2n m * 2 ^ 63 + b2n x.prot * 2 ^ 62 + k * 2 ^ 60 + f * 2 ^ 58 + x.crew * 2 ^ 8
  | none => 0

/-- The region that a WSK_MARK value names. -/
def markedRegion (d : Dev) (v : Nat) : Nat := regionNo (hallAddr (ownModule d) 0 (bitsOf v 28 0 * 2 ^ 21))

/-- WSK block (Tables 9-7 to 9-11). -/
def wskRead (d : Dev) (rd base n off : Nat) : Nat :=
  let x := profOf d n
  let marked := d.regions.filter fun r => r.2.mark.isSome && r.2.crew == n
  match base with
  | 0xC0000 => selOf d rd 4
  | 0xC0008 => markView d (markedRegion d (selOf d rd 4))
  | 0xC1000 => x.crew * 2 ^ 8 + b2n x.en
  | 0xC1008 => x.gen * 2 ^ 24 + x.dfmt * 2 ^ 8 + x.ffmt * 16 + x.rank
  | 0xC1010 => (if x.oldGen = 0 then 0 else profHolders d x) * 2 ^ 32 + x.oldGen * 2 ^ 24 + x.oldDfmt * 2 ^ 8 + x.oldFfmt * 16 + x.oldRank
  | 0xC1018 => x.since
  | 0xC2000 => marked.length * 2 ^ 32 + marked.foldl (fun a r => a + r.2.charge) 0
  | _ => regRaw d off

/-- LDL block (Tables 10-9 to 10-14). -/
def ldlRead (d : Dev) (base n off : Nat) : Nat :=
  let x := tableOf d n
  match base with
  | 0xD0010 => putBits (regRaw d off) 10 0 d.moves.length
  | 0xD0018 => 256 - (d.tables.filter fun t => t.2.state != 0).length
  | 0xD1000 => x.gen * 2 ^ 56 + x.crew * 2 ^ 48 + x.version * 2 ^ 40 + x.dim * 2 ^ 32 + x.state
  | 0xD1008 => x.rows
  | 0xD1010 => x.descs
  | 0xD1018 => x.body
  | 0xD1020 => x.bodyRegions
  | 0xD1028 => reclaimStroke d n
  | 0xD1030 => ((d.hotOn.filter fun h => h.1 == n).foldl (fun a h => a + 2 ^ h.2) 0) * 2 ^ 32
      + (d.hot.filter fun h => h.table == n).length
  | 0xD1038 => (((d.replicas.filter fun r => r.table == n).map (·.row)).dedup.length) * 2 ^ 32
      + ((liveBound d).filter fun b => b.table == n).length
  | _ => regRaw d off

/-- SVE block (Tables 11-10 to 11-15). -/
def sveRead (d : Dev) (base n off : Nat) : Nat :=
  let x := indexOf d n
  let fgen (f : Nat) : Nat := (List.range 8).foldl (fun a i => a + ((tGet? x.filters (f + i)).getD {}).gen * 2 ^ (8 * i)) 0
  match base with
  | 0xE0008 => putBits (regRaw d off) 14 0 d.searches.length
  | 0xE0018 => 64 - (d.indexes.filter fun i => i.2.state != 0).length
  | 0xE1000 => x.gen * 2 ^ 56 + x.crew * 2 ^ 48 + x.version * 2 ^ 40 + x.desc.degree * 2 ^ 32 + x.desc.metric * 2 ^ 24 + x.state
  | 0xE1008 => x.sideList.length * 2 ^ 32 + x.desc.sideSlots
  | 0xE1010 => x.ignored % 2 ^ 32 * 2 ^ 32 + x.desc.capK
  | 0xE1018 => x.cut
  | 0xE1020 => sveReclaim d n
  | 0xE1028 => (List.range 16).foldl (fun a f => a + b2n ((tGet? x.filters f).getD {}).bound * 2 ^ f) 0
  | 0xE1030 => fgen 0
  | 0xE1038 => fgen 8
  | _ => regRaw d off

/-- FLT block (Tables 13-8 and 13-9). -/
def fltRead (d : Dev) (base n off : Nat) : Nat :=
  let f := d.flt
  let c := (tGet? f.crews n).getD {}
  let hold := bitAt (regInForce d 0x100010) 0
  match base with
  | 0x100008 => f.ftSource * 2 ^ 8 + b2n f.fatal
  | 0x100010 => b2n (!(f.pulse || hold)) * 4 + b2n f.pulse * 2 + bitsOf (regRaw d off) 0 0
  | 0x100018 => f.ftStroke
  | 0x100020 => f.lost % 2 ^ 32 * 2 ^ 32 + f.ring.length
  | 0x100028 => f.next
  | 0x100030 => f.ucCount % 2 ^ 32 * 2 ^ 32 + f.ceCount % 2 ^ 32
  | 0x100038 => f.retired % 2 ^ 64
  | 0x100040 => f.retired / 2 ^ 64
  | 0x101008 => c.lost % 2 ^ 32 * 2 ^ 32 + c.recs.length
  | 0x101010 => c.next
  | 0x101018 => c.uc % 2 ^ 32 * 2 ^ 32 + c.ce % 2 ^ 32
  | _ => regRaw d off

/-- PAR block (Table 14-11). -/
def parRead (d : Dev) (off : Nat) : Nat :=
  let p := d.pair
  match off with
  | 0x110020 => p.epoch * 2 ^ 32 + b2n (pairServes d) * 2 ^ 16 + min 255 p.missed * 2 ^ 8 + p.state
  | 0x110028 => if pairServes d then p.mseq else max p.applied ((p.buffer.map (·.1)).foldl max ((p.regionBuffer.map (·.1)).foldl max 0))
  | 0x110030 => if pairServes d then p.acked else p.applied
  | 0x110038 => if pairServes d then answeredNow d else p.answered
  | 0x110040 => if pairServes d then pairedCount d else p.mirrored.length
  | _ => regRaw d off

/-- SEC block (Table 12-11). -/
def secRead (d : Dev) (rd base n off : Nat) : Nat :=
  let k := keySlot d (selOf d rd 5)
  match base with
  | 0x120000 => b2n d.banks.trial.isSome * 128 + b2n d.banks.onTrial * 64 + b2n d.banks.fallback * 32 + b2n d.banks.owner.isSome * 16
      + d.banks.booted % 2
  | 0x120030 => selOf d rd 5
  | 0x120038 => k.gen * 2 ^ 40 + k.crew * 2 ^ 32 + k.use
  | 0x120040 => fieldLe k.keyId 0 8
  | 0x120048 => fieldLe k.keyId 8 8
  | 0x120050 => selOf d rd 6
  | 0x120058 => fieldLe (measure d (selOf d rd 6)) (8 * n) 8
  | _ => regRaw d off

/-- PWR block (Table 16-6). -/
def pwrRead (d : Dev) (off : Nat) : Nat :=
  let p := d.power
  match off with
  | 0x140000 => p.phase * 2 ^ 8 + b2n (decide (p.clock < 850)) * 16 + p.mode * 4 + b2n p.serving
  | 0x140010 => 0
  | 0x140018 => p.asleep * 2 ^ 32 + p.wakes % 2 ^ 32
  | 0x140020 => p.powerW / 10 * 10
  | 0x140028 => p.vin * 2 ^ 32 + p.iin * 2 ^ 16 + p.pin
  | 0x140030 => max p.d0 p.d1 / 2 * 2 * 2 ^ 16 + p.d1 * 2 ^ 8 + p.d0
  | _ => regRaw d off

/-- LOG block (Table 12-12). -/
def logRead (d : Dev) (off : Nat) : Nat :=
  let l := d.log
  match off with
  | 0x150008 => l.next
  | 0x150010 => (l.recs.head?.map LogRec.seq).getD l.next
  | 0x150018 => (l.secure.head?.map LogRec.seq).getD l.next
  | 0x150020 => l.batchNext - 1
  | 0x150028 => (l.ledgers.getLast?.map Ledger.finish).getD 0
  | _ => regRaw d off

/-- The doorbell area of queue n (Table 7-6). -/
def doorRead (d : Dev) (base n : Nat) : Nat :=
  let r := queueOf d n
  if !r.present then 0
  else match base with
    | 0x1000000 => r.gen * 2 ^ 56 + r.sqTail
    | 0x1000008 => r.gen * 2 ^ 56 + r.cqHead
    | 0x1000010 => r.sqHead
    | _ => cqWritten d n

/-! ### What a reader is shown -/

/-- A register as a management session reads it: its current value (R14), with the reader's own selections. The SNP block is read
from the snapshot itself. -/
def regValue (d : Dev) (rd off : Nat) : Nat := match regFind off with
  | none => 0
  | some (r, n) => match off / 65536 with
    | 1 => stkRead d off
    | 2 => crwRead d r.base n
    | 3 => schRead d rd r.base n off
    | 5 => xltRead d rd r.base n off
    | 6 => dirRead d rd r.base off
    | 7 => tirRead d r.base n off
    | 8 => fabRead d r.base n off
    | 10 => dnsRead d r.base n off
    | 11 => engRead d r.base n off
    | 12 => wskRead d rd r.base n off
    | 13 => ldlRead d r.base n off
    | 14 => sveRead d r.base n off
    | 15 => icuRead d off
    | 16 => fltRead d r.base n off
    | 17 => parRead d off
    | 18 => secRead d rd r.base n off
    | 20 => pwrRead d off
    | 21 => logRead d off
    | k => if 0x100 ≤ k then doorRead d r.base n else regRaw d off

/-- A register of the SNP block (Table 13-10). SNP_VIEW shows a register of the latched state as a management session would have
read it; zero outside the snapshot. -/
def snpRead (s : State) (rd off : Nat) : Nat :=
  let x := s.snap
  match off with
  | 0x130008 => x.missed % 2 ^ 32 * 2 ^ 32 + x.source * 2 ^ 8 + b2n x.armedAt.isSome * 2 + b2n x.frozen
  | 0x130010 => x.armedAt.getD 0
  | 0x130018 => x.stroke
  | 0x130020 => (x.skew + 254) % 256 * 2 ^ 16 + x.cycle
  | 0x130028 => selOf s.dev rd 7
  | 0x130030 => (match x.latched with
    | some d => let o := selOf s.dev rd 7
                if o < 0x160000 ∧ o / 65536 ≠ 0x13 then regValue d rd o else 0
    | none => 0)
  | _ => regRaw s.dev off

/-- A coarsened value (R357). -/
def coarsen (v : Nat) : Nat := if v < 64 then v else v / 2 ^ (Nat.log2 v - 6) * 2 ^ (Nat.log2 v - 6)

/-- The per-crew counters that are coarsened and latched (Table 12-8): their runs. -/
def meterRuns : List Nat :=
  [0x28048, 0x28050, 0x28058, 0x31008, 0x31018, 0x31020, 0x31028, 0x71010, 0x91000, 0xB1008, 0xB1010, 0xD8000, 0xD8008, 0xE8000, 0xE8008]

/-- The offset of a crew's register in a run of per-crew registers. -/
def crewOffset (base n : Nat) : Nat := match regFind base with
  | some (r, _) => base + n * r.stride
  | none => base

/-- A register's value with each field coarsened. -/
def coarsenFields (off v : Nat) : Nat := match regFind off with
  | some (r, _) => r.fields.foldl (fun a f => a + coarsen (bitsOf v f.hi f.lo) * 2 ^ f.lo) 0
  | none => 0

/-- The per-crew counters latched for crews' reads, once a millisecond (R356). -/
def meterLatch (d : Dev) : Dev :=
  (liveCrews d).foldl (fun d c => meterRuns.foldl (fun d b =>
    let off := crewOffset b c.1
    { d with latched := tSet d.latched off (BitVec.ofNat 64 (coarsenFields off (regValue d 0 off))) }) d) d

/-- METER_LATCH. -/
def execMeterLatch (s : State) : Host.Outcome State Fault Refusal := .next (onDev meterLatch s)

/-- A counter as it was last latched. -/
def latchedValue (d : Dev) (off : Nat) : Nat := match tGet? d.latched off with
  | some w => w.toNat
  | none => 0

/-- A register as a session bound to a crew, or a fabric access under the crew's control key word, reads it. -/
def crewRead (d : Dev) (crew rd off : Nat) : Nat := match regFind off with
  | none => 0
  | some (r, n) =>
    let v := regValue d rd off
    let only (b : Bool) : Nat := if b then v else 0
    let own := n == crew
    let pol := regRaw d (polBase n + 0x10)
    let ownPol := bitAt pol 0 && bitsOf pol 15 8 == crew
    let ownQueue (q : Nat) : Bool := (crewOf d crew).hasQueue q
    if meterRuns.contains r.base then (if own then latchedValue d off else 0)
    else match off / 65536 with
      | 0 => v
      | 1 => only (off != 0x10038)
      | 2 => only (decide (0x28000 ≤ r.base) && own)
      | 3 => (match r.base with
        | 0x30000 => v
        | 0x30008 => only (ownQueue (selOf d rd 0))
        | 0x30010 => only (ownQueue (selOf d rd 1))
        | 0x30018 => only (ownQueue (selOf d rd 1))
        | b => only (if 0x38000 ≤ b then ownPol else own))
      | 5 => (match r.base with
        | 0x50000 => v
        | 0x50010 => let c := ctxOf d (bitsOf (selOf d rd 2) 29 16)
                     only (c.en && c.crew == crew)
        | _ => 0)
      | 6 => only (decide (off ≤ 0x60010) || (r.base == 0x61000 && own))
      | 7 => only (off == 0x70000 || (decide (0x71000 ≤ r.base) && decide (r.base < 0x78000) && own)
          || (decide (0x78000 ≤ r.base) && ((tGet? d.wins n).getD {}).state != 0 && ((tGet? d.wins n).getD {}).crew == crew))
      | 8 => only (decide (off ≤ 0x80008))
      | 9 => only (off == 0x90000 || off == 0x90048 || off == 0x90050)
      | 11 => only (off == 0xB0000 || off == 0xB0028 || (decide (0xB1000 ≤ r.base) && own))
      | 12 => (match r.base with
        | 0xC0010 => 0
        | 0xC2000 => only own
        | 0xC0000 => only ((liveRegion d (markedRegion d (selOf d rd 4))).any fun x => x.crew == crew)
        | 0xC0008 => only ((liveRegion d (markedRegion d (selOf d rd 4))).any fun x => x.crew == crew)
        | _ => only ((profOf d n).crew == crew && ((profOf d n).en || (profOf d n).oldGen != 0)))
      | 13 => only (decide (0xD1000 ≤ r.base) && decide (r.base < 0xD8000) && (tableOf d n).state != 0 && (tableOf d n).crew == crew)
      | 14 => only (off == 0xE0000 || (decide (0xE1000 ≤ r.base) && (indexOf d n).state != 0 && (indexOf d n).crew == crew))
      | 16 => only (decide (0x101000 ≤ r.base) && own)
      | 17 => only (off == 0x110020)
      | 18 => only (off == 0x120000 || off == 0x120018 || (off == 0x120038 && (let k := keySlot d (selOf d rd 5)
                                                                              k.use != 0 && k.crew == crew)))
      | 20 => if off = 0x140030 then putBits v 15 0 0 else only (off == 0x140000 || off == 0x140020)
      | k => only (decide (0x100 ≤ k) && ownQueue n)

/-- A register read by anyone (R12, R13, R42): the status and the value. -/
def regRead (who : Writer) (off : Nat) (s : State) : Nat × Nat :=
  if off % 8 ≠ 0 then (stBadAlign, 0)
  else if 0x01200000 ≤ off then (stNoRights, 0)
  else
    let rd := readerId who
    (stOk, match writerCrew s.dev who with
      | some c => crewRead s.dev c rd off
      | none => match who with
        | .service _ => if off / 65536 = 0xF then icuRead s.dev off else 0
        | _ => if off / 65536 = 0x13 then (if (regFind off).isSome then snpRead s rd off else 0) else regValue s.dev rd off)

/-- REG_READ (R229). -/
def regReadBody (q : QCmd) (s : State) : State :=
  let who : Writer := match q.cmd.route with
    | .session i => .session i
    | .ring n => .fabric (queueOf s.dev n).crew (unitId (ownModule s.dev) 0)
  let (st, v) := if pNat q.cmd 0 8 ≥ 2 ^ 50 then (stBadField, 0) else regRead who (pNat q.cmd 0 8) s
  { s with dev := complete q st (if st = stOk then [v % 2 ^ 32, v / 2 ^ 32] else []) [] s.dev }

/-- REG_READ. -/
def execRegRead (c : Cmd) (s : State) : Host.Outcome State Fault Refusal := .next (runRow 0x0009 c regReadBody s)

end Sys2Proof.Machine
end

