-- ==== Sys2Proof/Machine/Registers.lean ====
section
/-! DEFINITION. Machine/Registers.lean: writes of the registers of control space: who may write what, what a write leaves, and when
it acts (R11 to R17, R75, R77 to R80, R101, R105, R111, R132, R137, R168, R169, R198, R229, R233, R267, R272, R278, R281, R289, R331,
R364, R385, R386, R416, R446, Table 2-2 step 4). -/

namespace Sys2Proof.Machine

/-! ### Rights -/

/-- Whether a writer exists: an open session, or a crew that lives. -/
def writerActs (d : Dev) : Writer → Bool
  | .session i => (sessOf d i).isOpen
  | .fabric c _ => crewLives d c
  | _ => true

/-- Whether a crew may write a register that is no selection and no doorbell (R169, R289, R385). The ID block is read-only to all
(R466). -/
def crewWrites (d : Dev) (crew base n : Nat) : Bool :=
  base < 0x10000 || ((base == 0x71000 || base == 0x71008 || base == 0x101000) && n == crew)
    || (base == 0xC1008 && (profOf d n).en && (profOf d n).crew == crew)

/-- Whether a writer may write a register at all (R333): management, the device's firmware, a crew its own, and the service firmware
FLT_PIN (R381). -/
def mayWrite (d : Dev) (who : Writer) (base n : Nat) : Bool :=
  isManager d who || (match writerCrew d who with
    | some c => crewWrites d c base n
    | none => (match who with
      | .service _ => base == 0x100010
      | _ => false))

/-! ### Limits on what a write may leave -/

/-- Whether the sealed shares of every stack stay within 75 % of its bytes in a stroke of a period (R75), with one crew's SEALED_MEM
replaced. A stack gives 2.5 TB/s, which is 50,000 / 17 bytes in a cycle. -/
def sealedFits (d : Dev) (crew mem cycles : Nat) : Bool :=
  (List.range 16).all fun k =>
    let sum := ((liveCrews d).filter fun c => c.2.sealedCrew && bitAt c.2.stackMask k).foldl (fun a c =>
      a + (if c.1 = crew then mem else bitsOf (regRaw d (0x31000 + 0x40 * c.1)) 31 16)) 0
    decide (sum * 64 * 68 ≤ 150000 * cycles)

/-- Whether a queue is bound to a policer, or is about to be. -/
def policerBound (d : Dev) (p : Nat) : Bool :=
  d.queues.any fun r => r.2.present && (let v := qconfRead d r.1
                                        bitAt v 15 && bitsOf v 25 16 == p)

/-- The sum of the crews' shares of a die's home-cache space in MiB, with one crew's replaced (R111). -/
def cspaceSum (d : Dev) (die crew v : Nat) : Nat :=
  (List.range 256).foldl (fun a n =>
    a + bitsOf (if n = crew then v else regRaw d (0x61000 + 8 * n)) (8 * die + 7) (8 * die)) 0

/-- Whether the regions that a namespace holds may stay under a configuration (R168). -/
def nsKeeps (d : Dev) (i v : Nat) : Bool :=
  d.regions.all fun r => addrSpace (r.1 * 2 ^ 21) != 1 || r.2.ns != i ||
    (let mine := bitAt v 61 && bitsOf v 55 48 == r.2.crew
     if crewSealed d r.2.crew then mine else !bitAt v 61 || mine)

/-- What a write may leave in a register beyond the rules of its fields: the value left, and whether a change was refused. -/
def adjust (d : Dev) (base n old new : Nat) : Nat × Bool :=
  let field (ok : Bool) (hi lo : Nat) : Nat × Bool := if ok then (new, false) else (putBits new hi lo (bitsOf old hi lo), true)
  let whole (ok : Bool) : Nat × Bool := if ok then (new, false) else (old, true)
  match base with
  | 0x10008 => field (bitsOf new 28 16 == bitsOf old 28 16 || sealedFits d 256 0 (bitsOf new 28 16)) 28 16
  | 0x10010 => whole (decide (d.stk.number + 1024 ≤ new))
  | 0x31000 => field (bitsOf new 31 16 == bitsOf old 31 16 || sealedFits d n (bitsOf new 31 16) d.stk.current) 31 16
  | 0x38010 => field (bitsOf new 15 8 == bitsOf old 15 8 || !policerBound d n) 15 8
  | 0x60010 => whole (decide (cspaceSum d 0 256 0 ≤ 8 * bitsOf new 7 0) && decide (cspaceSum d 1 256 0 ≤ 8 * bitsOf new 15 8))
  | 0x61000 => whole (decide (cspaceSum d 0 n new ≤ 8 * bitsOf (regRaw d 0x60010) 7 0)
      && decide (cspaceSum d 1 n new ≤ 8 * bitsOf (regRaw d 0x60010) 15 8))
  | 0x71000 =>
    let c := crewOf d n
    let o := bitsOf old 31 0
    let v := bitsOf new 31 0
    field (v == o || (decide (c.dramUsed - o + v ≤ c.dramQuota)
      && (v != 0 || d.regions.all fun r => addrSpace (r.1 * 2 ^ 21) != 1 || r.2.crew != n))) 31 0
  | 0x80000 => field (bitsOf new 15 12 != bitsOf new 11 8) 15 12
  | 0x90058 => whole (decide (bitsOf new 47 32 < bitsOf new 15 0))
  | 0xA1000 => whole (nsKeeps d n new)
  | 0x100000 => if bitAt new 34 then (new, false) else (putBits new 34 34 1, true)
  | 0x100010 => field (!d.flt.fatal || bitAt new 0) 0 0
  | 0x101000 =>
    let qn := bitsOf new 14 0
    whole ((crewOf d n).hasQueue qn && (!bitAt new 15 || (queueOf d qn).present))
  | 0x140008 => field (!bitAt new 1 || bitAt old 1 || (liveCrews d).isEmpty) 1 1
  | 0x140040 => whole (decide (bitsOf new 15 0 < bitsOf new 31 16))
  | _ => (new, false)

/-- The owner field of a register's change (Table 12-9): a crew's own registers, else the device. -/
def regOwner (base n : Nat) : Nat :=
  if [0x31000, 0x61000, 0x71000, 0x71008, 0xB1000, 0x101000].contains base then n else deviceWide

/-- Whether a register's change is a SECURITY record (Table 12-9). -/
def regSecurity (r : RegSpec) : Bool := r.base / 65536 == 0x12 || r.fields.any fun f => f.acc == .rwl

/-! ### Writes by kind -/

/-- A write that acts in step 4 put behind the earlier ones of the stroke. -/
def queueWrite (w : RegWrite) (d : Dev) : Dev := { d with regQueue := d.regQueue ++ [{ w with stroke := d.stk.number }] }

/-- The registers whose writes act as they are performed: STK but for the period itself, and CRW_LEDGER_CTL, whose value comes into
force at the end of the interval (R40). -/
def actsAtOnce (base : Nat) : Bool := base / 65536 == 1 || base == 0x20008

/-- A write of a register that needs nothing but its fields' rules and limits: it is read back at once and, unless it acts as it is
performed, comes into force in step 4. -/
def plainWrite (who : Writer) (r : RegSpec) (n off v mask : Nat) (d : Dev) : Nat × Dev :=
  let old := regValue d (readerId who) off
  let (new, no) := writeFields d.locked r.fields old v mask
  let (new, refused) := adjust d r.base n old new
  let d1 := logReg who (regOwner r.base n) off (regSecurity r) old new (setReg off new d)
  let d2 := if r.base = 0x71000 then modCrew n (fun c => { c with dramUsed := c.dramUsed - bitsOf old 31 0 + bitsOf new 31 0 }) d1 else d1
  (stPartial (no || refused),
    if new = old then d else if actsAtOnce r.base then d2 else queueWrite { offset := off, value := BitVec.ofNat 64 new, who } d2)

/-- A write of a register that selects for read-back (R79, R105, R132, R289, R364, R386). -/
def selectWrite (who : Writer) (r : RegSpec) (k off v mask : Nat) (d : Dev) : Nat × Dev :=
  let rd := readerId who
  let (new, no) := writeFields false r.fields (regValue d rd off) v mask
  (stPartial no, setSel rd k new d)

/-- ENG_CREW_CONF (R240, R267): SPAD places the crew's window at once, EXPERT_MAX waits for step 4. -/
def engConfWrite (who : Writer) (r : RegSpec) (n off v mask : Nat) (d : Dev) : Nat × Dev :=
  let old := regValue d (readerId who) off
  let (new, no) := writeFields d.locked r.fields old v mask
  let (st, d1) : Nat × Dev := if bitsOf new 15 8 = bitsOf old 15 8 then (stOk, d)
    else if crewLives d n then setSpad n (bitsOf new 15 8) d else (stOkPartial, d)
  let new := putBits new 15 8 (tGet d1.spadSet n)
  let d2 := logReg who n off false old new (setReg off new d1)
  (stPartial (no || st != stOk),
    if bitsOf new 3 0 = bitsOf old 3 0 then d2 else queueWrite { offset := off, value := BitVec.ofNat 64 new, who } d2)

/-- Whether a writer may name a queue in SCH_QCONF or SCH_QSHAPE (R78). -/
def mayName (d : Dev) (who : Writer) (n : Nat) : Bool := match writerCrew d who with
  | some c => (crewOf d c).hasQueue n
  | none => isManager d who

/-- SCH_QCONF (Table 2-19, R73, R78, R79): the named queue is selected, and with APPLY = 1 its parameters are set. -/
def qconfWrite (who : Writer) (v mask : Nat) (d : Dev) : Nat × Dev :=
  let rd := readerId who
  let w := masked (regValue d rd 0x30008) v mask
  let n := bitsOf w 62 48
  let junk := bitsOf w 47 26 != 0 || bitsOf w 14 8 != 0
  let r := queueOf d n
  let p := bitsOf w 25 16
  let sel := setSel rd 0 n d
  if !mayName d who n then (if (writerCrew d who).isSome then stNoRights else stOkPartial, d)
  else if !bitAt w 63 then (stPartial junk, sel)
  else if !r.present then (stOkPartial, sel)
  else if bitAt w 15 ∧ bitsOf (regRaw d (polBase p + 0x10)) 15 8 ≠ r.crew then (stNoRights, d)
  else
    let old := qconfRead d n
    let weight := if bitsOf w 7 0 = 0 then bitsOf old 7 0 else bitsOf w 7 0
    let new := n * 2 ^ 48 + p * 2 ^ 16 + bitsOf w 15 15 * 2 ^ 15 + weight
    (stPartial (junk || bitsOf w 7 0 == 0),
      if new = old then sel
      else logReg who r.crew 0x30008 false old new (queueWrite { offset := 0x30008, value := BitVec.ofNat 64 new, who } sel))

/-- SCH_QSHAPE (Table 2-20, R70, R78, R79). -/
def qshapeWrite (who : Writer) (v mask : Nat) (d : Dev) : Nat × Dev :=
  let rd := readerId who
  let w := masked (regValue d rd 0x30010) v mask
  let n := bitsOf w 62 48
  let junk := bitsOf w 23 23 != 0
  let r := queueOf d n
  let sel := setSel rd 1 n d
  if !mayName d who n then (if (writerCrew d who).isSome then stNoRights else stOkPartial, d)
  else if !bitAt w 63 then (stPartial junk, sel)
  else if !r.present then (stOkPartial, sel)
  else
    let old := qshapeRead d n
    let new := n * 2 ^ 48 + bitsOf w 47 24 * 2 ^ 24 + bitsOf w 22 0
    (stPartial junk,
      if new = old then sel
      else logReg who r.crew 0x30010 false old new (queueWrite { offset := 0x30010, value := BitVec.ofNat 64 new, who } sel))

/-- The writer of a WSK_MARK as step 4 needs it: its crew, or management. -/
def markWriter (d : Dev) (who : Writer) : Writer := match writerCrew d who with
  | some c => .fabric c 0
  | none => .firmware

/-- WSK_MARK (R272, R289): with APPLY = 0 it only selects; with APPLY = 1 it acts in step 4 and is answered after it. -/
def markWrite (who : Writer) (r : RegSpec) (v mask : Nat) (q : Option QCmd) (job : Option Nat) (d : Dev) : Option Nat × Dev :=
  let rd := readerId who
  let (new, no) := writeFields false r.fields (regValue d rd 0xC0000) v mask
  let sel := setSel rd 4 (putBits new 63 63 0) d
  if !isManager d who ∧ (writerCrew d who).isNone then (some stOkPartial, d)
  else if !bitAt new 63 then (some (stPartial no), sel)
  else (none, queueWrite { offset := 0xC0000, value := BitVec.ofNat 64 new, who := markWriter d who, q, job, partly := no } sel)

/-- WSK_PROF_CTL, and WSK_PROF_DEF with PUBLISH = 1, act in step 4 and are answered after it (R276, R278, R281). -/
def profWrite (who : Writer) (r : RegSpec) (off v mask : Nat) (q : Option QCmd) (job : Option Nat) (d : Dev) : Option Nat × Dev :=
  let w := masked (regValue d (readerId who) off) v mask
  let (new, no) := writeFields false r.fields (regValue d (readerId who) off) v mask
  if r.base = 0xC1008 ∧ !bitAt w 63 then (some (stPartial no), d)
  else (none, queueWrite { offset := off, value := BitVec.ofNat 64 (if r.base = 0xC1008 then w else new), who, q, job, partly := no } d)

/-- A store to a queue's doorbell area (R101, R215, Table 7-6). -/
def doorWrite (who : Writer) (off v mask : Nat) (d : Dev) : Nat × Dev :=
  let n := (off - 0x1000000) / 64
  let w := masked (regRead who off { dev := d }).2 v mask
  match off % 64 with
  | 0 => sqTailWrite who n w d
  | 8 => cqHeadWrite who n w d
  | 0x10 => (match doorbellRight d who n with
    | some true => (stPartial (w != (queueOf d n).sqHead), d)
    | some false => (stNoRights, d)
    | none => (stOkPartial, d))
  | 0x18 => (match doorbellRight d who n with
    | some true => (stPartial (w != cqWritten d n), d)
    | some false => (stNoRights, d)
    | none => (stOkPartial, d))
  | _ => (stOk, d)

/-- A write of a register that changes the device alone. none: it is answered once it has acted in step 4. -/
def devRegWrite (who : Writer) (off v mask : Nat) (q : Option QCmd) (job : Option Nat) (d : Dev) : Option Nat × Dev :=
  let now (x : Nat × Dev) : Option Nat × Dev := (some x.1, x.2)
  match regFind off with
  | none => (some stOk, d)
  | some (r, n) =>
    if 0x1000000 ≤ r.base then now (doorWrite who off v mask d)
    else if r.base / 65536 = 0xF then now (icuWrite who off v mask d)
    else match r.base with
      | 0x30008 => now (qconfWrite who v mask d)
      | 0x30010 => now (qshapeWrite who v mask d)
      | 0x50008 => now (selectWrite who r 2 off v mask d)
      | 0x120030 => now (selectWrite who r 5 off v mask d)
      | 0x120050 => now (selectWrite who r 6 off v mask d)
      | 0xC0000 => markWrite who r v mask q job d
      | b =>
        if !mayWrite d who b n then (some stOkPartial, d)
        else match b with
          | 0x60050 => now (selectWrite who r 3 off v mask d)
          | 0xB1000 => now (engConfWrite who r n off v mask d)
          | 0xC1000 => profWrite who r off v mask q job d
          | 0xC1008 => profWrite who r off v mask q job d
          | _ => now (plainWrite who r n off v mask d)

/-- A write of an SNP register (R386): by management only, and it acts as it is performed. A release of FROZEN lets a later trigger
latch. -/
def snpWrite (who : Writer) (off v mask : Nat) (s : State) : Nat × State :=
  let rd := readerId who
  match regFind off with
  | none => (stOk, s)
  | some (r, _) =>
    if !isManager s.dev who then (stOkPartial, s)
    else
      let old := snpRead s rd off
      let (new, no) := writeFields false r.fields old v mask
      match off with
      | 0x130000 => (stPartial no, { s with dev := logReg who deviceWide off false old new (setReg off new s.dev) })
      | 0x130008 => (stPartial no, { s with
          snap := { s.snap with frozen := bitAt new 0 }
          dev := logReg who deviceWide off false old new s.dev })
      | 0x130028 => (stPartial no, { s with dev := setSel rd 7 new s.dev })
      | _ => (stPartial no, s)

/-- A write of PWR_RESET (R440, R442, R446), which acts when written. A module reset that takes place leaves nobody to answer. -/
def pwrResetWrite (who : Writer) (v mask : Nat) (s : State) : Option Nat × State :=
  let m := v &&& mask
  if !isManager s.dev who then (some stOkPartial, s)
  else if bitAt m 0 then
    let t := resetByWrite who s
    if s.dev.flt.fatal ∨ !s.dev.power.on ∨ !s.dev.pins.pwrGood then (some stOk, t) else (none, t)
  else
    let (st, d) := [0, 1].foldl (fun (a : Nat × Dev) die =>
      if bitAt m (die + 1) then
        let (st, d) := dieResetWrite who die a.2
        (if st = stOk then a.1 else st, d)
      else a) (stPartial (decide (8 ≤ m)), s.dev)
    (some st, { s with dev := d })

/-- A register written under a mask as one event (R12, R13, R15, R42, R229): the status, or none where the write is answered later or
not at all. -/
def regWrite (who : Writer) (off v mask : Nat) (q : Option QCmd) (job : Option Nat) (s : State) : Option Nat × State :=
  if off % 8 ≠ 0 then (some stBadAlign, s)
  else if 0x01200000 ≤ off then (some stNoRights, s)
  else if mask = 0 then (some stOk, s)
  else if !writerActs s.dev who then (some stOkPartial, s)
  else if off = 0x140010 then pwrResetWrite who v mask s
  else if off / 65536 = 0x13 then
    let (st, s) := snpWrite who off v mask s
    (some st, s)
  else
    let (st, d) := devRegWrite who off v mask q job s.dev
    (st, { s with dev := d })

/-! ### Step 4 of the boundary -/

/-- A queue's parameters as written (R68, R72). -/
def actQconf (v : Nat) (d : Dev) : Dev :=
  let n := bitsOf v 62 48
  let r := queueOf d n
  if !r.present then d
  else setQueue n { r with weight := bitsOf v 7 0, polEn := bitAt v 15, policer := bitsOf v 25 16 } d

/-- A queue's shaper as written (R70). -/
def actQshape (v : Nat) (d : Dev) : Dev :=
  let n := bitsOf v 62 48
  let r := queueOf d n
  let en := bitAt v 47
  let cap : Int := bitsOf v 46 24 * 64
  if !r.present then d
  else setQueue n { r with shEn := en, shBurst := bitsOf v 46 24, shRate := bitsOf v 22 0,
                           balance := if !en then 0 else if r.shEn then min r.balance cap else cap } d

/-- A policer's registers as written (R73): one that is enabled starts full, and the buckets are capped at the bursts. -/
def actPolicer (off v : Nat) (d : Dev) : Dev :=
  let p := (off - 0x38000) / 0x20
  let was := bitAt (regInForce d (polBase p + 0x10)) 0
  let d := { d with inForce := tSet d.inForce off (BitVec.ofNat 64 v) }
  let on := bitAt (regInForce d (polBase p + 0x10)) 0
  let burst := regInForce d (polBase p + 8)
  let b := regRaw d (polBase p + 0x18)
  if on ∧ !was then setReg (polBase p + 0x18) burst d
  else setReg (polBase p + 0x18) (min (bitsOf b 63 32) (bitsOf burst 63 32) * 2 ^ 32 + min (bitsOf b 31 0) (bitsOf burst 31 0)) d

/-- A crew's share of home-cache space as written (R111): a changed share reads as zero from then on. -/
def actCspace (off v : Nat) (d : Dev) : Dev :=
  let n := (off - 0x61000) / 8
  let old := regInForce d off
  let d := { d with inForce := tSet d.inForce off (BitVec.ofNat 64 v) }
  [0, 1].foldl (fun d die =>
    if bitsOf old (8 * die + 7) (8 * die) = bitsOf v (8 * die + 7) (8 * die) then d
    else { d with cspace := memClear d.cspace (cspaceAddr die n 0) (64 * 2 ^ 20) }) d

/-- A crew's tier-cache share as written (R137): a reduction drops the least recently used pages. -/
def actShare (off v : Nat) (d : Dev) : Dev :=
  let n := (off - 0x71000) / 0x20
  let d := { d with inForce := tSet d.inForce off (BitVec.ofNat 64 v) }
  let res := sortBy (fun p : Nat × Page => p.2.used) (residentPages d n)
  (res.take (res.length - sharePages d n)).foldl (fun d p => evictPage p.1 d) d

/-- PWR_CTL as written (R443, R444). A crew created since the write keeps the module out of standby. -/
def actPwrCtl (off v : Nat) (d : Dev) : Dev :=
  let was := bitAt (regInForce d off) 1
  let d := { d with inForce := tSet d.inForce off (BitVec.ofNat 64 v) }
  if bitAt v 1 ∧ !was then (if (liveCrews d).isEmpty then standbyEnter d else clearField off 1 1 d)
  else if !bitAt v 1 ∧ was then standbyLeave d
  else d

/-- A profile's register as written, with its change logged. -/
def actProfile (w : RegWrite) (d : Dev) : Nat × Dev :=
  let p := (w.offset - 0xC1000) / 0x20
  let old := regValue d 0 w.offset
  let (st, d) := if w.offset % 0x20 = 0 then profCtl p w.value.toNat w.stroke d else profPublish p w.value.toNat w.stroke d
  (st, logReg w.who deviceWide w.offset false old (regValue d 0 w.offset) d)

/-- A write acting in step 4: its status. -/
def actWrite (w : RegWrite) (d : Dev) : Nat × Dev :=
  let v := w.value.toNat
  let off := w.offset
  match (regFind off).map fun x => x.1.base with
  | some 0x30008 => (stOk, actQconf v d)
  | some 0x30010 => (stOk, actQshape v d)
  | some 0x38000 => (stOk, actPolicer off v d)
  | some 0x38008 => (stOk, actPolicer off v d)
  | some 0x38010 => (stOk, actPolicer off v d)
  | some 0x61000 => (stOk, actCspace off v d)
  | some 0x71000 => (stOk, actShare off v d)
  | some 0x140008 => (stOk, actPwrCtl off v d)
  | some 0xC0000 => wskMarkApply (writerCrew d w.who) v d
  | some 0xC1000 => actProfile w d
  | some 0xC1008 => actProfile w d
  | some 0x100010 => (stOk, { d with inForce := tSet d.inForce off (BitVec.ofNat 64 (if d.flt.fatal then 1 else v)) })
  | _ => (stOk, { d with inForce := tSet d.inForce off (BitVec.ofNat 64 v) })

/-- The words of a REG_READ or REG_WRITE: the value as the reader is shown it (R229). -/
def readBack (who : Writer) (off : Nat) (s : State) : List Nat :=
  let v := (regRead who off s).2
  [v % 2 ^ 32, v / 2 ^ 32]

/-- The writer that a command's route stands for. -/
def cmdWriter (d : Dev) (c : Cmd) : Writer := match c.route with
  | .session i => .session i
  | .ring n => .fabric (queueOf d n).crew 0

/-- The answer to a write that has acted in step 4 (R278). -/
def answerWrite (w : RegWrite) (st : Nat) (d : Dev) : Dev :=
  let st := if st = stOk ∧ w.partly then stOkPartial else st
  let d := match w.q with
    | some q => complete q st (if stSuccess st then readBack (cmdWriter d q.cmd) w.offset { dev := d } else []) [] d
    | none => d
  match w.job with
  | some jid =>
    let put (p : Part) : Part := if p.waitsFor (fun w => w == Wait.register) then p.fin st else p
    runJob jid { d with jobs := tMod d.jobs jid fun j => { j with parts := j.parts.map put } }
  | none => d

/-- Whether a later write of the same stroke to the same queue's shaper governs in a write's place (R70). -/
def superseded (w : RegWrite) (later : List RegWrite) : Bool :=
  w.offset == 0x30010 && later.any fun x => x.offset == 0x30010 && bitsOf x.value.toNat 62 48 == bitsOf w.value.toNat 62 48

/-- Register writes acting in the order written, and answered. -/
def actAll : List RegWrite → Dev → Dev
  | [], d => d
  | w :: ws, d =>
    let (st, d) := if superseded w ws then (stOk, d) else actWrite w d
    actAll ws (answerWrite w st d)

/-- Step 4 of the boundary: register writes take effect in the order written (Table 2-2). -/
def step4 (d : Dev) : Dev := actAll d.regQueue { d with regQueue := [] }

/-! ### Control space reached as memory -/

/-- A part that names a register, under a crew's control key word (R101): a read or a store of 64 bits as a session bound to the crew
would make it. -/
def controlPart (jid requester : Nat) (p : Part) (d : Dev) : Part × Dev :=
  match d.crews.find? fun c => c.2.state != 0 && c.2.ctlKey == p.key with
  | none => (p.fin stKeyMismatch, d)
  | some (c, _) =>
    let who : Writer := .fabric c requester
    if p.act = .read then
      let (st, v) := regRead who (addrOff p.addr) { dev := d }
      ({ p.fin st with data := toLe 8 v }, d)
    else match regWrite who (addrOff p.addr) (leNat p.data) allBits none (some jid) { dev := d } with
      | (some st, s) => (p.fin st, s.dev)
      | (none, s) => (p.wait .register, s.dev)

/-- The parts of a job that name registers accessed, in address order. -/
def controlParts (jid requester : Nat) : List Part → Dev → List Part × Dev
  | [], d => ([], d)
  | p :: ps, d =>
    let (p, d) := if p.waitsFor (fun w => w == Wait.control) then controlPart jid requester p d else (p, d)
    let (qs, d) := controlParts jid requester ps d
    (p :: qs, d)

/-- The jobs that reach for registers served. -/
def runControl (d : Dev) : Dev :=
  let js := d.jobs.filter fun j => j.2.parts.any fun p => p.waitsFor (fun w => w == Wait.control)
  js.foldl (fun d j => match tGet? d.jobs j.1 with
    | none => d
    | some x =>
      let (ps, d) := controlParts j.1 x.requester x.parts d
      runJob j.1 { d with jobs := tMod d.jobs j.1 fun y => { y with parts := ps } }) d

/-! ### Rows -/

/-- REG_WRITE (R229). -/
def regWriteBody (q : QCmd) (s : State) : State :=
  let who := cmdWriter s.dev q.cmd
  let off := pNat q.cmd 0 8
  if 2 ^ 50 ≤ off then { s with dev := completeSt q stBadField s.dev }
  else
    let (r, s) := regWrite who off (pNat q.cmd 8 8) (pNat q.cmd 16 8) (some q) none s
    match r with
    | none => s
    | some st => { s with dev := complete q st (if stSuccess st then readBack who off s else []) [] s.dev }

/-- REG_WRITE. -/
def execRegWrite (c : Cmd) (s : State) : Host.Outcome State Fault Refusal := .next (runRow 0x000A c regWriteBody s)

/-- A store to a register by a writer, every bit written. -/
def storeReg (who : Writer) (off v mask : Nat) (s : State) : State := settle (regWrite who off v mask none none s).2

/-- REGISTER_WRITE. -/
def execRegisterWrite (who : Writer) (offset : Nat) (value : Word) (s : State) : Host.Outcome State Fault Refusal :=
  .next (storeReg who offset value.toNat allBits s)

/-- SCH_QCONF_APPLY: a write of SCH_QCONF whose APPLY is 1. -/
def execSchQconfApply (who : Writer) (value : Word) (s : State) : Host.Outcome State Fault Refusal :=
  .next (storeReg who 0x30008 (putBits value.toNat 63 63 1) allBits s)

/-- SCH_QCONF_SELECT: a write of SCH_QCONF whose APPLY is 0. -/
def execSchQconfSelect (who : Writer) (value : Word) (s : State) : Host.Outcome State Fault Refusal :=
  .next (storeReg who 0x30008 (putBits value.toNat 63 63 0) allBits s)

/-- SCH_QSHAPE_APPLY: a write of SCH_QSHAPE whose APPLY is 1. -/
def execSchQshapeApply (who : Writer) (value : Word) (s : State) : Host.Outcome State Fault Refusal :=
  .next (storeReg who 0x30010 (putBits value.toNat 63 63 1) allBits s)

/-- SCH_QSHAPE_SELECT: a write of SCH_QSHAPE whose APPLY is 0. -/
def execSchQshapeSelect (who : Writer) (value : Word) (s : State) : Host.Outcome State Fault Refusal :=
  .next (storeReg who 0x30010 (putBits value.toNat 63 63 0) allBits s)

/-- STK_PERIOD_AT: a write of the stroke at which the period changes (R45). -/
def execStkPeriodAt (who : Writer) (value : Word) (s : State) : Host.Outcome State Fault Refusal :=
  .next (storeReg who 0x10010 value.toNat allBits s)

/-- The boundary that opens stroke AT, or a later one (R45): NEXT takes effect and AT returns to 0. -/
def periodChange (d : Dev) : Dev :=
  let t := regRaw d 0x10010
  if t ≠ 0 ∧ t ≤ d.stk.number then
    setReg 0x10010 0 { d with stk := { d.stk with current := bitsOf (regRaw d 0x10008) 28 16 } }
  else d

/-- PERIOD_CHANGE. -/
def execPeriodChange (s : State) : Host.Outcome State Fault Refusal := .next (onDev periodChange s)

/-- ENG_CREW_SPAD: a write of ENG_CREW_CONF of a crew. -/
def execEngCrewSpad (who : Writer) (crew : Nat) (value : Word) (s : State) : Host.Outcome State Fault Refusal :=
  .next (if crew < 256 then storeReg who (0xB1000 + 0x20 * crew) value.toNat 0xFF00 s else s)

/-- TIR_CREW_CACHE: a write of a crew's tier-cache share. -/
def execTirCrewCache (who : Writer) (crew : Nat) (value : Word) (s : State) : Host.Outcome State Fault Refusal :=
  .next (if crew < 256 then storeReg who (0x71000 + 0x20 * crew) value.toNat 0xFFFFFFFF s else s)

/-- WSK_MARK: a write of WSK_MARK with APPLY = 1 and FACTORED = 1. -/
def execWskMark (who : Writer) (value : Word) (s : State) : Host.Outcome State Fault Refusal :=
  .next (storeReg who 0xC0000 (putBits value.toNat 63 62 3) allBits s)

/-- WSK_UNMARK: a write of WSK_MARK with APPLY = 1 and FACTORED = 0. -/
def execWskUnmark (who : Writer) (value : Word) (s : State) : Host.Outcome State Fault Refusal :=
  .next (storeReg who 0xC0000 (putBits value.toNat 63 62 2) allBits s)

/-- WSK_MARK_SELECT: a write of WSK_MARK with APPLY = 0. -/
def execWskMarkSelect (who : Writer) (value : Word) (s : State) : Host.Outcome State Fault Refusal :=
  .next (storeReg who 0xC0000 (putBits value.toNat 63 63 0) allBits s)

/-- WSK_PROF_PUBLISH: a write of a profile's WSK_PROF_DEF with PUBLISH = 1. -/
def execWskProfPublish (who : Writer) (profile : Nat) (value : Word) (s : State) : Host.Outcome State Fault Refusal :=
  .next (if profile < 64 then storeReg who (0xC1008 + 0x20 * profile) (putBits value.toNat 63 63 1) allBits s else s)

/-- WSK_PROF_DISABLE: a write of a profile's WSK_PROF_CTL with EN = 0. -/
def execWskProfDisable (who : Writer) (profile : Nat) (value : Word) (s : State) : Host.Outcome State Fault Refusal :=
  .next (if profile < 64 then storeReg who (0xC1000 + 0x20 * profile) (putBits value.toNat 0 0 0) allBits s else s)

/-- SNP_FROZEN_RELEASE: a write of 1 to SNP_STATE.FROZEN. -/
def execSnpFrozenRelease (who : Writer) (s : State) : Host.Outcome State Fault Refusal := .next (storeReg who 0x130008 1 1 s)

/-- PWR_STANDBY_ENTER: a write of PWR_CTL.STANDBY = 1. -/
def execPwrStandbyEnter (who : Writer) (s : State) : Host.Outcome State Fault Refusal := .next (storeReg who 0x140008 2 2 s)

/-- PWR_STANDBY_LEAVE: a write of PWR_CTL.STANDBY = 0. -/
def execPwrStandbyLeave (who : Writer) (s : State) : Host.Outcome State Fault Refusal := .next (storeReg who 0x140008 0 2 s)

end Sys2Proof.Machine
end

