-- ==== Sys2Proof/Machine/Memory.lean ====
section
/-! DEFINITION. Machine/Memory.lean: READ, WRITE, FILL, COPY, ATOMIC and FENCE (R120, R121, R131, R193, R230 to R232). -/

namespace Sys2Proof.Machine

/-- The requester as which the Cox cores act (Table 6-5). -/
def coxUnit (d : Dev) : Nat := unitId (ownModule d) 3

/-- The greatest SIZE or LENGTH of a READ, FILL or COPY. -/
def maxBytes : Nat := 268435456

/-- What a command finds of its address field: a key word beside a context-relative address, or a reserved SPACE (R11, R82). -/
def addrField (c : Cmd) : Bool := if Cmd.ctx c then pNat c 8 5 != 0 else addrSpace (pNat c 0 8) == 3

/-- An access of the Cox cores begun for a command (Table 6-5). -/
def cmdAccess (q : QCmd) (ctx : Bool) (goal : Goal) (ps : List Part) (d : Dev) : Dev :=
  runControl (startAccess { owner := .command q, crew := q.cmd.crew, requester := coxUnit d, stamp := d.stk.number, parts := ps, goal }
    ctx (some q.cmd.crew) d)

/-! ### READ, WRITE and FILL -/

/-- The checks of READ (Table 7-16, R231). -/
def readCheck (d : Dev) (q : QCmd) : Option Nat :=
  let c := q.cmd
  let size := pNat c 16 4
  let dest := pNat c 24 8
  let inline := dest == 0
  if addrField c then some stBadField
  else if size = 0 then some stOk
  else if maxBytes < size then some stBadLength
  else if (inline = true ∧ pNat c 32 5 ≠ 0) ∨ (inline = false ∧ ¬(homeDram d dest 1 = true)) then some stBadField
  else if inline = true then
    match c.route with
    | .ring _ => some stBadField
    | .session _ => if 8192 < size then some stBadLength else none
  else none

/-- READ (R230, R231). Lines of protected regions are refused unless DEST is a protected region of the crew (R353). -/
def readBody (q : QCmd) (d : Dev) : Dev := match readCheck d q with
  | some st => completeSt q st d
  | none =>
    let c := q.cmd
    let size := pNat c 16 4
    let dest := pNat c 24 8
    let part : Part := { addr := pNat c 0 8, len := size, key := pNat c 8 5, act := .read,
                         clear := dest == 0 || !rangeProtected d c.crew dest size }
    cmdAccess q (Cmd.ctx c) (if dest = 0 then .inlineData else .onward dest (pNat c 32 5) false) [part] d

/-- READ. -/
def execRead (c : Cmd) (s : State) : Host.Outcome State Fault Refusal := .next (runRow 0x0101 c (devBody readBody) s)

/-- WRITE (R230, R232): its data stands inline. -/
def writeBody (q : QCmd) (d : Dev) : Dev :=
  let c := q.cmd
  let size := c.length - 16
  if addrField c then completeSt q stBadField d
  else cmdAccess q (Cmd.ctx c) .count
    (if size = 0 then [] else [{ addr := pNat c 0 8, len := size, key := pNat c 8 5, act := .write, data := slice c.params 16 size }]) d

/-- WRITE. -/
def execWrite (c : Cmd) (s : State) : Host.Outcome State Fault Refusal := .next (runRow 0x0102 c (devBody writeBody) s)

/-- Byte j of a FILL receives PATTERN byte j mod 8 (Table 7-18). -/
def fillBytes (c : Cmd) (n : Nat) : List Byte := (List.range n).map fun j => c.params.getD (24 + j % 8) 0

/-- FILL (R230, R232). -/
def fillBody (q : QCmd) (d : Dev) : Dev :=
  let c := q.cmd
  let size := pNat c 16 4
  if addrField c then completeSt q stBadField d
  else if size = 0 then completeSt q stOk d
  else if maxBytes < size then completeSt q stBadLength d
  else cmdAccess q (Cmd.ctx c) .count
    [{ addr := pNat c 0 8, len := size, key := pNat c 8 5, act := .write, data := fillBytes c size }] d

/-- FILL. -/
def execFill (c : Cmd) (s : State) : Host.Outcome State Fault Refusal := .next (runRow 0x0103 c (devBody fillBody) s)

/-! ### COPY -/

/-- The checks of COPY (R193). -/
def copyCheck (d : Dev) (q : QCmd) : Option Nat :=
  let c := q.cmd
  let src := pNat c 0 8
  let dst := pNat c 16 8
  if pNat c 32 4 = 0 then some stOk
  else if maxBytes < pNat c 32 4 then some stBadLength
  else if Cmd.ctx c ∨ addrModule src ≠ ownModule d ∨ 2 ≤ addrSpace src ∨ addrSpace dst = 3 ∨ 2 ≤ pNat c 36 1 then some stBadField
  else if addrSpace dst ≠ 0 then some stNoRights
  else none

/-- The pages of a sealed-tier source read without being installed (Table 6-9 NO_FILL). -/
def readUnkept (src n key : Nat) (d : Dev) : Dev :=
  let pages := (List.range (pageNo (src + n - 1) + 1 - pageNo src)).map (pageNo src + ·)
  let due := pages.filter fun p => (tGet? d.pages p).isNone && (match regionAt d (p * 65536) with
    | some r => r.key == key && r.state == .sealedExtent
    | none => false)
  due.foldl (fun d p => startFill p false d) d

/-- COPY (R193). -/
def copyBody (q : QCmd) (d : Dev) : Dev := match copyCheck d q with
  | some st => completeSt q st d
  | none =>
    let c := q.cmd
    let src := pNat c 0 8
    let dst := pNat c 16 8
    let n := pNat c 32 4
    let d := if addrSpace src = 1 ∧ bitAt (pNat c 36 1) 0 then readUnkept src n (pNat c 8 5) d else d
    cmdAccess q false (.onward dst (pNat c 24 5) (bytesMeet src n dst n))
      [{ addr := src, len := n, key := pNat c 8 5, act := .read, clear := !rangeProtected d c.crew dst n }] d

/-- COPY. -/
def execCopy (c : Cmd) (s : State) : Host.Outcome State Fault Refusal := .next (runRow 0x0104 c (devBody copyBody) s)

/-! ### ATOMIC and FENCE -/

/-- Bytes that a SIZE code of an ATOMIC names (Table 4-5); zero for a reserved code. -/
def atomicSize (code : Nat) : Nat := match code with
  | 2 => 4
  | 3 => 8
  | 4 => 16
  | _ => 0

/-- The size and alignment that an atomic may have (R120): 16 bytes for SWAP and CAS alone, ADD_F32 on 4. -/
def atomicShape (op size a : Nat) : Bool :=
  (size == 4 || size == 8 || (size == 16 && (op == 8 || op == 9))) && (op != 10 || size == 4) && aligned a size

/-- Whether an address, translated where it is context-relative, lies in control space. -/
def reachesControl (d : Dev) (c : Cmd) (size : Nat) : Bool :=
  if Cmd.ctx c then
    match translate d (some c.crew) (coxUnit d) (pNat c 0 8) size 2 with
    | .ok a _ => addrSpace a == 2
    | _ => false
  else addrSpace (pNat c 0 8) == 2

/-- The checks of ATOMIC (R120, R121, R101, Table 4-5). -/
def atomicCheck (d : Dev) (q : QCmd) : Option Nat :=
  let c := q.cmd
  let op := pNat c 13 1
  let size := atomicSize (pNat c 14 1)
  let order := pNat c 15 1
  let scope := bitsOf order 3 2
  if addrField c ∨ 10 < op ∨ size = 0 ∨ 16 ≤ order ∨ scope = 0 ∨ scope = 3 ∨ pNat c (16 + size) (16 - size) ≠ 0
    ∨ (op ≠ 9 ∧ pNat c 32 16 ≠ 0) then some stBadField
  else if reachesControl d c size then some stNoRights
  else if !atomicShape op size (pNat c 0 8) then some stBadAlign
  else none

/-- ATOMIC (R120, R121). -/
def atomicBody (q : QCmd) (d : Dev) : Dev := match atomicCheck d q with
  | some st => completeSt q st d
  | none =>
    let c := q.cmd
    let size := atomicSize (pNat c 14 1)
    cmdAccess q (Cmd.ctx c) .oldValue
      [{ addr := pNat c 0 8, len := size, key := pNat c 8 5, act := .atomic (pNat c 13 1) size (pNat c 16 size) (pNat c 32 size),
         flags := 2 * pNat c 15 1 }] d

/-- ATOMIC. -/
def execAtomic (c : Cmd) (s : State) : Host.Outcome State Fault Refusal := .next (runRow 0x0105 c (devBody atomicBody) s)

/-- FENCE (R131): it starts once the earlier commands of its queue have completed, so that it completes at once. -/
def fenceBody (q : QCmd) (d : Dev) : Dev :=
  completeSt q (if pNat q.cmd 0 1 = 1 ∨ pNat q.cmd 0 1 = 2 then stOk else stBadField) d

/-- FENCE. -/
def execFence (c : Cmd) (s : State) : Host.Outcome State Fault Refusal := .next (runRow 0x0106 c (devBody fenceBody) s)

end Sys2Proof.Machine
end

