-- ==== Sys2Proof/Machine/Requests.lean ====
section
/-! DEFINITION. Machine/Requests.lean: packets that arrive (R177 to R179), cacheless requests at their entry module and home (R181,
R182, R187), bulk copies as they arrive (R193), responses and their timeouts (R182, R188, R468). -/

namespace Sys2Proof.Machine

/-! ### Packets -/

/-- A packet dropped unanswered (R178). -/
def dropBad (d : Dev) : Dev := bumpReg 0x80038 63 32 1 d
/-- A packet that matches nothing the device awaits (R182). -/
def dropStale (d : Dev) : Dev := bumpReg 0x80038 31 0 1 d
/-- Whether an identifier may send a request (R179). -/
def sourceOk (i : Nat) : Bool := i != 0 && (decide (i < 0xFF0000) || decide (i % 16 < 4))
/-- Whether a port takes packets: it is UP and not refused (R24). -/
def portTakes (d : Dev) (p : Nat) : Bool := (portOf d p).up && !(portOf d p).refused
/-- Whether a port carries more than CTL packets (R380, R436). -/
def takesTraffic (d : Dev) (p : Nat) : Bool := portTakes d p && d.power.serving && !d.flt.fatal

/-- Bytes that follow the request body of a packet (Table 6-6). -/
def reqTail (kind size : Nat) : Nat :=
  if kind = 0x02 ∨ kind = 0x61 then size else if kind = 0x03 then 32 else if kind = 0x07 ∧ size = 128 then 128 else 0

/-- Whether every field of a request body is zero (Table 6-6, AGENT_REG and AGENT_BYE). -/
def bodyZero (p : Req) : Bool :=
  p.addr == 0 && p.key == 0 && p.op == 0 && p.size == 0 && p.grantGen == 0 && p.regGen == 0 && p.entry == 0

/-- Whether a request packet or COPY_DATA is one that the receiver does not drop (R178, R179). -/
def reqFormed (kind : Nat) (p : Req) : Bool :=
  p.vc == (if kind = 0x61 then 4 else 1) && p.rsvZero && decide (p.flags < (if kind = 0x61 then 1 else 32))
    && p.length == 40 + reqTail kind p.size && (kind == 0x03 || p.data.length == reqTail kind p.size)
    && (decide (p.size ≤ 1024) || !(kind == 0x02 || kind == 0x61)) && bitsOf p.entry 14 12 == 0
    && (kind == 0x61 || p.poison == 0) && (!(kind == 0x08 || kind == 0x09) || bodyZero p) && sourceOk p.source

/-- A request packet that arrives: it does nothing where the port carries no requests or it is for another unit, and is dropped
where R178 says so. -/
def onRequest (kind : Nat) (p : Req) (f : Dev → Dev) (d : Dev) : Dev :=
  if !takesTraffic d p.port || p.dest != unitId (ownModule d) 0 then d else if !reqFormed kind p then dropBad d else f d

/-- The length that Table 6-6 gives a response; an RSP has 16 bytes more for an ATOM. -/
def rspLength (p : Rsp) : Bool :=
  if p.kind = 0x21 then p.length == 32 || p.length == 48
  else if p.kind = 0x22 then p.length == 32 + p.data.length
  else if p.kind = 0x23 ∨ p.kind = 0x24 ∨ p.kind = 0x29 then p.length == 160 && p.data.length == 128
  else if p.kind = 0x2A then p.length == 24
  else p.length == 32

/-- Whether a response packet is one that the receiver does not drop (R178). -/
def rspFormed (p : Rsp) : Bool :=
  p.vc == 2 && p.rsvZero && rspLength p && decide (p.length ≤ 1064) && p.load < 16 && p.credit < 4096
    && ((decide (0x21 ≤ p.kind) && decide (p.kind ≤ 0x2A)) || p.kind == 0x62)

/-- A response packet that arrives. -/
def onResponse (p : Rsp) (f : Dev → Dev) (d : Dev) : Dev :=
  if !takesTraffic d p.port || !ownUnit d p.dest then d else if !rspFormed p then dropBad d else f d

/-! ### Entry -/

/-- Requests of a requester that are outstanding here (R187). -/
def entryUse (d : Dev) (requester : Nat) : Nat := (d.outstanding.filter fun o => o.requester == requester).length

/-- A request outstanding no more. -/
def leaveEntry (p : Req) (d : Dev) : Dev :=
  { d with outstanding := d.outstanding.filter fun o => !(o.requester == p.source && o.tag == p.tag && o.tagGen == p.tagGen) }

/-- The pending buffer of an address's die is full, so that new requests are held at ingress (R116). -/
def bufferFull (d : Dev) (a : Nat) : Bool :=
  decide (16384 ≤ (d.pendingBuf.filter fun w => dieOf d (w.line * 128) == dieOf d a).length)

/-- A request taken by its entry module (R187): with 512 of its requester outstanding it is answered BUSY; with the table, or the
pending buffer of its die (R116), full it is held at ingress, where this model leaves it. A relayed request is another module's. -/
def enterRequest (kind : Nat) (p : Req) (busy go : Dev → Dev) (d : Dev) : Dev :=
  if bufferFull d p.addr then d
  else if bitAt p.entry 15 then go d
  else if 512 ≤ entryUse d p.source then busy (bumpReg 0x80030 63 32 1 d)
  else if 262144 ≤ d.outstanding.length then d
  else go { d with outstanding := d.outstanding ++
    [{ requester := p.source, tag := p.tag, tagGen := p.tagGen, stamp := d.stk.number, kind, req := p }] }

/-- What a hall address says of a request that reached the wrong home: one whose service has gone to the partner is answered TAKEOVER
(R402), the bow's control space is not its stern's (R401), and elsewhere no region is registered (R95). -/
def strayStatus (d : Dev) (p : Req) : Option Nat :=
  if bitAt p.flags 0 then none
  else if addrModule p.addr = ownModule d then (if homedHere d p.addr then none else some stTakeover)
  else if homedHere d p.addr then (if addrSpace p.addr = 2 then some stNoRights else none)
  else some stKeyMismatch

/-- The response kept for a request that a takeover has already answered (R400). -/
def keptFor (d : Dev) (p : Req) : Option Owed :=
  if !bitAt p.flags 0 && ((regionAt d p.addr).getD {}).paired then
    d.pair.kept.find? fun o => o.requester == p.source && o.tag == p.tag && o.tagGen == p.tagGen
  else none

/-- A cacheless access begun at the entry module: translated where it is context-relative, and served or relayed (R25, R26, R90). -/
def serveAccess (act : Act) (p : Req) (d : Dev) : Dev := match strayStatus d p with
  | some st => refuseFabric p act st (if st = stKeyMismatch then bumpReg 0x50058 63 0 1 d else d)
  | none =>
    let x : Part := { addr := p.addr, len := p.size, key := p.key, act, data := p.data,
                      clear := !ownUnit d p.source && act.right != 1 }
    runControl (startAccess { owner := .fabric p, requester := p.source, stamp := d.stk.number, parts := [x], goal := .respond }
      (bitAt p.flags 0) none d)

/-- A cacheless request that arrives. -/
def accessRow (kind : Nat) (act : Act) (p : Req) (refusal : Dev → Option Nat) (d : Dev) : Dev :=
  onRequest kind p (fun d => match keptFor d p with
    | some o => sendOwed o d
    | none => enterRequest kind p (refuseFabric p act stBusy)
      (fun d =>
        if p.size = 0 then refuseFabric p (if kind = 0x03 then act else .write) stOk d
        else match refusal d with
          | some st => refuseFabric p act st d
          | none => serveAccess act p d) d) d

/-- RD (R181). -/
def execRd (p : Req) (s : State) : Host.Outcome State Fault Refusal :=
  .next (onDev (accessRow 0x01 .read p fun _ => if 1024 < p.size then some stBadLength else none) s)

/-- WR (R119, R181). -/
def execWr (p : Req) (s : State) : Host.Outcome State Fault Refusal := .next (onDev (accessRow 0x02 .write p fun _ => none) s)

/-- Whether an atomic request reaches control space (R101). -/
def atomControl (d : Dev) (p : Req) : Bool :=
  if bitAt p.flags 0 then
    match translate d none p.source p.addr p.size 2 with
    | .ok a _ => addrSpace a == 2
    | _ => false
  else addrSpace p.addr == 2

/-- The checks of an ATOM (R120, R101). -/
def atomCheck (p : Req) (d : Dev) : Option Nat :=
  if 10 < p.op then some stBadField
  else if atomControl d p then some stNoRights
  else if !atomicShape p.op p.size p.addr then some stBadAlign
  else none

/-- ATOM (R120). -/
def execAtom (p : Req) (s : State) : Host.Outcome State Fault Refusal :=
  .next (onDev (accessRow 0x03 (.atomic p.op p.size (p.operand % 2 ^ (8 * p.size)) (p.compare % 2 ^ (8 * p.size))) p (atomCheck p)) s)

/-! ### Copies -/

/-- COPY_DATA (R193): each destination line is written, or poisoned where its POISON bit says so, and COPY_ACK returned. -/
def copyData (p : Req) (d : Dev) : Dev := match strayStatus d p with
  | some st => refuseFabric p .write st d
  | none =>
    if p.size = 0 then refuseFabric p .write stOk d
    else if addrSpace p.addr ≠ 0 then refuseFabric p .write stNoRights d
    else
      let ps := (splitParts p.addr p.size p.key .write p.data).zipIdx.map fun x => { x.1 with poisoned := bitAt p.poison x.2 }
      let (i, d) := freshId d
      runJob i (setJob i { owner := .fabric p, requester := p.source, stamp := d.stk.number, parts := ps, goal := .respond } d)

/-- COPY_DATA. -/
def execCopyData (p : Req) (s : State) : Host.Outcome State Fault Refusal := .next (onDev (onRequest 0x61 p (copyData p)) s)

/-! ### Responses -/

/-- Whether a part waits for a response with a tag. -/
def awaits (tag gen : Nat) (p : Part) : Bool := p.waitsFor fun w => match w with
  | .remote t g _ => t == tag && g == gen
  | _ => false

/-- Whether a job is a COPY. -/
def Job.copies (j : Job) : Bool := match j.owner with
  | .command q => q.opcode == 0x0104
  | _ => false

/-- A response taken by the line part that awaits it; the job goes on in the next step 9 (R54). One that nothing awaits is discarded
and counted (R182). -/
def answerPart (copy : Bool) (tag gen : Nat) (f : Part → Part) (d : Dev) : Dev :=
  let hit (j : Job) : Bool := j.copies == copy && j.parts.any (awaits tag gen)
  if d.jobs.any fun j => hit j.2 then
    { d with jobs := tMap d.jobs fun _ j => if hit j then
        { j with ready := true, parts := j.parts.map fun p => if awaits tag gen p then f p else p } else j }
  else dropStale d

/-- COPY_ACK (R193): a part that carried poison ends POISONED. -/
def copyAck (p : Rsp) (d : Dev) : Dev :=
  answerPart true p.tag p.tagGen (fun x => x.fin (if stSuccess p.status && x.poisoned then stPoisoned else p.status)) d

/-- COPY_ACK. -/
def execCopyAck (p : Rsp) (s : State) : Host.Outcome State Fault Refusal :=
  .next (onDev (onResponse { p with kind := 0x62 } (copyAck p)) s)

/-- DONE (R187): the relayed request that it names is outstanding no more. -/
def doneIn (p : Rsp) (d : Dev) : Dev :=
  let mine (o : Outstanding) : Bool := o.requester == p.requester && o.tag == p.tag && o.tagGen == p.tagGen && o.relayedTo.isSome
  if d.outstanding.any mine then { d with outstanding := d.outstanding.filter fun o => !mine o } else dropStale d

/-- DONE. -/
def execDone (p : Rsp) (s : State) : Host.Outcome State Fault Refusal := .next (onDev (onResponse { p with kind := 0x2A } (doneIn p)) s)

/-- A response's data in the part that asked for it. -/
def takeRsp (p : Rsp) (x : Part) : Part :=
  { x.fin p.status with data := match x.act with
    | .read => slice p.data 0 x.len
    | .write => x.data
    | .atomic _ _ _ _ => toLe 16 p.old }

/-- Whether a response answers the pair's ask of its witness (R398): a success carries the record as it was. -/
def fromWitness (d : Dev) (p : Rsp) : Bool := d.pair.asking == some (p.tag, p.tagGen) && p.kind == 0x21 && stSuccess p.status

/-- The device's own request sent again, with its tag, to the module that now serves its address (R192). -/
def resendPart (owner : Owner) (requester : Nat) (p : Part) (d : Dev) : Part × Dev := match p.state with
  | .waiting (.remote t g _) =>
    (p.wait (.remote t g (routeModule d p.addr)), sendPart owner requester t g p d)
  | _ => (p, d)

/-- The parts of a job that meet a test sent again. -/
def resendParts (f : Part → Bool) (owner : Owner) (requester : Nat) : List Part → Dev → List Part × Dev
  | [], d => ([], d)
  | p :: ps, d =>
    let (p, d) := if f p then resendPart owner requester p d else (p, d)
    let (qs, d) := resendParts f owner requester ps d
    (p :: qs, d)

/-- The jobs with a part that meets a test, those parts sent again. -/
def resendJobs (f : Part → Bool) (d : Dev) : Dev :=
  (d.jobs.filter fun j => j.2.parts.any f).foldl (fun d j =>
    let (ps, d) := resendParts f j.2.owner j.2.requester j.2.parts d
    setJob j.1 { j.2 with parts := ps } d) d

/-- Whether a part was sent to another module than the one that serves its address now. -/
def Part.misled (d : Dev) (p : Part) : Bool := p.waitsFor fun w => match w with
  | .remote _ _ m => m != routeModule d p.addr
  | _ => false

/-- A response with TAKEOVER to a request of the device (R192): the request is sent again to the module that the redirect table names;
until the REDIRECT has come it goes on waiting. -/
def rspTakeover (tag gen : Nat) (d : Dev) : Dev :=
  if d.jobs.any fun j => j.2.parts.any (awaits tag gen) then resendJobs (fun p => awaits tag gen p && p.misled d) d else dropStale d

/-- RSP (R182): a response to a request that the device made. The answer of the witness is taken in every phase (R437). -/
def rspIn (p : Rsp) (s : State) : State :=
  let d := s.dev
  if portTakes d p.port && !d.flt.fatal && ownUnit d p.dest && rspFormed p && fromWitness d p then witnessAnswer p.old s
  else { s with dev := onResponse p (if p.status = stTakeover then rspTakeover p.tag p.tagGen
                                     else answerPart false p.tag p.tagGen (takeRsp p)) d }

/-- RSP. -/
def execRsp (p : Rsp) (s : State) : Host.Outcome State Fault Refusal := .next (settle (rspIn p s))

/-- RELAYED_REQUEST_TIMEOUT (R188): no DONE within STK_TIMEOUT.PARK + 16 strokes of the stamp; the requester is answered TIMEOUT. -/
def relayTimeout (requester tag tagGen : Nat) (d : Dev) : Dev :=
  match d.outstanding.find? fun o => o.requester == requester && o.tag == tag && o.tagGen == tagGen && o.relayedTo.isSome with
  | none => d
  | some o =>
    if d.stk.number < o.stamp + parkTimeout d + 16 then d
    else refuseFabric { o.req with entry := 0 } (if o.kind = 3 then .atomic 0 0 0 0 else .write) stTimeout d

/-- RELAYED_REQUEST_TIMEOUT. -/
def execRelayedRequestTimeout (requester tag tagGen : Nat) (s : State) : Host.Outcome State Fault Refusal :=
  .next (onDev (relayTimeout requester tag tagGen) s)

/-- The strokes for which the device waits for another module (R468). -/
def remoteLimit (d : Dev) (a : Nat) : Nat := if addrSpace a = 1 then parkTimeout d + 16 else reqTimeout d + 16

/-- Whether a part waits for another module. -/
def Part.remote (p : Part) : Bool := p.waitsFor fun w => match w with
  | .remote _ _ _ => true
  | _ => false

/-- DEVICE_REQUEST_TIMEOUT (R468): the parts of a job whose limit has passed with no response end with TIMEOUT. -/
def remoteTimeout (job : Nat) (d : Dev) : Dev := match tGet? d.jobs job with
  | none => d
  | some j =>
    let due (p : Part) : Bool := p.remote && decide (p.since + remoteLimit d p.addr ≤ d.stk.number)
    if j.parts.any due then
      runControl (runJob job (setJob job { j with parts := j.parts.map fun p => if due p then p.fin stTimeout else p } d))
    else d

/-- DEVICE_REQUEST_TIMEOUT. -/
def execDeviceRequestTimeout (job : Nat) (s : State) : Host.Outcome State Fault Refusal := .next (onDev (remoteTimeout job) s)

end Sys2Proof.Machine
end

