-- ==== Sys2Proof/Machine/Coherence.lean ====
section
/-! DEFINITION. Machine/Coherence.lean: caching agents and the directory (R113 to R127, R142, R190, R191, R392): registrations, caching
requests and write-backs with their place in the pending buffer, snoop answers, ageing and crashed agents. -/

namespace Sys2Proof.Machine

/-! ### Agents and entries -/

/-- A caching agent's record. -/
def agentOf (d : Dev) (a : Nat) : Agent := (tGet? d.agents a).getD {}
/-- A caching agent's record replaced. -/
def setAgent (a : Nat) (g : Agent) (d : Dev) : Dev := { d with agents := tSet d.agents a g }
/-- Whether a registration generation is the one in force of an agent (R191). -/
def registeredAs (d : Dev) (a gen : Nat) : Bool := (agentOf d a).registered && (agentOf d a).regGen == gen
/-- Whether an entry names an agent, as a holder or as one still to answer. -/
def DirEntry.names (e : DirEntry) (a : Nat) : Bool := e.holders.contains a || e.unanswered.contains a
/-- Whether an agent holds an entry's line in X: it owns it, or is being recalled and has not written it back (R117). -/
def DirEntry.ownedBy (e : DirEntry) (a : Nat) : Bool :=
  (e.state == 2 && e.holders.contains a)
    || ((e.state == 9 || e.state == 0xA) && e.unanswered.contains a && (e.heldWb.map (·.source)) != some a)

/-- An agent that holds no line of a die leaves that die's agent table (R113). -/
def pruneAgent (a : Nat) (d : Dev) : Dev :=
  let holds (die : Nat) : Bool := d.dir.any fun e => dieOf d (e.1 * 128) == die && e.2.state != 0 && (e.2.names a
    || (match e.2.coarse with
      | some v => bitAt v (a / 2 ^ 18)
      | none => false))
  let g := agentOf d a
  let left := (List.range 2).filter fun k => bitAt g.dies k && holds k
  if (tGet? d.agents a).isNone then d else setAgent a { g with dies := left.foldl (fun n k => n + 2 ^ k) 0 } d

/-- Whether two lines share a set of one die's directory (R113). -/
def sameSet (d : Dev) (l m : Nat) : Bool := dieOf d (l * 128) == dieOf d (m * 128) && Config.dirSet l == Config.dirSet m

/-- A way for a line in its set (R122): where all 16 are in use, the stable entry allocated longest ago is evicted, and the request
waits unless the way is free at once. -/
def makeWay (line : Nat) (d : Dev) : Bool × Dev :=
  let used := d.dir.filter fun e => e.2.state != 0 && sameSet d e.1 line
  if (dirOf d line).state ≠ 0 ∨ used.length < 16 then (true, d)
  else match leastBy (fun e : Nat × DirEntry => e.2.allocated) (used.filter fun e => !transient e.2.state) with
    | none => (false, d)
    | some (v, e) =>
      let d := bumpDie 0x60020 (dieOf d (v * 128)) d
      let d := startSnoops v (if e.state = 1 then 8 else 9) false (holdersOf d v) (setDir v { e with evicting := true } d)
      ((dirOf d v).state == 0, d)

/-- An answer to a caching request or write-back. -/
def reply (w : Pending) (kind st gen : Nat) (data : List Byte) (d : Dev) : Dev :=
  sendRsp kind w.req.source w.req.tag w.req.tagGen (if st = stOk ∧ w.throttled then stOkThrottled else st) gen 0 data
    (leaveEntry w.req d)

/-- The entry of a line to which an agent is added: an entry in I is allocated anew. -/
def openEntry (line : Nat) (d : Dev) : DirEntry × Dev :=
  let e := dirOf d line
  if e.state = 0 then
    let (i, d) := freshId d
    ({ e with holders := [], coarse := none, allocated := i }, d)
  else (e, d)

/-- An agent entered in the agent table of a line's die (R113). -/
def enterAgent (a line : Nat) (d : Dev) : Dev :=
  let g := agentOf d a
  let k := dieOf d (line * 128)
  setAgent a { g with dies := if bitAt g.dies k then g.dies else g.dies + 2 ^ k } d

/-- A shared grant (Table 4-3). -/
def grantShared (w : Pending) (d : Dev) : Dev :=
  let (e, d) := openEntry w.line (enterAgent w.req.source w.line d)
  reply w 0x23 stOk 0 (lineData d w.line) (setDir w.line { addHolder w.req.source e with state := 1 } d)

/-- A sole grant (Table 4-3, R118): with data, or GRANT_X to a sharer that asked for none. -/
def grantSole (w : Pending) (upgrade : Bool) (d : Dev) : Dev :=
  let (e, d) := openEntry w.line (enterAgent w.req.source w.line d)
  let gen := (e.gen + 1) % 65536
  reply w (if upgrade then 0x25 else 0x24) stOk gen (if upgrade then [] else lineData d w.line)
    (setDir w.line { e with state := 2, gen, holders := [w.req.source], coarse := e.coarse.map fun _ => groupBit 0 w.req.source } d)

/-! ### The pending buffer -/

/-- Whether two records are of one request. -/
def Pending.same (w x : Pending) : Bool :=
  x.job.isNone && x.req.source == w.req.source && x.req.tag == w.req.tag && x.req.tagGen == w.req.tagGen && x.kind == w.kind

/-- A request's record changed. -/
def modPending (w : Pending) (f : Pending → Pending) (d : Dev) : Dev :=
  { d with pendingBuf := d.pendingBuf.map fun x => if w.same x then f x else x }

/-- A request that starts the snoops it needs: the line's next stable state is its own (Table 4-3). -/
def takeTurn (w : Pending) (state : Nat) (down : Bool) (targets keep : List Nat) (d : Dev) : Dev :=
  modPending w (fun x => { x with turn := true }) (startSnoops w.line state down targets d keep)

/-- A line's data taken back from its owner as the home value (Table 4-3). -/
def takeLine (line : Nat) (data : List Byte) (d : Dev) : Dev :=
  if data.isEmpty then d else countAccess (line * 128) (unpoison line (setLine line data d))

/-- WB at its home (Table 4-3, R117): from the owner it ends the hold; one that crosses a recall gives it its data and is acknowledged
with the recall's end; any other, and one of another grant, is discarded and counted. -/
def serveWb (w : Pending) (d : Dev) : Dev :=
  let p := w.req
  let e := dirOf d w.line
  if e.gen ≠ p.grantGen ∨ !e.ownedBy p.source then bumpReg 0x60040 63 0 1 (leaveEntry p d)
  else if e.state = 2 then
    pruneAgent p.source (reply w 0x26 stOk 0 [] (setDir w.line { e with state := 0, holders := [], coarse := none }
      (takeLine w.line p.data d)))
  else setDir w.line { e with heldWb := some p, holders := e.holders.filter (· != p.source) } (takeLine w.line p.data d)

/-- Whether a caching request must wait before the directory is asked: for the pair, the tier cache, the mirror (R391) or the stern's
copy of an uncorrectable line (R367). -/
def cachingWaits (w : Pending) (d : Dev) : Bool × Dev :=
  let a := w.line * 128
  let r := (regionAt d a).getD {}
  if r.paired && (d.pair.state == 7 || d.pair.switching || (d.cfg.role != 0 && d.pair.state != 0 && !pairServes d)) then (true, d)
  else if addrSpace a = 1 ∧ (tGet? d.pages (pageNo a)).isNone then (true, startFill (pageNo a) true d)
  else ((mirrorOf d w.line).isSome || (isPoisoned d w.line && repairing d w.line), d)

/-- A caching request tried (Table 4-3): whether it has been answered. -/
def serveCaching : Nat → Pending → Dev → Bool × Dev
  | 0, _, d => (false, d)
  | fuel + 1, w, d =>
    let a := w.req.source
    let line := w.line
    let r := (regionAt d (line * 128)).getD {}
    if w.kind = 0x07 then (true, serveWb w d)
    else if !registeredAs d a w.req.regGen then (true, reply w 0x21 stStale 0 [] d)
    else if (regionAt d (line * 128)).isNone then (true, reply w 0x21 stKeyMismatch 0 [] d)
    else if r.paired ∧ (d.pair.state = 5 ∨ d.pair.state = 9) then (true, reply w 0x21 stTakeover 0 [] d)
    else
      let (held, d) := cachingWaits w d
      let d := sweepLine line d
      let e := dirOf d line
      let hs := holdersOf d line
      let named := decide (e.state = 1) && hs.contains a
      if held ∨ transient e.state ∨ yields d line w.promoted then (false, d)
      else if isPoisoned d line ∧ !(named && w.kind == 0x06) then (true, reply w 0x21 stPoisoned 0 [] d)
      else if crewSealed d r.crew then (true, reply w 0x22 stOk 0 (lineData d line) d)
      else
        let full := !bitAt (agentOf d a).dies (dieOf d (line * 128)) && decide (4096 ≤ (agentsOn d (dieOf d (line * 128))).length)
        let again (d : Dev) : Bool × Dev := if transient (dirOf d line).state then (false, d) else serveCaching fuel w d
        if e.state = 2 ∧ (full ∨ w.kind = 0x04) then again (takeTurn w 0xA true e.holders e.holders d)
        else if full then (true, reply w 0x22 stOk 0 (lineData d line) (bumpReg 0x60030 63 32 1 d))
        else if e.state = 2 then again (takeTurn w 9 false e.holders [] d)
        else
          let (way, d) := makeWay line d
          if !way then (false, d)
          else if w.kind = 0x04 then (true, grantShared w (countAccess (line * 128) d))
          else
            let others := if e.state = 1 then hs.filter (· != a) else []
            if others.isEmpty then (true, grantSole w (named && w.kind == 0x06) (countAccess (line * 128) d))
            else again (takeTurn w 8 false others (if named then [a] else []) d)

/-- A request in the pending buffer tried: it leaves the buffer once it is answered; one that was taken in vain counts a retry
(R123). -/
def tryPending (retry : Bool) (w : Pending) (d : Dev) : Dev :=
  let (done, d) := serveCaching 3 w d
  if done then { d with pendingBuf := d.pendingBuf.filter fun x => !w.same x }
  else if retry then modPending w (fun x => if x.turn then x else { x with retries := x.retries + 1 }) d
  else d

/-- The order in which the waiting requests of a line are taken (R123): promoted ones first, in the order of their promotion. -/
def Pending.key (w : Pending) : Nat := match w.promoted with
  | some p => p
  | none => 2 ^ 64

/-- PENDING_RETRY (R116): the caching requests that wait for a line in a stable state are taken from the pending buffer in turn. -/
def pendingRetry (line : Nat) (d : Dev) : Dev :=
  if transient (dirOf d line).state then d
  else
    let ws := sortBy Pending.key (d.pendingBuf.filter fun w => w.line == line && w.job.isNone && !w.delayed)
    ws.foldl (fun d w => match d.pendingBuf.find? w.same with
      | some x => tryPending true x d
      | none => d) d

/-- PENDING_RETRY. -/
def execPendingRetry (line : Nat) (s : State) : Host.Outcome State Fault Refusal := .next (onDev (pendingRetry line) s)

/-- One waiting request promoted where its retries have reached DIR_AGE_LIMIT (R123). -/
def promoteOne (x : List Pending × Dev) (w : Pending) : List Pending × Dev :=
  let (ws, d) := x
  if w.promoted.isNone && decide (cfgField d 0x60008 7 0 ≤ w.retries) then
    let (i, d) := freshId d
    (ws ++ [{ w with promoted := some i }], bumpDie 0x60028 (dieOf d (w.line * 128)) d)
  else (ws ++ [w], d)

/-- AGE_PROMOTION (R123). -/
def agePromotion (line : Nat) (d : Dev) : Dev :=
  let (ws, d) := d.pendingBuf.foldl (fun x w => if w.line = line then promoteOne x w else (x.1 ++ [w], x.2)) ([], d)
  { d with pendingBuf := ws }

/-- AGE_PROMOTION. -/
def execAgePromotion (line : Nat) (s : State) : Host.Outcome State Fault Refusal := .next (onDev (agePromotion line) s)

/-! ### Arrival -/

/-- The checks of a caching request or WB on arrival, in order (R181, R191, R95, R142, R392, R353). WB carries no key, and one of a
registration declared crashed is discarded (R117). -/
def cachingCheck (kind : Nat) (p : Req) (d : Dev) : Option Nat × Dev :=
  let r := (regionAt d p.addr).getD {}
  if bitAt p.flags 0 ∨ !aligned p.addr 128 ∨ !(p.size == 128 || (kind == 0x07 && p.size == 0)) then (some stBadField, d)
  else if !registeredAs d p.source p.regGen then (some stStale, d)
  else if kind = 0x07 then (none, d)
  else match strayStatus d p with
    | some st => (some st, d)
    | none => match keyCheck { addr := p.addr, len := 128, key := p.key, act := .read } d with
      | (some st, d) => (some st, d)
      | (none, d) =>
        if kind ≠ 0x04 ∧ (addrSpace p.addr = 1 ∨ r.paired) then (some stNoRights, d)
        else if r.prot ∧ !ownUnit d p.source then (some stNoRights, d)
        else (none, d)

/-- A caching request or WB taken at its home: it enters the pending buffer and, unless its requester's limit delays it (R184), is
tried at once. -/
def takeCaching (kind : Nat) (p : Req) (d : Dev) : Dev :=
  let late := overBudget d p.source (reqCost p kind)
  let w : Pending := { line := lineOf p.addr, kind, req := p, stamp := d.stk.number, delayed := late, throttled := late }
  let d := { d with pendingBuf := d.pendingBuf ++ [w] }
  if late then bumpReg 0x80040 63 0 1 d else tryPending false w (charge p.source (reqCost p kind) d)

/-- A caching request or WB that arrives. -/
def cachingRow (kind : Nat) (p : Req) (d : Dev) : Dev :=
  onRequest kind p (fun d =>
    if kind = 0x07 ∧ (agentOf d p.source).crashed.contains p.regGen then bumpReg 0x60040 63 0 1 d
    else enterRequest kind p (reply { req := p } 0x21 stBusy 0 []) (fun d => match cachingCheck kind p d with
      | (some st, d) => reply { req := p } 0x21 st 0 [] d
      | (none, d) => takeCaching kind p d) d) d

/-- RD_S. -/
def execRdS (p : Req) (s : State) : Host.Outcome State Fault Refusal := .next (onDev (cachingRow 0x04 p) s)
/-- RD_X. -/
def execRdX (p : Req) (s : State) : Host.Outcome State Fault Refusal := .next (onDev (cachingRow 0x05 p) s)
/-- UPG. -/
def execUpg (p : Req) (s : State) : Host.Outcome State Fault Refusal := .next (onDev (cachingRow 0x06 p) s)
/-- WB. -/
def execWb (p : Req) (s : State) : Host.Outcome State Fault Refusal := .next (onDev (cachingRow 0x07 p) s)

/-! ### Answers -/

/-- A line whose last answer is in (Table 4-3): its state is stable, a write-back that crossed is acknowledged (R117), parked accesses
are to be resumed (R54), and the request whose turn it is is served. -/
def settleLine (line : Nat) (d : Dev) : Dev :=
  let e := dirOf d line
  if !transient e.state ∨ !e.unanswered.isEmpty then d
  else
    let hs := if e.evicting then [] else e.holders
    let d := setDir line { e with state := if hs.isEmpty then 0 else 1, holders := hs, coarse := none, evicting := false, heldWb := none } d
    let d := match e.heldWb with
      | some p => reply { req := p } 0x26 stOk 0 [] d
      | none => d
    let d := wakeJobs (fun w => w == .snoop line) d
    let stays (b : Bool) (d : Dev) : Dev := if e.coarse.isSome && !e.evicting && b then stayCoarse line d else d
    match d.pendingBuf.find? fun w => w.line == line && w.turn with
    | some w => stays (!hs.isEmpty || w.kind != 0x04) (tryPending false w (modPending w (fun x => { x with turn := false }) d))
    | none => stays (!hs.isEmpty) d

/-- An agent has answered a snoop of a line, or never will. -/
def answered (line a : Nat) (d : Dev) : Dev :=
  let e := dirOf d line
  pruneAgent a (settleLine line (setDir line { e with unanswered := e.unanswered.filter (· != a) }
    { d with snoops := d.snoops.filter fun s => !(s.line == line && s.agent == a) }))

/-- ACK and ACK_D (R117): an answer of a crashed registration, or of a recalled owner with another grant generation, is discarded and
counted; one that matches no snoop is stale (R182). -/
def ackIn (p : Rsp) (data : List Byte) (d : Dev) : Dev :=
  if (agentOf d p.source).crashed.contains p.regGen then bumpReg 0x60040 63 0 1 d
  else match d.snoops.find? fun s => s.tag == p.tag && s.tagGen == p.tagGen && s.agent == p.source with
    | none => dropStale d
    | some s =>
      let e := dirOf d s.line
      let recalled := decide (e.state = 9 ∨ e.state = 0xA)
      if s.regGen ≠ p.regGen ∨ (recalled = true ∧ p.grantGen ≠ e.gen) then bumpReg 0x60040 63 0 1 d
      else answered s.line p.source (if recalled || e.evicting then takeLine s.line data d else d)

/-- ACK. -/
def execAck (p : Rsp) (s : State) : Host.Outcome State Fault Refusal :=
  .next (onDev (onResponse { p with kind := 0x28 } (ackIn p [])) s)
/-- ACK_D. -/
def execAckD (p : Rsp) (s : State) : Host.Outcome State Fault Refusal :=
  .next (onDev (onResponse { p with kind := 0x29 } (ackIn p p.data)) s)

/-! ### Crashed agents -/

/-- The changes of a crashed owner lost (R125): the line keeps its home value, and is poisoned unless its region is under REVERT. -/
def loseChanges (line : Nat) (d : Dev) : Dev :=
  if ((regionAt d (line * 128)).getD {}).revert then bumpReg 0x60048 63 32 1 d else bumpReg 0x60048 31 0 1 (poisonLine line d)

/-- A line with an outstanding snoop to a crashed agent, handled at once (R125). -/
def loseLine (a line : Nat) (d : Dev) : Dev :=
  let e := dirOf d line
  let d := if e.ownedBy a then loseChanges line d else d
  answered line a (setDir line { e with holders := e.holders.filter (· != a) } d)

/-- A contained fault record for the crew of a region in which a crashed agent held lines in X (R127). -/
def crashRecord (a : Nat) (lines : List Nat) (d : Dev) (region : Nat) : Dev :=
  let r := (tGet? d.regions region).getD {}
  let addr := ((lines.filter fun l => l / 16384 == region).headD 0) * 128
  recordFault { cls := 2, source := 0x0A, status := if r.revert then 0 else stPoisoned, unit := 0xA000 + a % 4096,
                flags := if r.revert then 0 else 1, addr, detail := a } ((tGet? d.regions region).map (·.crew)) d

/-- An agent declared crashed (R124, R125, R127): records are opened, lines with outstanding snoops are handled at once, and the others
are left to the sweep while a record for it is free, and else to their own snoop limits. -/
def declareCrashed (a : Nat) (d : Dev) : Dev :=
  let g := agentOf d a
  let owned := (d.dir.filter fun e => e.2.ownedBy a).map (·.1)
  let recorded := decide ((d.agents.filter fun x => x.2.since.isSome).length < 64)
  let d := bumpReg 0x60038 63 32 1 (setAgent a { g with registered := false, crashed := g.crashed ++ [g.regGen] } d)
  let d := (owned.foldl (fun l x => addTo l (x / 16384)) []).foldl (crashRecord a owned) d
  let d := ((d.snoops.filter fun s => s.agent == a).map (·.line)).foldl (fun d l => loseLine a l d) d
  if !recorded then d
  else
    let rest := (d.dir.filter fun e => e.2.state != 0 && e.2.names a).map (·.1)
    let g := agentOf d a
    setAgent a { g with sweep := g.sweep ++ rest.filter fun l => !g.sweep.contains l, since := some d.stk.number } d

/-- SNOOP_LIMIT_EXPIRY (R124): an agent that has not answered a snoop within DIR_CTL.SNOOP_LIMIT strokes is declared crashed; the line of
a registration already declared is handled by itself (R125). -/
def snoopExpiry (line a : Nat) (d : Dev) : Dev :=
  match d.snoops.find? fun s => s.line == line && s.agent == a && decide (s.sent + cfgField d 0x60000 7 0 ≤ d.stk.number) with
  | none => d
  | some s => if registeredAs d a s.regGen then declareCrashed a d else loseLine a line d

/-- SNOOP_LIMIT_EXPIRY. -/
def execSnoopLimitExpiry (line agent : Nat) (s : State) : Host.Outcome State Fault Refusal := .next (onDev (snoopExpiry line agent) s)

/-- One slice of the sweeps of crashed registrations (R125): 64 entries of each die's directory a stroke; a record closes 32,768
strokes after its declaration. -/
def sweepSlice (d : Dev) : Dev :=
  let lines := d.agents.flatMap fun a => a.2.sweep
  let due (die : Nat) : List Nat := (lines.filter fun l => dieOf d (l * 128) == die).take 64
  let d := (due 0 ++ due 1).foldl (fun d l => sweepLine l d) d
  let d := { d with agents := tMap d.agents fun _ g =>
    match g.since with
    | some t => if g.sweep.isEmpty ∧ t + 32768 ≤ d.stk.number then { g with since := none } else g
    | none => g }
  ((d.agents.filter fun a => !a.2.registered).map (·.1)).foldl (fun d a => pruneAgent a d) d

/-! ### Registration -/

/-- AGENT_REG (R190): a registration already held is ended and declared crashed; the new one takes the next generation. -/
def agentReg (p : Req) (d : Dev) : Dev :=
  let d := if (agentOf d p.source).registered then declareCrashed p.source d else d
  let g := agentOf d p.source
  let gen := (g.regGen + 1) % 65536
  sendRsp 0x27 p.source p.tag p.tagGen stOk 0 gen [] (leaveEntry p (setAgent p.source { g with regGen := gen, registered := true } d))

/-- A registration frame: an AGENT_REG or AGENT_BYE that arrives. -/
def agentRow (kind : Nat) (p : Req) (f : Dev → Dev) (d : Dev) : Dev :=
  onRequest kind p (enterRequest kind p (reply { req := p } 0x21 stBusy 0 []) f) d

/-- AGENT_REG. -/
def execAgentReg (p : Req) (s : State) : Host.Outcome State Fault Refusal := .next (onDev (agentRow 0x08 p (agentReg p)) s)

/-- A clean leave (R190): the agent's shared copies are dropped. -/
def cleanLeave (a : Nat) (d : Dev) : Dev :=
  let lines := (d.dir.filter fun e => e.2.names a).map (·.1)
  let d := setAgent a { agentOf d a with registered := false } d
  let d := lines.foldl (fun d l =>
    let e := dirOf d l
    let hs := e.holders.filter (· != a)
    answered l a (setDir l { e with holders := hs, state := if e.state = 1 ∧ e.coarse.isNone ∧ hs.isEmpty then 0 else e.state } d)) d
  setAgent a { agentOf d a with dies := 0 } d

/-- AGENT_BYE (R190): a clean leave, or the report of a registration that ends with lines in X. -/
def agentBye (p : Req) (d : Dev) : Dev :=
  let a := p.source
  let d := if !(agentOf d a).registered then d
    else if d.dir.any fun e => e.2.ownedBy a then declareCrashed a d
    else cleanLeave a d
  reply { req := p } 0x21 stOk 0 [] d

/-- AGENT_BYE. -/
def execAgentBye (p : Req) (s : State) : Host.Outcome State Fault Refusal := .next (onDev (agentRow 0x09 p (agentBye p)) s)

end Sys2Proof.Machine
end

