-- ==== Sys2Proof/Machine/Links.lean ====
section
/-! DEFINITION. Machine/Links.lean: sync words and path delay (R48 to R51, R194, R195), redirects (R192, R402), and the link layer
of the fabric ports: flits, acknowledgement, credits and training (R170 to R177). -/

namespace Sys2Proof.Machine

/-! ### Sync words and path delay -/

/-- Whether this module's ports include pair ports in use, and a port is one of them (R171). -/
def pairPort (d : Dev) (p : Nat) : Bool := d.cfg.role != 0 && (pairPorts d).contains p

/-- The sync peer of a port that sends and takes sync words (R194): the partner on a pair port, otherwise the module that its
FAB_SYNC_PEER entry names. -/
def syncPeer (d : Dev) (p : Nat) : Option Nat :=
  let e := bitsOf (cfgField d (0x80010 + 8 * (p / 4)) 63 0) (16 * (p % 4) + 15) (16 * (p % 4))
  if !portTakes d p || !bitAt (regRaw d 0x10020) p then none
  else if pairPort d p then some (partnerModule d)
  else if bitAt e 15 then some (e % 4096)
  else none

/-- A CTL packet of the module on one port. -/
def sendCtl (port kind toModule : Nat) (body : List Byte) (d : Dev) : Dev :=
  sendPkt { kind, dest := unitId toModule 0, source := unitId (ownModule d) 0, port := some port, body } d

/-- The body of a SYNC (Table 6-11): the master sends hop count 0, any other module one more than it follows (R194). -/
def syncBody (d : Dev) (txOffset : Nat) : List Byte :=
  toLe 8 d.stk.number ++ toLe 4 txOffset ++ toLe 2 (d.stk.current % 2 ^ 13)
    ++ toLe 2 (if d.cfg.master then ownModule d else d.stk.master) ++ toLe 1 (if d.cfg.master then 0 else d.stk.hops + 1) ++ zeros 3
    ++ toLe 4 d.cfg.hall ++ zeros 8

/-- SYNC_SEND (R194): sixteen strokes have passed. The offset of the word within its stroke is free. -/
def syncSend (d : Dev) : Dev :=
  if d.power.phase < 6 then d
  else (List.range 16).foldl (fun d p => match syncPeer d p with
    | none => d
    | some m =>
      let (x, d) := drawNat d
      sendCtl p 0x81 m (syncBody d (x % periodPs d.stk.current)) d) d

/-- SYNC_SEND. -/
def execSyncSend (s : State) : Host.Outcome State Fault Refusal := .next (onDev syncSend s)

/-- DELAY_REQ_SEND (R195): 1,024 strokes have passed, or phase 5 begins its first exchange (R435); now is T1. -/
def delayReqSend (now : Nat) (d : Dev) : Dev :=
  if d.power.phase < 5 then d
  else (List.range 16).foldl (fun d p => match syncPeer d p with
    | none => d
    | some m => sendCtl p 0x82 m (toLe 8 now) d) d

/-- DELAY_REQ_SEND. -/
def execDelayReqSend (now : Nat) (s : State) : Host.Outcome State Fault Refusal := .next (onDev (delayReqSend now) s)

/-- The lock on the master lost (R51): a corrected fault, and the source STROKE_UNLOCKED. -/
def loseLock (d : Dev) : Dev :=
  faultCE 0x0B 0 0 (setWire 837 true { d with stk := { d.stk with locked := false, goodSyncs := 0 } })

/-- SYNC_LOSS (R51): no valid sync word for 256 strokes. The master follows none (R194). -/
def syncLoss (d : Dev) : Dev :=
  if d.cfg.master ∨ !d.stk.locked ∨ d.power.phase < 6 ∨ d.stk.number < d.stk.lastSync + 256 then d else loseLock d

/-- SYNC_LOSS. -/
def execSyncLoss (s : State) : Host.Outcome State Fault Refusal := .next (onDev syncLoss s)

/-- A port refused over which a peer announces this module's own number (R24), with a corrected fault (Table 13-2). -/
def refusePort (p : Nat) (d : Dev) : Dev := faultCE 0x03 (0x3000 + p) 0 (setPort p { portOf d p with refused := true } d)

/-- Whether an identifier is a unit of this module's own number (R194). -/
def ownNumber (d : Dev) (source : Nat) : Bool := source / 16 == unitId (ownModule d) 0 / 16

/-- Whether a SYNC is valid (R194). -/
def syncValid (d : Dev) (p : SyncPkt) : Bool := p.hall == d.cfg.hall && p.period == d.stk.current && decide (p.hops ≤ 15)

/-- Whether a SYNC is one that the module follows (R49): it names the hall's master, and it comes on the port followed, or with fewer
hops, or while the port followed has seen no valid SYNC for 256 strokes. -/
def syncFollowed (d : Dev) (p : SyncPkt) : Bool :=
  let fresh := match (portOf d d.stk.source).lastSync with
    | some n => decide (d.stk.number < n + 256)
    | none => false
  p.master == d.stk.master && (p.port == d.stk.source || decide (p.hops < d.stk.hops) || !fresh)

/-- The sender's boundary in this module's timebase, in ps from the boundary that opened the present stroke (R195). -/
def syncMoment (d : Dev) (p : SyncPkt) : Int := p.arrival - p.txOffset - (portOf d p.port).delay

/-- The stroke of this module whose opening boundary lies nearest a moment, counted from the present one (R51). -/
def nearestStroke (d : Dev) (m : Int) : Int := (2 * m + periodPs d.stk.current) / (2 * periodPs d.stk.current)

/-- The measured offset from the master, in ps (R51): the own boundary less the sender's. -/
def syncOffset (d : Dev) (m : Int) : Int := nearestStroke d m * periodPs d.stk.current - m

/-- The correction of one stroke: against the offset, at most one reference-clock period of 6,400 ps (R49). -/
def steerFor (offset : Int) : Int := max (-6400) (min 6400 (-offset))

/-- Steering by a followed SYNC (R49, R51): the lock is lost beyond ±20 ns, and found again after 16 consecutive words within
±10 ns. -/
def steerBy (offset : Int) (d : Dev) : Dev :=
  let d := { d with stk := { d.stk with offset, steer := steerFor offset } }
  if d.stk.locked then (if 20000 < offset.natAbs then loseLock d else d)
  else if 10000 < offset.natAbs then { d with stk := { d.stk with goodSyncs := 0 } }
  else if d.stk.goodSyncs + 1 < 16 then { d with stk := { d.stk with goodSyncs := d.stk.goodSyncs + 1 } }
  else setWire 837 false { d with stk := { d.stk with locked := true, goodSyncs := 0 } }

/-- A SYNC followed: its stroke number is judged (R51), then its boundary steers. -/
def followSync (p : SyncPkt) (d : Dev) : Dev :=
  let m := syncMoment d p
  if d.stk.locked ∧ p.port = d.stk.source ∧ (p.stroke : Int) ≠ d.stk.number + nearestStroke d m then enterFatal 0x0B d
  else steerBy (syncOffset d m) { d with stk := { d.stk with source := p.port, hops := p.hops } }

/-- SYNC received (R51, R194): an announcement of the own number refuses the port (R24); an invalid word is dropped; a valid one is
noted, and followed by any module but the master. -/
def syncIn (p : SyncPkt) (d : Dev) : Dev :=
  if !portTakes d p.port || !bitAt (regRaw d 0x10020) p.port then d
  else if !p.rsvZero then dropBad d
  else if ownNumber d p.source then refusePort p.port d
  else if d.power.phase < 6 then d
  else if !syncValid d p then dropBad d
  else
    let follow := !d.cfg.master && !d.flt.fatal && syncFollowed d p
    let d := setPort p.port { portOf d p.port with lastSync := some d.stk.number } d
    let d := { d with stk := { d.stk with lastSync := d.stk.number } }
    if follow then followSync p d else d

/-- SYNC. -/
def execSync (p : SyncPkt) (s : State) : Host.Outcome State Fault Refusal := .next (onDev (syncIn p) s)

/-- DELAY_REQ received (R195): answered with DELAY_RSP, with its arrival as T2 and its answer's departure as T3. -/
def delayReqIn (p : DelayPkt) (leave : Nat) (d : Dev) : Dev :=
  if !portTakes d p.port || ownNumber d p.source then d
  else sendPkt { kind := 0x83, dest := p.source, source := unitId (ownModule d) 0, port := some p.port,
                 body := toLe 8 p.t1 ++ toLe 8 p.arrival ++ toLe 8 leave } d

/-- DELAY_REQ. -/
def execDelayReq (p : DelayPkt) (leave : Nat) (s : State) : Host.Outcome State Fault Refusal := .next (onDev (delayReqIn p leave) s)

/-- The path delay of an exchange (R195), with the packet's arrival as T4. -/
def pathDelay (p : DelayPkt) : Nat := (((p.arrival : Int) - p.t1 - ((p.t3 : Int) - p.t2)) / 2).toNat

/-- DELAY_RSP received (R195). -/
def delayRspIn (p : DelayPkt) (d : Dev) : Dev :=
  if !portTakes d p.port || ownNumber d p.source then d else setPort p.port { portOf d p.port with delay := pathDelay p } d

/-- DELAY_RSP. -/
def execDelayRsp (p : DelayPkt) (s : State) : Host.Outcome State Fault Refusal := .next (onDev (delayRspIn p) s)

/-- PORT_HELLO received (R24, R194). -/
def helloIn (port number : Nat) (d : Dev) : Dev :=
  if portTakes d port && number == ownModule d && d.cfg.loaded then refusePort port d else d

/-- PORT_HELLO. The hall that the hello names is not judged: R24 speaks of the number alone. -/
def execPortHello (port number hall : Nat) (s : State) : Host.Outcome State Fault Refusal :=
  .next (onDev (fun d => if hall < 2 ^ 32 then helloIn port number d else d) s)

/-! ### Redirects -/

/-- REDIRECT received (R192, R402): applied where its epoch is newer than the entry held for FROM. -/
def redirectIn (fromM toM epoch : Nat) (d : Dev) : Dev :=
  let newer := match tGet? d.redirects fromM with
    | some r => decide (r.epoch < epoch)
    | none => true
  if !newer ∨ 4096 ≤ fromM ∨ 4096 ≤ toM ∨ d.power.phase < 4 then d
  else
    let grace := if fromM = toM then none else some (d.stk.number + 16)
    bumpReg 0x80048 63 32 1 { d with redirects := tSet d.redirects fromM { toModule := toM, epoch, graceEnd := grace } }

/-- REDIRECT. What it says of its sender and stroke moves nothing here. -/
def execRedirect (source fromM toM epoch stroke : Nat) (s : State) : Host.Outcome State Fault Refusal :=
  .next (onDev (fun d => if source < 2 ^ 24 ∧ stroke < 2 ^ 64 then redirectIn fromM toM epoch d else d) s)

/-- Whether a part waits for an answer of a module. -/
def Part.sentTo (m : Nat) (p : Part) : Bool := p.waitsFor fun w => match w with
  | .remote _ _ n => n == m
  | _ => false

/-- REDIRECT_GRACE_END (R402, R192): what was sent to FROM before the REDIRECT and is not answered counts as answered with TAKEOVER,
and is sent again, with its tags, to the module that the entry names. -/
def graceEnd (m : Nat) (d : Dev) : Dev := match tGet? d.redirects m with
  | none => d
  | some r => match r.graceEnd with
    | none => d
    | some n =>
      if d.stk.number < n then d
      else
        let d := { d with redirects := tSet d.redirects m { r with graceEnd := none } }
        let d := resendJobs (Part.sentTo m) d
        (d.outstanding.filter fun o => o.relayedTo == some m).foldl (fun d o => relay o.req o.kind o.req.addr o.req.key d) d

/-- REDIRECT_GRACE_END. -/
def execRedirectGraceEnd (module : Nat) (s : State) : Host.Outcome State Fault Refusal := .next (onDev (graceEnd module) s)

/-! ### Sending flits -/

/-- The channel that carries a packet type (Table 6-6). -/
def kindVc (k : Nat) : Nat :=
  if k < 0x20 then 1 else if k = 0x62 ∨ k < 0x40 then 2 else if k < 0x60 then 3 else if k < 0x80 then 4 else 5

/-- Whether a channel is one of Table 6-3 that carries packets. -/
def realVc (v : Nat) : Bool := decide (1 ≤ v) && decide (v ≤ 5)

/-- A flit (Table 6-1) with its link word (Table 6-2). -/
def flitBytes (payload : List Byte) (seq ack : Nat) (nak : Bool) (vc : Nat) (sop : Bool) (cvc credits : Nat) : List Byte :=
  let l := slice payload 0 56 ++ toLe 4 (seq % 1024 * 2 ^ 22 + ack % 1024 * 2 ^ 12 + b2n nak * 2 ^ 11 + vc % 8 * 2 ^ 8
    + b2n sop * 2 ^ 7 + cvc % 8 * 2 ^ 4 + credits % 16)
  l ++ toLe 4 (crc32 l).toNat

/-- The ACK that a port gives: the sequence number of the last flit received in order (Table 6-2). -/
def Port.lastIn (x : Port) : Nat := (x.expect + 1023) % 1024

/-- Whether a port returns the credits of a channel (R175, R380, R436): requests are held at ingress while the module does not serve
or its table of outstanding requests is full. -/
def returnsCredit (d : Dev) (p vc : Nat) : Bool :=
  if vc = 1 then d.power.serving && !d.flt.fatal && decide (d.outstanding.length < 262144)
  else if vc = 4 then (d.power.serving || pairPort d p) && !d.flt.fatal
  else true

/-- The credits that the next flit of a port returns (Table 6-2): up to 15 of the lowest channel with any. -/
def creditsDue (d : Dev) (p : Nat) : Nat × Nat :=
  match [1, 2, 3, 4, 5].find? fun v => returnsCredit d p v && tGet (portOf d p).freed v != 0 with
  | some v => (v, min 15 (tGet (portOf d p).freed v))
  | none => (0, 0)

/-- Credits taken from those to be returned. -/
def takeCredits (p : Nat) (c : Nat × Nat) (d : Dev) : Dev :=
  if c.1 = 0 then d
  else
    let x := portOf d p
    setPort p { x with freed := tSet x.freed c.1 (tGet x.freed c.1 - c.2) } d

/-- A flit put on a port's fibre. -/
def putFlit (p : Nat) (l : List Byte) (d : Dev) : Dev := { d with flitTx := d.flitTx ++ [(p, l)] }

/-- An idle flit (Table 6-1, R174): it carries the next SEQ without using it. -/
def sendIdle (p : Nat) (nak : Bool) (d : Dev) : Dev :=
  let c := creditsDue d p
  let x := portOf d p
  takeCredits p c (putFlit p (flitBytes [] x.txSeq x.lastIn nak 0 false c.1 c.2) d)

/-- A flit of a packet sent: it stays in the retry buffer until an ACK covers it (R174). -/
def sendFlit (p vc : Nat) (sop : Bool) (payload : List Byte) (d : Dev) : Dev :=
  let c := creditsDue d p
  let x := portOf d p
  let l := flitBytes payload x.txSeq x.lastIn false vc sop c.1 c.2
  let x := { x with txSeq := (x.txSeq + 1) % 1024, retry := x.retry ++ [(x.txSeq, l)],
                    credits := tSet x.credits vc (tGet x.credits vc - 1) }
  takeCredits p c (bumpReg (0x81000 + 32 * p) 63 0 1 (setPort p x (putFlit p l d)))

/-- A kept flit sent again, with the ACK of now (R174, R176). -/
def resendFlit (p : Nat) (f : Nat × List Byte) (d : Dev) : Dev :=
  let x := portOf d p
  let w := fieldLe f.2 56 4
  let l := flitBytes (f.2.take 56) f.1 x.lastIn false (bitsOf w 10 8) (bitAt w 7) 0 0
  let x := { x with resent := x.resent + 1 }
  setField (0x81010 + 32 * p) 15 0 (x.resent / 1024 % 65536) (setPort p x (putFlit p l d))

/-- Every flit of the retry buffer sent again, in order (R174). -/
def resendAll (p : Nat) (d : Dev) : Dev := (portOf d p).retry.foldl (fun d f => resendFlit p f d) d

/-- The bytes of a packet (Table 6-4). -/
def OutPkt.bytes (k : OutPkt) : List Byte :=
  toLe 1 k.kind ++ toLe 1 k.flags ++ toLe 2 (16 + k.body.length) ++ toLe 3 k.dest ++ toLe 3 k.source ++ toLe 2 k.tag
    ++ toLe 1 k.tagGen ++ zeros 3 ++ k.body

/-- Whether a packet type is one of the pair's (Table 14-1). -/
def pairKind (k : Nat) : Bool := (decide (0x70 ≤ k) && decide (k < 0x80)) || (decide (0x90 ≤ k) && decide (k < 0xA0))

/-- Whether a port can send: it is UP and not retraining. -/
def portSends (d : Dev) (p : Nat) : Bool := portTakes d p && !(portOf d p).retraining

/-- The port by which a packet leaves: the one it names, a pair port, or the lowest switched port that is UP. -/
def portFor (d : Dev) (k : OutPkt) : Option Nat := match k.port with
  | some p => if portSends d p then some p else none
  | none => (List.range 16).find? fun p => portSends d p && pairPort d p == pairKind k.kind

/-- The flits of a packet's bytes sent (R177). -/
def sendFlits (p vc : Nat) : Nat → Bool → List Byte → Dev → Dev
  | 0, _, _, d => d
  | n + 1, sop, l, d => sendFlits p vc n false (l.drop 56) (sendFlit p vc sop (l.take 56) d)

/-- One packet sent where its port has credits and room in its retry buffer for all of its flits (R174, R175); a packet that waits
holds those after it on its port and channel (R180). Held are those that wait, and blocked their ports and channels. -/
def pumpPkt (x : Dev × List OutPkt × List Nat) (k : OutPkt) : Dev × List OutPkt × List Nat :=
  let (d, held, blocked) := x
  let vc := kindVc k.kind
  let l := k.bytes
  let n := ceilDiv l.length 56
  match portFor d k with
  | none => (d, held ++ [k], blocked)
  | some p =>
    if blocked.contains (8 * p + vc) ∨ tGet (portOf d p).credits vc < n ∨ 1023 < (portOf d p).retry.length + n then
      (d, held ++ [k], addTo blocked (8 * p + vc))
    else (sendFlits p vc n true l d, held, blocked)

/-- Idle flits that return credits, until none is due. -/
def sendIdles (p : Nat) : Nat → Dev → Dev
  | 0, d => d
  | n + 1, d => if (creditsDue d p).1 = 0 then d else sendIdles p n (sendIdle p false d)

/-- The link layer at work: packets cut into flits in their order, and credits returned. In the fatal state only CTL packets are sent
(R380). -/
def linkPump (d : Dev) : Dev :=
  let pkts := if d.flt.fatal then d.fabTx.filter (fun k => decide (0x81 ≤ k.kind)) else d.fabTx
  let (d, held, _) := pkts.foldl pumpPkt ({ d with fabTx := [] }, [], [])
  let d := { d with fabTx := held }
  (List.range 16).foldl (fun d p => if portSends d p then sendIdles p 128 d else d) d

/-! ### Receiving flits -/

/-- One NAK for what is missing, until a flit with the expected SEQ arrives (R173). -/
def sendNak (p : Nat) (d : Dev) : Dev :=
  if (portOf d p).nakSent then d else sendIdle p true (setPort p { portOf d p with nakSent := true } d)

/-- A port retrains (R174): a corrected fault, counted. -/
def startRetrain (p : Nat) (d : Dev) : Dev :=
  faultCE 0x03 (0x3000 + p) 0 (bumpSat (0x81010 + 32 * p) 31 16 1
    (setPort p { portOf d p with retraining := true, naks := 0 } d))

/-- What an arriving flit says of those sent (R174, R175): its ACK frees the retry buffer, its credits count, and a NAK has the rest
sent again; at 16 NAKs for one SEQ the port retrains. -/
def linkBack (p w : Nat) (d : Dev) : Dev :=
  let x := portOf d p
  let ack := bitsOf w 21 12
  let far := (ack + 1024 - x.acked) % 1024
  let x := if far ≤ x.retry.length then { x with acked := ack, retry := x.retry.drop far } else x
  let cvc := bitsOf w 6 4
  let x := if realVc cvc then { x with credits := tSet x.credits cvc (tGet x.credits cvc + w % 16) } else x
  if !bitAt w 11 then setPort p x d
  else
    let want := (ack + 1) % 1024
    let x := { x with naks := if x.nakFor = want then x.naks + 1 else 1, nakFor := want }
    if 16 ≤ x.naks then startRetrain p (setPort p x d) else resendAll p (setPort p x d)

/-- A request packet as its bytes spell it (Tables 6-4 and 6-7). -/
def parseReq (p vc : Nat) (l : List Byte) : Req :=
  { port := p, vc, flags := fieldLe l 1 1, length := l.length, dest := fieldLe l 4 3, source := fieldLe l 7 3, tag := fieldLe l 10 2,
    tagGen := fieldLe l 12 1, rsvZero := fieldLe l 13 3 == 0, addr := fieldLe l 16 8, key := fieldLe l 24 5, op := fieldLe l 29 1,
    size := fieldLe l 30 2, grantGen := fieldLe l 32 2, regGen := fieldLe l 34 2, entry := fieldLe l 36 2, poison := fieldLe l 38 2,
    operand := fieldLe l 40 16, compare := fieldLe l 56 16, data := if fieldLe l 0 1 = 3 then [] else l.drop 40 }

/-- A response packet as its bytes spell it (Tables 6-4 and 6-8). -/
def parseRsp (p vc : Nat) (l : List Byte) : Rsp :=
  let k := fieldLe l 0 1
  { port := p, vc, kind := k, length := l.length, dest := fieldLe l 4 3, source := fieldLe l 7 3, tag := fieldLe l 10 2,
    tagGen := fieldLe l 12 1, status := fieldLe l 16 1,
    rsvZero := fieldLe l 13 3 == 0 && fieldLe l 1 1 == 0 && fieldLe l (if k = 0x2A then 19 else 28) (if k = 0x2A then 5 else 4) == 0,
    load := if k = 0x2A then 0 else fieldLe l 17 1, credit := if k = 0x2A then 0 else fieldLe l 18 2, stroke := fieldLe l 20 4,
    grantGen := fieldLe l 24 2, regGen := fieldLe l 26 2, requester := fieldLe l 16 3, old := fieldLe l 32 16,
    data := l.drop 32 }

/-- A SYNC as its bytes spell it (Table 6-11); the moment of its arrival is not among them, and so free. -/
def parseSync (p : Nat) (l : List Byte) (arrival : Int) : SyncPkt :=
  { port := p, source := fieldLe l 7 3, stroke := fieldLe l 16 8, txOffset := fieldLe l 24 4, period := fieldLe l 28 2,
    master := bitsOf (fieldLe l 30 2) 11 0, hops := fieldLe l 32 1, hall := fieldLe l 36 4, arrival,
    rsvZero := fieldLe l 33 3 == 0 && fieldLe l 40 8 == 0 && decide (fieldLe l 28 2 < 2 ^ 13) && decide (fieldLe l 30 2 < 2 ^ 12) }

/-- Bytes of a packet of the CTL and pair types that have one length (Tables 6-6 and 14-1); a LENGTH that no type has where the
type is unlisted. -/
def fixedLength (k : Nat) : Nat := match k with
  | 0x81 => 48
  | 0x82 => 24
  | 0x83 => 40
  | 0x84 => 32
  | 0x85 => 24
  | 0x71 => 48
  | 0x72 => 152
  | 0x90 => 56
  | 0x91 => 24
  | 0x92 => 32
  | 0x93 => 32
  | 0x94 => 24
  | 0x95 => 296
  | 0x96 => 96
  | 0x97 => 32
  | _ => 0

/-- Whether a CTL or pair packet has the length, the channel and the zero fields that its tables give it (R178). -/
def ctlFormed (vc : Nat) (l : List Byte) : Bool :=
  let k := fieldLe l 0 1
  vc == kindVc k && fieldLe l 1 1 == 0 && fieldLe l 13 3 == 0
    && (if k = 0x70 then l.length == (if fieldLe l 38 1 % 8 = 2 then 184 else 168) && bitsOf (fieldLe l 38 1) 5 3 == 0 && fieldLe l 39 1 == 0
        else if k = 0x73 then decide (40 ≤ l.length) && fieldLe l 38 2 == 0
        else l.length == fixedLength k)
    && (match k with
        | 0x84 => decide (fieldLe l 16 2 < 4096) && decide (fieldLe l 18 2 < 4096)
        | 0x85 => decide (fieldLe l 16 2 < 4096) && fieldLe l 22 2 == 0
        | 0x90 => fieldLe l 53 3 == 0
        | 0x92 => fieldLe l 25 7 == 0
        | 0x93 => fieldLe l 25 7 == 0
        | 0x95 => fieldLe l 17 7 == 0
        | 0x96 => fieldLe l 17 3 == 0
        | 0x97 => fieldLe l 28 4 == 0
        | _ => true)

/-- A JOIN as its bytes spell it (Table 14-1): its signature is verified and its FW compared here; what R404 asks of the partner's
record the packet does not carry, and so is free. -/
def parseJoin (l : List Byte) (witnessEqual partnerOk : Bool) (d : Dev) : JoinPkt :=
  { msg := fieldLe l 16 1, nonce := slice l 24 32, pub := slice l 56 96,
    sigOk := Config.ecdsaVerify d.cfg.partnerKey (d.pair.joinTrans ++ slice l 16 184) (slice l 200 96),
    fwEqual := slice l 152 48 == joinFw d, witnessEqual, partnerOk }

/-- A pair packet that arrives, by its type (Table 14-1). -/
def pairIn (p : Nat) (l : List Byte) (d : Dev) : Dev :=
  let at_ (i n : Nat) : Nat := fieldLe l (16 + i) n
  match fieldLe l 0 1 with
  | 0x70 => mirrorIn { mseq := at_ 0 8, addr := at_ 8 8, requester := at_ 16 3, tag := at_ 19 2, tagGen := at_ 21 1, kind := at_ 22 1,
                       line := slice l 40 128, old := fieldLe l 168 16 } d
  | 0x71 => regionIn { mseq := at_ 0 8, first := at_ 8 8, count := at_ 16 4, key := at_ 20 5, crew := at_ 25 1, flags := at_ 26 1,
                       op := at_ 27 1, dgen := at_ 28 4 } d
  | 0x72 => lineDataIn (at_ 0 8) (slice l 24 128) d
  | 0x73 => sampleIn (at_ 0 8) (at_ 8 8) (at_ 16 4) (at_ 20 2) (l.drop 40) d
  | 0x90 => heartbeatIn { port := p, stroke := at_ 0 8, sent := at_ 8 8, applied := at_ 16 8, answered := at_ 24 8, epoch := at_ 32 4,
                          state := at_ 36 1 } d
  | 0x91 => mirrorAck (at_ 0 8) d
  | 0x92 => faultNotice d
  | 0x93 => sampleVerdict (at_ 0 8) (at_ 8 1 != 0) d
  | 0x94 => lineReq (at_ 0 8) d
  | 0x95 =>
    let (a, d) := drawNat d
    let (b, d) := drawNat d
    joinIn (parseJoin l (a % 2 == 0) (b % 2 == 0) d) d
  | 0x96 => crewKeyIn (at_ 0 1) (slice l 24 72) d
  | 0x97 => switchIn (at_ 8 4) d
  | _ => d

/-- A sync, delay, redirect or hello packet that arrives, by its type (Table 6-6). The moments of R195 are measured, and so free. -/
def ctlIn (p : Nat) (l : List Byte) (d : Dev) : Dev :=
  let (x, d) := drawNat d
  let (y, d) := drawNat d
  let delay : DelayPkt := { port := p, source := fieldLe l 7 3, t1 := fieldLe l 16 8, t2 := fieldLe l 24 8, t3 := fieldLe l 32 8,
                            arrival := x % 2 ^ 64 }
  match fieldLe l 0 1 with
  | 0x81 => syncIn (parseSync p l (x % periodPs d.stk.current)) d
  | 0x82 => delayReqIn delay (y % 2 ^ 64) d
  | 0x83 => delayRspIn delay d
  | 0x84 => redirectIn (fieldLe l 16 2) (fieldLe l 18 2) (fieldLe l 20 4) d
  | 0x85 => helloIn p (fieldLe l 16 2) d
  | _ => d

/-- Whether an identifier reaches this module: one of its units, the link partner, or every module (Table 6-5). -/
def reachesUs (d : Dev) (dest : Nat) : Bool := ownUnit d dest || dest == 0xFFFFFE || dest == 0xFFFFFF

/-- A whole packet delivered by its type (Table 6-6): what its row of the table does. The device takes no INV or DOWN, of which it is
the sender, and the responses that agents receive match nothing it awaits. A type that is unlisted, or on another channel than its
own, is dropped (R178), and so are pair packets on other ports than the pair's. -/
def packetIn (p vc : Nat) (l : List Byte) (s : State) : State :=
  let k := fieldLe l 0 1
  let q := parseReq p vc l
  let r := parseRsp p vc l
  let go (f : Dev → Dev) : State := { s with dev := f s.dev }
  if !portTakes s.dev p then s
  else match k with
  | 0x01 => go (accessRow 0x01 .read q fun _ => if 1024 < q.size then some stBadLength else none)
  | 0x02 => go (accessRow 0x02 .write q fun _ => none)
  | 0x03 => go (accessRow 0x03 (.atomic q.op q.size (q.operand % 2 ^ (8 * q.size)) (q.compare % 2 ^ (8 * q.size))) q (atomCheck q))
  | 0x04 => go (cachingRow 0x04 q)
  | 0x05 => go (cachingRow 0x05 q)
  | 0x06 => go (cachingRow 0x06 q)
  | 0x07 => go (cachingRow 0x07 q)
  | 0x08 => go (agentRow 0x08 q (agentReg q))
  | 0x09 => go (agentRow 0x09 q (agentBye q))
  | 0x28 => go (onResponse r (ackIn r []))
  | 0x29 => go (onResponse r (ackIn r r.data))
  | 0x2A => go (onResponse r (doneIn r))
  | 0x62 => go (onResponse r (copyAck r))
  | 0x61 => go (onRequest 0x61 q (copyData q))
  | 0x41 => if vc = 3 then s else go dropBad
  | 0x42 => if vc = 3 then s else go dropBad
  | _ =>
    if 0x21 ≤ k ∧ k ≤ 0x27 then rspIn r s
    else if !ctlFormed vc l then go dropBad
    else if !reachesUs s.dev q.dest then s
    else if pairKind k then (if pairPort s.dev p then go (pairIn p l) else go dropBad)
    else go (ctlIn p l)

/-- The payload of a flit in order taken into the packet of its channel (R177, R178). -/
def takePayload (p vc : Nat) (sop : Bool) (payload : List Byte) (s : State) : State :=
  let x := portOf s.dev p
  let old := tGet? x.partials vc
  let d := if sop && old.isSome then dropBad s.dev else s.dev
  let whole := if sop then some payload else old.map (· ++ payload)
  match whole with
  | none => { s with dev := d }
  | some l =>
    let n := fieldLe l 2 2
    let gone := setPort p { portOf d p with partials := tDel x.partials vc } d
    if n < 16 ∨ 1064 < n then { s with dev := dropBad gone }
    else if l.length < n then { s with dev := setPort p { portOf d p with partials := tSet x.partials vc l } d }
    else packetIn p vc (l.take n) { s with dev := gone }

/-- A flit with the expected SEQ taken: its acknowledgement and credits, and where it is not idle its payload; an acknowledgement goes
back with the next flit. -/
def acceptFlit (p : Nat) (l : List Byte) (s : State) : State :=
  let w := fieldLe l 56 4
  let vc := bitsOf w 10 8
  let d := linkBack p w (setPort p { portOf s.dev p with nakSent := false } s.dev)
  if vc = 0 then { s with dev := linkPump d }
  else
    let x := portOf d p
    let x := { x with expect := (x.expect + 1) % 1024, freed := if realVc vc then tSet x.freed vc (tGet x.freed vc + 1) else x.freed }
    let s := takePayload p vc (bitAt w 7) (l.take 56) { s with dev := bumpReg (0x81008 + 32 * p) 63 0 1 (setPort p x d) }
    let n := s.dev.flitTx.length
    let d := linkPump s.dev
    { s with dev := if d.flitTx.length = n && portSends d p then sendIdle p false d else d }

/-- FLIT received (R173): one that fails its CRC, or whose SEQ is not the next expected, is discarded. -/
def flitIn (p : Nat) (l : List Byte) (s : State) : State :=
  let x := portOf s.dev p
  if l.length ≠ 64 ∨ !x.up ∨ x.retraining then s
  else if fieldLe l 60 4 ≠ (crc32 (l.take 60)).toNat then
    { s with dev := sendNak p (bumpReg (0x81010 + 32 * p) 63 32 1 s.dev) }
  else if bitsOf (fieldLe l 56 4) 31 22 ≠ x.expect then { s with dev := sendNak p s.dev }
  else acceptFlit p l s

/-- FLIT. -/
def execFlit (port : Nat) (bytes : List Byte) (s : State) : Host.Outcome State Fault Refusal := .next (settle (flitIn port bytes s))

/-- LINK_ACK_STALL (R174): flits are unacknowledged, and ACK has made no progress for 4,096 flit times. -/
def ackStall (p : Nat) (d : Dev) : Dev :=
  let x := portOf d p
  if x.up && !x.retraining && !x.retry.isEmpty then startRetrain p d else d

/-- LINK_ACK_STALL. -/
def execLinkAckStall (port : Nat) (s : State) : Host.Outcome State Fault Refusal := .next (onDev (ackStall port) s)

/-- A port goes down (R174, R170): what its retry buffer holds is lost, with a corrected fault. -/
def portDown (p : Nat) (d : Dev) : Dev :=
  faultCE 0x03 (0x3000 + p) 0 (portUp p false (setPort p { portOf d p with retraining := false, retry := [], partials := [] } d))

/-- RETRAIN_FAIL (R174). -/
def retrainFail (p : Nat) (d : Dev) : Dev := if (portOf d p).retraining then portDown p d else d

/-- RETRAIN_FAIL. -/
def execRetrainFail (port : Nat) (s : State) : Host.Outcome State Fault Refusal := .next (onDev (retrainFail port) s)

/-- PORT_TRAIN_END (R170, R174, R444): a port that retrained sends its retry buffer again; one that was down, or idle and now leaves
standby, starts afresh; one that does not train stays down. -/
def portTrainEnd (p : Nat) (up : Bool) (d : Dev) : Dev :=
  let x := portOf d p
  if d.power.phase < 4 ∨ 16 ≤ p ∨ (x.idled ∧ d.power.mode ≠ 2) ∨ (x.up ∧ !x.retraining) then d
  else if x.retraining then
    if up then resendAll p (setPort p { x with retraining := false } d) else portDown p d
  else
    let d := setPort p { x with idled := false } d
    standbyDone (if up then linkUp p d else portDown p d)

/-- PORT_TRAIN_END. -/
def execPortTrainEnd (port : Nat) (up : Bool) (s : State) : Host.Outcome State Fault Refusal := .next (onDev (portTrainEnd port up) s)

end Sys2Proof.Machine
end

