-- ==== Sys2Proof/Machine/Waits.lean ====
section
/-! DEFINITION. Machine/Waits.lean: waits that reach their deadlines (R55, R57, R93), and what step 9 wakes of the parked accesses
(R54, R123, R184). -/

namespace Sys2Proof.Machine

/-- Whether a waiting part has reached its deadline (R55, R57): dense names the parked dense-tier accesses, whose limit is
STK_TIMEOUT.PARK. Waits for other modules have their own limit (R468). -/
def Part.overdue (d : Dev) (dense : Bool) (p : Part) : Bool :=
  let rest := !dense && decide (p.since + reqTimeout d ≤ d.stk.number)
  let park := dense && decide (p.since + parkTimeout d ≤ d.stk.number)
  match p.state with
  | .waiting w => (match w with
    | .fill _ => park
    | .append => park
    | .remote _ _ _ => false
    | .control => false
    | .register => false
    | .repair _ => false
    | .snoop _ => rest
    | .budget _ => rest
    | .mirrored _ => rest
    | .order => rest
    | .pair => rest)
  | _ => false

/-- The overdue parts of a job ended with TIMEOUT, and the job with them where none is left. -/
def endOverdue (dense : Bool) (jid : Nat) (d : Dev) : Dev := match tGet? d.jobs jid with
  | none => d
  | some j =>
    let due := j.parts.filter (·.overdue d dense)
    if due.isEmpty then d
    else
      let ps := j.parts.map fun p => if p.overdue d dense then p.fin stTimeout else p
      let d := due.foldl (fun d p => leaveLine jid (lineOf p.addr) d) d
      runControl (runJob jid (setJob jid { j with parts := ps } d))

/-- Whether a FAULT_RESOLVE for a fault slot waits to be chosen (R93 step 4). -/
def resolveQueued (d : Dev) (slot : Nat) : Bool :=
  ((d.queues.flatMap fun r => r.2.held) ++ d.sessions.flatMap fun r => r.2.held).any fun q =>
    q.opcode == 0x10A && pNat q.cmd 0 4 % 1024 == slot && pNat q.cmd 0 4 / 2 ^ 24 == (slotOf d slot).gen

/-- The deadline of an access parked on a fault slot (R93 step 4). -/
def slotDeadline (jid : Nat) (j : Job) (d : Dev) : Dev := match j.slot with
  | none => d
  | some s => if j.stamp + reqTimeout d ≤ d.stk.number ∧ !resolveQueued d s then abortJob jid stTimeout d else d

/-- The line that a read of the device's own waits to have repaired (R367), once its time is over. -/
def repairOverdue (d : Dev) (j : Job) : Option Nat := j.parts.findSome? fun p => match p.state with
  | .waiting (.repair line) => if j.owner = .device ∧ p.since + reqTimeout d ≤ d.stk.number then some line else none
  | _ => none

/-- The stern's copy has not come in time (R367): the line stays poisoned, with its record. -/
def repairFailed (jid line : Nat) (d : Dev) : Dev :=
  wakeJobs (waitsRepair line)
    (faultAt 2 0x01 stPoisoned (0x2000 + stackOf d (line * 128)) 1 (line * 128) { d with jobs := tDel d.jobs jid })

/-- WAIT_DEADLINE (R57): a wait that has reached its deadline with no answer ends with TIMEOUT. -/
def waitDeadline (jid : Nat) (d : Dev) : Dev := match tGet? d.jobs jid with
  | none => d
  | some j => match repairOverdue d j with
    | some line => repairFailed jid line d
    | none => if j.slot.isSome then slotDeadline jid j d else endOverdue false jid d

/-- WAIT_DEADLINE. -/
def execWaitDeadline (job : Nat) (s : State) : Host.Outcome State Fault Refusal := .next (onDev (waitDeadline job) s)

/-- PARK_TIMEOUT (R55): a parked dense-tier access that has waited STK_TIMEOUT.PARK strokes ends with TIMEOUT. -/
def execParkTimeout (job : Nat) (s : State) : Host.Outcome State Fault Refusal := .next (onDev (endOverdue true job) s)

/-- A caching request that has waited in the pending buffer to its deadline (R55, R188). -/
def Pending.overdue (d : Dev) (w : Pending) : Bool :=
  w.job.isNone && w.kind != 0x07
    && decide (w.stamp + (if addrSpace (w.line * 128) = 1 then parkTimeout d else reqTimeout d) ≤ d.stk.number)

/-- The caching requests at their deadline answered with TIMEOUT. -/
def endPending (d : Dev) : Dev :=
  (d.pendingBuf.filter (·.overdue d)).foldl (fun d w => reply w 0x21 stTimeout 0 [] d)
    { d with pendingBuf := d.pendingBuf.filter fun w => !w.overdue d }

/-- Step 3 of the boundary (Table 2-2): every wait whose deadline is the closing stroke is judged. -/
def deadlineStep (d : Dev) : Dev :=
  endPending ((d.jobs.map (·.1)).foldl (fun d j => remoteTimeout j (endOverdue true j (waitDeadline j d))) d)

/-! ### Waking -/

/-- Whether a part waits for a line or page that nothing keeps from it any more. -/
def Part.wakes (d : Dev) (p : Part) : Bool := p.waitsFor fun w => match w with
  | .snoop line => !transient (dirOf d line).state
  | .fill page => (tGet? d.fills page).isNone
  | _ => false

/-- Jobs that wait for stable lines, or for fills that are not in progress, made ready. -/
def wakeStable (d : Dev) : Dev :=
  { d with jobs := tMap d.jobs fun _ j => if j.parts.any (·.wakes d) then
      { j with ready := true, parts := j.parts.map fun p => if p.wakes d then { p with state := .todo } else p } else j }

/-- The delayed requests in order of arrival: their requester, cost, and the job or the waiting record. -/
def delayedList (d : Dev) : List (Nat × Nat × Nat × Option Nat × Pending) :=
  let js := d.jobs.filterMap fun j => match j.2.owner, j.2.parts with
    | .fabric p, x :: _ =>
      if x.waitsFor (fun w => match w with
        | .budget _ => true
        | _ => false) then some (j.2.stamp, p.source, reqCost p x.act.kind, some j.1, default) else none
    | _, _ => none
  let ws := (d.pendingBuf.filter (·.delayed)).map fun w => (w.stamp, w.req.source, reqCost w.req w.kind, none, w)
  sortBy (fun x => x.1) (js ++ ws)

/-- One delayed request served where its requester's budget of the new stroke covers it, and no earlier one of the requester's still
waits (R184). -/
def releaseOne (x : List Nat × Dev) (y : Nat × Nat × Nat × Option Nat × Pending) : List Nat × Dev :=
  let (blocked, d) := x
  let (_, who, cost, job, w) := y
  let l := (limitOf d who).getD (2 ^ 64)
  if blocked.contains who ∨ l < tGet d.charged who + cost then (addTo blocked who, d)
  else
    let d := charge who cost d
    match job with
    | some jid => (match tGet? d.jobs jid with
      | none => (blocked, d)
      | some j =>
        let held := match j.owner with
          | .fabric p => orderHolds d jid p
          | _ => false
        let st : PartState := if held then .waiting .order else .todo
        let d := setJob jid { j with ready := !held, parts := j.parts.map fun p => { p with state := st } } d
        (blocked, if held then d else runControl (runJob jid d)))
    | none => (blocked, tryPending false { w with delayed := false }
        { d with pendingBuf := d.pendingBuf.map fun z => if z.same w then { z with delayed := false } else z })

/-- The delayed requests of earlier strokes served first (R184). -/
def releaseDelayed (d : Dev) : Dev := ((delayedList d).foldl releaseOne ([], { d with charged := [] })).2

/-- Requests that waited for earlier ones of their requester (R128, R130), where those have ended. -/
def releaseOrdered (d : Dev) : Dev :=
  d.jobs.foldl (fun d j => match tGet? d.jobs j.1 with
    | none => d
    | some x => match x.owner with
      | .fabric p =>
        if x.parts.any (·.waitsFor (· == .order)) && !orderHolds d j.1 p then
          runControl (runJob j.1 (setJob j.1 { x with parts := x.parts.map fun y => { y with state := .todo } } d))
        else d
      | _ => d) d

/-- A job whose data or answer has arrived resumed (R54). -/
def resumeJob (jid : Nat) (d : Dev) : Dev := match tGet? d.jobs jid with
  | none => d
  | some j => if j.ready && j.slot.isNone then runControl (runJob jid d) else d

/-- Parked accesses resumed in step 9 (R54). -/
def resumeParked (d : Dev) : Dev := (d.jobs.map (·.1)).foldl (fun d j => resumeJob j d) (wakeStable d)

end Sys2Proof.Machine
end

