-- ==== Sys2Proof/Machine/Work.lean ====
section
/-! DEFINITION. Machine/Work.lean: the work of a stroke (Chapter 2): items and what ends or cuts them, arbitration among a crew's
queues, expert batches, and the slices of long operations. -/

namespace Sys2Proof.Machine

/-! ### Commands by opcode -/

/-- The execution of a command by its opcode (Table 7-9). An EXPERT runs in a batch, and SUSPEND, RESUME and CANCEL act in step 7. -/
def runBody (q : QCmd) (s : State) : State :=
  let dev (f : QCmd → Dev → Dev) : State := devBody f q s
  match q.opcode with
  | 0x001 => dev nopBody
  | 0x003 => dev sessionCloseBody
  | 0x004 => dev queueCreateBody
  | 0x005 => dev queueDeleteBody
  | 0x006 => crewCreateBody q s
  | 0x007 => dev (crewEndBody 2)
  | 0x008 => dev (crewEndBody 3)
  | 0x009 => regReadBody q s
  | 0x00A => regWriteBody q s
  | 0x00B => snapshotBody q s
  | 0x101 => dev readBody
  | 0x102 => dev writeBody
  | 0x103 => dev fillBody
  | 0x104 => dev copyBody
  | 0x105 => dev atomicBody
  | 0x106 => dev fenceBody
  | 0x107 => regionRegisterBody q s
  | 0x108 => regionRevokeBody q s
  | 0x109 => dev segmentSetBody
  | 0x10A => dev faultResolveBody
  | 0x201 => dev placeBody
  | 0x202 => sealBody q s
  | 0x203 => dev tierEvictBody
  | 0x204 => dev windowBody
  | 0x205 => dev countersReadBody
  | 0x206 => dev imageLoadBody
  | 0x301 => dev expertBody
  | 0x302 => dev attnBody
  | 0x303 => dev combineBody
  | 0x304 => dev expandBody
  | 0x305 => dev factorBody
  | 0x306 => dev scratchLoadBody
  | 0x307 => dev scratchStoreBody
  | 0x401 => dev poolBody
  | 0x402 => dev rowPublishBody
  | 0x403 => dev hotsetBody
  | 0x404 => dev rowReplicateBody
  | 0x405 => dev tableSwitchBody
  | 0x501 => dev searchBody
  | 0x502 => dev insertBody
  | 0x503 => dev deleteBody
  | 0x504 => dev mergeBody
  | 0x505 => dev filterBody
  | 0x601 => dev longopQueryBody
  | 0x602 => dev controlBody
  | 0x603 => dev controlBody
  | 0x604 => dev controlBody
  | 0x701 => attestBody q s
  | 0x702 => dev keyImportBody
  | 0x703 => dev keyRetireBody
  | 0x704 => fwStageBody q s
  | 0x705 => fwActivateBody q s
  | 0x706 => dev logReadBody
  | 0x801 => dev faultReadBody
  | 0x802 => dev faultAckBody
  | 0x803 => if pNat q.cmd 0 1 = 0 then dev pairJoinSyncBody else dev pairJoinSwitchBody
  | 0x804 => dev pairLeaveBody
  | 0x805 => expelBody q s
  | 0x806 => dev ownerBody
  | _ => s

/-! ### Items -/

/-- Whether a command runs on the engines as an item of its own (R56, R241, R256, R284, R295, R299). -/
def isEngine (q : QCmd) : Bool :=
  q.opcode == 0x302 || q.opcode == 0x304 || q.opcode == 0x306 || q.opcode == 0x307 || q.opcode == 0x401
    || (q.opcode == 0x403 && pNat q.cmd 2 1 == 0)

/-- The checks of an engine command before it becomes an item. -/
def engineCheck (d : Dev) (q : QCmd) : Option Nat := match q.opcode with
  | 0x302 => attnCheck d q
  | 0x304 => expandCheck d q
  | 0x306 => scratchCheck d q
  | 0x307 => scratchCheck d q
  | 0x401 => poolCheck d q
  | 0x403 => hotsetCheck d q
  | _ => none

/-- An engine command made an item that runs in this stroke (Table 2-3). A POOL or HOTSET_LOAD binds its table's version as it starts
(R297). -/
def startItem (q : QCmd) (d : Dev) : Dev :=
  let d := if q.opcode = 0x401 ∨ q.opcode = 0x403 then (bindTable q (pNat q.cmd 0 1) d).2 else d
  { d with items := tSet d.items q.id { crew := q.cmd.crew, kind := .command q, state := 1 } }

/-- A command whose work has failed: an expert or attention partial writes its slot's header with the status (R243), a SEARCH its
header (R323), and a ROW_PUBLISH gives its slot back. n is the number of tokens of the batch. -/
def failWork (st n : Nat) (q : QCmd) (d : Dev) : Dev := match q.opcode with
  | 0x301 => failSlot q (expertSlot q 0) st [n] d
  | 0x302 => failSlot q (attnSlot q) st [] d
  | 0x402 => endMove q st d
  | 0x501 => (match tGet? d.searches q.id with
    | none => completeSt q st d
    | some x => searchWrite q x.start st 0 [] { d with searches := tDel d.searches q.id })
  | _ => completeSt q st d

/-- The cores of a crew that serve: those of its set that are not retired (R374). -/
def crewCores (d : Dev) (n : Nat) : List Nat :=
  (List.range 128).filter fun k => (crewOf d n).hasCore k && !coreRetired d k

/-- A finished batch of a bow counted for sampling, and sampled where its turn has come (R373). -/
def sampleBatch (descriptor : Nat) (qs : List QCmd) (d : Dev) : Dev := match qs with
  | [] => d
  | q :: _ =>
    if d.pair.state ≠ 4 ∨ d.cfg.role ≠ 1 then d
    else
      let k := d.pair.sampleNext
      let d := { d with pair := { d.pair with sampleNext := k + 1 } }
      if k % 2 ^ cfgField d 0x100000 23 16 ≠ 0 then d
      else
        let x := parseExpert (toLe 128 descriptor)
        if !((regionAt d x.weights).any (·.paired)) then bumpSat 0x100050 31 16 1 d
        else
          let il := expertInline q.cmd
          let act := if il then slice q.cmd.params 64 (q.cmd.length - 64)
            else memRead d.mem (pNat q.cmd 40 8) (arrayBytes (pNat q.cmd 13 1) (x.dm * 128))
          let form := match profLive d q.cmd.crew x.profile x.pgen q.stamp with
            | some (r, f, _) => (r, f)
            | none => (0, 0)
          let tl := x.tile form
          let ws := (List.range (3 * x.tiles)).map fun i => memRead d.mem (x.weights + i * tl) tl
          let y := expertOut d.draws x form (pNat q.cmd 13 1) 0x3F800000 0 ws act
          let desc := pNat q.cmd 0 8
          let step := pNat q.cmd 20 4
          sampleParts k desc step (act ++ y)
            { d with draws := d.draws + expertDraws x,
                     pair := { d.pair with samples := tSet d.pair.samples k (desc, step, []) } }

/-- Whether the residue check of a core of a crew finds a mismatch in an item (R371): the core, where it does. -/
def residueDraw (crew : Nat) (d : Dev) : Option Nat × Dev :=
  let (k, d) := drawNat d
  let cores := crewCores d crew
  (if k % 2 = 1 then cores[(k / 2) % max 1 cores.length]? else none, d)

/-- An item that has finished in its stroke (step 1): its commands complete. A batch whose weights or activations have not all
arrived is parked. -/
def finishItem (id : Nat) (x : Item) (s : State) : State :=
  let engine := match x.kind with
    | .command q => q.opcode == 0x302
    | .batch _ _ => true
  let (bad, d) := if engine then residueDraw x.crew s.dev else (none, s.dev)
  match bad with
  | some core => { s with dev := residueMismatch core id d }
  | none => match x.kind with
    | .command q => runBody q { s with dev := { d with items := tDel d.items id } }
    | .batch desc qs =>
      match runBatch desc qs d with
      | (true, d) => { s with dev := sampleBatch desc qs { d with items := tDel d.items id } }
      | (false, d) => { s with dev := { d with items := tSet d.items id { x with state := 2, cuts := 0 } } }

/-- An item abandoned (R56): its commands end with TIMEOUT, and a corrected fault is recorded. -/
def abandonItem (id : Nat) (x : Item) (d : Dev) : Dev :=
  let qs := x.cmds
  faultCE 0x0C 0 x.crew (qs.foldl (fun d q => failWork stTimeout qs.length q d) { d with items := tDel d.items id })

/-- An item cut at a boundary (R56): counted, and abandoned at its sixteenth consecutive cut. -/
def cutItem (id : Nat) (x : Item) (d : Dev) : Dev :=
  let d := bumpReg (0x31008 + 0x40 * x.crew) 63 0 1 (bumpReg 0x10038 63 0 1 d)
  if x.cuts + 1 ≥ 16 then abandonItem id x d
  else { d with items := tSet d.items id { x with state := 3, cuts := x.cuts + 1 } }

/-- ITEM_ABANDON (R56): the sixteenth consecutive cut of an item. -/
def itemAbandon (id : Nat) (d : Dev) : Dev := match tGet? d.items id with
  | none => d
  | some x => if x.cuts < 15 then d else cutItem id x d

/-- ITEM_ABANDON. -/
def execItemAbandon (item : Nat) (s : State) : Host.Outcome State Fault Refusal := .next (onDev (itemAbandon item) s)

/-- The last slice of a long operation (Table 2-4). -/
def finishOp (i : Nat) (s : State) : State :=
  let l := opOf s.dev i
  let dev (f : Nat → Dev → Dev) : State := { s with dev := f i s.dev }
  if l.state ≠ 2 ∧ l.state ≠ 4 then s
  else match l.opcode with
    | 0x201 => placeFinish i s
    | 0x202 => sealFinish i s
    | 0x206 => dev imageLoadFinish
    | 0x305 => dev factorFinish
    | 0x405 => dev tableFinish
    | 0x504 => dev mergeFinish
    | _ => s

/-- Step 1 of the boundary (Table 2-2). finished names what the closing stroke brought to its end: a number below 4,096 the last slice
of that long operation, and any other, less 4,096, an item. The items still executing are cut. -/
def itemStep (finished : List Nat) (s : State) : State :=
  let running := s.dev.items.filter fun x => x.2.state == 1
  let s := running.foldl (fun s x => match tGet? s.dev.items x.1 with
    | none => s
    | some y => if finished.contains (x.1 + 4096) then finishItem x.1 y s else { s with dev := cutItem x.1 y s.dev }) s
  (finished.filter (· < 4096)).foldl (fun s i => finishOp i s) s

/-! ### Arbitration -/

/-- The commands held in a queue: of a session (0, index), or of a ring queue (1, number). -/
def heldIn (d : Dev) (h : Nat × Nat) : List QCmd := if h.1 = 0 then (sessOf d h.2).held else (queueOf d h.2).held

/-- The queues of a crew, in the order in which equal tags are served (R67): its sessions' own, then its ring queues. -/
def crewHomes (d : Dev) (n : Nat) : List (Nat × Nat) :=
  ((openSessions d).filter fun x => !x.2.management && x.2.crew == n).map (fun x => (0, x.1)) ++ (crewQueues d n).map fun i => (1, i)

/-- The commands held in a crew's queues. -/
def heldCount (d : Dev) (n : Nat) : Nat := (crewHomes d n).foldl (fun a h => a + (heldIn d h).length) 0

/-- The weight of a queue (R66, R213). -/
def homeWeight (d : Dev) (h : Nat × Nat) : Nat := if h.1 = 0 then 16 else max 1 (queueOf d h.2).weight

/-- The finish tag that a queue gave last. -/
def homeLast (d : Dev) (h : Nat × Nat) : Nat := if h.1 = 0 then (sessOf d h.2).fLast else (queueOf d h.2).fLast

/-- The cost of the next item of a command (R66): a command whose rule prices its items costs what they move, and every other its
length, with the overhead. The bytes of bodies that a POOL reads are known only as it runs. -/
def priceOf (q : QCmd) (d : Dev) : Nat × Dev :=
  let c := q.cmd
  let o := overhead d
  if c.length = 0 then (o, d)
  else match q.opcode with
    | 0x101 => (pNat c 16 4 + o, d)
    | 0x103 => (pNat c 16 4 + o, d)
    | 0x104 => (pNat c 32 4 + o, d)
    | 0x304 => (match profLive d c.crew (pNat c 13 1) (pNat c 14 1) q.stamp with
      | some (_, _, dfmt) => (pNat c 22 2 * pNat c 24 2 * tileBytes dfmt + o, d)
      | none => (cmdCost d c, d))
    | 0x401 => let (k, d) := drawNat d; (poolList c + k + o, d)
    | _ => (cmdCost d c, d)

/-- The head command of a queue given its finish tag, once (R67). -/
def tagHead (n : Nat) (h : Nat × Nat) (d : Dev) : Dev := match heldIn d h with
  | [] => d
  | q :: rest =>
    if q.finish.isSome then d
    else
      let (price, d) := priceOf q d
      let v := (crewOf d n).vtime
      let last := homeLast d h
      let start := if before64 v last then last else v
      let f := (start + price * 65536 / homeWeight d h) % 2 ^ 64
      let held := { q with finish := some f, price } :: rest
      if h.1 = 0 then setSess h.2 { sessOf d h.2 with held, fLast := f } d
      else setQueue h.2 { queueOf d h.2 with held, fLast := f } d

/-- Every head command of a crew's queues tagged. -/
def tagHeads (n : Nat) (d : Dev) : Dev := (crewHomes d n).foldl (fun d h => tagHead n h d) d

/-- Whether a queue is eligible under its shaper (R69), and is not being deleted. -/
def homeReady (d : Dev) (h : Nat × Nat) : Bool :=
  h.1 == 0 || ((queueOf d h.2).deleting.isNone && (!(queueOf d h.2).shEn || decide (0 ≤ (queueOf d h.2).balance)))

/-- A crew's expert batches in hand (R249). -/
def batchesOf (d : Dev) (n : Nat) : Nat := (d.items.filter fun x => x.2.crew == n && match x.2.kind with
  | .batch _ _ => true
  | .command _ => false).length

/-- Whether a head command may be chosen: admitted (R72), with room in its completion ring (R217), no fence before it (R131), and
none of the limits that hold a command at the head of its queue (R249, R265, R320, R374). -/
def mayStart (d : Dev) (n : Nat) (q : QCmd) : Bool :=
  q.admitted && !isControl q.opcode && cqRoom d q && !fenceWaits d q && match q.opcode with
    | 0x301 => decide (batchesOf d n < max 1 (cfgField d (0xB1000 + 0x20 * n) 3 0)) && !(crewCores d n).isEmpty
    | 0x303 => decide (d.armed.length < 4096)
    | 0x501 => decide (d.searches.length < 16384)
    | _ => !isEngine q || !(crewCores d n).isEmpty

/-- The candidate with the smallest tag, the first of equals (R67). -/
def leastTag : List ((Nat × Nat) × QCmd) → Option ((Nat × Nat) × QCmd)
  | [] => none
  | x :: l => match leastTag l with
    | none => some x
    | some y => if before64 (y.2.finish.getD 0) (x.2.finish.getD 0) then some y else some x

/-- A dispatched item charged to its queue's shaper (R69). -/
def chargeQueue (h : Nat × Nat) (price : Nat) (d : Dev) : Dev :=
  if h.1 = 1 ∧ (queueOf d h.2).shEn then setQueue h.2 { queueOf d h.2 with balance := (queueOf d h.2).balance - price } d else d

/-- A command taken from its queue and started: one that runs on the engines becomes an item. -/
def startCmd (q : QCmd) (s : State) : State :=
  let (q, d) := reserveCq q (takeHeld q s.dev)
  match (stateCheck d q.opcode q.cmd).orElse fun _ => lengthCheck q.opcode q.cmd with
  | some st => { s with dev := completeSt q st d }
  | none =>
    if isEngine q && (engineCheck d q).isNone then { s with dev := startItem q d }
    else runBody q { s with dev := d }

/-- The check of an EXPERT as it joins a batch (R247). -/
def joinCheck (d : Dev) (q : QCmd) : Option Nat :=
  ((stateCheck d q.opcode q.cmd).orElse fun _ => lengthCheck q.opcode q.cmd).orElse fun _ => expertCheck d q

/-- The tokens that join a batch for an expert (R248): from each eligible queue of the crew the leading run of its EXPERTs, in the
order of their tags, up to most tokens. -/
def gatherBatch (n desc most : Nat) : Nat → List QCmd → Dev → List QCmd × Dev
  | 0, got, d => (got, d)
  | fuel + 1, got, d =>
    let d := tagHeads n d
    let heads := (crewHomes d n).filterMap fun h => match heldIn d h with
      | q :: _ =>
        if homeReady d h && q.opcode == 0x301 && pNat q.cmd 0 8 == desc && q.admitted && cqRoom d q && !fenceWaits d q
          then some (h, q) else none
      | [] => none
    match (if most ≤ got.length then none else leastTag heads) with
    | none => (got, d)
    | some (h, q) =>
      let (q', d) := reserveCq q (takeHeld q (chargeQueue h q.price d))
      match joinCheck d q' with
      | some st => gatherBatch n desc most fuel got (completeSt q' st d)
      | none => gatherBatch n desc most fuel (got ++ [q']) d

/-- A batch dispatched (R245, R252): an item that runs, or READY until its descriptor can be read. -/
def placeBatch (n id : Nat) (qs : List QCmd) (d : Dev) : Dev :=
  match dispatchBatch qs d with
  | (none, d) => { d with items := tSet d.items id { crew := n, kind := .batch 0 qs, state := 0 } }
  | (some (desc, good), d) =>
    if good.isEmpty then { d with items := tDel d.items id }
    else { d with items := tSet d.items id { crew := n, kind := .batch desc good, state := 1 } }

/-- The chosen command of a crew dispatched (R67): an EXPERT takes its batch with it (R248). -/
def dispatch (n : Nat) (h : Nat × Nat) (q : QCmd) (s : State) : State :=
  let d := modCrew n (fun c => { c with vtime := q.finish.getD c.vtime }) s.dev
  if q.opcode = 0x301 then
    match joinCheck d q with
    | some _ =>
      let (q', d) := reserveCq q (takeHeld q (chargeQueue h q.price d))
      { s with dev := completeSt q' ((joinCheck d q').getD stBadField) d }
    | none =>
      let (qs, d) := gatherBatch n (pNat q.cmd 0 8) (max 1 (cfgField d 0xB0000 10 0)) (heldCount d n) [] d
      let (id, d) := freshId d
      { s with dev := if qs.isEmpty then d else placeBatch n id qs d }
  else startCmd q { s with dev := chargeQueue h q.price d }

/-- Arbitration among a crew's queues in one stroke (R67). The first item of a stroke always starts (R467); whether a later one fits what
is left of the crew's budget is the device's own, and a queue whose item does not fit is passed over for the stroke. -/
def arbitrate (n : Nat) : Nat → Bool → List (Nat × Nat) → State → State
  | 0, _, _, s => s
  | fuel + 1, first, passed, s =>
    let d := tagHeads n s.dev
    let cands := (crewHomes d n).filterMap fun h => match heldIn d h with
      | q :: _ => if !passed.contains h && homeReady d h && mayStart d n q then some (h, q) else none
      | [] => none
    match leastTag cands with
    | none => { s with dev := d }
    | some (h, q) =>
      let (k, d) := if first then (1, d) else drawNat d
      if k % 2 = 0 then arbitrate n fuel false (passed ++ [h]) { s with dev := d }
      else arbitrate n fuel false passed (dispatch n h q { s with dev := d })

/-- New work of a crew chosen (step 9): only a crew that serves is given any. -/
def crewWork (n : Nat) (s : State) : State :=
  if (crewOf s.dev n).state ≠ 1 then s
  else
    let busy := s.dev.items.any fun x => x.2.crew == n && x.2.state == 1
    arbitrate n (2 * heldCount s.dev n) (!busy) [] s

/-- The commands of a management session, which belong to no crew's shares: at most four in a stroke. -/
def managementWork (i : Nat) : Nat → State → State
  | 0, s => s
  | fuel + 1, s => match (sessOf s.dev i).held with
    | [] => s
    | q :: _ =>
      if q.admitted && !isControl q.opcode && !fenceWaits s.dev q then managementWork i fuel (startCmd q s) else s

/-- The work of every management session. -/
def allManagement (s : State) : State :=
  ((openSessions s.dev).filter fun x => x.2.management).foldl (fun s x => managementWork x.1 4 s) s

/-! ### Work that goes on -/

/-- What a stroke resumes before new work (Table 2-3): cut items run on, parked batches try again, and those that wait for their
descriptor are dispatched. -/
def resumeItems (d : Dev) : Dev :=
  let d := { d with items := tMap d.items fun _ x => if x.state = 2 ∨ x.state = 3 then { x with state := 1 } else x }
  (d.items.filter fun x => x.2.state == 0).foldl (fun d x => placeBatch x.2.crew x.1 x.2.cmds d) d

/-- A command whose data has arrived started again (R54, R258), or ended where its wait ended with no answer. -/
def retryOne (e : QCmd × Nat) (s : State) : State :=
  let s := { s with dev := { s.dev with retry := s.dev.retry.erase e } }
  if e.2 = stTimeout ∨ e.2 = stCrewReset ∨ e.2 = stTakeover then { s with dev := failWork e.2 1 e.1 s.dev }
  else runBody e.1 s

/-- Every such command. -/
def retryAll (s : State) : State := s.dev.retry.foldl (fun s e => retryOne e s) s

/-- What the commands that have ended leave behind: bound versions and answers kept for them. -/
def tidy (d : Dev) : Dev :=
  let ids := (startedCmds d).map (·.id)
  { d with bound := liveBound d, got := d.got.filter fun x => ids.contains x.1 }

/-- PARKED_RESUME (R54): a parked access whose data or answer has arrived. -/
def parkedResume (job : Nat) (s : State) : State :=
  let s := { s with dev := resumeJob job (wakeStable s.dev) }
  let s := match s.dev.retry.find? fun e => e.1.id == job with
    | none => s
    | some e => retryOne e s
  { s with dev := tidy s.dev }

/-- PARKED_RESUME. -/
def execParkedResume (job : Nat) (s : State) : Host.Outcome State Fault Refusal := .next (settle (parkedResume job s))

/-- The first slice of a long operation (Table 2-4). -/
def firstSlice (i : Nat) (d : Dev) : Dev :=
  let d := modOp i (fun l => { l with state := 2 }) d
  match (opOf d i).opcode with
  | 0x201 => placeFirst i d
  | 0x405 => tableFirst i d
  | 0x504 => mergeFirst i d
  | _ => d

/-- The slices of a stroke: queued operations begin, and the fraction that the others have done is the device's own and never falls
(R64). -/
def sliceStep (d : Dev) : Dev :=
  (liveOps d).foldl (fun d x =>
    if x.2.state = 1 then firstSlice x.1 d
    else if x.2.state = 3 then d
    else
      let (k, d) := drawNat d
      modOp x.1 (fun l => { l with progress := max l.progress (k % 65536) }) d) d

end Sys2Proof.Machine
end

