-- ==== Sys2Proof/Machine/Boundary.lean ====
section
/-! DEFINITION. Machine/Boundary.lean: the stroke boundary, in the nine steps of Table 2-2, with what other chapters do at it, and the
sleep of clusters. -/

namespace Sys2Proof.Machine

/-! ### Metering (R39) -/

/-- The cores granted to a crew in the stroke that closes: its own, and of those that it shares as many as the device granted it. A
retired core is metered to none (R374). -/
def coresGranted (n : Nat) (d : Dev) : Nat × Dev :=
  let mine := crewCores d n
  let shared := (mine.filter (coreShared d n)).length
  let (k, d) := drawNat d
  (mine.length - shared + k % (shared + 1), d)

/-- A crew's allocated DRAM in units of 2^-16 of a stack's capacity: its regions in stacked DRAM and its tier-cache share. -/
def stackUnits (d : Dev) (n : Nat) : Nat :=
  let held := (d.regions.filter fun r => r.2.crew == n && addrSpace (r.1 * 2 ^ 21) == 0 && addrModule (r.1 * 2 ^ 21) == ownModule d).length
  let perStack := max 1 (regRaw d 0x18 / max 1 d.cfg.stackCount)
  (held + sharePages d n / 32) * 65536 / perStack

/-- The sum of a crew's weights over the 17 ports. -/
def linkUnits (c : Crew) : Nat := ((List.range 17).map c.weight).sum

/-- The closing stroke metered to a crew. -/
def meterCrew (n : Nat) (d : Dev) : Dev :=
  let (g, d) := coresGranted n d
  let st := stackUnits d n
  let p := d.stk.current
  modCrew n (fun c =>
    let li := linkUnits c
    { c with
      meterCore := c.meterCore + g, meterStack := c.meterStack + st, meterLink := c.meterLink + li,
      cycCore := c.cycCore + g * p, cycStack := c.cycStack + st * p, cycLink := c.cycLink + li * p }) d

/-- Every crew metered. -/
def meterStep (d : Dev) : Dev := (liveCrews d).foldl (fun d c => meterCrew c.1 d) d

/-! ### Steps 2 to 8 -/

/-- Step 2: the HEARTBEAT that belongs to the stroke being opened (R396). -/
def heartbeatOut (d : Dev) : Dev :=
  let stk := d.stk
  { heartbeatSend { d with stk := { d.stk with number := d.stk.number + 1 } } with stk }

/-- The snoops that have reached SNOOP_LIMIT with no answer (R124). -/
def snoopStep (d : Dev) : Dev := d.snoops.foldl (fun d s => snoopExpiry s.line s.agent d) d

/-- The relayed requests whose DONE has not come in time (R188). -/
def relayStep (d : Dev) : Dev := d.outstanding.foldl (fun d o => relayTimeout o.requester o.tag o.tagGen d) d

/-- Step 3: deadlines judged: those of snoops (R124), relayed requests (R188), accesses, COMBINEs (R261), row fences (R304), PLACE drains (R146) and revocations (R99), and
the partner's missed HEARTBEATs (R397). -/
def judgeStep (d : Dev) : Dev :=
  let d := heartbeatStep (deadlineStep (relayStep (snoopStep d)))
  let d := (d.armed.map (·.1)).foldl (fun d i => combineDeadline i d) d
  let d := (d.moves.map (·.1)).foldl (fun d i => rowFenceEnd i d) d
  let d := (d.longops.map (·.1)).foldl (fun d i => placeDrainEnd i d) d
  (d.revokes.map (·.1)).foldl (fun d i => revokeDrainEnd i (revokeDeadline i d)) d

/-- Step 4: draining profile generations retire first (R280), then register writes take effect. -/
def writeStep (d : Dev) : Dev := step4 ((d.profiles.map (·.1)).foldl (fun d p => profileRetire p d) d)

/-- Step 5 for a shaper (R69). -/
def refillShaper (q : Queue) : Queue :=
  if q.shEn then { q with balance := min (q.balance + q.shRate * 64) (q.shBurst * 64) } else q

/-- Step 5 for a policer (R71): its buckets gain PIR and CIR, capped at PBS and CBS. -/
def refillPolicer (p : Nat) (d : Dev) : Dev :=
  let rate := regInForce d (polBase p)
  let burst := regInForce d (polBase p + 8)
  let v := regRaw d (polBase p + 0x18)
  if bitAt (regInForce d (polBase p + 0x10)) 0 then
    setReg (polBase p + 0x18)
      (min (bitsOf v 63 32 + bitsOf rate 63 32) (bitsOf burst 63 32) * 2 ^ 32 + min (bitsOf v 31 0 + bitsOf rate 31 0) (bitsOf burst 31 0)) d
  else d

/-- The policers whose control register has been written. -/
def usedPolicers (d : Dev) : List Nat :=
  (d.inForce.filter fun x => decide (0x38000 ≤ x.1) && decide (x.1 < 0x40000) && x.1 % 0x20 == 0x10).map fun x => (x.1 - 0x38000) / 0x20

/-- Step 5: shaper and policer buckets are refilled. -/
def refillStep (d : Dev) : Dev :=
  (usedPolicers d).foldl (fun d p => refillPolicer p d) { d with queues := tMap d.queues fun _ q => refillShaper q }

/-- A held command changed where it stands. -/
def modHeld (q : QCmd) (d : Dev) : Dev :=
  let put (l : List QCmd) : List QCmd := l.map fun x => if x.id = q.id then q else x
  { d with queues := tMap d.queues fun _ r => { r with held := put r.held },
           sessions := tMap d.sessions fun _ r => { r with held := put r.held } }

/-- Step 6 for one arrival (R71, R72): a red command completes with BUSY; any other is checked and admitted. -/
def colourOne (q : QCmd) (d : Dev) : Dev :=
  let (ok, d) := police q d
  if !ok then completeSt q stBusy (takeHeld q d)
  else match arrivalCheck d q with
    | some st => completeSt q st (takeHeld q d)
    | none => modHeld { q with admitted := true } (ringIn q d)

/-- Step 6: arrivals that are subject to a policer are coloured, in arrival order. -/
def colourStep (d : Dev) : Dev := ((heldCmds d).filter fun q => !q.admitted).foldl (fun d q => colourOne q d) d

/-- The crew whose access a job is: a command's, or that of the context or region that a fabric request names. -/
def jobCrew (d : Dev) (j : Job) : Option Nat := match j.owner with
  | .command _ => some j.crew
  | .device => none
  | .fabric _ => match j.slot with
    | some s => some (ctxOf d (slotOf d s).context).crew
    | none => (j.parts.head?.bind fun p => regionAt d p.addr).map (·.crew)

/-- The accesses parked across this boundary counted, each once (R54, SCH_CREW_PARKED). -/
def countParked (d : Dev) : Dev :=
  (d.jobs.filterMap fun j => if j.2.parked then jobCrew d j.2 else none).foldl (fun d n => bumpReg (0x31028 + 0x40 * n) 63 0 1 d)
    { d with jobs := tMap d.jobs fun _ j => { j with parked := false } }

/-! ### Step 9 and after it -/

/-- The completions of sealed crews' commands that finished before this step released (R76). -/
def releaseSealed (d : Dev) : Dev :=
  d.sealedDone.foldl (fun d x => release x.1 x.2.1 x.2.2.1 x.2.2.2 d) { d with sealedDone := [] }

/-- Operations that only wait for others to end (R99, R161, R219, R308, R328), looked at again. -/
def drainStep (d : Dev) : Dev :=
  let d := (d.longops.map (·.1)).foldl (fun d i => tableDrainEnd i d) d
  let d := (d.indexes.map (·.1)).foldl (fun d i => indexFree i d) d
  let d := (d.wins.map (·.1)).foldl (fun d i => windowDeleteEnd i d) d
  let d := (d.queues.map (·.1)).foldl (fun d i => queueDeleteEnd i d) d
  dropDoomed (revokeOps d)

/-- The crews whose reset or deletion drains end it (R35). -/
def crewStep (s : State) : State :=
  ((s.dev.crews.filter fun c => decide (2 ≤ c.2.state)).map (·.1)).foldl (fun s n => crewDrainEnd n s) s

/-- Whether work is in hand for a crew: a running item, or an armed COMBINE (R443). -/
def crewBusy (d : Dev) (n : Nat) : Bool :=
  (d.items.any fun x => x.2.crew == n && x.2.state != 2) || d.armed.any fun x => x.2.crew == n

/-- The crews that hold a core of a cluster. -/
def clusterCrews (d : Dev) (k : Nat) : List (Nat × Crew) :=
  (liveCrews d).filter fun c => (List.range 8).any fun i => c.2.hasCore (8 * k + i)

/-- Whether a sequencer's target has an active source (R430, Table 15-2): target 10 + k is that of cluster k. -/
def targetActive (d : Dev) (k : Nat) : Bool := (List.range 32).any fun i => (srcOf d (32 * (10 + k) + i)).active

/-- Whether a cluster is asleep. -/
def isAsleep (d : Dev) (k : Nat) : Bool := bitAt d.power.asleep k

/-- CLUSTER_WAKE (R430): the cluster's state is restored, and WAKE pulses. In standby every cluster stays asleep (R444). -/
def clusterWake (k : Nat) (d : Dev) : Dev :=
  if 16 ≤ k ∨ !isAsleep d k ∨ d.power.mode = 1 then d
  else pulse (32 * (10 + k) + 21)
    { d with power := { d.power with asleep := d.power.asleep - 2 ^ k, wakes := (d.power.wakes + 1) % 2 ^ 32 } }

/-- CLUSTER_WAKE. -/
def execClusterWake (cluster : Nat) (s : State) : Host.Outcome State Fault Refusal := .next (onDev (clusterWake cluster) s)

/-- A cluster at the end of step 9 (R430, R443): work wakes it, and with nothing to do it sleeps. Whether a sentinel is due on it is the
device's own (R372). -/
def sleepCluster (k : Nat) (d : Dev) : Dev :=
  let crews := clusterCrews d k
  let busy := crews.any fun c => crewBusy d c.1
  if isAsleep d k then (if busy || (selected d (10 + k)).isSome then clusterWake k d else d)
  else
    let (due, d) := drawNat d
    if bitAt (regInForce d 0x140008) 0 && !busy && !(crews.any (·.2.sealedCrew)) && !targetActive d k && due % 2 == 0 then
      { d with power := { d.power with asleep := d.power.asleep + 2 ^ k } }
    else d

/-- The sleep rule over the sixteen clusters. -/
def sleepStep (d : Dev) : Dev :=
  if d.power.mode = 1 then d else (List.range 16).foldl (fun d k => sleepCluster k d) d

/-- A sentinel of the stroke being opened, where the device gives one a slot that step 9 left empty (R372): the core and the result are
the device's own. A retired core is granted nothing. -/
def sentinelStep (d : Dev) : Dev :=
  let (k, d) := drawNat d
  let core := k / 4 % 128
  if k % 2 = 0 ∨ coreRetired d core then d else sentinelRun core (k / 2 % 2 == 0) d

/-- What a count of strokes brings about: the slice of a resynchronisation (R409), the waits that end by the stroke (R398, R407), the repeats
of a REDIRECT (R192), the end of kept responses (R400), and the loss of the stroke lock (R51). -/
def pairStep (d : Dev) : Dev :=
  let d := syncLoss (takeoverExpiry (redirectRepeat (expelWaitEnd (witnessRetry (resyncSlice d)))))
  (d.redirects.map (·.1)).foldl (fun d m => graceEnd m d) d

/-- The waiting caching requests of lines that have become stable taken from the pending buffer (R116), where nothing but their turn keeps
them, and promoted where their retries have reached the limit (R123). -/
def retryLines (d : Dev) : Dev :=
  let due := d.pendingBuf.filter fun w => w.job.isNone && !w.delayed && !w.turn && !(cachingWaits w d).1
  ((due.map (·.line)).foldl addTo []).foldl (fun d l => agePromotion l (pendingRetry l d)) d

/-- The work of the stroke being opened (step 9): cut items, then parked work whose data has arrived, then new work. -/
def workStep (s : State) : State :=
  let s := { s with dev := releaseSealed s.dev }
  let s := { s with dev := readOn (resumeParked (resumeItems s.dev)) }
  let s := { s with dev := retryLines (releaseOrdered (releaseDelayed s.dev)) }
  let s := retryAll s
  let s := (liveCrews s.dev).foldl (fun s c => crewWork c.1 s) (allManagement s)
  { s with dev := sliceStep s.dev }

/-- Steps 1 to 8 of the boundary that closes a stroke. -/
def closeStroke (finished : List Nat) (s : State) : State :=
  let s := itemStep finished { s with dev := countParked s.dev }
  let d := judgeStep (heartbeatOut (meterStep s.dev))
  { s with dev := controlStep (colourStep (refillStep (writeStep d))) }

/-- The time of day moved on by the local timebase over one stroke (Table 2-16): the whole nanoseconds of the stroke's period. -/
def tickTod (s : Stroke) : Nat :=
  let ps := periodPs s.current
  let ns := s.tod % 2 ^ 30 + ((s.number + 1) * ps / 1000 - s.number * ps / 1000)
  (s.tod / 2 ^ 30 + ns / 10 ^ 9) % 2 ^ 34 * 2 ^ 30 + ns % 10 ^ 9

/-- The number of the stroke being opened (R50), its period (R45), and what the boundary itself gives rise to. -/
def advance (d : Dev) : Dev :=
  let d := { d with stk := { d.stk with tod := tickTod d.stk, number := d.stk.number + 1, steer := 0 } }
  ledgerEnd (periodChange d)

/-- The accesses that waited beyond their deadline for a FAULT_RESOLVE that has now failed (R93 step 4). -/
def slotsOverdue (d : Dev) : Dev := d.jobs.foldl (fun d x =>
  if x.2.slot.isSome ∧ x.2.stamp + reqTimeout d < d.stk.number then waitDeadline x.1 d else d) d

/-- What follows the choice of work. -/
def afterWork (s : State) : State :=
  let s := { s with dev := slotsOverdue s.dev }
  let d := (s.dev.indexes.map (·.1)).foldl (fun d i => listScan i d) s.dev
  let d := sleepStep (sentinelStep (pairStep (sweepSlice (drainStep d))))
  let s := crewStep { s with dev := d }
  let d := (s.dev.queues.map (·.1)).foldl (fun d i => deferredAll i d) s.dev
  { s with dev := linkPump (runControl (icuBoundary (tidy d))) }

/-- The boundary that closes a stroke and opens the next (R52). In the fatal state nothing is executed but the commands of management
sessions that R380 names. Before the stroke is locked there is none. -/
def strokeBoundary (finished : List Nat) (s : State) : State :=
  if s.dev.power.phase < 6 ∨ !s.dev.power.on then s
  else
    let s := snapTrigger s
    if s.dev.flt.fatal then
      let d := advance (step4 s.dev)
      let s := allManagement { s with dev := d }
      settle { s with dev := linkPump (icuBoundary s.dev) }
    else
      let s := closeStroke finished s
      let s := workStep { s with dev := advance s.dev }
      settle (afterWork s)

/-- STROKE_BOUNDARY. -/
def execStrokeBoundary (finished : List Nat) (s : State) : Host.Outcome State Fault Refusal := .next (strokeBoundary finished s)

end Sys2Proof.Machine
end

