-- ==== Sys2Proof/Machine/Sessions.lean ====
section
/-! DEFINITION. Machine/Sessions.lean: the Ethernet port (R199 to R203), the handshake by which a session opens (R343, R344) and the
session protocol (R204 to R210). The keys of a session are not held: each event says whether its signature or its tag verifies. -/

namespace Sys2Proof.Machine

/-! ### The handshake -/

/-- Whether the Ethernet port answers (R436): from the end of phase 3, while its link is up. -/
def ethServes (d : Dev) : Bool := d.power.on && d.pins.ethUp && decide (4 ≤ d.power.phase)

/-- Whether HANDSHAKE datagrams are taken (R436): from the end of phase 4. -/
def helloServes (d : Dev) : Bool := ethServes d && decide (5 ≤ d.power.phase)

/-- A session index that is neither open nor pending, and has rested 256 strokes since its last session closed (R205). -/
def freeSession (d : Dev) : Option Nat :=
  (List.range 4096).find? fun i => !(sessOf d i).isOpen && !(sessOf d i).isPending && match (sessOf d i).closedAt with
    | some t => decide (t + 256 ≤ d.stk.number)
    | none => true

/-- Whether a credential is valid for a handshake (R343 step 4): one of the management credentials of the configuration record, or a
CREDENTIAL slot bound to the crew. -/
def credOk (d : Dev) (management : Bool) (crew cred : Nat) : Bool :=
  if management then decide (cred < 16) && bitAt d.cfg.mgmtValid cred && (d.cfg.mgmtCreds[cred]?).isSome
  else (keySlot d cred).use == 2 && (keySlot d cred).crew == crew

/-- The checks on handshake message 1, in order (R343). Crew sessions open only while the device serves (R380, R436). -/
def helloCheck (d : Dev) (h : Hello1) : Option Nat :=
  if !h.wellFormed ∨ !h.onCurve ∨ 2 ≤ h.role ∨ (h.role = 0 ∧ h.crew ≠ 0) then some stBadField
  else if h.role = 1 ∧ d.flt.fatal then some stDeviceFault
  else if h.role = 1 ∧ !d.power.serving then some stBusy
  else if (freeSession d).isNone then some stBusy
  else if h.role = 1 ∧ !crewLives d h.crew then some stStale
  else if !credOk d (h.role == 0) h.crew h.cred then some stNoRights
  else none

/-- A refusal (Table 12-3), counted in SEC_HANDSHAKE. -/
def refuseHello (session st : Nat) (d : Dev) : Dev :=
  ethSend (sessionPcp d) (.message2 session st (toLe 1 0xFF ++ toLe 1 st ++ zeros 230)) (bumpReg 0x120028 63 32 1 d)

/-- The generation under which an index is next opened. -/
def nextSession (s : Session) : Nat := if s.gen = 0 then 1 else s.gen

/-- SESSION_OPEN: handshake message 1 (R343). Beyond 64 pending sessions it is dropped. -/
def sessionOpen (h : Hello1) (d : Dev) : Dev :=
  if !helloServes d then d
  else if 64 ≤ (d.sessions.filter fun s => s.2.isPending).length then bumpReg 0x120028 31 0 1 d
  else match helloCheck d h, freeSession d with
    | some st, _ => refuseHello 0 st d
    | none, none => d
    | none, some i =>
      let gen := nextSession (sessOf d i)
      let word := gen * 2 ^ 24 + i
      let (nonce, d) := drawBytes 32 d
      let (pub, d) := drawBytes 96 d
      let body := [2, 0, 0, 0] ++ toLe 4 word ++ nonce ++ pub
      let sig := beBytes 96 (Config.deviceSign (h.body ++ body)).toNat
      let s : Session := { gen, isPending := true, management := h.role == 0, crew := h.crew, cred := h.cred,
                           crewGen := if h.role = 0 then 0 else (crewOf d h.crew).gen }
      ethSend (sessionPcp d) (.message2 word 0 (body ++ sig)) (setSess i s d)

/-- SESSION_OPEN. -/
def execSessionOpen (h : Hello1) (s : State) : Host.Outcome State Fault Refusal := .next (onDev (sessionOpen h) s)

/-- A pending session given up: its generation moves on, so that a late message 3 finds nothing. -/
def dropPending (i : Nat) (d : Dev) : Dev := setSess i { gen := nextGen8 (sessOf d i).gen } d

/-- What refuses message 3 of a pending session (R343, R344): a malformed body, a signature or tag that fails, a credential retired since,
or a crew that is no longer the one named. -/
def msg3Check (d : Dev) (s : Session) (h : Hello3) : Option Nat :=
  if !h.sigOk ∨ !h.tagOk ∨ !credOk d s.management s.crew s.cred then some stAuthFailed
  else if !h.wellFormed ∨ h.tagGen = 0 then some stBadField
  else if !s.management ∧ d.flt.fatal then some stDeviceFault
  else if !s.management ∧ (!crewLives d s.crew ∨ (crewOf d s.crew).gen ≠ s.crewGen) then some stStale
  else none

/-- A session opened (R344): the SESSION_OPEN completion goes out in its first datagram, with the session word. Its selections start
afresh (R79). -/
def openSession (i : Nat) (h : Hello3) (d : Dev) : Dev :=
  let s := sessOf d i
  let word := s.gen * 2 ^ 24 + i
  let fresh : Session := { gen := s.gen, isOpen := true, management := s.management, crew := s.crew, crewGen := s.crewGen, cred := s.cred }
  let d := { setSess i fresh d with sels := d.sels.filter fun x => x.1 / 16 != i }
  let d := logDev 0x8000 8 word 0 word (bumpReg 0x90068 63 32 1 d)
  let q : QCmd := { cmd := { route := .session i, crew := s.crew, tag := h.tag, tagGen := h.tagGen } }
  let (c, d) := makeCompletion q stOk [word] [] d
  sessionSend i (recordBytes c) d

/-- HANDSHAKE_MSG3: message 3 of a pending session (R344). -/
def handshakeMsg3 (h : Hello3) (d : Dev) : Dev :=
  let i := h.session % 4096
  let s := sessOf d i
  if !helloServes d ∨ !s.isPending ∨ h.session ≠ s.gen * 2 ^ 24 + i then d
  else match msg3Check d s h with
    | some st => refuseHello h.session st (dropPending i d)
    | none => openSession i h d

/-- HANDSHAKE_MSG3. -/
def execHandshakeMsg3 (h : Hello3) (s : State) : Host.Outcome State Fault Refusal := .next (onDev (handshakeMsg3 h) s)

/-- PENDING_SESSION_EXPIRY (R343): 100 ms after message 2. -/
def pendingExpiry (i : Nat) (d : Dev) : Dev :=
  if (sessOf d i).isPending then bumpReg 0x120028 63 32 1 (dropPending i d) else d

/-- PENDING_SESSION_EXPIRY. -/
def execPendingSessionExpiry (session : Nat) (s : State) : Host.Outcome State Fault Refusal :=
  .next (onDev (pendingExpiry session) s)

/-! ### Datagrams -/

/-- Datagrams and records dropped under R206 and R209 counted in ETH_RX_DROPS.MALFORMED. -/
def malformed (n : Nat) (d : Dev) : Dev := bumpReg 0x90070 31 0 n d

/-- The open session that a SESSION field names (R206). -/
def namedSession (d : Dev) (w : Nat) : Option Nat :=
  let i := w % 4096
  if (sessOf d i).isOpen ∧ w = (sessOf d i).gen * 2 ^ 24 + i then some i else none

/-- The host's ACK taken (R206, R207): what it covers is released, and completions that waited go out. An old ACK moves nothing back. -/
def takeAck (i ack : Nat) (d : Dev) : Dev :=
  let s := sessOf d i
  let top := max s.hostAck ack
  flushWaiting i (s.waiting.length + 1)
    (setSess i { s with hostAck := top, unacked := s.unacked.filter fun g => decide (top < g.seq) } d)

/-- A command that a datagram has brought whole (R209): one for a queue that carries only notices is discarded (R94). -/
def takeCommand (i dscp : Nat) (l : List Byte) (d : Dev) : Dev :=
  let (op, c) := parseCmd (.session i) l
  match discarded d c with
  | some n => discard n false d
  | none =>
    let (q, d) := arrive op c dscp d
    takeArrival q d

/-- The records of a datagram, in order (R209, R210): k are still to begin, l are the bytes left, and more says that the last one goes on
in the next datagram. -/
def takeRecords (i dscp : Nat) (more : Bool) : Nat → List Byte → Dev → Dev
  | 0, l, d => if l.isEmpty then d else malformed 1 d
  | k + 1, l, d =>
    let size := 64 * entriesFor (fieldLe l 12 4)
    if l.length < 64 ∨ l.length < size then
      if more ∧ k = 0 then setSess i { sessOf d i with openRec := l, recOpen := true } d else malformed (k + 1) d
    else takeRecords i dscp more k (l.drop size) (takeCommand i dscp (l.take size) d)

/-- A datagram acted on in its turn (R209, R210): one whose CONT does not fit the record left open is malformed, with that record. -/
def actDatagram (i : Nat) (g : Datagram) (d : Dev) : Dev :=
  let s := sessOf d i
  let cont := bitAt g.flags 1
  let more := bitAt g.flags 2
  let d := setSess i { s with openRec := [], recOpen := false } d
  if cont ≠ s.recOpen then malformed (b2n s.recOpen + g.count) d
  else if cont then takeRecords i g.dscp more (g.count + 1) (s.openRec ++ g.payload) d
  else takeRecords i g.dscp more g.count g.payload d

/-- Held datagrams acted on strictly in SEQ order (R206). -/
def actHeld (i : Nat) : Nat → Dev → Dev
  | 0, d => d
  | fuel + 1, d =>
    let s := sessOf d i
    match tGet? s.heldDg s.next with
    | none => d
    | some g => actHeld i fuel (actDatagram i g (setSess i { s with heldDg := tDel s.heldDg s.next, next := s.next + 1 } d))

/-- A sequenced datagram (R206): replayed, beyond the window, or held. -/
def sequence (i : Nat) (g : Datagram) (d : Dev) : Dev :=
  let s := sessOf d i
  if g.seq < s.next ∨ (tGet? s.heldDg g.seq).isSome then ackOnly i (bumpReg 0x90078 63 32 1 d)
  else if s.next + 1024 ≤ g.seq then malformed 1 d
  else
    let d := setSess i { s with heldDg := tSet s.heldDg g.seq g, sinceAck := s.sinceAck + 1 } d
    let d := actHeld i 1025 d
    if 16 ≤ (sessOf d i).sinceAck then ackOnly i d else d

/-- A session datagram (R202, R206): discarded where it is not authentic; otherwise its ACK is taken, and it is handled by its SEQ. -/
def sessionDatagram (g : Datagram) (d : Dev) : Dev :=
  if !ethServes d then d
  else match namedSession d g.session with
    | none => bumpReg 0x90070 63 32 1 d
    | some i =>
      if !g.auth ∨ g.type ≠ 2 then bumpReg 0x90070 63 32 1 d
      else
        let d := if g.ce then bumpReg 0x90078 31 0 1 (setSess i { sessOf d i with ceEcho := true } d) else d
        let d := takeAck i g.ack d
        if 2 ^ 63 ≤ g.seq then (if g.count ≠ 0 ∨ bitAt g.flags 1 ∨ bitAt g.flags 2 then malformed 1 d else d)
        else sequence i g d

/-- SESSION_DATAGRAM. -/
def execSessionDatagram (g : Datagram) (s : State) : Host.Outcome State Fault Refusal := .next (onDev (sessionDatagram g) s)

/-- ACK_ONLY_DATAGRAM (R206, R208): a COMMANDS datagram whose SEQ has bit 63 set. -/
def execAckOnlyDatagram (g : Datagram) (s : State) : Host.Outcome State Fault Refusal :=
  .next (onDev (sessionDatagram { g with seq := 2 ^ 63 + g.seq % 2 ^ 63 }) s)

/-- ACK_TIMER (R207): 10 µs have passed since a datagram arrived that is not acknowledged yet. -/
def ackTimer (i : Nat) (d : Dev) : Dev :=
  if (sessOf d i).isOpen ∧ 0 < (sessOf d i).sinceAck then ackOnly i d else d

/-- ACK_TIMER. -/
def execAckTimer (session : Nat) (s : State) : Host.Outcome State Fault Refusal := .next (onDev (ackTimer session) s)

/-- DATAGRAM_RESEND (R207): the resend interval of an unacknowledged datagram has passed. It is resent byte for byte, up to RETRIES
times; then the session closes. -/
def datagramResend (i seq : Nat) (d : Dev) : Dev :=
  let s := sessOf d i
  match s.unacked.find? fun g => g.seq == seq with
  | none => d
  | some g =>
    if cfgField d 0x90050 7 0 ≤ g.resends then closeSession i (bumpReg 0x90080 63 32 1 d)
    else
      let d := setSess i { s with unacked := s.unacked.map fun x => if x.seq = seq then { x with resends := x.resends + 1 } else x } d
      ethSend (sessionPcp d) (.datagram { g with resends := 0 }) (bumpReg 0x90080 31 0 1 d)

/-- DATAGRAM_RESEND. -/
def execDatagramResend (session seq : Nat) (s : State) : Host.Outcome State Fault Refusal :=
  .next (onDev (datagramResend session seq) s)

/-- SESSION_IDLE (R205): IDLE ms have passed with no datagram from the host. -/
def sessionIdle (i : Nat) (d : Dev) : Dev := if (sessOf d i).isOpen then closeSession i d else d

/-- SESSION_IDLE. -/
def execSessionIdle (session : Nat) (s : State) : Host.Outcome State Fault Refusal := .next (onDev (sessionIdle session) s)

/-! ### The port -/

/-- What makes the device drop a received frame (R200). -/
def frameBad (d : Dev) (f : Frame) : Bool :=
  !f.fcsOk || !f.addressed || (f.tagged != bitAt (cfgField d 0x90000 12 12) 0) || (f.tagged && f.vid != cfgField d 0x90000 11 0)
    || decide (cfgField d 0x90000 47 32 < f.ipBytes) || f.fragment || f.options || !f.checksumOk
    || (f.udp && f.udpPort != cfgField d 0x90048 15 0 && !(bitAt (cfgField d 0x90060 0 0) 0 && (f.udpPort == 319 || f.udpPort == 320)))

/-- ETH_FRAME (R200): a frame that is dropped is counted; what a good one carries is an event of its own. -/
def ethFrame (f : Frame) (d : Dev) : Dev := if ethServes d && frameBad d f then malformed 1 d else d

/-- ETH_FRAME. -/
def execEthFrame (f : Frame) (s : State) : Host.Outcome State Fault Refusal := .next (onDev (ethFrame f) s)

/-- PFC_FRAME (R201): the link partner pauses a priority under PFC, or lets it go on, and then the frames held leave in their order. -/
def pfcFrame (p : Nat) (paused : Bool) (d : Dev) : Dev :=
  if !ethServes d ∨ 8 ≤ p ∨ !bitAt (cfgField d 0x90000 23 16) p then d
  else if paused then { d with pausedPcp := addTo d.pausedPcp p }
  else
    { d with
      pausedPcp := d.pausedPcp.filter (· != p)
      ethTx := d.ethTx ++ (d.ethHeld.filter fun x => x.1 == p).map (·.2)
      ethHeld := d.ethHeld.filter fun x => x.1 != p }

/-- PFC_FRAME. -/
def execPfcFrame (priority : Nat) (paused : Bool) (s : State) : Host.Outcome State Fault Refusal :=
  .next (onDev (pfcFrame priority paused) s)

/-- The device's own IPv4 address, where it is in use (Table 7-19). -/
def ownIpv4 (d : Dev) (a : Nat) : Bool := bitAt (cfgField d 0x90010 63 63) 0 && cfgField d 0x90010 31 0 == a

/-- The device's own IPv6 address, where it is in use. -/
def ownIpv6 (d : Dev) (a : Nat) : Bool :=
  bitAt (cfgField d 0x90030 63 63) 0 && regInForce d 0x90020 * 2 ^ 64 + regInForce d 0x90028 == a

/-- ARP_REQUEST (R199, RFC 826). -/
def arpRequest (address sender : Nat) (d : Dev) : Dev :=
  if ethServes d && ownIpv4 d address then ethSend 0 (.arpReply address sender) d else d

/-- ARP_REQUEST. -/
def execArpRequest (address sender : Nat) (s : State) : Host.Outcome State Fault Refusal := .next (onDev (arpRequest address sender) s)

/-- NEIGHBOR_SOLICITATION (R199, RFC 4861). -/
def neighborSolicitation (address sender : Nat) (d : Dev) : Dev :=
  if ethServes d && ownIpv6 d address then ethSend 0 (.neighborAdvertisement address sender) d else d

/-- NEIGHBOR_SOLICITATION. -/
def execNeighborSolicitation (address sender : Nat) (s : State) : Host.Outcome State Fault Refusal :=
  .next (onDev (neighborSolicitation address sender) s)

/-- ICMP_ECHO (R199): the echo request's data is returned. -/
def icmpEcho (ipv6 : Bool) (address sender : Nat) (data : List Byte) (d : Dev) : Dev :=
  if ethServes d && (if ipv6 then ownIpv6 d address else ownIpv4 d address) then ethSend 0 (.echoReply ipv6 address sender data) d else d

/-- ICMP_ECHO. -/
def execIcmpEcho (ipv6 : Bool) (address sender : Nat) (data : List Byte) (s : State) : Host.Outcome State Fault Refusal :=
  .next (onDev (icmpEcho ipv6 address sender data) s)

/-- PTP_MESSAGE (R199, Tables 2-16 and 2-17): the time of day follows the master of the configured domain. -/
def ptpMessage (m : PtpMsg) (d : Dev) : Dev :=
  if !ethServes d ∨ !bitAt (cfgField d 0x90060 0 0) 0 ∨ m.domain ≠ cfgField d 0x90060 15 8 ∨ m.ipv6 ≠ bitAt (cfgField d 0x90060 1 1) 0 then d
  else setWire 838 (!m.locked)
    { d with stk := { d.stk with tod := m.seconds % 2 ^ 34 * 2 ^ 30 + m.nanos % 10 ^ 9, ptpLocked := m.locked } }

/-- PTP_MESSAGE. -/
def execPtpMessage (m : PtpMsg) (s : State) : Host.Outcome State Fault Refusal := .next (onDev (ptpMessage m) s)

end Sys2Proof.Machine
end

