-- ==== Sys2Proof/Machine/Dispatch.lean ====
section
/-! DEFINITION. Machine/Dispatch.lean: one arm for each command or event. -/

namespace Sys2Proof.Machine

/-- The effect of a command or event on everything but the queue of waiting commands. -/
def exec (i : Instr) (s : State) : Host.Outcome State Fault Refusal :=
  match i with
  | .nop c => Sys2Proof.Machine.execNop c s
  | .sessionOpen h => Sys2Proof.Machine.execSessionOpen h s
  | .handshakeMsg3 h => Sys2Proof.Machine.execHandshakeMsg3 h s
  | .sessionClose c => Sys2Proof.Machine.execSessionClose c s
  | .queueCreate c => Sys2Proof.Machine.execQueueCreate c s
  | .queueAttach c => Sys2Proof.Machine.execQueueAttach c s
  | .queueDelete c => Sys2Proof.Machine.execQueueDelete c s
  | .queueDeleteEnd queue => Sys2Proof.Machine.execQueueDeleteEnd queue s
  | .crewCreate c => Sys2Proof.Machine.execCrewCreate c s
  | .crewReset c => Sys2Proof.Machine.execCrewReset c s
  | .crewResetDrainEnd crew => Sys2Proof.Machine.execCrewResetDrainEnd crew s
  | .crewDelete c => Sys2Proof.Machine.execCrewDelete c s
  | .regRead c => Sys2Proof.Machine.execRegRead c s
  | .regWrite c => Sys2Proof.Machine.execRegWrite c s
  | .registerWrite who offset value => Sys2Proof.Machine.execRegisterWrite who offset value s
  | .snapshotNow c => Sys2Proof.Machine.execSnapshotNow c s
  | .snapshotAt c => Sys2Proof.Machine.execSnapshotAt c s
  | .snapshotDisarm c => Sys2Proof.Machine.execSnapshotDisarm c s
  | .snapshotAtTrigger => Sys2Proof.Machine.execSnapshotAtTrigger s
  | .read c => Sys2Proof.Machine.execRead c s
  | .write c => Sys2Proof.Machine.execWrite c s
  | .fill c => Sys2Proof.Machine.execFill c s
  | .copy c => Sys2Proof.Machine.execCopy c s
  | .atomic c => Sys2Proof.Machine.execAtomic c s
  | .fence c => Sys2Proof.Machine.execFence c s
  | .regionRegister c => Sys2Proof.Machine.execRegionRegister c s
  | .regionRevokeRekey c => Sys2Proof.Machine.execRegionRevokeRekey c s
  | .regionRevokeRelease c => Sys2Proof.Machine.execRegionRevokeRelease c s
  | .revokeDrainEnd revoke => Sys2Proof.Machine.execRevokeDrainEnd revoke s
  | .revokeDeadline revoke => Sys2Proof.Machine.execRevokeDeadline revoke s
  | .regionScrubDone region => Sys2Proof.Machine.execRegionScrubDone region s
  | .segmentSet c => Sys2Proof.Machine.execSegmentSet c s
  | .faultResolveReplay c => Sys2Proof.Machine.execFaultResolveReplay c s
  | .faultResolveFail c => Sys2Proof.Machine.execFaultResolveFail c s
  | .placeToDense c => Sys2Proof.Machine.execPlaceToDense c s
  | .placeToDram c => Sys2Proof.Machine.execPlaceToDram c s
  | .placeDrainEnd op => Sys2Proof.Machine.execPlaceDrainEnd op s
  | .sealExtent c => Sys2Proof.Machine.execSealExtent c s
  | .sealLogCreate c => Sys2Proof.Machine.execSealLogCreate c s
  | .sealKvAppend c => Sys2Proof.Machine.execSealKvAppend c s
  | .tierEvict c => Sys2Proof.Machine.execTierEvict c s
  | .windowCreate c => Sys2Proof.Machine.execWindowCreate c s
  | .windowAdvance c => Sys2Proof.Machine.execWindowAdvance c s
  | .windowDelete c => Sys2Proof.Machine.execWindowDelete c s
  | .windowDeleteEnd window => Sys2Proof.Machine.execWindowDeleteEnd window s
  | .countersRead c => Sys2Proof.Machine.execCountersRead c s
  | .imageLoad c => Sys2Proof.Machine.execImageLoad c s
  | .expert c => Sys2Proof.Machine.execExpert c s
  | .attnPartial c => Sys2Proof.Machine.execAttnPartial c s
  | .combine c => Sys2Proof.Machine.execCombine c s
  | .combineFire item => Sys2Proof.Machine.execCombineFire item s
  | .combineDeadline item => Sys2Proof.Machine.execCombineDeadline item s
  | .expand c => Sys2Proof.Machine.execExpand c s
  | .factor c => Sys2Proof.Machine.execFactor c s
  | .scratchLoad c => Sys2Proof.Machine.execScratchLoad c s
  | .scratchStore c => Sys2Proof.Machine.execScratchStore c s
  | .pool c => Sys2Proof.Machine.execPool c s
  | .rowPublish c => Sys2Proof.Machine.execRowPublish c s
  | .rowMove c => Sys2Proof.Machine.execRowMove c s
  | .rowConvert c => Sys2Proof.Machine.execRowConvert c s
  | .rowFenceEnd slot => Sys2Proof.Machine.execRowFenceEnd slot s
  | .hotsetLoad c => Sys2Proof.Machine.execHotsetLoad c s
  | .hotsetDrop c => Sys2Proof.Machine.execHotsetDrop c s
  | .rowReplicateSet c => Sys2Proof.Machine.execRowReplicateSet c s
  | .rowReplicateClear c => Sys2Proof.Machine.execRowReplicateClear c s
  | .tableCreate c => Sys2Proof.Machine.execTableCreate c s
  | .tableSwitch c => Sys2Proof.Machine.execTableSwitch c s
  | .tableDelete c => Sys2Proof.Machine.execTableDelete c s
  | .tableDrainEnd op => Sys2Proof.Machine.execTableDrainEnd op s
  | .search c => Sys2Proof.Machine.execSearch c s
  | .listScan index => Sys2Proof.Machine.execListScan index s
  | .insert c => Sys2Proof.Machine.execInsert c s
  | .delete c => Sys2Proof.Machine.execDelete c s
  | .mergeAttach c => Sys2Proof.Machine.execMergeAttach c s
  | .mergeFold c => Sys2Proof.Machine.execMergeFold c s
  | .mergeDetach c => Sys2Proof.Machine.execMergeDetach c s
  | .indexFree index => Sys2Proof.Machine.execIndexFree index s
  | .filterSet c => Sys2Proof.Machine.execFilterSet c s
  | .filterClear c => Sys2Proof.Machine.execFilterClear c s
  | .longopQuery c => Sys2Proof.Machine.execLongopQuery c s
  | .suspend c => Sys2Proof.Machine.execSuspend c s
  | .resume c => Sys2Proof.Machine.execResume c s
  | .cancel c => Sys2Proof.Machine.execCancel c s
  | .attest c => Sys2Proof.Machine.execAttest c s
  | .attestBatchClose => Sys2Proof.Machine.execAttestBatchClose s
  | .importKeyExpiry index => Sys2Proof.Machine.execImportKeyExpiry index s
  | .keyImport c => Sys2Proof.Machine.execKeyImport c s
  | .keyRetire c => Sys2Proof.Machine.execKeyRetire c s
  | .fwStage c => Sys2Proof.Machine.execFwStage c s
  | .fwActivate c => Sys2Proof.Machine.execFwActivate c s
  | .logRead c => Sys2Proof.Machine.execLogRead c s
  | .faultRead c => Sys2Proof.Machine.execFaultRead c s
  | .faultAck c => Sys2Proof.Machine.execFaultAck c s
  | .pairJoinSync c => Sys2Proof.Machine.execPairJoinSync c s
  | .pairJoinSwitch c => Sys2Proof.Machine.execPairJoinSwitch c s
  | .pairLeave c => Sys2Proof.Machine.execPairLeave c s
  | .expel c => Sys2Proof.Machine.execExpel c s
  | .ownerQuery c => Sys2Proof.Machine.execOwnerQuery c s
  | .ownerClaim c => Sys2Proof.Machine.execOwnerClaim c s
  | .ownerRenew c => Sys2Proof.Machine.execOwnerRenew c s
  | .ownerOffer c => Sys2Proof.Machine.execOwnerOffer c s
  | .ownerAccept c => Sys2Proof.Machine.execOwnerAccept c s
  | .ownerAbort c => Sys2Proof.Machine.execOwnerAbort c s
  | .ownerRelease c => Sys2Proof.Machine.execOwnerRelease c s
  | .ownerTake c => Sys2Proof.Machine.execOwnerTake c s
  | .sqTail who queue value => Sys2Proof.Machine.execSqTail who queue value s
  | .cqHead who queue value => Sys2Proof.Machine.execCqHead who queue value s
  | .schQconfApply who value => Sys2Proof.Machine.execSchQconfApply who value s
  | .schQconfSelect who value => Sys2Proof.Machine.execSchQconfSelect who value s
  | .schQshapeApply who value => Sys2Proof.Machine.execSchQshapeApply who value s
  | .schQshapeSelect who value => Sys2Proof.Machine.execSchQshapeSelect who value s
  | .stkPeriodAt who value => Sys2Proof.Machine.execStkPeriodAt who value s
  | .periodChange => Sys2Proof.Machine.execPeriodChange s
  | .engCrewSpad who crew value => Sys2Proof.Machine.execEngCrewSpad who crew value s
  | .tirCrewCache who crew value => Sys2Proof.Machine.execTirCrewCache who crew value s
  | .wskMark who value => Sys2Proof.Machine.execWskMark who value s
  | .wskUnmark who value => Sys2Proof.Machine.execWskUnmark who value s
  | .wskMarkSelect who value => Sys2Proof.Machine.execWskMarkSelect who value s
  | .wskProfPublish who profile value => Sys2Proof.Machine.execWskProfPublish who profile value s
  | .wskProfDisable who profile value => Sys2Proof.Machine.execWskProfDisable who profile value s
  | .profileRetire profile => Sys2Proof.Machine.execProfileRetire profile s
  | .snpFrozenRelease who => Sys2Proof.Machine.execSnpFrozenRelease who s
  | .icuSoft who target => Sys2Proof.Machine.execIcuSoft who target s
  | .icuTgtClaim target => Sys2Proof.Machine.execIcuTgtClaim target s
  | .icuTgtComplete target source => Sys2Proof.Machine.execIcuTgtComplete target source s
  | .icuTgtMode who target value => Sys2Proof.Machine.execIcuTgtMode who target value s
  | .icuRingConsumer who target consumer => Sys2Proof.Machine.execIcuRingConsumer who target consumer s
  | .icuSrc who source value => Sys2Proof.Machine.execIcuSrc who source value s
  | .watchdogKick who target => Sys2Proof.Machine.execWatchdogKick who target s
  | .watchdogHalf target => Sys2Proof.Machine.execWatchdogHalf target s
  | .watchdogMiss target withinSecond => Sys2Proof.Machine.execWatchdogMiss target withinSecond s
  | .pwrResetModule who => Sys2Proof.Machine.execPwrResetModule who s
  | .pwrResetDie who die => Sys2Proof.Machine.execPwrResetDie who die s
  | .clusterResetEnd die passed => Sys2Proof.Machine.execClusterResetEnd die passed s
  | .pwrStandbyEnter who => Sys2Proof.Machine.execPwrStandbyEnter who s
  | .pwrStandbyLeave who => Sys2Proof.Machine.execPwrStandbyLeave who s
  | .strokeBoundary finished => Sys2Proof.Machine.execStrokeBoundary finished s
  | .waitDeadline job => Sys2Proof.Machine.execWaitDeadline job s
  | .clusterWake cluster => Sys2Proof.Machine.execClusterWake cluster s
  | .itemAbandon item => Sys2Proof.Machine.execItemAbandon item s
  | .parkTimeout job => Sys2Proof.Machine.execParkTimeout job s
  | .parkedResume job => Sys2Proof.Machine.execParkedResume job s
  | .deferredCompletionWrite queue => Sys2Proof.Machine.execDeferredCompletionWrite queue s
  | .ledgerIntervalEnd => Sys2Proof.Machine.execLedgerIntervalEnd s
  | .counterDecay => Sys2Proof.Machine.execCounterDecay s
  | .meterLatch => Sys2Proof.Machine.execMeterLatch s
  | .throttleStep sensors => Sys2Proof.Machine.execThrottleStep sensors s
  | .syncSend => Sys2Proof.Machine.execSyncSend s
  | .delayReqSend now => Sys2Proof.Machine.execDelayReqSend now s
  | .syncLoss => Sys2Proof.Machine.execSyncLoss s
  | .sync p => Sys2Proof.Machine.execSync p s
  | .delayReq p leave => Sys2Proof.Machine.execDelayReq p leave s
  | .delayRsp p => Sys2Proof.Machine.execDelayRsp p s
  | .portHello port number hall => Sys2Proof.Machine.execPortHello port number hall s
  | .redirect source fromM toM epoch stroke => Sys2Proof.Machine.execRedirect source fromM toM epoch stroke s
  | .redirectRepeat => Sys2Proof.Machine.execRedirectRepeat s
  | .redirectGraceEnd module => Sys2Proof.Machine.execRedirectGraceEnd module s
  | .flit port bytes => Sys2Proof.Machine.execFlit port bytes s
  | .linkAckStall port => Sys2Proof.Machine.execLinkAckStall port s
  | .retrainFail port => Sys2Proof.Machine.execRetrainFail port s
  | .portTrainEnd port up => Sys2Proof.Machine.execPortTrainEnd port up s
  | .rd p => Sys2Proof.Machine.execRd p s
  | .wr p => Sys2Proof.Machine.execWr p s
  | .atom p => Sys2Proof.Machine.execAtom p s
  | .rdS p => Sys2Proof.Machine.execRdS p s
  | .rdX p => Sys2Proof.Machine.execRdX p s
  | .upg p => Sys2Proof.Machine.execUpg p s
  | .wb p => Sys2Proof.Machine.execWb p s
  | .agentReg p => Sys2Proof.Machine.execAgentReg p s
  | .agentBye p => Sys2Proof.Machine.execAgentBye p s
  | .ack p => Sys2Proof.Machine.execAck p s
  | .ackD p => Sys2Proof.Machine.execAckD p s
  | .pendingRetry line => Sys2Proof.Machine.execPendingRetry line s
  | .agePromotion line => Sys2Proof.Machine.execAgePromotion line s
  | .snoopLimitExpiry line agent => Sys2Proof.Machine.execSnoopLimitExpiry line agent s
  | .copyData p => Sys2Proof.Machine.execCopyData p s
  | .copyAck p => Sys2Proof.Machine.execCopyAck p s
  | .done p => Sys2Proof.Machine.execDone p s
  | .rsp p => Sys2Proof.Machine.execRsp p s
  | .relayedRequestTimeout requester tag tagGen => Sys2Proof.Machine.execRelayedRequestTimeout requester tag tagGen s
  | .deviceRequestTimeout job => Sys2Proof.Machine.execDeviceRequestTimeout job s
  | .tierFillEnd page result => Sys2Proof.Machine.execTierFillEnd page result s
  | .windowFillEnd window count ok => Sys2Proof.Machine.execWindowFillEnd window count ok s
  | .nvmeCompletion link command ok => Sys2Proof.Machine.execNvmeCompletion link command ok s
  | .nvmeCmdTimeout link command => Sys2Proof.Machine.execNvmeCmdTimeout link command s
  | .namespaceReturn link => Sys2Proof.Machine.execNamespaceReturn link s
  | .pcieAerEvent link correctable detail => Sys2Proof.Machine.execPcieAerEvent link correctable detail s
  | .patrolScrubRead line symbols => Sys2Proof.Machine.execPatrolScrubRead line symbols s
  | .sramDoubleBitError array => Sys2Proof.Machine.execSramDoubleBitError array s
  | .bridgeFailure => Sys2Proof.Machine.execBridgeFailure s
  | .thermalTrip die => Sys2Proof.Machine.execThermalTrip die s
  | .faultNPulseEnd => Sys2Proof.Machine.execFaultNPulseEnd s
  | .sessionDatagram d => Sys2Proof.Machine.execSessionDatagram d s
  | .ackOnlyDatagram d => Sys2Proof.Machine.execAckOnlyDatagram d s
  | .ackTimer session => Sys2Proof.Machine.execAckTimer session s
  | .datagramResend session seq => Sys2Proof.Machine.execDatagramResend session seq s
  | .sessionIdle session => Sys2Proof.Machine.execSessionIdle session s
  | .pendingSessionExpiry session => Sys2Proof.Machine.execPendingSessionExpiry session s
  | .ethFrame f => Sys2Proof.Machine.execEthFrame f s
  | .pfcFrame priority paused => Sys2Proof.Machine.execPfcFrame priority paused s
  | .arpRequest address sender => Sys2Proof.Machine.execArpRequest address sender s
  | .neighborSolicitation address sender => Sys2Proof.Machine.execNeighborSolicitation address sender s
  | .icmpEcho ipv6 address sender data => Sys2Proof.Machine.execIcmpEcho ipv6 address sender data s
  | .ptpMessage m => Sys2Proof.Machine.execPtpMessage m s
  | .logBatchClose => Sys2Proof.Machine.execLogBatchClose s
  | .mirror p => Sys2Proof.Machine.execMirror p s
  | .region p => Sys2Proof.Machine.execRegion p s
  | .mirrorAck applied => Sys2Proof.Machine.execMirrorAck applied s
  | .lineReq addr => Sys2Proof.Machine.execLineReq addr s
  | .lineData addr data => Sys2Proof.Machine.execLineData addr data s
  | .sample number desc step part data => Sys2Proof.Machine.execSample number desc step part data s
  | .sampleVerdict number failed => Sys2Proof.Machine.execSampleVerdict number failed s
  | .heartbeat h => Sys2Proof.Machine.execHeartbeat h s
  | .faultNotice stroke source => Sys2Proof.Machine.execFaultNotice stroke source s
  | .serveMissLimit => Sys2Proof.Machine.execServeMissLimit s
  | .mirrorMissLimit => Sys2Proof.Machine.execMirrorMissLimit s
  | .witnessAnswer w => Sys2Proof.Machine.execWitnessAnswer w s
  | .witnessAskRetry => Sys2Proof.Machine.execWitnessAskRetry s
  | .reconcileEnd => Sys2Proof.Machine.execReconcileEnd s
  | .takeoverRecordExpiry => Sys2Proof.Machine.execTakeoverRecordExpiry s
  | .join p => Sys2Proof.Machine.execJoin p s
  | .joinRepeat => Sys2Proof.Machine.execJoinRepeat s
  | .crewKey crew epoch wrapped => Sys2Proof.Machine.execCrewKey crew epoch wrapped s
  | .switch stroke epoch => Sys2Proof.Machine.execSwitch stroke epoch s
  | .powerEnRise => Sys2Proof.Machine.execPowerEnRise s
  | .powerEnFall => Sys2Proof.Machine.execPowerEnFall s
  | .inputOutOfRange vin => Sys2Proof.Machine.execInputOutOfRange vin s
  | .refclkLoss => Sys2Proof.Machine.execRefclkLoss s
  | .warmReset => Sys2Proof.Machine.execWarmReset s
  | .snapIn cycle => Sys2Proof.Machine.execSnapIn cycle s
  | .auxRise slot => Sys2Proof.Machine.execAuxRise slot s
  | .bootRails ok => Sys2Proof.Machine.execBootRails ok s
  | .bootRom identityOk serial v => Sys2Proof.Machine.execBootRom identityOk serial v s
  | .bootLoader v => Sys2Proof.Machine.execBootLoader v s
  | .training r => Sys2Proof.Machine.execTraining r s
  | .selfTest passed sramOk => Sys2Proof.Machine.execSelfTest passed sramOk s
  | .strokeLock p => Sys2Proof.Machine.execStrokeLock p s
  | .masterListenEnd heard => Sys2Proof.Machine.execMasterListenEnd heard s
  | .strokeLockWait => Sys2Proof.Machine.execStrokeLockWait s
  | .denseTierStart found => Sys2Proof.Machine.execDenseTierStart found s
  | .pairJoinPhase joined => Sys2Proof.Machine.execPairJoinPhase joined s
  | .joinTimeout witness => Sys2Proof.Machine.execJoinTimeout witness s
  | .crewRestore => Sys2Proof.Machine.execCrewRestore s
  | .phaseBoundExceeded => Sys2Proof.Machine.execPhaseBoundExceeded s
  | .i3cPrivateWrite data => Sys2Proof.Machine.execI3cPrivateWrite data s
  | .i3cPrivateRead => Sys2Proof.Machine.execI3cPrivateRead s
  | .enec => Sys2Proof.Machine.execEnec s
  | .disec => Sys2Proof.Machine.execDisec s
  | .rstdaa => Sys2Proof.Machine.execRstdaa s
  | .setdasa address => Sys2Proof.Machine.execSetdasa address s
  | .entdaa address => Sys2Proof.Machine.execEntdaa address s
  | .getpid => Sys2Proof.Machine.execGetpid s
  | .getbcr => Sys2Proof.Machine.execGetbcr s
  | .getdcr => Sys2Proof.Machine.execGetdcr s
  | .getstatus => Sys2Proof.Machine.execGetstatus s
  | .ibiRetry accepted => Sys2Proof.Machine.execIbiRetry accepted s
  | .writeEnable => Sys2Proof.Machine.execWriteEnable s
  | .status => Sys2Proof.Machine.execStatus s
  | .provRead address count => Sys2Proof.Machine.execProvRead address count s
  | .program address data => Sys2Proof.Machine.execProgram address data s
  | .erase => Sys2Proof.Machine.execErase s
  | .expelWaitEnd => Sys2Proof.Machine.execExpelWaitEnd s
  | .ethLinkDown => Sys2Proof.Machine.execEthLinkDown s
  | .ethLinkUp => Sys2Proof.Machine.execEthLinkUp s
  | .throttleThresholdCrossing die above => Sys2Proof.Machine.execThrottleThresholdCrossing die above s
  | .inputWarningCrossing outside => Sys2Proof.Machine.execInputWarningCrossing outside s
  | .conversionFault => Sys2Proof.Machine.execConversionFault s
  | .trivetCheckFailure => Sys2Proof.Machine.execTrivetCheckFailure s
  | .auxFall => Sys2Proof.Machine.execAuxFall s
  | .provisioningBusyEnd => Sys2Proof.Machine.execProvisioningBusyEnd s
  | .releaseToken sigOk => Sys2Proof.Machine.execReleaseToken sigOk s

end Sys2Proof.Machine
end

