-- ==== Sys2Proof/Safety.lean ====
section
/-! DEFINITION. Safety.lean: what counts as a safe step, and the terms in which statements speak of a command that begins and of one
that is answered. -/

namespace Sys2Proof

open Machine

/-- A step that goes on: neither a fault nor a refusal. -/
def GoesOn (o : Host.Outcome Machine.State Machine.Fault Machine.Refusal) : Prop := ∃ t, o = .next t

/-- The command and the state with which a command's own effect begins: it can be taken, no policer, check of Table 7-10, full queue,
full completion ring or fence stands in its way, its LENGTH is one its opcode allows, and its completion entries are reserved. none
where one of these stops it. -/
def begins (op : Nat) (c : Cmd) (s : State) : Option (QCmd × State) :=
  if !reachable s.dev c || (discarded s.dev c).isSome then none
  else
    let (q, d) := arrive op c 0 s.dev
    let (ok, d) := police q d
    if !ok || (arrivalCheck d q).isSome || (lengthCheck op c).isSome || sessionFull d q || !cqRoom d q || fenceHolds d q then none
    else
      let (q, d) := reserveCq q (ringIn q d)
      some (q, { s with dev := d })

/-- The step that ends with a device, the rest of the state being that of t: the snapshot triggers of the faults recorded in it are
carried out. -/
def ends (d : Dev) (t : State) : State := settle { t with dev := d }

/-- The step that ends with the completion of a command (R212 to R214) from a device, the rest of the state being that of t. -/
def replied (q : QCmd) (st : Nat) (words : List Nat) (data : List Byte) (d : Dev) (t : State) : State :=
  ends (complete q st words data d) t

/-- Nothing stands in the way of an access under a key at an address of this home's stacked DRAM: its region is registered under that
key and is neither paired, protected, lost nor a sealed crew's, and its line is held by no agent, waited for by none, fenced by no row,
not poisoned and under no sweep. -/
def Plain (d : Dev) (a key : Nat) : Prop :=
  homedHere d a = true ∧ addrSpace a = 0
  ∧ (∃ r, regionAt d a = some r ∧ r.key = key ∧ r.state = .registered ∧ r.lost = false ∧ r.paired = false ∧ r.prot = false
      ∧ crewSealed d r.crew = false)
  ∧ rowFenced d a = false ∧ tGet? d.dir (lineOf a) = none ∧ (∀ x ∈ d.agents, lineOf a ∉ x.2.sweep)
  ∧ (∀ w ∈ d.pendingBuf, w.line ≠ lineOf a) ∧ isPoisoned d (lineOf a) = false ∧ mirrorOf d (lineOf a) = none

/-- The witness has been asked (R398), from d to e: one 8-byte CAS by requester unit 3 under PAR_WITNESS_KEY from the record of the
present epoch and a holder to that of the next epoch and a member, whose answer e awaits. -/
def Asked (holder who : Nat) (d e : Dev) : Prop :=
  e.pair.askHolder = holder ∧ e.pair.askedAt = d.stk.number
  ∧ ∃ k, k ∈ e.fabTx ∧ e.pair.asking = some (k.tag, k.tagGen) ∧ k.kind = 0x03 ∧ k.source = unitId (ownModule d) 3
      ∧ k.body = reqBody (regRaw d 0x110010) (regRaw d 0x110018) 9 8 0 0 0 0 ++ toLe 16 (witnessWord (d.pair.epoch + 1) who)
        ++ toLe 16 (witnessWord d.pair.epoch holder)

/-- A request packet that its entry module takes (R178, R179, R187): the port carries requests, it is for this module and well formed,
no kept response answers it, its die's pending buffer has room, and it is relayed or finds its requester and the table with room. -/
def Taken (kind : Nat) (p : Req) (d : Dev) : Prop :=
  takesTraffic d p.port = true ∧ p.dest = unitId (ownModule d) 0 ∧ reqFormed kind p = true ∧ keptFor d p = none
  ∧ bufferFull d p.addr = false ∧ (bitAt p.entry 15 = true ∨ entryUse d p.source < 512 ∧ d.outstanding.length < 262144)

/-- A request answered, from d to e: a response of a type, with a status and what follows the response body (Table 6-8). -/
def Answered (d e : Dev) (p : Req) (kind st : Nat) (data : List Byte) : Prop :=
  ∃ k ∈ e.fabTx, k.kind = kind ∧ k.dest = p.source ∧ k.source = unitId (ownModule d) 0 ∧ k.tag = p.tag ∧ k.tagGen = p.tagGen
    ∧ k.body.take 1 = toLe 1 st ∧ k.body.drop 16 = data

/-- No counter of the replay-protected area stands lower in the second than in the first: the key counter, crew creations, memory-key
epochs, anti-rollback counters, the LMS leaf counter and PAR_EXPEL.NEXT (Table 1-15). -/
def NvLe (a b : Nv) : Prop :=
  a.keyCounter ≤ b.keyCounter ∧ (∀ n, tGet a.crewCount n ≤ tGet b.crewCount n) ∧ (∀ n, tGet a.epochs n ≤ tGet b.epochs n)
  ∧ (∀ n, tGet a.rollback n ≤ tGet b.rollback n) ∧ a.lmsStored ≤ b.lmsStored ∧ a.expelNext ≤ b.expelNext

end Sys2Proof
end

