-- ==== Sys2Proof/Certificates/Slice0/Obligations.lean ====
section
/-! DEFINITION. Certificates/Slice0/Obligations.lean: the statements for the provers. -/

open Sys2Proof Sys2Proof.Machine

/-- QUEUE_CREATE, QUEUE_ATTACH, QUEUE_DELETE and the end of a deletion (R214 to R219). -/
def Obligations.QueuesCreatedAttachedAndDeleted : Prop :=
  ((∀ c s q t, begins 0x0004 (withByte c 3 (putBits (pNat c 3 1) 2 2 0)) s = some (q, t) → bitAt (pNat q.cmd 3 1) 2 = false →
      queueCreateCheck t.dev q = none →
      let n := pNat q.cmd 0 2
      let g := nextGen8 (queueOf t.dev n).gen
      let new : Queue := {
        present := true, crew := q.cmd.crew, gen := g, weight := pNat q.cmd 2 1, doorbell := bitAt (pNat q.cmd 3 1) 0,
        notify := if bitAt (pNat q.cmd 3 1) 1 then issuer t.dev q else none, sqLog := pNat q.cmd 4 1, cqLog := pNat q.cmd 5 1,
        sqBase := pNat q.cmd 8 8, sqKey := pNat q.cmd 16 5, cqBase := pNat q.cmd 24 8, cqKey := pNat q.cmd 32 5,
        fLast := (crewOf t.dev q.cmd.crew).vtime }
      exec (.queueCreate c) s = .next (replied q stOk [n + g * 2 ^ 16] []
        (logCmd q q.cmd.crew 3 (n + g * 2 ^ 16) (queueOf t.dev n).gen g
          (deviceWrite (pNat q.cmd 24 8) (pNat q.cmd 32 5) (zeros (32 * 2 ^ pNat q.cmd 5 1)) (setQueue n new t.dev))) t))
    ∧ (∀ c s q t, begins 0x0004 (withByte c 3 (putBits (pNat c 3 1) 2 2 1)) s = some (q, t) → bitAt (pNat q.cmd 3 1) 2 = true →
        queueCreateCheck t.dev q = none →
        let n := pNat q.cmd 0 2
        let r := queueOf t.dev n
        let notify := if bitAt (pNat q.cmd 3 1) 1 then issuer t.dev q else none
        exec (.queueAttach c) s = .next (replied q stOk [n + r.gen * 2 ^ 16] []
          (logCmd q r.crew 3 (n + r.gen * 2 ^ 16) (b2n r.notify.isSome) (b2n notify.isSome) (setQueue n { r with notify } t.dev)) t)))
  ∧ ((∀ c s q t, begins 0x0005 c s = some (q, t) → queueDeleteCheck t.dev q = none →
      let n := pNat q.cmd 0 2
      let r := queueOf t.dev n
      let g := nextGen8 r.gen
      exec (.queueDelete c) s = .next (ends (cancelHeld n stCancelled
        (logCmd q r.crew 3 (n + g * 2 ^ 16) r.gen g
          (setQueue n { r with gen := g, deleting := some q, unwritten := 0 } t.dev))) t))
    ∧ (∀ n q (s : State), (queueOf s.dev n).deleting = some q → queueBusy s.dev n = false →
        let r := queueOf s.dev n
        exec (.queueDeleteEnd n) s = .next (replied q stOk [0, r.unwritten] []
          (setQueue n { crew := r.crew, gen := r.gen, deletedAt := some s.dev.stk.number } s.dev) s)))

/-- SQ_TAIL, CQ_HEAD and DEFERRED_COMPLETION_WRITE (R215 to R217). -/
def Obligations.DoorbellsAndDeferredCompletions : Prop :=
  (∀ who n (v : Word) (s : State), doorbellRight s.dev who n = some true → s.dev.flt.fatal = false →
    let r := queueOf s.dev n
    let tail := bitsOf v.toNat 31 0
    exec (.sqTail who n v) s = .next (ends
      (if r.present = true ∧ r.gen = bitsOf v.toNat 63 56 ∧ r.doorbell = true ∧ 0 ≤ diff32 tail r.sqTail
          ∧ diff32 tail r.sqHead ≤ 2 ^ r.sqLog then
        readRing n (2 ^ r.sqLog + 1) (setQueue n { r with sqTail := tail } s.dev)
      else bumpReg (0x91000 + 8 * r.crew) 63 32 1 s.dev) s))
  ∧ (∀ who n (v : Word) (s : State), doorbellRight s.dev who n = some true → s.dev.flt.fatal = false →
      let r := queueOf s.dev n
      let head := bitsOf v.toNat 31 0
      exec (.cqHead who n v) s = .next (ends
        (if r.present = true ∧ r.gen = bitsOf v.toNat 63 56 ∧ diff32 head (cqWritten s.dev n) ≤ 0 then setQueue n { r with cqHead := head } s.dev
        else bumpReg (0x91000 + 8 * r.crew) 63 32 1 s.dev) s))
  ∧ (∀ n c cs (s : State), (queueOf s.dev n).deferred = c :: cs → 0 < (queueOf s.dev n).cqFree → s.dev.flt.fatal = false →
      exec (.deferredCompletionWrite n) s = .next (ends
        (writeCq n c (setQueue n { queueOf s.dev n with deferred := cs } s.dev)) s))

/-- REGION_REGISTER (R98, R389). -/
def Obligations.RegionRegisterEntersRegions : Prop :=
  (∀ c s q t, begins 0x0107 c s = some (q, t) → registerCheck t.dev q = none → bitAt (pNat q.cmd 12 1) 0 = false →
    let first := regionNo (pNat q.cmd 0 8)
    let n := pNat q.cmd 8 4
    let flags := pNat q.cmd 12 1
    let k := drawKey t
    let g := if bitAt flags 1 then drawKey k.2 else (0, k.2)
    ∃ d, exec (.regionRegister c) s = .next (replied q stOk [k.1, 1] [] d g.2)
      ∧ (∀ r, first ≤ r → r < first + n → tGet? d.regions r = some
          { crew := q.cmd.crew, key := newKeyWord k.1, prot := bitAt flags 1, revert := bitAt flags 2, dgen := g.1 })
      ∧ (∀ r, (r < first ∨ first + n ≤ r) → tGet? d.regions r = tGet? t.dev.regions r)
      ∧ (∀ a, first * 2 ^ 21 ≤ a → a < (first + n) * 2 ^ 21 → memByte d.mem a = 0)
      ∧ (crewOf d q.cmd.crew).dramUsed = (crewOf t.dev q.cmd.crew).dramUsed + n)
  ∧ (∀ c s q t, begins 0x0107 c s = some (q, t) → registerCheck t.dev q = none → bitAt (pNat q.cmd 12 1) 0 = true →
      let first := regionNo (pNat q.cmd 0 8)
      let n := pNat q.cmd 8 4
      let flags := pNat q.cmd 12 1
      let k := drawKey t
      let g := if bitAt flags 1 then drawKey k.2 else (0, k.2)
      let r : Region := { crew := q.cmd.crew, key := newKeyWord k.1, paired := true, prot := bitAt flags 1, revert := bitAt flags 2,
                          dgen := g.1 }
      exec (.regionRegister c) s = .next (ends (waitMirrored q [k.1, 1] (sendRegion first n 1 r
        (logCmd q q.cmd.crew 2 (pNat q.cmd 0 8) 0 r.key
          (modCrew q.cmd.crew (fun x => { x with dramUsed := x.dramUsed + n }) (enterRegions first n r g.2.dev))))) g.2))

/-- REGION_REVOKE in its forms, and its drain and scrub (R95 to R100). -/
def Obligations.RevocationRuns : Prop :=
  ((∀ c s q t, begins 0x0108 (withByte c 12 0) s = some (q, t) → revokeCheck t.dev q = none → pNat q.cmd 12 1 = 0 →
      let first := regionNo (pNat q.cmd 0 8)
      let u := beginRevoke (some q) first (pNat q.cmd 8 4) false t
      let x := (tGet? t.dev.regions first).getD {}
      let y := (tGet? u.dev.regions first).getD {}
      exec (.regionRevokeRekey c) s = .next (settle (ends (logCmd q x.crew 2 (pNat q.cmd 0 8) x.key y.key u.dev) u)))
    ∧ (∀ c s q t, begins 0x0108 (withByte c 12 1) s = some (q, t) → revokeCheck t.dev q = none → pNat q.cmd 12 1 = 1 →
        let first := regionNo (pNat q.cmd 0 8)
        let u := beginRevoke (some q) first (pNat q.cmd 8 4) true t
        let x := (tGet? t.dev.regions first).getD {}
        let y := (tGet? u.dev.regions first).getD {}
        exec (.regionRevokeRelease c) s = .next (settle (ends (logCmd q x.crew 2 (pNat q.cmd 0 8) x.key y.key u.dev) u)))
    ∧ (∀ q first rel (t : State) x, tGet? t.dev.regions first = some x → x.key / 2 ^ 32 < 255 →
        let u := beginRevoke q first 1 rel t
        u.nv = t.nv
        ∧ tGet? u.dev.regions first = some { x with key := x.key + 2 ^ 32, state := if rel then .revoking else x.state }
        ∧ ∀ r, r ≠ first → tGet? u.dev.regions r = tGet? t.dev.regions r))
  ∧ ((∀ i r (s : State), tGet? s.dev.revokes i = some r → revokeLeft s.dev r = [] → r.mseq ≤ s.dev.pair.acked →
      exec (.revokeDrainEnd i) s = .next (ends (finishRevoke i r s.dev) s))
    ∧ (∀ i r (s : State), tGet? s.dev.revokes i = some r → r.bumped + reqTimeout s.dev ≤ s.dev.stk.number →
        let left := revokeLeft s.dev r
        exec (.revokeDeadline i) s = .next (ends (finishRevoke i { r with aborted := left.length }
          (left.foldl (fun d j => abortJob j stTimeout d) s.dev)) s))
    ∧ (∀ r (s : State), r ∈ s.dev.scrubbing → heldLines s.dev r = [] → Memory.wf s.dev.mem = true →
        ∃ d, exec (.regionScrubDone r) s = .next (ends d s)
          ∧ r ∉ d.scrubbing ∧ Memory.wf d.mem = true
          ∧ (∀ a, memByte d.mem a = if a / 2 ^ 21 = r then 0 else memByte s.dev.mem a)
          ∧ (∀ l ∈ d.poison, l / 16384 ≠ r) ∧ d.regions = s.dev.regions ∧ d.crews = s.dev.crews))

/-- SEGMENT_SET (R85, R92, R102). -/
def Obligations.SegmentSetStoresWhole : Prop :=
  ∀ c s q t, begins 0x0109 c s = some (q, t) → segmentCheck t.dev q = none →
    let n := pNat q.cmd 0 2
    let sg := pNat q.cmd 2 1
    let data := slice q.cmd.params 8 32
    let k := ctxOf t.dev n
    let w0 := fieldLe data 0 8
    let w1 := fieldLe data 8 8
    ∃ d, exec (.segmentSet c) s = .next (replied q stOk [] [] d t)
      ∧ (sg < 64 → (tGet? (ctxOf d n).segs sg) = some (parseSeg data)
          ∧ (∀ x, x ≠ sg → tGet? (ctxOf d n).segs x = tGet? k.segs x)
          ∧ (∀ e ∈ d.dcache, ¬(e.2.1 = n ∧ e.2.2.1 = sg)))
      ∧ (sg = 64 → bitAt w0 63 = true →
          (ctxOf d n).en = true ∧ (ctxOf d n).reqMask = bitsOf w0 47 24 ∧ (ctxOf d n).reqId = bitsOf w0 23 0
          ∧ (ctxOf d n).crew = (if k.en then k.crew else q.cmd.crew)
          ∧ (ctxOf d n).gen = (if k.en then k.gen else nextGen8 k.gen)
          ∧ (ctxOf d n).faultEn = bitAt w1 15 ∧ (ctxOf d n).faultQueue = bitsOf w1 14 0 ∧ (ctxOf d n).segs = k.segs)
      ∧ (sg = 64 → bitAt w0 63 = false → ctxOf d n = { gen := k.gen } ∧ ∀ e ∈ d.dcache, e.2.1 ≠ n)
      ∧ (∀ x, x ≠ n → ctxOf d x = ctxOf t.dev x)
      ∧ d.regions = t.dev.regions ∧ d.mem = t.dev.mem ∧ d.crews = t.dev.crews

/-- FAULT_RESOLVE_REPLAY and FAULT_RESOLVE_FAIL (R93, R103). -/
def Obligations.FaultResolveReleasesAccesses : Prop :=
  (∀ c s q t, begins 0x010A (withByte c 4 0) s = some (q, t) → pNat q.cmd 4 1 = 0 →
    let h := pNat q.cmd 0 4
    let f := slotOf t.dev (h % 1024)
    bitsOf h 23 10 = 0 → f.used = true → f.gen = h / 2 ^ 24 →
    ((ctxOf t.dev f.context).crew = q.cmd.crew ∨ fromManagement t.dev q = true) →
    let d := complete q stOk [] [] t.dev
    exec (.faultResolveReplay c) s = .next (ends (freeFault (h % 1024)
      ((slotJobs d (h % 1024)).foldl (fun d j => replayJob j.1 j.2 d) d)) t))
  ∧ (∀ c s q t, begins 0x010A (withByte c 4 1) s = some (q, t) → pNat q.cmd 4 1 = 1 →
      let h := pNat q.cmd 0 4
      let f := slotOf t.dev (h % 1024)
      bitsOf h 23 10 = 0 → f.used = true → f.gen = h / 2 ^ 24 →
      ((ctxOf t.dev f.context).crew = q.cmd.crew ∨ fromManagement t.dev q = true) →
      let d := complete q stOk [] [] t.dev
      exec (.faultResolveFail c) s = .next (ends (freeFault (h % 1024)
        ((slotJobs d (h % 1024)).foldl (fun d j => failJob j.2 stSegmentFault { d with jobs := tDel d.jobs j.1 }) d)) t))

/-- PLACE_TO_DENSE, PLACE_TO_DRAM, SEAL_EXTENT and PLACE_DRAIN_END (R146, R148). What startOp does is Obligations.LongOperations. -/
def Obligations.PlaceAndSealAccepted : Prop :=
  (∀ c s q t, begins 0x0201 (withByte c 3 0) s = some (q, t) → placeCheck t.dev q = none → pNat q.cmd 3 1 = 0 →
    let g := placeSeg t.dev q.cmd
    let first := regionNo g.hallBase
    let prot := ((tGet? t.dev.regions first).getD {}).prot
    let r := reserveSealed q.cmd.crew g.lenU (b2n prot) prot t.dev
    exec (.placeToDense c) s = .next (ends (startOp q
      { first, count := g.lenU, dest := r.1, ns := r.2.1, rights := b2n g.w + 2 * b2n g.a } r.2.2) t))
  ∧ (∀ c s q t, begins 0x0201 (withByte c 3 1) s = some (q, t) → placeCheck t.dev q = none → pNat q.cmd 3 1 = 1 →
      let g := placeSeg t.dev q.cmd
      exec (.placeToDram c) s = .next (ends (startOp q
        { first := regionNo g.hallBase, count := g.lenU, dest := regionNo (pNat q.cmd 8 8) } t.dev) t))
  ∧ (∀ c s q t, begins 0x0202 (withByte c 13 0) s = some (q, t) → sealExtentCheck t.dev q = none → pNat q.cmd 13 1 = 0 →
      let a := pNat q.cmd 0 8
      let n := pNat q.cmd 16 4
      let prot := isProtected t.dev a
      let r := reserveSealed q.cmd.crew n (if bitAt (pNat q.cmd 14 1) 1 then 2 else b2n prot) prot t.dev
      exec (.sealExtent c) s = .next (ends (startOp q { first := regionNo a, count := n, dest := r.1, ns := r.2.1 } r.2.2) t))
  ∧ (∀ i (s : State), (opOf s.dev i).state ≠ 5 → (opOf s.dev i).opcode = 0x201 → (opOf s.dev i).phase = 1 →
      ((∀ j ∈ (opOf s.dev i).admitted, j ∉ flightJobs s.dev (opOf s.dev i).first (opOf s.dev i).count)
        ∨ (opOf s.dev i).since + reqTimeout s.dev ≤ s.dev.stk.number) →
      exec (.placeDrainEnd i) s = .next (ends (modOp i (fun l => { l with phase := 2 }) s.dev) s))

/-- The commit of PLACE_TO_DRAM (R146 steps 2 to 4). -/
def Obligations.PlaceCommitCopies : Prop :=
  ∀ i (s : State), let l := opOf s.dev i
    let c := l.q.cmd
    pNat c 3 1 = 1 → bitAt (pNat c 4 1) 0 = false → Memory.wf s.dev.mem = true → recallLines true l.dest l.count s.dev = (true, s.dev) →
    let base := l.dest * 2 ^ 21
    let key := devKey s.dev base
    ∃ d, placeFinish i s = { s with dev := endOp i stOk (sealWords base (key % 2 ^ 32) (key / 2 ^ 32) 0) d }
      ∧ (∀ x, memByte d.mem x = if base ≤ x ∧ x < base + l.count * 2 ^ 21 then memByte s.dev.mem (l.first * 2 ^ 21 + (x - base))
          else memByte s.dev.mem x)
      ∧ (∀ g, tGet? (ctxOf s.dev (pNat c 0 2)).segs (pNat c 2 1) = some g →
          tGet? (ctxOf d (pNat c 0 2)).segs (pNat c 2 1) = some
            { g with hallBase := base, key, r := bitAt (pNat c 5 1) 0, w := bitAt (pNat c 5 1) 1, a := bitAt (pNat c 5 1) 2 })

/-- SEAL_LOG_CREATE and SEAL_KV_APPEND (R149 to R151). -/
def Obligations.SealLogAndAppend : Prop :=
  (∀ c s q t, begins 0x0202 (withByte c 13 1) s = some (q, t) → logCreateCheck t.dev q = none → pNat q.cmd 13 1 = 1 →
    let n := pNat q.cmd 16 4
    let prot := bitAt (pNat q.cmd 14 1) 2
    let first := freeSealed t.dev n
    let ns := (pickNs t.dev q.cmd.crew 0).getD 0
    let k := drawKey t
    let g := if prot then drawKey k.2 else (0, k.2)
    ∃ d, exec (.sealLogCreate c) s = .next (replied q stOk (0 :: sealWords (first * 2 ^ 21) k.1 1 0) [] d g.2)
      ∧ (∀ r, tGet? d.regions r = if first ≤ r ∧ r < first + n then some
          { crew := q.cmd.crew, key := newKeyWord k.1, prot, dgen := g.1, state := .opened, ns, format := 3 }
          else tGet? t.dev.regions r)
      ∧ (∀ a, first * 2 ^ 21 ≤ a → a < (first + n) * 2 ^ 21 → memByte d.mem a = 0)
      ∧ tGet? d.extents first = some { count := n, ns })
  ∧ (∀ c s q t, begins 0x0202 (withByte c 13 2) s = some (q, t) → appendCheck t.dev q = none → pNat q.cmd 13 1 = 2 →
      let n := pNat q.cmd 33 1 * pNat q.cmd 34 2
      let ls := appendLayers q.cmd
      let ns := ((regionAt t.dev (pNat q.cmd 20 8)).getD {}).ns
      let blocks := appendBlocks ls n
      let x := readLayers .device (pNat q.cmd 8 5) n ls t.dev
      blocks ≤ (tGet t.dev.namespaces ns : Ns).free → stSuccess x.2.1 = true → x.2.2.1 = true →
      let j := freshId x.2.2.2
      exec (.sealKvAppend c) s = .next (ends (issueNvme ns (.append j.1) (takeBlocks ns blocks (setJob j.1
        { owner := .command q, crew := q.cmd.crew, stamp := j.2.stk.number, goal := .output stOk [],
          parts := (ls.zip x.1).map fun y => { addr := y.1.2, len := n, act := .write, data := y.2, admitted := true,
                                               state := .waiting .append, since := j.2.stk.number } } j.2))) t))
  ∧ (∀ jid j (d : Dev), tGet? d.jobs jid = some j →
      let e := j.parts.foldl (fun d p =>
        { d with mem := memWrite d.mem p.addr (slice p.data 0 p.len), appended := d.appended ++ [(p.addr, p.len)] }) d
      appendDone jid d = runJob jid (setJob jid { j with parts := j.parts.map (·.fin stOk) } e))

/-- TIER_EVICT, COUNTERS_READ and COUNTER_DECAY (R144, R145, R162). -/
def Obligations.EvictCountersComplete : Prop :=
  (∀ c s q t, begins 0x0203 c s = some (q, t) → tierEvictCheck t.dev q = none →
    let a := pNat q.cmd 0 8
    let n := pNat q.cmd 16 4
    let named (p crew : Nat) : Bool :=
      crew == q.cmd.crew && (pNat q.cmd 20 1 == 1 || (decide (pageNo a ≤ p) && decide (p < pageNo a + n)))
    let res := (t.dev.pages.filter fun p => named p.1 p.2.crew).map (·.1)
    let fil := (t.dev.fills.filter fun f => named f.1 f.2.crew && f.2.keep).map (·.1)
    exec (.tierEvict c) s = .next (replied q stOk [(res ++ fil.filter fun p => !res.contains p).length] []
      ((res ++ fil).foldl (fun d p => evictPage p d) t.dev) t))
  ∧ (∀ p (d : Dev), pageBusy { d with fills := tMod d.fills p fun f => { f with keep := false } } p = false →
      tGet? (evictPage p d).pages p = none ∧ tGet? (evictPage p d).counters p = none)
  ∧ (∀ c s q t, begins 0x0205 c s = some (q, t) → countersReadCheck t.dev q = none →
      let a := pNat q.cmd 0 8
      let n := pNat q.cmd 16 4
      let data := ((List.range n).map (pageNo a + ·)).flatMap fun p => toLe 2 (tGet t.dev.counters p)
      let keep (x : Nat × Nat) : Bool := !(decide (pageNo a ≤ x.1) && decide (x.1 < pageNo a + n))
      let d := if pNat q.cmd 13 1 = 1 then { t.dev with counters := t.dev.counters.filter keep } else t.dev
      exec (.countersRead c) s = .next (ends (writeOut q (pNat q.cmd 24 8) (pNat q.cmd 32 5) data stOk [] d) t))
  ∧ (∀ s : State, s.dev.stk.number % 2 ^ cfgField s.dev 0x70000 12 8 = 0 →
      exec .counterDecay s = .next (ends { s.dev with
        counters := s.dev.counters.filterMap fun c => if c.2 / 2 = 0 then none else some (c.1, c.2 / 2) } s))

/-- WINDOW_CREATE, WINDOW_ADVANCE, WINDOW_DELETE, WINDOW_DELETE_END and WINDOW_FILL_END (R159 to R161). -/
def Obligations.WeightWindows : Prop :=
  (∀ c s q t, begins 0x0204 (withByte c 0 0) s = some (q, t) → windowCreateCheck t.dev q = none → pNat q.cmd 0 1 = 0 →
    let slots := pNat q.cmd 3 1
    let w := ((List.range 64).find? fun w => (winOf t.dev w).state == 0).getD 0
    let g := nextGen8 (winOf t.dev w).gen
    let x : Win := { gen := g, state := 1, crew := q.cmd.crew, slots, spans := pNat q.cmd 4 4, source := pNat q.cmd 8 8,
                     ring := pNat q.cmd 24 8, spanBytes := pNat q.cmd 40 4 }
    exec (.windowCreate c) s = .next (replied q stOk [w + g * 256] [] (startSpans w (List.range slots)
      ((List.range slots).foldl (fun d k => slotStatus x k slotEmpty d) (setWin w x t.dev))) t))
  ∧ (∀ c s q t, begins 0x0204 (withByte c 0 1) s = some (q, t) → windowAdvanceCheck t.dev q = none → pNat q.cmd 0 1 = 1 →
      let w := pNat q.cmd 1 1
      let x := winOf t.dev w
      let n := pNat q.cmd 44 4
      let passed := (List.range n).map (x.cursor + ·)
      let d := passed.foldl (fun d k => slotStatus x (k % x.slots) slotEmpty d) t.dev
      let y := winOf d w
      let z := { y with cursor := y.cursor + n, counts := passed.foldl (fun t k => tDel t (k % x.slots)) y.counts }
      exec (.windowAdvance c) s = .next (replied q stOk [] [] (startSpans w (passed.map (· + x.slots)) (setWin w z d)) t))
  ∧ (∀ c s q t, begins 0x0204 (withByte c 0 2) s = some (q, t) → windowDeleteCheck t.dev q = none → pNat q.cmd 0 1 = 2 →
      let w := pNat q.cmd 1 1
      exec (.windowDelete c) s = .next (ends (setWin w { winOf t.dev w with state := 2, deleteBy := some q } t.dev) t))
  ∧ (∀ w q (s : State), (winOf s.dev w).state = 2 → (winOf s.dev w).filling = [] → (winOf s.dev w).deleteBy = some q →
      let x := winOf s.dev w
      exec (.windowDeleteEnd w) s = .next (replied q stOk [] [] (setWin w { gen := nextGen8 x.gen }
        ((List.range x.slots).foldl (fun d k => slotStatus x k slotEmpty d) s.dev)) s))
  ∧ (∀ w c (s : State), (winOf s.dev w).state = 1 → c ∈ (winOf s.dev w).filling → (winOf s.dev w).cursor ≤ c →
      let x := winOf s.dev w
      let k := c % x.slots
      let e := endNvme (· == .windowFill w c) (setWin w { x with filling := x.filling.filter (· != c) } s.dev)
      let dst := x.ring + 65536 + k * x.spanBytes
      let f := deviceWrite dst (devKey e dst) (memRead e.mem (x.source + c % x.spans * x.spanBytes) x.spanBytes) e
      let y := winOf f w
      exec (.windowFillEnd w c true) s = .next (ends (slotStatus x k c
        (bumpReg 0x70008 47 32 1 (setWin w { y with counts := tSet y.counts k c } f))) s))

/-- TIER_FILL_END, NVME_COMPLETION, NVME_CMD_TIMEOUT, NAMESPACE_RETURN and PCIE_AER_EVENT (R138 to R141, R166). -/
def Obligations.TierFillsAndDrives : Prop :=
  (∀ page f (s : State), tGet? s.dev.fills page = some f →
    (((tGet? s.dev.regions (page / 32)).getD { state := .scrubbing }).state = .sealedExtent
      ∨ ((tGet? s.dev.regions (page / 32)).getD { state := .scrubbing }).state = .opened) →
    ∃ d, exec (.tierFillEnd page 0) s = .next (ends (wakeJobs (· == .fill page) d) s)
      ∧ tGet? d.fills page = none
      ∧ (∃ i, tGet? d.pages page = some { crew := f.crew, used := i, doomed := !f.keep })
      ∧ tGet? d.counters page = none ∧ d.mem = s.dev.mem ∧ d.regions = s.dev.regions)
  ∧ (∀ link command ok n (s : State), s.dev.nvme.find? (fun n => n.link == link && n.command == command) = some n →
      exec (.nvmeCompletion link command ok) s = .next (ends (nvmeWorkEnd n.work ok
        { s.dev with nvme := s.dev.nvme.filter (fun m => !(m == n)), nvmeTimeouts := tDel s.dev.nvmeTimeouts link }) s))
  ∧ (∀ link command n (s : State), s.dev.nvme.find? (fun n => n.link == link && n.command == command) = some n →
      let k := tGet s.dev.nvmeTimeouts link + 1
      let d := nvmeWorkEnd n.work false
        { s.dev with nvme := s.dev.nvme.filter (fun m => !(m == n)), nvmeTimeouts := tSet s.dev.nvmeTimeouts link k }
      exec (.nvmeCmdTimeout link command) s = .next (ends (if k ≥ 3 then resetController link 6 0 d else d) s))
  ∧ (∀ link (s : State), ∃ d, exec (.namespaceReturn link) s = .next (ends d s)
      ∧ (∀ i n, tGet? s.dev.namespaces i = some n →
          tGet? d.namespaces i = some (if n.link = link then { n with available := true } else n))
      ∧ { d with namespaces := s.dev.namespaces } = s.dev)
  ∧ (∀ link detail (s : State), exec (.pcieAerEvent link true detail) s = .next (ends (faultCE 5 (0x5000 + link) detail s.dev) s)
      ∧ exec (.pcieAerEvent link false detail) s = .next (ends (resetController link 5 detail s.dev) s))

/-- WRITE and FILL (R230): the access that each begins, in every form, and what it does to a line that nothing stands in the way of. -/
def Obligations.WriteAndFillStore : Prop :=
  (∀ c s q t, begins 0x0102 c s = some (q, t) → addrField q.cmd = false →
    let n := q.cmd.length - 16
    exec (.write c) s = .next (ends (cmdAccess q (Cmd.ctx q.cmd) .count
      (if n = 0 then [] else [{ addr := pNat q.cmd 0 8, len := n, key := pNat q.cmd 8 5, act := .write,
                                data := slice q.cmd.params 16 n }]) t.dev) t))
  ∧ (∀ c s q t, begins 0x0103 c s = some (q, t) → addrField q.cmd = false → pNat q.cmd 16 4 ≤ 2 ^ 28 →
      let n := pNat q.cmd 16 4
      exec (.fill c) s = .next (if n = 0 then replied q stOk [] [] t.dev t else ends (cmdAccess q (Cmd.ctx q.cmd) .count
        [{ addr := pNat q.cmd 0 8, len := n, key := pNat q.cmd 8 5, act := .write,
           data := (List.range n).map fun j => q.cmd.params.getD (24 + j % 8) 0 }] t.dev) t))
  ∧ (∀ q a key (data : List Byte) (d : Dev), 0 < data.length → lineOf (a + data.length - 1) = lineOf a → Plain d a key →
      Memory.wf d.mem = true →
      ∃ e, cmdAccess q false .count [{ addr := a, len := data.length, key, act := .write, data }] d
            = runControl (complete q stOk [data.length] [] e)
        ∧ (∀ x, memByte e.mem x = if a ≤ x ∧ x < a + data.length then data.getD (x - a) 0 else memByte d.mem x)
        ∧ Memory.wf e.mem = true ∧ e.regions = d.regions ∧ e.dir = d.dir ∧ e.poison = d.poison ∧ e.queues = d.queues
        ∧ e.sessions = d.sessions ∧ e.crews = d.crews)

/-- READ (R230, R231). -/
def Obligations.ReadReturnsBytes : Prop :=
  (∀ c s q t, begins 0x0101 c s = some (q, t) → readCheck t.dev q = none →
    let n := pNat q.cmd 16 4
    let dest := pNat q.cmd 24 8
    exec (.read c) s = .next (ends (cmdAccess q (Cmd.ctx q.cmd)
      (if dest = 0 then .inlineData else .onward dest (pNat q.cmd 32 5) false)
      [{ addr := pNat q.cmd 0 8, len := n, key := pNat q.cmd 8 5, act := .read,
         clear := dest == 0 || !rangeProtected t.dev q.cmd.crew dest n }] t.dev) t))
  ∧ (∀ q a key n clear (d : Dev), 0 < n → lineOf (a + n - 1) = lineOf a → Plain d a key →
      ∃ e, cmdAccess q false .inlineData [{ addr := a, len := n, key, act := .read, clear }] d
            = runControl (complete q stOk [n] (memRead d.mem a n) e)
        ∧ e.mem = d.mem ∧ e.regions = d.regions ∧ e.dir = d.dir ∧ e.poison = d.poison ∧ e.queues = d.queues
        ∧ e.sessions = d.sessions ∧ e.crews = d.crews)

/-- ATOMIC (R120, R121). -/
def Obligations.AtomicActsAndReturnsOld : Prop :=
  (∀ c s q t, begins 0x0105 c s = some (q, t) → atomicCheck t.dev q = none →
    let size := atomicSize (pNat q.cmd 14 1)
    exec (.atomic c) s = .next (ends (cmdAccess q (Cmd.ctx q.cmd) .oldValue
      [{ addr := pNat q.cmd 0 8, len := size, key := pNat q.cmd 8 5,
         act := .atomic (pNat q.cmd 13 1) size (pNat q.cmd 16 size) (pNat q.cmd 32 size),
         flags := 2 * pNat q.cmd 15 1 }] t.dev) t))
  ∧ (∀ q a key op size operand compare (d : Dev), (size = 4 ∨ size = 8 ∨ size = 16) → a % size = 0 → Plain d a key →
      Memory.wf d.mem = true →
      let old := leNat (memRead d.mem a size)
      let new := toLe size (atomicResult op size old operand compare)
      ∃ e, cmdAccess q false .oldValue [{ addr := a, len := size, key, act := .atomic op size operand compare }] d
            = runControl (complete q stOk ((List.range 4).map fun i => old / 2 ^ (32 * i) % 2 ^ 32) [] e)
        ∧ (∀ x, memByte e.mem x = if a ≤ x ∧ x < a + size then new.getD (x - a) 0 else memByte d.mem x)
        ∧ e.regions = d.regions ∧ e.dir = d.dir ∧ e.poison = d.poison ∧ e.queues = d.queues ∧ e.crews = d.crews)

/-- COPY and FENCE (R193, R131), NOP and SESSION_CLOSE (R205, R212). -/
def Obligations.CopyFenceNopAndClose : Prop :=
  ((∀ c s q t, begins 0x0104 c s = some (q, t) → copyCheck t.dev q = none →
      let src := pNat q.cmd 0 8
      let dst := pNat q.cmd 16 8
      let n := pNat q.cmd 32 4
      let d := if addrSpace src = 1 ∧ bitAt (pNat q.cmd 36 1) 0 = true then readUnkept src n (pNat q.cmd 8 5) t.dev else t.dev
      exec (.copy c) s = .next (ends (cmdAccess q false (.onward dst (pNat q.cmd 24 5) (bytesMeet src n dst n))
        [{ addr := src, len := n, key := pNat q.cmd 8 5, act := .read, clear := !rangeProtected d q.cmd.crew dst n }] d) t))
    ∧ (∀ dest key (p : Part), p.state = .ended stOk → 0 < p.len → lineOf (dest + p.off + p.len - 1) = lineOf (dest + p.off) →
        onwardParts dest key [p] = [{ addr := dest + p.off, len := p.len, off := p.off, key, act := .write, data := slice p.data 0 p.len }])
    ∧ (∀ c s q t, begins 0x0106 c s = some (q, t) → (pNat q.cmd 0 1 = 1 ∨ pNat q.cmd 0 1 = 2) →
        exec (.fence c) s = .next (replied q stOk [] [] t.dev t) ∧ fenceWaits t.dev q = false))
  ∧ ((∀ c s q t, begins 0x0001 c s = some (q, t) →
      exec (.nop c) s = .next (replied q stOk [pNat q.cmd 0 4, pNat q.cmd 4 4] [] t.dev t))
    ∧ (∀ c s q t, begins 0x0003 c s = some (q, t) →
        let i := pNat q.cmd 0 4 % 4096
        bitsOf (pNat q.cmd 0 4) 23 12 = 0 →
        (fromManagement t.dev q = true ∨ q.cmd.route = .session i) →
        (sessOf t.dev i).isOpen = true → (sessOf t.dev i).gen = pNat q.cmd 0 4 / 2 ^ 24 →
        exec (.sessionClose c) s = .next (ends (closeSession i (release q stOk [] [] t.dev)) t))
    ∧ (∀ i (d : Dev), (sessOf d i).isOpen = true →
        sessOf (closeSession i d) i = { gen := nextGen8 (sessOf d i).gen, closedAt := some d.stk.number }
        ∧ ∀ k, k ≠ i → sessOf (closeSession i d) k = sessOf d k))

/-- CREW_CREATE (R33). -/
def Obligations.CrewCreated : Prop :=
  (∀ c s q t, begins 0x0006 c s = some (q, t) → crewReserved q.cmd.params = false → t.dev.power.mode ≠ 1 →
    crewCheck t.dev q.cmd.crew q.cmd.params = none →
    let n := q.cmd.crew
    let m := makeCrew n q.cmd.params t
    exec (.crewCreate c) s = .next (replied q stOk [m.1, m.2.1 % 2 ^ 32, m.2.1 / 2 ^ 32] []
      (logCmd q n 4 (n + m.1 * 256) (crewOf t.dev n).gen m.1 m.2.2.dev) m.2.2))
  ∧ (∀ n l (t : State), let m := makeCrew n l t
      let count := tGet t.nv.crewCount n + 1
      m.1 = (count - 1) % 255 + 1
      ∧ m.2.1 = newKeyWord (drawKey t).1
      ∧ m.2.2.nv = { (drawKey t).2.nv with crewCount := tSet t.nv.crewCount n count }
      ∧ tGet? m.2.2.dev.crews n = some {
          state := 1, gen := m.1, sealedCrew := bitAt (fieldLe l 18 1) 0, cores := fieldLe l 0 16, stackMask := fieldLe l 16 2,
          ethWeight := fieldLe l 19 1, portWeights := (List.range 16).map (paramWeight l), qFirst := fieldLe l 36 2,
          qCount := fieldLe l 38 2, dramQuota := fieldLe l 40 4, denseQuota := fieldLe l 44 4, ctlKey := m.2.1, params := slice l 0 48 }
      ∧ (∀ k, k ≠ n → tGet? m.2.2.dev.crews k = tGet? t.dev.crews k)
      ∧ m.2.2.dev.regions = t.dev.regions ∧ m.2.2.dev.queues = t.dev.queues ∧ m.2.2.dev.mem = t.dev.mem)

/-- CREW_RESET, CREW_DELETE and CREW_RESET_DRAIN_END (R35, R38). -/
def Obligations.CrewResetAndDelete : Prop :=
  (∀ c s q t, begins 0x0007 c s = some (q, t) → crewEndCheck t.dev q = none →
    let n := q.cmd.crew
    let d := drainCrew n (modCrew n (fun c => { c with state := 2, resetBy := some q }) (cancelQueues n t.dev))
    exec (.crewReset c) s = .next (ends ((crewQueues d n).foldl (fun d i => queueDeleteEnd i d) d) t))
  ∧ (∀ c s q t, begins 0x0008 c s = some (q, t) → crewEndCheck t.dev q = none →
      let n := q.cmd.crew
      let d := drainCrew n (modCrew n (fun c => { c with state := 3, resetBy := some q }) (cancelQueues n t.dev))
      exec (.crewDelete c) s = .next (ends ((crewQueues d n).foldl (fun d i => queueDeleteEnd i d) d) t))
  ∧ (∀ n q (s : State), (crewOf s.dev n).state = 2 → (crewOf s.dev n).resetBy = some q →
      exec (.crewResetDrainEnd n) s = .next (replied q stOk [] [] (logCmd q n 4 (n + (crewOf s.dev n).gen * 256) 2 1
        (modCrew n (fun c => { c with state := 1, resetBy := none }) (scrubCrew n s.dev))) s))
  ∧ (∀ n q (s : State), (crewOf s.dev n).state = 3 → (crewOf s.dev n).resetBy = some q →
      let u := dropCrew n { s with dev := scrubCrew n s.dev }
      exec (.crewResetDrainEnd n) s = .next (replied q stOk [] [] (logCmd q n 4 (n + (crewOf s.dev n).gen * 256) 1 0 u.dev) u)
      ∧ u.nv = { s.nv with epochs := tSet s.nv.epochs n (tGet s.nv.epochs n + 1) })

/-- Long operations and their control (R58 to R64). -/
def Obligations.LongOperations : Prop :=
  ((∀ q l i (d : Dev), freeOp d = some i →
      let g := nextGen8 (opOf d i).gen
      startOp q l d = complete { q with reserved := q.reserved - (q.reserved - 1) } stOk [g * 2 ^ 24 + i] []
        (setOp i { l with gen := g, state := 1, crew := q.cmd.crew, opcode := q.opcode, since := d.stk.number,
                          q := { q with reserved := q.reserved - 1 } } d)
      ∧ i < 4096 ∧ (opOf d i).state = 5 ∧ ∀ k < 4096, (opOf d k).state = 5 → (opOf d i).freedAt ≤ (opOf d k).freedAt)
    ∧ (∀ i st words (d : Dev), (opOf d i).state ≠ 5 →
        let l := opOf d i
        let f := freshId d
        endOp i st words d = complete l.q st ((l.gen * 2 ^ 24 + i + 2 ^ 23) :: words) []
          (setOp i { l with state := 5, final := st, freedAt := f.1, progress := if st = stOk then 65535 else l.progress } f.2))
    ∧ (∀ i st words (d : Dev), (opOf d i).state = 5 → endOp i st words d = d))
  ∧ ((∀ c s q t, begins 0x0601 c s = some (q, t) → opCheck t.dev q = none →
      exec (.longopQuery c) s = .next (replied q stOk (opWords (opOf t.dev (pNat q.cmd 0 4 % 4096))) [] t.dev t))
    ∧ (∀ c s q t, begins 0x0602 c s = some (q, t) →
        exec (.suspend c) s = .next (ends (enqueue { q with reserved := 0 } (unreserve q t.dev)) t))
    ∧ (∀ c s q t, begins 0x0603 c s = some (q, t) →
        exec (.resume c) s = .next (ends (enqueue { q with reserved := 0 } (unreserve q t.dev)) t))
    ∧ (∀ c s q t, begins 0x0604 c s = some (q, t) →
        exec (.cancel c) s = .next (ends (enqueue { q with reserved := 0 } (unreserve q t.dev)) t))
    ∧ (∀ q (d : Dev), (heldCmds d).filter (fun q => isControl q.opcode && q.admitted) = [q] → cqRoom d q = true →
        let r := reserveCq q (takeHeld q d)
        controlStep d = controlAct r.1 r.2)
    ∧ (∀ q (d : Dev), lengthCheck q.opcode q.cmd = none → opCheck d q = none →
        let i := pNat q.cmd 0 4 % 4096
        let e := controlOp q.opcode i d
        controlAct q d = complete q stOk (opWords (opOf e i)) [] e)
    ∧ (∀ i l (d : Dev), tGet? d.longops i = some l →
        ((l.state = 2 ∨ l.state = 4) → tGet? (controlOp 0x602 i d).longops i = some { l with state := 3 })
        ∧ (l.state = 3 → tGet? (controlOp 0x603 i d).longops i = some { l with state := if l.committed then 4 else 2 })
        ∧ (l.state ≠ 5 → l.committed = false → controlOp 0x604 i d = endOp i stCancelled [] (undoOp i d))))

/-- ICU_TGT_CLAIM and ICU_TGT_COMPLETE (R424). -/
def Obligations.ClaimAndComplete : Prop :=
  (∀ t n (s : State), t < 26 → (tgtOf s.dev t).ring = false → selected s.dev t = some n →
    claimValue s.dev t = 2 ^ 15 + n
    ∧ ∃ d, exec (.icuTgtClaim t) s = .next (ends d s)
      ∧ srcOf d n = { srcOf s.dev n with
          active := true
          once := false
          latched := if (srcOf s.dev n).sense < 2 then (srcOf s.dev n).latched else false }
      ∧ (∀ k, k ≠ n → srcOf d k = srcOf s.dev k) ∧ d.mem = s.dev.mem ∧ d.regs = s.dev.regs)
  ∧ (∀ t (s : State), t < 26 → (tgtOf s.dev t).ring = false → selected s.dev t = none →
      claimValue s.dev t = 0 ∧ exec (.icuTgtClaim t) s = .next (ends s.dev s))
  ∧ (∀ (d : Dev) t n, selected d t = some n → (srcOf d n).active = false ∧ (srcOf d n).target = t)
  ∧ (∀ t n (s : State), t < 26 → n < 1024 → (srcOf s.dev n).active = true → (srcOf s.dev n).target = t →
      exec (.icuTgtComplete t n) s = .next (ends (pumpFor n (setSrc n { srcOf s.dev n with active := false } s.dev)) s))
  ∧ (∀ t n (s : State), t < 26 → n < 1024 → ¬((srcOf s.dev n).active = true ∧ (srcOf s.dev n).target = t) →
      exec (.icuTgtComplete t n) s = .next (ends
        (setTgt t { tgtOf s.dev t with badComplete := min 65535 ((tgtOf s.dev t).badComplete + 1) } s.dev) s))

/-- The controller's selection (R423): the order in which sources are given to a target. -/
def Obligations.SelectionByPriority : Prop :=
  (∀ (d : Dev) t n, t < 26 → selected d t = some n → claimable d t n = true
    ∧ ∀ k, ((32 * t ≤ k ∧ k < 32 * t + 32) ∨ (832 ≤ k ∧ k < 1024)) → claimable d t k = true → k ≠ n →
        (srcOf d k).prio ≤ 7 → (srcOf d n).prio ≤ 7 →
        (srcOf d k).prio < (srcOf d n).prio ∨ ((srcOf d k).prio = (srcOf d n).prio ∧ n < k))
  ∧ (∀ (d : Dev) t k, ((32 * t ≤ k ∧ k < 32 * t + 32) ∨ (832 ≤ k ∧ k < 1024)) → claimable d t k = true →
      (selected d t).isSome = true)

/-- ICU_TGT_MODE (R429). -/
def Obligations.TargetModeWrite : Prop :=
  (∀ who t (v : Word) (s : State), t < 26 → icuOwns s.dev who t = true →
    (bitAt v.toNat 0 && (t == 8 || t == 9)) ≠ (tgtOf s.dev t).ring →
    (tgtActive s.dev t = true ∨ (tgtOf s.dev t).producer ≠ (tgtOf s.dev t).consumer) →
    exec (.icuTgtMode who t v) s = .next (ends s.dev s) ∧ (icuModeWrite who t v.toNat allBits s.dev).1 = stOkPartial)
  ∧ (∀ who t (v : Word) (s : State), (t = 8 ∨ t = 9) → icuOwns s.dev who t = true → bitAt v.toNat 0 = true →
      (tgtOf s.dev t).ring = false → tgtActive s.dev t = false → (tgtOf s.dev t).producer = (tgtOf s.dev t).consumer →
      let size := bitsOf v.toNat 7 4
      let g : Tgt := { tgtOf s.dev t with ring := true, producer := 0, consumer := 0,
                                          size := if 6 ≤ size ∧ size ≤ 12 then size else (tgtOf s.dev t).size }
      ∃ d, exec (.icuTgtMode who t v) s = .next (ends d s)
        ∧ { d with log := (ringPump t 256 (setTgt t g s.dev)).log } = ringPump t 256 (setTgt t g s.dev))

/-- ICU_SOFT, ICU_SRC and ICU_RING_CONSUMER (R421, R422, R428). -/
def Obligations.SourceWritesAndRing : Prop :=
  (∀ who t (s : State), t < 26 → icuWriter s.dev who = true → exec (.icuSoft who t) s = .next (ends (pulse (32 * t) s.dev) s))
  ∧ (∀ n (d : Dev), srcReserved n = false → (tgtOf d (srcOf d n).target).ring = false →
      srcOf (pulse n d) n = { srcOf d n with latched := (srcOf d n).latched || decide (2 ≤ (srcOf d n).sense) }
      ∧ ∀ k, k ≠ n → srcOf (pulse n d) k = srcOf d k)
  ∧ (∀ n (v : Word) (s : State), srcReserved n = false → bitsOf v.toNat 3 1 ≤ 4 → (srcPulse n = true → 2 ≤ bitsOf v.toNat 3 1) →
      bitsOf v.toNat 20 16 = (srcOf s.dev n).target → (tgtOf s.dev (srcOf s.dev n).target).ring = false →
      (bitAt v.toNat 0 = true ∨ selected s.dev (srcOf s.dev n).target ≠ some n) →
      ∃ d, exec (.icuSrc .firmware n v) s = .next (ends d s)
        ∧ srcOf d n = { srcOf s.dev n with
            en := bitAt v.toNat 0, prio := bitsOf v.toNat 10 8, sense := bitsOf v.toNat 3 1,
            once := !bitAt v.toNat 0 && (srcOf s.dev n).once }
        ∧ ∀ k, k ≠ n → srcOf d k = srcOf s.dev k)
  ∧ (∀ who t k (s : State), t < 26 → icuOwns s.dev who t = true → k < 2 ^ 32 →
      let g := tgtOf s.dev t
      exec (.icuRingConsumer who t k) s = .next (ends
        (if (k + 2 ^ 32 - g.consumer) % 2 ^ 32 ≤ (g.producer + 2 ^ 32 - g.consumer) % 2 ^ 32 then
          ringPump t 256 (setTgt t { g with consumer := k } s.dev)
        else setTgt t { g with badComplete := min 65535 (g.badComplete + 1) } s.dev) s))

/-- WATCHDOG_KICK, WATCHDOG_HALF and WATCHDOG_MISS (R420). -/
def Obligations.Watchdogs : Prop :=
  (∀ who t (s : State), t < 10 → icuOwns s.dev who t = true → (tgtOf s.dev t).period < 2 ^ 32 →
    ∃ d, exec (.watchdogKick who t) s = .next (ends d s) ∧ tgtOf d t = { tgtOf s.dev t with half := false }
      ∧ (∀ k, k ≠ t → tgtOf d k = tgtOf s.dev k) ∧ d.icu = s.dev.icu ∧ d.mem = s.dev.mem)
  ∧ (∀ t (s : State), t < 10 → (tgtOf s.dev t).period ≠ 0 → (tgtOf s.dev t).half = false →
      exec (.watchdogHalf t) s = .next (ends (pulse (32 * t + 2) (setTgt t { tgtOf s.dev t with half := true } s.dev)) s))
  ∧ (∀ t (s : State), t < 8 → (tgtOf s.dev t).period ≠ 0 →
      let d := setTgt t { tgtOf s.dev t with misses := min 65535 ((tgtOf s.dev t).misses + 1), half := false } s.dev
      exec (.watchdogMiss t true) s = .next (ends (enterFatal 0x10 d) s)
      ∧ exec (.watchdogMiss t false) s = .next (ends (coxCommands (faultCE 0x10 (0x9000 + t) 0 d)) s))
  ∧ (∀ t b (s : State), (t = 8 ∨ t = 9) → (tgtOf s.dev t).period ≠ 0 →
      ∃ d, exec (.watchdogMiss t b) s = .next (ends (faultCE 0x10 (0x9000 + t) 0 d) s)
        ∧ tgtOf d t = { tgtOf s.dev t with misses := min 65535 ((tgtOf s.dev t).misses + 1), half := false, ring := false, size := 6 }
        ∧ ∀ k, 32 * t ≤ k → k < 32 * t + 32 → (tGet? s.dev.icu k).isSome = true →
            srcOf d k = { srcOf s.dev k with active := false })

/-- FAULT_READ and FAULT_ACK (R379). -/
def Obligations.FaultReadAndAckComplete : Prop :=
  (∀ c s q t, begins 0x0801 c s = some (q, t) → faultReadCheck t.dev q = none →
    let ring := faultRing t.dev (pNat q.cmd 0 1) (pNat q.cmd 1 1)
    let sel := (ring.1.filter fun r => decide (pNat q.cmd 8 8 ≤ r.seq)).take (pNat q.cmd 16 4)
    let ask := ((sel.getLast?).map fun r => r.seq + 1).getD ring.2.1
    let words := [sel.length, ask % 2 ^ 32, ((ring.1.head?.map (·.seq)).getD ring.2.1) % 2 ^ 32, ring.2.2 % 2 ^ 32]
    exec (.faultRead c) s = .next (ends (if pNat q.cmd 24 8 = 0 then complete q stOk words (sel.flatMap faultBytes) t.dev
      else writeOut q (pNat q.cmd 24 8) (pNat q.cmd 32 5) (sel.flatMap faultBytes) stOk words t.dev) t))
  ∧ (∀ c s q t, begins 0x0802 c s = some (q, t) → ringFields q.cmd = false → ringRight t.dev q = true →
      pNat q.cmd 8 8 < (faultRing t.dev (pNat q.cmd 0 1) (pNat q.cmd 1 1)).2.1 →
      let kind := pNat q.cmd 0 1
      let recs := (faultRing t.dev kind (pNat q.cmd 1 1)).1
      let keep := if kind = 2 then [] else recs.filter fun r => decide (pNat q.cmd 8 8 < r.seq)
      ∃ d, exec (.faultAck c) s = .next (replied q stOk [recs.length - keep.length] [] d t)
        ∧ { d with flt := t.dev.flt } = t.dev
        ∧ (kind = 1 → d.flt = { t.dev.flt with ring := keep }) ∧ (kind = 2 → d.flt = { t.dev.flt with saved := [] })
        ∧ (kind = 0 → ∀ x, tGet? t.dev.flt.crews (pNat q.cmd 1 1) = some x →
            tGet? d.flt.crews (pNat q.cmd 1 1) = some { x with recs := keep }))

/-- BRIDGE_FAILURE, THERMAL_TRIP, CONVERSION_FAULT, TRIVET_CHECK_FAILURE and FAULT_N_PULSE_END (R380, R381). -/
def Obligations.FatalEventsEnterFatal : Prop :=
  (∀ s : State, exec .bridgeFailure s = .next (ends (enterFatal 0x04 s.dev) s)
    ∧ exec .conversionFault s = .next (ends (enterFatal 0x0E s.dev) s)
    ∧ exec .trivetCheckFailure s = .next (ends (enterFatal 0x10 s.dev) s)
    ∧ exec (.thermalTrip 1) s = .next (ends (enterFatal 0x0D
        { s.dev with power := { s.dev.power with d1 := max s.dev.power.d1 105 } }) s)
    ∧ exec (.thermalTrip 0) s = .next (ends (enterFatal 0x0D
        { s.dev with power := { s.dev.power with d0 := max s.dev.power.d0 105 } }) s)
    ∧ exec .faultNPulseEnd s = .next (ends { s.dev with flt := { s.dev.flt with pulse := false } } s))
  ∧ (∀ src (d : Dev), d.flt.fatal = true → enterFatal src d = d)
  ∧ (∀ src (d : Dev), d.flt.fatal = false →
      let e := enterFatal src d
      e.flt.fatal = true ∧ e.flt.ftSource = src ∧ e.flt.ftStroke = d.stk.number ∧ e.mem = d.mem ∧ e.regions = d.regions
      ∧ (∀ i, (sessOf d i).isOpen = true → (sessOf d i).management = false → (sessOf e i).isOpen = false)
      ∧ (∀ i, (∀ x ∈ d.sessions, x.1 = i → x.2.management = true) → sessOf e i = sessOf d i))

/-- PATROL_SCRUB_READ and SRAM_DOUBLE_BIT_ERROR (R367, R368, R370). -/
def Obligations.LineAndArrayErrors : Prop :=
  (∀ line (s : State), exec (.patrolScrubRead line 0) s = .next (ends s.dev s)
    ∧ exec (.patrolScrubRead line 1) s = .next (ends (faultAt 1 0x01 0 (0x2000 + stackOf s.dev (line * 128)) 0 (line * 128) s.dev) s))
  ∧ (∀ line k (s : State), 2 ≤ k →
      exec (.patrolScrubRead line k) s = .next (ends (lineUncorrectable line s.dev) s)
      ∧ isPoisoned (poisonLine line s.dev) line = true
      ∧ (((regionAt s.dev (line * 128)).getD {}).paired = false →
          lineUncorrectable line s.dev = faultAt 2 0x01 stPoisoned (0x2000 + stackOf (poisonLine line s.dev) (line * 128)) 1 (line * 128)
            (poisonLine line s.dev)))
  ∧ (∀ line (s : State),
      exec (.sramDoubleBitError (.homeCacheClean line)) s
        = .next (ends (faultAt 1 0x02 0 (0x9000 + dieOf s.dev (line * 128)) 0 (line * 128) s.dev) s)
      ∧ exec (.sramDoubleBitError (.homeCacheModified line)) s
        = .next (ends (faultAt 2 0x02 stPoisoned (0x9000 + dieOf s.dev (line * 128)) 1 (line * 128) (poisonLine line s.dev)) s)
      ∧ exec (.sramDoubleBitError (.directory line)) s = .next (ends (directoryLost line s.dev) s)
      ∧ exec (.sramDoubleBitError .deviceTable) s = .next (ends (enterFatal 0x02 s.dev) s))
  ∧ (∀ die c sg tile core crew block item r (s : State),
      exec (.sramDoubleBitError (.descriptorCache die c sg tile)) s = .next (ends (faultCE 0x02 (0x9000 + die) 0
        { s.dev with dcache := s.dev.dcache.filter (· != (die, c, sg, tile)) }) s)
      ∧ exec (.sramDoubleBitError (.scratchCrew core crew block)) s = .next (ends (recordFault
        { cls := 2, source := 0x02, status := stPoisoned, unit := 0x1000 + core, flags := 1 } (some crew)
        { s.dev with spadBad := addTo s.dev.spadBad (blockNo crew core block) }) s)
      ∧ exec (.sramDoubleBitError (.operationArea core item)) s = .next (ends (failItem item (recordFault
        { cls := 2, source := 0x02, status := stDeviceFault, unit := 0x1000 + core } ((tGet? s.dev.items item).map (·.crew)) s.dev)) s)
      ∧ exec (.sramDoubleBitError (.context c)) s = .next (ends (recordFault
        { cls := 2, source := 0x02, status := stPoisoned } (some (ctxOf s.dev c).crew)
        (setCtx c { ctxOf s.dev c with lost := true } s.dev)) s)
      ∧ exec (.sramDoubleBitError (.catalogue r)) s = .next (ends (recordFault
        { cls := 2, source := 0x02, status := stPoisoned, addr := r * 2 ^ 21 } ((liveRegion s.dev r).map (·.crew))
        (modRegion r (fun x => { x with lost := true }) s.dev)) s))

/-- SNAPSHOT_NOW, SNAPSHOT_AT, SNAPSHOT_DISARM, SNAPSHOT_AT_TRIGGER and SNAP_IN (R382 to R384). -/
def Obligations.SnapshotsLatch : Prop :=
  (∀ source origin cycle (s : State), (s.snap.frozen = false ∨ source = 4) →
    let u := latchSnap source origin cycle s
    u.snap.frozen = true ∧ u.snap.source = source ∧ u.snap.stroke = s.dev.stk.number ∧ u.snap.missed = s.snap.missed
    ∧ (∃ k, u.snap.latched = some { s.dev with draws := k }) ∧ u.dev.mem = s.dev.mem ∧ u.dev.regs = s.dev.regs ∧ u.nv = s.nv)
  ∧ (∀ source origin cycle (s : State), s.snap.frozen = true → source ≠ 4 →
      latchSnap source origin cycle s = { s with snap := { s.snap with missed := s.snap.missed + 1 } })
  ∧ (∀ c s q t, begins 0x000B (withByte c 0 0) s = some (q, t) → pNat q.cmd 0 1 = 0 → pNat q.cmd 8 8 = 0 → t.snap.frozen = false →
      let u := latchSnap 1 (snapOrigin q) none t
      exec (.snapshotNow c) s = .next (replied q stOk [u.snap.stroke % 2 ^ 32, u.snap.cycle] [] u.dev u))
  ∧ (∀ c s q t, begins 0x000B (withByte c 0 1) s = some (q, t) → pNat q.cmd 0 1 = 1 → q.stamp + 2 ≤ pNat q.cmd 8 8 →
      t.snap.armedAt = none →
      exec (.snapshotAt c) s = .next (replied q stOk [] [] t.dev
        { t with snap := { t.snap with armedAt := some (pNat q.cmd 8 8), armedBy := snapOrigin q } }))
  ∧ (∀ c s q t, begins 0x000B (withByte c 0 2) s = some (q, t) → pNat q.cmd 0 1 = 2 → pNat q.cmd 8 8 = 0 →
      exec (.snapshotDisarm c) s = .next (replied q stOk [] [] t.dev { t with snap := { t.snap with armedAt := none } }))
  ∧ (∀ k (s : State), s.snap.armedAt = some k → k ≤ s.dev.stk.number + 1 →
      let u := latchSnap 2 s.snap.armedBy (some 0) s
      exec .snapshotAtTrigger s = .next { u with snap := { u.snap with armedAt := none } })
  ∧ (∀ cycle (s : State), s.dev.power.phase = 9 → bitAt (regRaw (setWire 832 true (setWire 832 false s.dev)) 0x130000) 0 = true →
      exec (.snapIn cycle) s = .next (latchSnap 3 (3, 3) (some cycle) { s with dev := setWire 832 true (setWire 832 false s.dev) }))

/-- AUX_3V3_RISE, AUX_3V3_FALL, RELEASE_TOKEN, I3C_PRIVATE_WRITE, I3C_PRIVATE_READ, and ENEC, DISEC, RSTDAA, SETDASA, ENTDAA, GETPID,
GETBCR, GETDCR, GETSTATUS (R340, R449, R450, R455, R456, R458). -/
def Obligations.SidebandTarget : Prop :=
  ((∀ slot (s : State), s.dev.pins.aux = false → exec (.auxRise slot) s = .next (ends
      { s.dev with pins := { s.dev.pins with aux := true, slot := slot % 32 }, side := {} } s))
    ∧ (∀ s : State, exec .auxFall s = .next (ends { s.dev with pins := { s.dev.pins with aux := false }, side := {} } s))
    ∧ (∀ s : State, exec (.releaseToken true) s = .next (ends { s.dev with banks := { s.dev.banks with owner := none } } s)
        ∧ exec (.releaseToken false) s = .next (ends s.dev s)
        ∧ provLocked { s.dev with banks := { s.dev.banks with owner := none } } = false))
  ∧ ((∀ b (s : State), s.dev.pins.aux = true → exec (.i3cPrivateWrite [b]) s = .next (ends
      { s.dev with side := { s.dev.side with index := b.toNat } } s))
    ∧ (∀ l (s : State), l.length ≠ 1 → exec (.i3cPrivateWrite l) s = .next (ends s.dev s))
    ∧ (∀ s : State, s.dev.pins.aux = true → let v := telemetry s.dev s.dev.side.index
        exec .i3cPrivateRead s = .next (ends { s.dev with side := { s.dev.side with
          index := (s.dev.side.index + 1) % 256, sent := s.dev.side.sent ++ [toLe v.2 v.1] } } s))
    ∧ (∀ d : Dev, telemetry d 0 = (0x4E5A5860, 4) ∧ (telemetry d 4).1 = d.power.vin ∧ (telemetry d 5).1 = d.power.iin))
  ∧ ((∀ s : State, s.dev.pins.aux = true →
      exec .enec s = .next (ends { s.dev with side := { s.dev.side with events := true } } s)
      ∧ exec .disec s = .next (ends { s.dev with side := { s.dev.side with events := false, ibi := none } } s)
      ∧ exec .rstdaa s = .next (ends { s.dev with side := { s.dev.side with dynamic := none } } s))
    ∧ (∀ a (s : State), s.dev.pins.aux = true → s.dev.side.dynamic = none →
        exec (.setdasa a) s = .next (ends { s.dev with side := { s.dev.side with dynamic := some (a % 128) } } s)
        ∧ exec (.entdaa a) s = .next (ends { s.dev with side := { s.dev.side with dynamic := some (a % 128) } } s))
    ∧ (∀ a b (s : State), s.dev.side.dynamic = some b →
        exec (.setdasa a) s = .next (ends s.dev s) ∧ exec (.entdaa a) s = .next (ends s.dev s))
    ∧ (∀ s : State, s.dev.pins.aux = true →
        (∃ l, l.length = 6 ∧ exec .getpid s = .next (ends { s.dev with side := { s.dev.side with sent := s.dev.side.sent ++ [l] } } s))
        ∧ (∃ b, exec .getbcr s = .next (ends { s.dev with side := { s.dev.side with sent := s.dev.side.sent ++ [[b]] } } s))
        ∧ (∃ b, exec .getdcr s = .next (ends { s.dev with side := { s.dev.side with sent := s.dev.side.sent ++ [[b]] } } s))
        ∧ (∃ l k, l.length = 2 ∧ exec .getstatus s = .next (ends
            { s.dev with draws := k, side := { s.dev.side with sent := s.dev.side.sent ++ [l] } } s))))

/-- In-Band Interrupts (R456): IBI_RETRY, and the two causes. -/
def Obligations.InBandInterrupts : Prop :=
  (∀ src (d : Dev), d.flt.fatal = false →
    (enterFatal src d).side.ibi = if d.side.events then some 1 else d.side.ibi)
  ∧ (∀ d : Dev, (startServing d).power.serving = true
      ∧ (startServing d).side.ibi = if d.side.events then some 2 else d.side.ibi)
  ∧ (∀ b (s : State), s.dev.pins.aux = true → s.dev.side.ibi = some b →
      exec (.ibiRetry true) s = .next (ends
        { s.dev with side := { s.dev.side with ibi := none, sent := s.dev.side.sent ++ [[BitVec.ofNat 8 b]] } } s)
      ∧ exec (.ibiRetry false) s = .next (ends s.dev s)
      ∧ exec .disec s = .next (ends { s.dev with side := { s.dev.side with events := false, ibi := none } } s))

/-- WRITE_ENABLE, STATUS, PROV_READ, PROGRAM, ERASE and PROVISIONING_BUSY_END (R457 to R459). -/
def Obligations.ProvisioningPort : Prop :=
  (∀ s : State, s.dev.pins.aux = true → s.dev.pins.powerEn = false →
    exec .status s = .next (ends { s.dev with side := { s.dev.side with out := s.dev.side.out ++
      [[BitVec.ofNat 8 (b2n s.dev.side.busy + 2 * b2n s.dev.side.wel + 4 * b2n s.dev.banks.owner.isSome)]] } } s))
  ∧ (∀ a n (s : State), s.dev.pins.aux = true → s.dev.pins.powerEn = false → s.dev.side.busy = false →
      exec .writeEnable s = .next (ends { s.dev with side := { s.dev.side with wel := true } } s)
      ∧ exec (.provRead a n) s = .next (ends { s.dev with side := { s.dev.side with out := s.dev.side.out ++
          [(List.range n).map fun i => areaByte s.dev (a + i)] } } s))
  ∧ (∀ a l (s : State), s.dev.pins.aux = true → s.dev.pins.powerEn = false → s.dev.side.busy = false → s.dev.side.wel = true →
      s.dev.banks.owner = none → 1 ≤ l.length → a % 256 + l.length ≤ 256 → a < 262144 →
      ∃ d, exec (.program a l) s = .next (ends d s) ∧ d.side = { s.dev.side with wel := false, busy := true }
        ∧ (∀ i, areaByte d i = if a ≤ i ∧ i < a + l.length then areaByte s.dev i &&& l.getD (i - a) 0 else areaByte s.dev i)
        ∧ d.banks.imagesB = s.dev.banks.imagesB ∧ d.banks.configB = s.dev.banks.configB ∧ d.regs = s.dev.regs ∧ d.mem = s.dev.mem)
  ∧ (∀ s : State, s.dev.pins.aux = true → s.dev.pins.powerEn = false → s.dev.side.busy = false → s.dev.side.wel = true →
      s.dev.banks.owner = none →
      ∃ d, exec .erase s = .next (ends d s) ∧ d.side = { s.dev.side with wel := false, busy := true } ∧ ∀ i, areaByte d i = 0xFF)
  ∧ (∀ a l n (s : State), s.dev.pins.powerEn = true →
      exec .status s = .next (ends s.dev s) ∧ exec .writeEnable s = .next (ends s.dev s)
      ∧ exec (.provRead a n) s = .next (ends s.dev s) ∧ exec (.program a l) s = .next (ends s.dev s)
      ∧ exec .erase s = .next (ends s.dev s))
  ∧ (∀ a l (s : State), s.dev.banks.owner.isSome = true →
      exec (.program a l) s = .next (ends s.dev s) ∧ exec .erase s = .next (ends s.dev s))
  ∧ (∀ s : State, s.dev.power.phaseHeld = false → s.dev.side.busy = true →
      exec .provisioningBusyEnd s = .next (ends { s.dev with side := { s.dev.side with busy := false } } s))
  ∧ (∀ s : State, s.dev.power.phaseHeld = true → s.dev.pins.pwrGood = true → inPhase s.dev 0 = true →
      exec .provisioningBusyEnd s = .next (ends (toPhase 1
        { s.dev with side := { s.dev.side with busy := false }, power := { s.dev.power with phaseHeld := false } }) s))

/-- POWER_EN_RISE, POWER_EN_FALL, INPUT_OUT_OF_RANGE, REFCLK_LOSS, WARM_RESET and PWR_RESET_MODULE (R433, R440, R452, Table 16-4). -/
def Obligations.PowerPinsAndResets : Prop :=
  (∀ s : State, s.dev.pins.aux = true → s.dev.pins.powerEn = false → s.dev.pins.inputOk = true →
    ∃ l, exec .powerEnRise s = .next (ends { s.dev with
      log := l
      pins := { s.dev.pins with powerEn := true }
      power := { s.dev.power with on := true, phase := 0, phaseHeld := s.dev.side.busy } } s))
  ∧ (∀ (i : Instr) (s : State), (i = .powerEnFall ∨ ∃ v, i = .inputOutOfRange v) → s.dev.power.on = true →
      ∃ t, exec i s = .next t ∧ t.dev.power.on = false ∧ t.dev.pins.pwrGood = false ∧ t.dev.sessions = [] ∧ t.dev.queues = []
        ∧ t.dev.jobs = [] ∧ t.dev.mem = s.dev.mem.filter (fun c => addrSpace c.1 == 1)
        ∧ (∀ r x, (r, x) ∈ t.dev.regions → addrSpace (r * 2 ^ 21) = 1)
        ∧ t.snap = {} ∧ t.nv = s.nv ∧ t.pending = s.pending)
  ∧ (∀ s : State, s.dev.power.on = true → exec .refclkLoss s = .next (ends (conversionFault s.dev) s))
  ∧ (∀ (i : Instr) (s : State),
      ((i = .warmReset ∧ s.dev.pins.powerEn = true) ∨ ∃ who, i = .pwrResetModule who ∧ isManager s.dev who = true) →
      s.dev.power.on = true → s.dev.pins.pwrGood = true →
      (s.dev.flt.fatal = false → ∃ t, exec i s = .next t ∧ t.dev.power.on = true ∧ t.dev.power.phase = 1
        ∧ t.dev.power.serving = false ∧ t.dev.sessions = [] ∧ t.dev.queues = [] ∧ t.dev.jobs = [] ∧ t.dev.mem = s.dev.mem
        ∧ t.dev.poison = s.dev.poison
        ∧ (∀ r x, (r, x) ∈ s.dev.regions → x.state ≠ .reserved → ∃ y, (r, y) ∈ t.dev.regions ∧ { y with lost := x.lost } = x)
        ∧ (∀ n x, (n, x) ∈ t.dev.crews → x = { gen := x.gen }) ∧ t.snap = {} ∧ t.nv = s.nv)
      ∧ (s.dev.flt.fatal = true → ∃ t, exec i s = .next t ∧ t.dev.mem = s.dev.mem ∧ t.dev.regions = s.dev.regions
        ∧ t.dev.sessions = s.dev.sessions ∧ t.dev.power = s.dev.power ∧ t.dev.flt = s.dev.flt ∧ t.nv = s.nv))

/-- PWR_RESET_DIE and CLUSTER_RESET_END (R442). -/
def Obligations.DieReset : Prop :=
  (∀ who die (s : State), isManager s.dev who = true → die < 2 → dieInUse s.dev die = false →
    ∃ d, exec (.pwrResetDie who die) s = .next (ends d s)
      ∧ (∀ core off, core / 64 = die → core < 128 → off < 2 ^ 21 → memByte d.scratch (scratchAddr core off) = 0#8)
      ∧ d.mem = s.dev.mem ∧ d.crews = s.dev.crews ∧ d.sessions = s.dev.sessions ∧ d.regions = s.dev.regions
      ∧ d.queues = s.dev.queues ∧ d.regs = s.dev.regs ∧ die ∈ d.power.dieResetting)
  ∧ (∀ who die (s : State), (isManager s.dev who = false ∨ 2 ≤ die ∨ dieInUse s.dev die = true) →
      exec (.pwrResetDie who die) s = .next (ends s.dev s) ∧ (dieResetWrite who die s.dev).1 = stOkPartial)
  ∧ (∀ die passed (s : State), die < 2 → die ∈ s.dev.power.dieResetting →
      ∃ d, exec (.clusterResetEnd die passed) s = .next (ends d s) ∧ die ∉ d.power.dieResetting ∧ d.mem = s.dev.mem
        ∧ (∀ k, k < 128 → k / 64 = die → bitAt d.cfg.passed k = bitAt passed k)
        ∧ (∀ k, k < 128 → k / 64 ≠ die → bitAt d.cfg.passed k = bitAt s.dev.cfg.passed k)
        ∧ (∀ k, k < 128 → bitAt d.flt.retired k = (bitAt s.dev.flt.retired k && !(k / 64 == die && bitAt passed k))))

/-- BOOT_RAILS to CREW_RESTORE, and PHASE_BOUND_EXCEEDED (R434 to R438). -/
def Obligations.StartUpPhases : Prop :=
  ∀ s : State, s.dev.flt.fatal = false → s.dev.power.on = true →
  (s.dev.power.phase = 0 → s.dev.pins.pwrGood = false → exec (.bootRails true) s = .next (ends { s.dev with
      pins := { s.dev.pins with pwrGood := true }
      power := if s.dev.side.busy then { s.dev.power with phaseHeld := true } else { s.dev.power with phase := 1 } } s)
    ∧ exec (.bootRails false) s = .next (ends s.dev s))
  ∧ (s.dev.power.phase = 1 → ∀ serial v,
      exec (.bootRom false serial v) s = .next (ends (enterFatal 0x10 s.dev) s)
      ∧ (imageStands s (firstBank s.dev) 1 = true → verdictOn v (firstBank s.dev) = true →
          ∃ d, exec (.bootRom true serial v) s = .next (ends d s) ∧ d.power.phase = 2 ∧ d.cfg.serial = serial
            ∧ d.banks.booted = firstBank s.dev ∧ d.banks.onTrial = s.dev.banks.trial.isSome ∧ d.banks.trial = none
            ∧ d.mem = s.dev.mem ∧ d.regions = s.dev.regions))
  ∧ (s.dev.power.phase = 2 → ∀ v, bankStands s s.dev.banks.booted = true → verdictOn v s.dev.banks.booted = true →
      ∃ d, exec (.bootLoader v) s = .next (ends d s) ∧ d.power.phase = 3
        ∧ d.banks.measures = bankMeasures s.dev s.dev.banks.booted ∧ d.cfg.loaded = true
        ∧ d.banks.owner = some (bodyOwner (((tGet? (bankImages s.dev s.dev.banks.booted) 6).map Image.body).getD []))
        ∧ d.mem = s.dev.mem ∧ d.regions = s.dev.regions)
  ∧ (s.dev.power.phase = 3 → ∀ r,
      (r.bridge = false → exec (.training r) s = .next (ends (enterFatal 0x04 s.dev) s))
      ∧ (r.bridge = true → ∃ d, exec (.training r) s = .next (ends d s) ∧ d.power.phase = 4 ∧ d.mem = s.dev.mem
          ∧ d.cfg.stackCount = ((List.range 16).filter (bitAt r.stackMask)).length))
  ∧ (s.dev.power.phase = 4 → ∀ passed,
      exec (.selfTest passed false) s = .next (ends (enterFatal 0x02 s.dev) s)
      ∧ exec (.selfTest passed true) s = .next (ends (toPhase 5 (setPassed passed s.dev)) s))
  ∧ (s.dev.power.phase = 5 →
      exec .strokeLockWait s = .next (ends (faultCE 0x0B 0 0 s.dev) s)
      ∧ (∀ p : SyncPkt, s.dev.cfg.master = false → syncUsable s.dev p = true →
          ∃ d, exec (.strokeLock p) s = .next (ends d s) ∧ d.power.phase = 6 ∧ d.stk.locked = true ∧ d.stk.current = p.period
            ∧ d.stk.number = p.stroke + (p.txOffset + (portOf s.dev p.port).delay) / periodPs p.period)
      ∧ (s.dev.cfg.master = true → ∀ heard : Option (Nat × Nat),
          ∃ d, exec (.masterListenEnd heard) s = .next (ends d s) ∧ d.power.phase = 6 ∧ d.stk.locked = true
            ∧ d.stk.number = (heard.map fun h => h.1 + h.2).getD 1))
  ∧ (s.dev.power.phase = 6 → s.dev.cfg.role = 0 → ∀ found,
      ∃ d, exec (.denseTierStart found) s = .next (ends d s) ∧ d.power.phase = 7 ∧ d.mem = s.dev.mem ∧ d.crews = s.dev.crews)
  ∧ (s.dev.power.phase = 7 →
      (∀ joined, (s.dev.cfg.role = 0 ∨ s.dev.pair.state ≠ 1 ∨ joined = false) →
        exec (.pairJoinPhase joined) s = .next (ends (toPhase 8 s.dev) s))
      ∧ (s.dev.cfg.role ≠ 0 → s.dev.pair.state = 1 → ∀ w,
          exec (.joinTimeout w) s = .next (ends (if bitAt w 12 && w % 4096 == ownModule s.dev then
            askWitness (ownModule s.dev) (ownModule s.dev) { toPhase 8 s.dev with pair := { s.dev.pair with epoch := w / 2 ^ 32 } }
            else toPhase 8 s.dev) s)))
  ∧ (s.dev.power.phase = 8 → ∃ t, exec .crewRestore s = .next t ∧ t.dev.power.phase = 9 ∧ t.dev.power.serving = true
      ∧ t.dev.locked = true ∧ t.pending = s.pending ∧ t.nv.keyCounter ≥ s.nv.keyCounter)
  ∧ (s.dev.power.phase ≤ 8 → s.dev.power.phase ≠ 5 → exec .phaseBoundExceeded s = .next (ends (enterFatal 0x10 s.dev) s))

/-- THROTTLE_STEP, THROTTLE_THRESHOLD_CROSSING, INPUT_WARNING_CROSSING, ETH_LINK_DOWN and ETH_LINK_UP (R445, Table 15-3). -/
def Obligations.ClockAndLevelSources : Prop :=
  (∀ (x : Sensors) (s : State), s.dev.power.on = true →
    let p := s.dev.power
    let temp := cfgField s.dev 0x140038 7 0
    let limit := cfgField s.dev 0x140038 47 32
    ∃ d, exec (.throttleStep x) s = .next (ends d s)
      ∧ (x.d0 ≥ temp ∨ x.d1 ≥ temp ∨ x.watts > limit → d.power.clock = max 400 (p.clock - 50))
      ∧ (x.d0 < temp → x.d1 < temp → x.watts ≤ limit → x.d0 + 5 < temp → x.d1 + 5 < temp → x.watts + 50 < limit →
          d.power.clock = min 850 (p.clock + 50))
      ∧ (x.d0 < temp → x.d1 < temp → x.watts ≤ limit → (temp ≤ x.d0 + 5 ∨ temp ≤ x.d1 + 5 ∨ limit ≤ x.watts + 50) →
          d.power.clock = p.clock)
      ∧ bitsOf (regRaw d 0xB0028) 9 0 = d.power.clock % 1024 ∧ d.power.d0 = x.d0 % 256 ∧ d.power.d1 = x.d1 % 256
      ∧ d.mem = s.dev.mem ∧ d.crews = s.dev.crews ∧ d.sessions = s.dev.sessions
      ∧ (∀ o, o ≠ 0xB0028 → regRaw d o = regRaw s.dev o))
  ∧ (∀ die above (s : State), die < 2 →
      exec (.throttleThresholdCrossing die above) s = .next (ends (setWire (834 + die) above s.dev) s))
  ∧ (∀ outside (s : State), exec (.inputWarningCrossing outside) s = .next (ends (setWire 836 outside { s.dev with
      pins := { s.dev.pins with inputOk := s.dev.pins.inputOk || !outside } }) s))
  ∧ (∀ s : State, exec .ethLinkDown s = .next (ends (setWire 856 true { s.dev with pins := { s.dev.pins with ethUp := false } }) s)
      ∧ exec .ethLinkUp s = .next (ends (setWire 856 false { s.dev with pins := { s.dev.pins with ethUp := true } }) s))
  ∧ (∀ n lvl (d : Dev), srcReserved n = false → (tgtOf d (srcOf d n).target).ring = false →
      srcOf (setWire n lvl d) n = { srcOf d n with
        wire := lvl
        latched := (srcOf d n).latched || ((srcOf d n).wire != lvl && ((srcOf d n).sense == 4 || ((srcOf d n).sense == 2 && lvl)
          || ((srcOf d n).sense == 3 && !lvl))) }
      ∧ ∀ k, k ≠ n → srcOf (setWire n lvl d) k = srcOf d k)

/-- REG_READ and METER_LATCH (R12, R13, R42, R43, R229, R356). -/
def Obligations.RegisterReads : Prop :=
  (∀ c s q t i, begins 0x0009 c s = some (q, t) → pNat q.cmd 0 8 < 2 ^ 50 → q.cmd.route = .session i →
    let r := regRead (.session i) (pNat q.cmd 0 8) t
    exec (.regRead c) s = .next (replied q r.1 (if r.1 = stOk then [r.2 % 2 ^ 32, r.2 / 2 ^ 32] else []) [] t.dev t))
  ∧ (∀ who off (s : State), off % 8 ≠ 0 → (regRead who off s).1 = stBadAlign)
  ∧ (∀ who off (s : State), off % 8 = 0 → 0x01200000 ≤ off → (regRead who off s).1 = stNoRights)
  ∧ (∀ who off (s : State), off % 8 = 0 → off < 0x01200000 → off / 65536 ≠ 0xF → regFind off = none → regRead who off s = (stOk, 0))
  ∧ (∀ i off (s : State), (sessOf s.dev i).management = true → off % 8 = 0 → off < 0x01200000 → off / 65536 ≠ 0x13 →
      regRead (.session i) off s = (stOk, regValue s.dev i off))
  ∧ (∀ i n k (s : State), (sessOf s.dev i).management = false → n < 256 → n ≠ (sessOf s.dev i).crew → k < 16 →
      regRead (.session i) (0x28000 + 0x80 * n + 8 * k) s = (stOk, 0))
  ∧ (∀ (s : State) n, (∃ c, (n, c) ∈ liveCrews s.dev) → ∃ d, exec .meterLatch s = .next (ends d s)
      ∧ { d with latched := s.dev.latched } = s.dev
      ∧ ∀ b ∈ meterRuns, latchedValue d (crewOffset b n)
          = coarsenFields (crewOffset b n) (regValue s.dev 0 (crewOffset b n)) % 2 ^ 64)

/-- REG_WRITE and REGISTER_WRITE (R11, R12, R14, R15, R17, R42, R229). -/
def Obligations.RegisterWrites : Prop :=
  (∀ locked old v mask (f : RField),
    let o := bitsOf old f.hi f.lo
    let n := bitsOf (masked old v mask) f.hi f.lo
    let plain := if f.okay n then (n, false) else (o, n != o)
    (f.acc = .ro → writeField locked old v mask f = (o, n != o)) ∧ (f.acc = .rw → writeField locked old v mask f = plain)
    ∧ (f.acc = .rwl → writeField locked old v mask f = if locked then (o, n != o) else plain)
    ∧ (f.acc = .w1c → writeField locked old v mask f = (o - (o &&& bitsOf (v &&& mask) f.hi f.lo), false)))
  ∧ (∀ who off v mask q j (s : State),
      (off % 8 ≠ 0 → regWrite who off v mask q j s = (some stBadAlign, s))
      ∧ (off % 8 = 0 → 0x01200000 ≤ off → regWrite who off v mask q j s = (some stNoRights, s))
      ∧ (off % 8 = 0 → off < 0x01200000 → mask = 0 → regWrite who off v mask q j s = (some stOk, s))
      ∧ (off % 8 = 0 → off < 0x01200000 → mask ≠ 0 → writerActs s.dev who = false →
          regWrite who off v mask q j s = (some stOkPartial, s)))
  ∧ (∀ c s q t st u, begins 0x000A c s = some (q, t) → pNat q.cmd 0 8 < 2 ^ 50 →
      let who := cmdWriter t.dev q.cmd
      regWrite who (pNat q.cmd 0 8) (pNat q.cmd 8 8) (pNat q.cmd 16 8) (some q) none t = (some st, u) →
      exec (.regWrite c) s = .next (replied q st (if stSuccess st then readBack who (pNat q.cmd 0 8) u else []) [] u.dev u))
  ∧ (∀ who off (v : Word) (s : State) r n, isManager s.dev who = true → off % 8 = 0 → off < 0x01200000 → regFind off = some (r, n) →
      r.base < 0x1000000 → r.base / 65536 ≠ 0xF → off / 65536 ≠ 0x13 → off ≠ 0x140010 → r.base ≠ 0x71000 →
      r.base ∉ [0x30008, 0x30010, 0x50008, 0x120030, 0x120050, 0xC0000, 0x60050, 0xB1000, 0xC1000, 0xC1008] →
      let old := regValue s.dev (readerId who) off
      let w := writeFields s.dev.locked r.fields old v.toNat allBits
      let a := adjust s.dev r.base n old w.1
      ∃ d, exec (.registerWrite who off v) s = .next (ends d s)
        ∧ (regWrite who off v.toNat allBits none none s).1 = some (if w.2 || a.2 then stOkPartial else stOk)
        ∧ (a.1 = old → d = s.dev)
        ∧ (a.1 ≠ old → regRaw d off = a.1 % 2 ^ 64 ∧ (∀ o, o ≠ off → regRaw d o = regRaw s.dev o)
            ∧ d.log.next = s.dev.log.next + 1
            ∧ d.regQueue = s.dev.regQueue ++ (if actsAtOnce r.base then []
                else [{ offset := off, value := BitVec.ofNat 64 a.1, who, stroke := s.dev.stk.number }])
            ∧ { d with regs := s.dev.regs, log := s.dev.log, regQueue := s.dev.regQueue } = s.dev))

/-- SCH_QCONF_APPLY to PWR_STANDBY_LEAVE (R45, R70, R73, R78, R79, R137, R240, R272, R278, R281, R386, R444). -/
def Obligations.NamedRegisterWrites : Prop :=
  (∀ who (v : Word) (s : State), writerActs s.dev who = true → mayName s.dev who (bitsOf v.toNat 62 48) = true →
    let n := bitsOf v.toNat 62 48
    exec (.schQconfSelect who v) s = .next (ends (setSel (readerId who) 0 n s.dev) s)
    ∧ exec (.schQshapeSelect who v) s = .next (ends (setSel (readerId who) 1 n s.dev) s)
    ∧ ((queueOf s.dev n).present = true → bitsOf v.toNat 7 0 ≠ 0 →
        (bitAt v.toNat 15 = true → bitsOf (regRaw s.dev (polBase (bitsOf v.toNat 25 16) + 0x10)) 15 8 = (queueOf s.dev n).crew) →
        let new := n * 2 ^ 48 + bitsOf v.toNat 25 16 * 2 ^ 16 + bitsOf v.toNat 15 15 * 2 ^ 15 + bitsOf v.toNat 7 0
        new ≠ qconfRead s.dev n → ∃ l, exec (.schQconfApply who v) s = .next (ends { setSel (readerId who) 0 n s.dev with
          log := l
          regQueue := s.dev.regQueue ++ [{ offset := 0x30008, value := BitVec.ofNat 64 new, who, stroke := s.dev.stk.number }] } s))
    ∧ ((queueOf s.dev n).present = true →
        let new := n * 2 ^ 48 + bitsOf v.toNat 47 24 * 2 ^ 24 + bitsOf v.toNat 22 0
        new ≠ qshapeRead s.dev n → ∃ l, exec (.schQshapeApply who v) s = .next (ends { setSel (readerId who) 1 n s.dev with
          log := l
          regQueue := s.dev.regQueue ++ [{ offset := 0x30010, value := BitVec.ofNat 64 new, who, stroke := s.dev.stk.number }] } s)))
  ∧ (∀ v (d : Dev), (queueOf d (bitsOf v 62 48)).present = true →
      queueOf (actQconf v d) (bitsOf v 62 48)
        = { queueOf d (bitsOf v 62 48) with weight := bitsOf v 7 0, polEn := bitAt v 15, policer := bitsOf v 25 16 }
      ∧ (queueOf (actQshape v d) (bitsOf v 62 48)).shRate = bitsOf v 22 0
      ∧ (queueOf (actQshape v d) (bitsOf v 62 48)).shBurst = bitsOf v 46 24
      ∧ (queueOf (actQshape v d) (bitsOf v 62 48)).shEn = bitAt v 47)
  ∧ (∀ who (v : Word) (s : State), isManager s.dev who = true →
      (v.toNat < s.dev.stk.number + 1024 → exec (.stkPeriodAt who v) s = .next (ends s.dev s))
      ∧ (s.dev.stk.number + 1024 ≤ v.toNat → ∃ d, exec (.stkPeriodAt who v) s = .next (ends d s) ∧ regRaw d 0x10010 = v.toNat
          ∧ d.stk = s.dev.stk))
  ∧ (∀ s : State, regRaw s.dev 0x10010 ≠ 0 → regRaw s.dev 0x10010 ≤ s.dev.stk.number →
      ∃ d, exec .periodChange s = .next (ends d s) ∧ d.stk.current = bitsOf (regRaw s.dev 0x10008) 28 16 ∧ regRaw d 0x10010 = 0
        ∧ d.stk.number = s.dev.stk.number)
  ∧ (∀ who crew (v : Word) (s : State), isManager s.dev who = true → crew < 256 → crewLives s.dev crew = true →
      bitsOf v.toNat 15 8 ≠ tGet s.dev.spadSet crew → (setSpad crew (bitsOf v.toNat 15 8) s.dev).1 = stOk →
      ∃ d, exec (.engCrewSpad who crew v) s = .next (ends d s) ∧ tGet d.spadSet crew = bitsOf v.toNat 15 8
        ∧ d.windows = (setSpad crew (bitsOf v.toNat 15 8) s.dev).2.windows ∧ d.mem = s.dev.mem ∧ d.crews = s.dev.crews)
  ∧ (∀ who crew (v : Word) (s : State), isManager s.dev who = true → crew < 256 → (∃ c, tGet? s.dev.crews crew = some c) →
      let old := bitsOf (regRaw s.dev (0x71000 + 0x20 * crew)) 31 0
      let new := bitsOf v.toNat 31 0
      new ≠ 0 → new ≠ old → (crewOf s.dev crew).dramUsed - old + new ≤ (crewOf s.dev crew).dramQuota →
      ∃ d, exec (.tirCrewCache who crew v) s = .next (ends d s) ∧ bitsOf (regRaw d (0x71000 + 0x20 * crew)) 31 0 = new
        ∧ crewOf d crew = { crewOf s.dev crew with dramUsed := (crewOf s.dev crew).dramUsed - old + new } ∧ d.mem = s.dev.mem)
  ∧ (∀ (i : Instr) who p (v : Word) (s : State), writerActs s.dev who = true → isManager s.dev who = true →
      (i = .wskMark who v ∨ i = .wskUnmark who v ∨ (i = .wskProfPublish who p v ∧ p < 64) ∨ (i = .wskProfDisable who p v ∧ p < 64)) →
      ∃ d w, exec i s = .next (ends d s) ∧ d.regQueue = s.dev.regQueue ++ [w] ∧ w.stroke = s.dev.stk.number
        ∧ { d with regQueue := s.dev.regQueue, sels := s.dev.sels } = s.dev
        ∧ w.offset = (if i = .wskProfPublish who p v then 0xC1008 + 0x20 * p
            else if i = .wskProfDisable who p v then 0xC1000 + 0x20 * p else 0xC0000))
  ∧ (∀ who (v : Word) (s : State), writerActs s.dev who = true → isManager s.dev who = true →
      ∃ n, exec (.wskMarkSelect who v) s = .next (ends (setSel (readerId who) 4 n s.dev) s) ∧ bitAt n 63 = false)
  ∧ (∀ p v k (d : Dev), (profOf d p).oldGen = 0 → (profOf d p).en = true → bitsOf v 5 4 ≠ 3 → bitsOf v 15 8 = 1 →
      ∃ e, profPublish p v k d = (stOk, e) ∧ (profOf e p).gen = nextGen8 (profOf d p).last ∧ (profOf e p).oldGen = (profOf d p).gen
        ∧ (profOf e p).rank = bitsOf v 1 0 ∧ ∀ o, o ≠ p → profOf e o = profOf d o)
  ∧ (∀ p k (d : Dev), (profOf d p).oldGen = 0 → ∃ e, profDisable p k d = (stOk, e) ∧ (profOf e p).gen = 0 ∧ (profOf e p).en = false
      ∧ (profOf e p).oldGen = (profOf d p).gen)
  ∧ (∀ who (s : State), writerActs s.dev who = true → isManager s.dev who = true → s.snap.frozen = true →
      ∃ t, exec (.snpFrozenRelease who) s = .next (settle t) ∧ t.snap = { s.snap with frozen := false }
        ∧ { t.dev with log := s.dev.log } = s.dev ∧ t.nv = s.nv)
  ∧ (∀ who (s : State), writerActs s.dev who = true → isManager s.dev who = true → liveCrews s.dev = [] →
      bitAt (regRaw s.dev 0x140008) 1 = false →
      ∃ d w, exec (.pwrStandbyEnter who) s = .next (ends d s) ∧ bitAt (regRaw d 0x140008) 1 = true
        ∧ d.regQueue = s.dev.regQueue ++ [w] ∧ w.offset = 0x140008 ∧ bitAt w.value.toNat 1 = true ∧ d.power = s.dev.power)
  ∧ (∀ who (s : State), writerActs s.dev who = true → isManager s.dev who = true → bitAt (regRaw s.dev 0x140008) 1 = true →
      ∃ d w, exec (.pwrStandbyLeave who) s = .next (ends d s) ∧ bitAt (regRaw d 0x140008) 1 = false
        ∧ d.regQueue = s.dev.regQueue ++ [w] ∧ w.offset = 0x140008 ∧ bitAt w.value.toNat 1 = false ∧ d.power = s.dev.power)
  ∧ (∀ v (d : Dev), bitAt v 1 = true → bitAt (regInForce d 0x140008) 1 = false → liveCrews d = [] →
      (actPwrCtl 0x140008 v d).power.mode = 1 ∧ (actPwrCtl 0x140008 v d).power.asleep = 0xFFFF
      ∧ ∀ p, p < 16 → standbyKeeps d p = false → (portOf (actPwrCtl 0x140008 v d) p).up = false)

/-- SCRATCH_LOAD and SCRATCH_STORE (R241, R354). -/
def Obligations.ScratchpadCopies : Prop :=
  (∀ c s q t, begins 0x0306 c s = some (q, t) → scratchCheck t.dev q = none →
    let core := pNat q.cmd 14 2
    let base := (windowOf t.dev q.cmd.crew core).1 + pNat q.cmd 16 4
    (bitAt (pNat q.cmd 13 1) 0 = false → exec (.scratchLoad c) s = .next (ends (startAccess
      { owner := .command q, crew := q.cmd.crew, requester := unitId (ownModule t.dev) 3, stamp := t.dev.stk.number
        parts := (List.range (pNat q.cmd 24 4)).map fun k =>
          { addr := pNat q.cmd 0 8 + k * pNat q.cmd 28 4, len := pNat q.cmd 20 4, off := k * pNat q.cmd 20 4, key := pNat q.cmd 8 5
            act := .read }
        goal := .scratch core base 0 } (Cmd.ctx q.cmd) (some q.cmd.crew) t.dev) t))
    ∧ (bitAt (pNat q.cmd 13 1) 0 = true → pNat q.cmd 24 4 = 1 →
        ∃ d, exec (.scratchLoad c) s = .next (replied q stOk [pNat q.cmd 20 4] [] d t) ∧ d.mem = t.dev.mem ∧ d.cspace = t.dev.cspace
          ∧ d.crews = t.dev.crews ∧ d.queues = t.dev.queues
          ∧ d.scratch = memWrite t.dev.scratch (scratchAddr core base)
              (memRead t.dev.cspace (cspaceAddr (dieOfCore core) q.cmd.crew (pNat q.cmd 0 8)) (pNat q.cmd 20 4))))
  ∧ (∀ c s q t, begins 0x0307 c s = some (q, t) → scratchCheck t.dev q = none → t.dev.flagged = [] →
      let core := pNat q.cmd 14 2
      let base := (windowOf t.dev q.cmd.crew core).1 + pNat q.cmd 16 4
      let ps := (scratchRows q.cmd .write).flatMap fun p => (cutBlocks base p).map fun x =>
        { x with
          data := memRead t.dev.scratch (scratchAddr core (base + x.off)) x.len
          poisoned := t.dev.spadBad.contains (blockNo q.cmd.crew core ((base + x.off) / 65536)) }
      (bitAt (pNat q.cmd 13 1) 0 = false → exec (.scratchStore c) s = .next (ends (startAccess
        { owner := .command q, crew := q.cmd.crew, requester := unitId (ownModule t.dev) 3, stamp := t.dev.stk.number
          parts := ps, goal := .count } (Cmd.ctx q.cmd) (some q.cmd.crew) t.dev) t))
      ∧ (bitAt (pNat q.cmd 13 1) 0 = true → exec (.scratchStore c) s = .next (replied q
          (if ps.any (·.poisoned) then stPoisoned else stOk) [pNat q.cmd 24 4 * pNat q.cmd 20 4] []
          { t.dev with cspace := ps.foldl (fun m p =>
              memWrite m (cspaceAddr (dieOfCore core) q.cmd.crew p.addr) p.data) t.dev.cspace } t)))
  ∧ (∀ jid (j : Job) q core base k p (d : Dev), j.owner = .command q → j.goal = .scratch core base k → j.parts = [p] →
      (p.state = .ended stOk →
        ∃ e, finishJob jid j d = (none, complete q stOk [p.len] [] e) ∧ e.mem = d.mem
          ∧ e.scratch = memWrite d.scratch (scratchAddr core (base + p.off)) (slice p.data 0 p.len))
      ∧ (p.state = .ended stPoisoned →
        ∃ e, finishJob jid j d = (none, complete q stPoisoned [0] [] e) ∧ e.mem = d.mem
          ∧ e.scratch = memClear d.scratch (scratchAddr core (base + p.off)) p.len))

/-- EXPERT, and the batch that computes it (R243, R247 to R254). -/
def Obligations.ExpertsJoinTheirInbox : Prop :=
  (∀ c s q t, begins 0x0301 c s = some (q, t) →
    (expertCheck t.dev q = none → exec (.expert c) s = .next (ends (enqueue { q with reserved := 0 } (unreserve q t.dev)) t))
    ∧ ∀ st, expertCheck t.dev q = some st → exec (.expert c) s = .next (replied q st [] [] t.dev t))
  ∧ (∀ q i (d : Dev), q.cmd.route = .session i → q.cmd.qgen = 0 →
      (sessOf (enqueue q d) i).held = (sessOf d i).held ++ [q] ∧ (enqueue q d).mem = d.mem ∧ (enqueue q d).queues = d.queues
      ∧ ∀ k, k ≠ i → sessOf (enqueue q d) k = sessOf d k)
  ∧ (∀ q n (d : Dev), q.cmd.route = .ring n →
      (queueOf (enqueue q d) n).held = (queueOf d n).held ++ [q] ∧ (enqueue q d).mem = d.mem
      ∧ ∀ k, k ≠ n → queueOf (enqueue q d) k = queueOf d k)
  ∧ (∀ desc q (d e : Dev) wps ap,
      let x := parseExpert (toLe 128 desc)
      let form := ((profLive d q.cmd.crew x.profile x.pgen q.stamp).map fun r => (r.1, r.2.1)).getD (0, 0)
      let tl := x.tile form
      let act := if expertInline q.cmd then (0, 0, 0)
        else (pNat q.cmd 40 8, arrayBytes (pNat q.cmd 13 1) (x.dm * 128), pNat q.cmd 48 5)
      fetchNow [(x.weights, 3 * x.tiles * tl, devKey d x.weights), act] d = (some [wps, ap], e) →
      let bad := if x.factored then
          ((cutPieces wps tl (3 * x.tiles)).filter fun p => !(p.2 && slotGood form.1 form.2 p.1)).length else 0
      let wst := if bad > 0 then stPoisoned else firstBad wps
      ∃ g, (runBatch desc [q] d).1 = true ∧ g.mem = e.mem ∧ g.crews = e.crews ∧ g.queues = e.queues
        ∧ (wst = stOk → firstBad ap = stOk →
            let bytes := if expertInline q.cmd then slice q.cmd.params 64 (q.cmd.length - 64) else spanBytes ap
            (runBatch desc [q] d).2 = writeSlot q (expertSlot q (x.dm * 128)) stOk [1]
              (padLine (expertOut g.draws x form (pNat q.cmd 13 1) (pNat q.cmd 16 4) (pNat q.cmd 14 1)
                ((cutPieces wps tl (3 * x.tiles)).map (·.1)) bytes)) { g with draws := g.draws + expertDraws x })
        ∧ (wst ≠ stOk → (runBatch desc [q] d).2 = failSlot q (expertSlot q (x.dm * 128)) wst [1] g)
        ∧ (wst = stOk → firstBad ap ≠ stOk →
            (runBatch desc [q] d).2 = failSlot q (expertSlot q (x.dm * 128)) (firstBad ap) [1] g))
  ∧ (∀ desc q qs (d e : Dev),
      fetchNow (((parseExpert (toLe 128 desc)).weights, 3 * (parseExpert (toLe 128 desc)).tiles * (parseExpert (toLe 128 desc)).tile
          (((profLive d q.cmd.crew (parseExpert (toLe 128 desc)).profile (parseExpert (toLe 128 desc)).pgen q.stamp).map
            fun r => (r.1, r.2.1)).getD (0, 0)), devKey d (parseExpert (toLe 128 desc)).weights)
        :: (q :: qs).map fun q => if expertInline q.cmd then (0, 0, 0)
            else (pNat q.cmd 40 8, arrayBytes (pNat q.cmd 13 1) ((parseExpert (toLe 128 desc)).dm * 128), pNat q.cmd 48 5)) d = (none, e) →
      runBatch desc (q :: qs) d = (false, e))

/-- ATTN_PARTIAL, COMBINE, COMBINE_FIRE and COMBINE_DEADLINE (R255 to R263). -/
def Obligations.AttentionPartialsAndCombines : Prop :=
  (∀ c s q t, begins 0x0302 c s = some (q, t) → attnCheck t.dev q = none →
    ∃ d, exec (.attnPartial c) s = .next (ends d t) ∧ ∀ l e,
      fetch q [(pNat q.cmd 24 8, pNat q.cmd 38 2 * 8, pNat q.cmd 32 5),
        if bitAt (pNat q.cmd 15 1) 1 then (0, 0, 0) else (pNat q.cmd 0 8, attnQuery q.cmd, pNat q.cmd 8 5)] t.dev = (l, e) →
      (l = none → d = e)
      ∧ (∀ x, l = some x → spansBad x ≠ stOk → d = failSlot q (attnSlot q) (spansBad x) [] e)
      ∧ (∀ x, l = some x → spansBad x = stOk →
          let c := q.cmd
          let blocks := pNat c 38 2
          let dk := pNat c 18 2
          let kf := pNat c 14 1
          let qb := if bitAt (pNat c 15 1) 1 then slice c.params 80 (attnQuery c) else spanBytes (x.getD 1 [])
          let entries := (List.range blocks).map fun i => fieldLe (spanBytes (x.getD 0 [])) (8 * i) 8
          let rowsOf (i : Nat) : Nat := if i + 1 = blocks then pNat c 37 1 else 32
          (∀ a ∈ entries, addrModule a = ownModule e ∧ addrSpace a ≤ 1 ∧ aligned a 128 = true) →
          ∀ y f, fetch q (((List.range blocks).zip entries).map fun b =>
              (b.2, rowsOf b.1 * attnRow c, if addrSpace b.2 = 0 then pNat c 64 5 else pNat c 69 5)) e = (some y, f) →
            spansBad y = stOk →
            let rows := ((List.range blocks).zip y).flatMap fun b =>
              (List.range (rowsOf b.1)).map fun r => slice (spanBytes b.2) (r * attnRow c) (attnRow c)
            let vs := rows.map fun r => decodeArray kf (pNat c 20 2)
              (if bitAt (pNat c 15 1) 0 then r else r.drop (dk * arrayBytes kf 1))
            ∃ (outs : List (BitVec 32 × BitVec 32 × List (BitVec 32))) (n : Nat), d = writeSlot q (attnSlot q) stOk [] (partialData (pNat c 22 1) (outs.map (·.1)) (outs.map (·.2.1))
                (outs.map (·.2.2))) { f with draws := n }
              ∧ outs.length = pNat c 16 2
              ∧ ∀ h, h < pNat c 16 2 → ∃ n0, outs.getD h default = attnHead n0 (BitVec.ofNat 32 (pNat c 40 4))
                  (decodeArray (pNat c 13 1) dk (qb.drop (h * arrayBytes (pNat c 13 1) dk)))
                  (rows.map fun r => decodeArray kf dk r) vs (pNat c 20 2)))
  ∧ (∀ n0 scale qv k v dv, attnHead n0 scale qv [k] [v] dv =
      let s := mulF32 scale (matrixSum n0 ((qv.zip k).map fun p => p.1.mul p.2))
      let m := maxF32 negInfF32 s
      let e := expF32 (subF32 s m)
      (m, vectorSum (n0 + 1) [e], (List.range dv).map fun j => vectorSum (n0 + 1 + 1 + j) [mulF32 e (toF32 (v.getD j fZero))]))
  ∧ (∀ c s q t, begins 0x0303 c s = some (q, t) → combineCheck t.dev q = none → t.dev.armed.length < 4096 →
      let a : Armed := { q, crew := q.cmd.crew, deadline := t.dev.stk.number + pNat q.cmd 24 1 - 1 }
      let d := { t.dev with armed := tSet t.dev.armed q.id a }
      exec (.combine c) s = .next (ends (if combineComplete t.dev q.cmd then combineClose q.id a false d else d) t))
  ∧ (∀ id a (s : State), tGet? s.dev.armed id = some a →
      (combineComplete s.dev a.q.cmd = true →
        exec (.combineFire id) s = .next (ends (combineClose id a false s.dev) s)
        ∧ exec (.combineDeadline id) s = .next (ends (combineClose id a false s.dev) s))
      ∧ (combineComplete s.dev a.q.cmd = false →
          exec (.combineFire id) s = .next (ends s.dev s)
          ∧ (s.dev.stk.number < a.deadline → exec (.combineDeadline id) s = .next (ends s.dev s))
          ∧ (a.deadline ≤ s.dev.stk.number → exec (.combineDeadline id) s = .next (ends (combineClose id a true s.dev) s))))
  ∧ (∀ id a late (d : Dev), d.dir = [] → combineClose id a late d = combineEnd id a late d)
  ∧ (∀ id a late (d : Dev), (∀ i, i < pNat a.q.cmd 15 1 → combineArrived d a.q.cmd i = true → inputStatus d a.q.cmd i = 0) →
      bitAt (pNat a.q.cmd 14 1) 0 = false →
      ∃ e, tGet? e.armed id = none ∧ e.mem = d.mem ∧ e.crews = d.crews ∧ e.sessions = d.sessions ∧ e.queues = d.queues
        ∧ (late = true → combineEnd id a late d = complete a.q stTimeout (combineWords (pNat a.q.cmd 15 1) []) [] e)
        ∧ (late = false → bitAt (pNat a.q.cmd 14 1) 2 = false → combineEnd id a late d
            = combineWrite a.q stOk ((List.range (pNat a.q.cmd 15 1)).filter (combineArrived e a.q.cmd)) e))
  ∧ (∀ id a i (d : Dev), i < pNat a.q.cmd 15 1 → combineArrived d a.q.cmd i = true → inputStatus d a.q.cmd i ≠ 0 →
      (∀ k, k < i → combineArrived d a.q.cmd k = true → inputStatus d a.q.cmd k = 0) → bitAt (pNat a.q.cmd 14 1) 0 = false →
      ∃ e, tGet? e.armed id = none ∧ e.mem = d.mem
        ∧ combineEnd id a false d = complete a.q (inputStatus d a.q.cmd i) (combineWords (pNat a.q.cmd 15 1) []) [] e)

/-- EXPAND, FACTOR, IMAGE_LOAD and PROFILE_RETIRE (R280, R283 to R288, R163). -/
def Obligations.ExpandFactorAndImageLoad : Prop :=
  (∀ c s q t, begins 0x0304 c s = some (q, t) → expandCheck t.dev q = none →
    let p := (profLive t.dev q.cmd.crew (pNat q.cmd 13 1) (pNat q.cmd 14 1) q.stamp).getD (0, 0, 2)
    let slot := slotBytes p.1 p.2.1
    ∃ d, exec (.expand c) s = .next (ends d t)
      ∧ ∀ l e, fetch q ((expandSrc q.cmd slot).map fun r => (r.1, r.2, pNat q.cmd 8 5)) t.dev = (l, e) →
        (l = none → d = e)
        ∧ ∀ x, l = some x →
          let y := expandTiles p.1 p.2.1 p.2.2 (x.flatMap fun ps => cutPieces ps slot (pNat q.cmd 24 2)) e
          let good := (y.1.filter Option.isSome).length
          let bad := y.1.length - good
          let st := if bad = 0 then stOk else stPoisoned
          ∃ g : Dev, g.mem = y.2.mem ∧ g.crews = y.2.crews ∧ g.queues = y.2.queues ∧ g.sessions = y.2.sessions
            ∧ (bitAt (pNat q.cmd 15 1) 0 = true → d = complete q st [good, bad] [] { g with
                scratch := memWrite g.scratch (scratchAddr (pNat q.cmd 26 2) ((windowOf g q.cmd.crew (pNat q.cmd 26 2)).1 + pNat q.cmd 32 8))
                  (y.1.flatMap fun z => z.getD (zeros (tileBytes p.2.2))) })
            ∧ (bitAt (pNat q.cmd 15 1) 0 = false → ∃ (i : Nat) (j : Job) (u : Dev), d = runJob i (setJob i j u) ∧ j.owner = .command q
                ∧ j.goal = .output st [good, bad] ∧ u.mem = g.mem
                ∧ j.parts = ((List.range y.1.length).zip y.1).flatMap fun z =>
                    (splitParts (pNat q.cmd 32 8 + z.1 * tileBytes p.2.2) (tileBytes p.2.2) (pNat q.cmd 40 5) .write
                      (z.2.getD (zeros (tileBytes p.2.2)))).map fun r =>
                        { r with off := z.1 * tileBytes p.2.2 + r.off, poisoned := z.2.isNone }))
  ∧ (∀ c s q t, begins 0x0305 c s = some (q, t) → factorCheck t.dev q = none →
      let p := (profLive t.dev q.cmd.crew (pNat q.cmd 14 1) (pNat q.cmd 15 1) q.stamp).getD (0, 0, 0)
      let run := rangeRegions (pNat q.cmd 24 8) (pNat q.cmd 18 2 * pNat q.cmd 16 2 * slotBytes p.1 p.2.1)
      let fresh := run.filter fun r => ((tGet? t.dev.regions r).getD {}).mark.isNone
      let d := fresh.foldl (fun d r => markRegion (some (p.1, p.2.1)) r d) t.dev
      ((freeOp t.dev).isNone = true → exec (.factor c) s = .next (replied q stBusy [] [] t.dev t))
      ∧ ((freeOp t.dev).isNone = false →
          let x := (tGet? d.regions (regionNo (pNat q.cmd 24 8))).getD {}
          exec (.factor c) s = .next (ends (startOp q
            { first := regionNo (pNat q.cmd 24 8), count := run.length, marked := fresh, words := [p.1, p.2.1] }
            (if x.paired then sendRegion (regionNo (pNat q.cmd 24 8)) run.length 4 x d else d)) t)))
  ∧ (∀ i (d : Dev), (∀ r ∈ (opOf d i).marked, ((tGet? (factorUndo i d).regions r).getD {}).mark = none)
      ∧ ((opOf d i).phase = 0 → (factorUndo i d).mem = d.mem)
      ∧ ((opOf d i).phase ≠ 0 → (factorUndo i d).mem = memClear d.mem (factorDest (opOf d i)).1 (factorDest (opOf d i)).2))
  ∧ (∀ c s q t k, begins 0x0206 c s = some (q, t) → imageLoadCheck t.dev q = none →
      imageSlot t.dev q.cmd.crew (pNat q.cmd 15 1) = some k →
      exec (.imageLoad c) s = .next (ends (startOp q
        { first := regionNo (pNat q.cmd 20 8), count := pNat q.cmd 36 4, words := [leNat k.keyId, leNat k.key] } t.dev) t))
  ∧ (∀ p (s : State), (profOf s.dev p).oldGen ≠ 0 →
      (profHolders s.dev (profOf s.dev p) = 0 → ∃ d, exec (.profileRetire p) s = .next (ends d s)
        ∧ profOf d p = { profOf s.dev p with oldGen := 0, oldRank := 0, oldFfmt := 0, oldDfmt := 0 }
        ∧ ∀ o, o ≠ p → profOf d o = profOf s.dev o)
      ∧ (profHolders s.dev (profOf s.dev p) ≠ 0 → exec (.profileRetire p) s = .next (ends s.dev s)))

/-- POOL, HOTSET_LOAD and ROW_REPLICATE (R293, R295 to R301). -/
def Obligations.PoolsHotSetsAndReplicas : Prop :=
  (∀ c s q t, begins 0x0401 c s = some (q, t) → poolCheck t.dev q = none →
    let p := q.cmd
    let il := bitAt (pNat p 2 1) 0
    let b := bindTable q (pNat p 0 1) t.dev
    ∃ d, exec (.pool c) s = .next (ends d t)
      ∧ ∀ l e, fetch q [if il then (0, 0, 0) else (pNat p 12 8, poolList p, pNat p 20 5)] b.2 = (l, e) →
        (l = none → d = e)
        ∧ ∀ x, l = some x → (spansBad x ≠ stOk → d = completeSt q (spansBad x) e)
          ∧ (spansBad x = stOk →
            let bytes := if il then slice p.params 48 (poolList p) else spanBytes (x.getD 0 [])
            let lens := (List.range (pNat p 4 2)).map fun i => fieldLe bytes (2 * i) 2
            let o := 4 * ceilDiv (pNat p 4 2) 2
            (lens.any (4096 < ·) = true → d = completeSt q stBadLength e)
            ∧ (lens.any (4096 < ·) = false → lens.sum ≠ pNat p 8 4 → d = completeSt q stBadField e)
            ∧ (lens.any (4096 < ·) = false → lens.sum = pNat p 8 4 → d = poolOut q b.1 lens
                ((List.range (pNat p 8 4)).map fun i => fieldLe bytes (o + 4 * i) 4)
                ((List.range (pNat p 8 4)).map fun i =>
                  if bitAt (pNat p 2 1) 1 then fieldLe bytes (o + 4 * pNat p 8 4 + 4 * i) 4 else 0x3F800000) e)))
  ∧ (∀ q t (d : Dev), (d.bound.find? fun b => b.work == q.id) = none →
      (bindTable q t d).1 = { work := q.id, table := t, version := (tableOf d t).version, stamp := q.stamp, rows := (tableOf d t).rows,
                              descs := (tableOf d t).descs, body := (tableOf d t).body, bodyRegions := (tableOf d t).bodyRegions }
      ∧ (bindTable q t (bindTable q t d).2).1 = (bindTable q t d).1)
  ∧ (∀ q b idx wts n looks (d e : Dev), bitAt (pNat q.cmd 2 1) 2 = false → idx.length = n →
      let elems := (tableOf d b.table).elems
      let ks := crewClusters d q.cmd.crew
      lookRows q b elems true (idx.map fun r => (ks.getD (Config.freeNat (d.draws + 0) % max 1 ks.length) 0, r))
          { d with draws := d.draws + 1 } = (some looks, e) → looks.length = n →
      let st := bagStatus looks
      let ok := decide (st = stOk)
      ∃ g, g.mem = e.mem ∧ g.queues = e.queues ∧ poolOut q b [n] idx wts d
        = writeOut q (pNat q.cmd 28 8) (pNat q.cmd 36 5)
            (if ok then encodeArray (pNat q.cmd 3 1) ((bagSum e.draws elems
                (((wts.take n).map (BitVec.ofNat 32 ·)).zip (looks.map (lookValues elems)))).map f32Val)
              else zeros (elems * (elemBits (pNat q.cmd 3 1) / 8)))
            st [if ok then 1 else 0, if ok then 0 else 1, 0] g)
  ∧ (∀ q b elems k row (d : Dev) h, hotCopy d b.table k row = some h →
      ∃ g, lookRows q b elems true [(k, row)] d = (some [.have_ h.cls h.body], g) ∧ g.mem = d.mem ∧ g.replicas = d.replicas)
  ∧ (∀ (d : Dev) b elems k row ps, firstBad ps = stOk →
      let r := parseRow (spanBytes ps)
      r.rsv = 0 → bodyFits elems b.bodyRegions r = true →
      (∀ x, r.replica = true → replicaOf d b.table k row r.version = some x → resolveRow d b elems k row ps = .have_ x.cls x.body)
      ∧ ((r.replica = false ∨ replicaOf d b.table k row r.version = none) → resolveRow d b elems k row ps = .body r))
  ∧ (∀ c s q t, begins 0x0403 (withByte c 2 1) s = some (q, t) → pNat q.cmd 2 1 = 1 → hotsetCheck t.dev q = none →
      let d := (maskBits 16 (pNat q.cmd 4 2)).foldl (fun d k => dropHot (pNat q.cmd 0 1) k d) t.dev
      exec (.hotsetDrop c) s = .next (replied q stOk [] [] d t)
      ∧ (∀ k, k < 16 → bitAt (pNat q.cmd 4 2) k = true → (pNat q.cmd 0 1, k) ∉ d.hotOn
          ∧ ∀ h ∈ d.hot, ¬(h.table = pNat q.cmd 0 1 ∧ h.cluster = k)))
  ∧ (∀ c s q t l e looks f, begins 0x0403 (withByte c 2 0) s = some (q, t) → pNat q.cmd 2 1 = 0 → hotsetCheck t.dev q = none →
      let p := q.cmd
      let tb := pNat p 0 1
      let ks := maskBits 16 (pNat p 4 2)
      let n := pNat p 8 4
      let b := bindTable q tb (ks.foldl (fun d k => dropHot tb k d) t.dev)
      fetch q [(pNat p 20 8, 4 * n, pNat p 28 5)] b.2 = (some l, e) → spansBad l = stOk →
      let rows := ((List.range n).map fun i => fieldLe (spanBytes (l.getD 0 [])) (4 * i) 4).filter (· < b.1.rows)
      lookRows q b.1 (tableOf b.2 tb).elems false (rows.map fun r => (ks.headD 0, r)) e = (some looks, f) →
      let sizes := looks.map fun x => match x with
        | .have_ _ bd => bd.length
        | _ => 0
      let m := hotFit (pNat p 16 4 - 4096) sizes
      let st := bagStatus (((rows.zip looks).take m).map (·.2))
      (st ≠ stOk → exec (.hotsetLoad c) s = .next (replied q st [] [] f t))
      ∧ (st = stOk → ∃ d, exec (.hotsetLoad c) s = .next (replied q stOk [m, n - m] [] d t)
          ∧ d.hotOn = f.hotOn ++ ks.map (fun k => (tb, k)) ∧ d.mem = f.mem ∧ d.replicas = f.replicas))
  ∧ (∀ c s q t l e, begins 0x0404 (withByte c 2 1) s = some (q, t) → pNat q.cmd 2 1 = 1 → rowReplicateCheck t.dev q = none →
      let x := tableOf t.dev (pNat q.cmd 0 1)
      let ds := descSpan t.dev x.descs (pNat q.cmd 4 4)
      fetch q [ds] t.dev = (some l, e) → spansBad l = stOk → e.dir = [] →
      exec (.rowReplicateClear c) s = .next (ends (writeOut q ds.1 ds.2.2
        ({ parseRow (spanBytes (l.getD 0 [])) with replica := false } : RowDesc).bytes stOk []
        (freeReplicas (pNat q.cmd 0 1) (pNat q.cmd 4 4) e)) t))
  ∧ (∀ c s q t l e l2 f, begins 0x0404 (withByte c 2 0) s = some (q, t) → pNat q.cmd 2 1 = 0 → rowReplicateCheck t.dev q = none →
      let tb := pNat q.cmd 0 1
      let row := pNat q.cmd 4 4
      let x := tableOf t.dev tb
      let ds := descSpan t.dev x.descs row
      fetch q [ds] t.dev = (some l, e) → spansBad l = stOk →
      let r := parseRow (spanBytes (l.getD 0 []))
      let a := x.body + r.offset * 16
      r.rsv = 0 → bodyFits x.elems x.bodyRegions r = true →
      fetch q [(a, bodyBytes r.cls x.elems, devKey e a)] e = (some l2, f) → spansBad l2 = stOk → f.dir = [] →
      let g := freeReplicas tb row f
      let size := ceilDiv (bodyBytes r.cls x.elems) 256 * 256
      let ks := crewClusters g q.cmd.crew
      (∀ k ∈ ks, replicaUsed g q.cmd.crew k + size ≤ replicaRoom g q.cmd.crew k) →
      exec (.rowReplicateSet c) s = .next (ends (writeOut q ds.1 ds.2.2 ({ r with replica := true } : RowDesc).bytes stOk []
        { g with replicas := g.replicas ++ ks.map fun k =>
          { table := tb, cluster := k, row, size, version := r.version, cls := r.cls, filled := true
            body := spanBytes (l2.getD 0 []) } }) t))

/-- ROW_PUBLISH, ROW_MOVE, ROW_CONVERT, ROW_FENCE_END and the rows of TABLE_SWITCH (R302 to R308). -/
def Obligations.RowPublicationsAndTables : Prop :=
  (∀ op (i : Cmd → Instr) c s q t l e,
      ((op = 0 ∧ i = Instr.rowPublish) ∨ (op = 1 ∧ i = Instr.rowMove) ∨ (op = 2 ∧ i = Instr.rowConvert)) →
      begins 0x0402 (withByte c 2 op) s = some (q, t) → moveOf t.dev q = none → rowPublishCheck t.dev q = none →
      let p := q.cmd
      let x := tableOf t.dev (pNat p 0 1)
      fetch q [descSpan t.dev x.descs (pNat p 8 4)] t.dev = (some l, e) → spansBad l = stOk → e.moves = t.dev.moves →
      let r := parseRow (spanBytes (l.getD 0 []))
      let old := x.body + r.offset * 16
      let new := x.body + pNat p 16 8 * 16
      let size := bodyBytes (newClass p r) x.elems
      let m : RowMove := { table := pNat p 0 1, row := pNat p 8 4, crew := p.crew, op := pNat p 2 1, q, oldBody := old
                           oldBytes := bodyBytes r.cls x.elems, newBody := new }
      let bad := decide (x.bodyRegions * 2 ^ 21 < pNat p 16 8 * 16 + size) || bytesMeet new size old (bodyBytes r.cls x.elems)
        || (pNat p 2 1 != 0 && (r.rsv != 0 || !bodyFits x.elems x.bodyRegions r))
      (bad = true → exec (i c) s = .next (replied q stBadField [] [] e t))
      ∧ (bad = false → ∃ k, tGet? e.moves k = none ∧ (∀ n, n < k → tGet? e.moves n ≠ none)
          ∧ exec (i c) s = .next (ends (rowPublishRun q k m r { e with moves := tSet e.moves k m }) t)))
  ∧ (∀ q k m x r body (d : Dev), bitAt (pNat q.cmd 3 1) 1 = true → r.version ≠ pNat q.cmd 6 2 →
      rowSwap q k m x r body d
        = completeSt q stStale { d with moves := d.moves.filter fun m => !(m.2.q.id == q.id && m.2.swapped.isNone) })
  ∧ (∀ q k m x r body (d : Dev), (bitAt (pNat q.cmd 3 1) 1 = false ∨ r.version = pNat q.cmd 6 2) → d.dir = [] →
      let v := if r.version ≥ 1023 then 1 else r.version + 1
      let ds := descSpan d x.descs m.row
      ∃ i j u, rowSwap q k m x r body d = runJob i (setJob i j u) ∧ u.mem = d.mem ∧ tGet? u.moves k = some { m with swapped := some d.stk.number }
        ∧ (∀ h, h ∈ u.hot ↔ h ∈ d.hot ∧ ¬(h.table = m.table ∧ h.row = m.row))
        ∧ j.owner = .command q ∧ j.goal = .output stOk [v, d.stk.number % 2 ^ 32]
        ∧ ∃ key, j.parts = splitParts m.newBody body.length key .write body ++ splitParts ds.1 8 ds.2.2 .write
            ({ cls := newClass q.cmd r, replica := r.replica, version := v, rsv := 0, offset := pNat q.cmd 16 8 } : RowDesc).bytes)
  ∧ (∀ slot m k (s : State), tGet? s.dev.moves slot = some m → m.swapped = some k →
      (s.dev.stk.number < k + reqTimeout s.dev → exec (.rowFenceEnd slot) s = .next (ends s.dev s))
      ∧ (k + reqTimeout s.dev ≤ s.dev.stk.number → exec (.rowFenceEnd slot) s = .next (ends
          { s.dev with moves := tDel s.dev.moves slot } s)))
  ∧ (∀ op (i : Cmd → Instr) c s q t,
      ((op = 0 ∧ i = Instr.tableCreate) ∨ (op = 1 ∧ i = Instr.tableSwitch) ∨ (op = 2 ∧ i = Instr.tableDelete)) →
      begins 0x0405 (withByte c 0 op) s = some (q, t) → pNat q.cmd 0 1 = op → tableSwitchCheck t.dev q = none →
      let tb := pNat q.cmd 1 1
      exec (i c) s = .next (ends (if op = 0 then startOp q { first := (freeTable t.dev).getD 0 } t.dev
        else startOp q { first := tb } (if op = 1 then setTable tb { tableOf t.dev tb with state := 2 } t.dev else t.dev)) t))
  ∧ (∀ i (s : State), (opOf s.dev i).state ≠ 5 → (opOf s.dev i).opcode = 0x405 → (opOf s.dev i).committed = true →
      let l := opOf s.dev i
      let tb := l.first
      let x := tableOf s.dev tb
      (oldBound s.dev tb = true → exec (.tableDrainEnd i) s = .next (ends s.dev s))
      ∧ (oldBound s.dev tb = false → ∃ d, exec (.tableDrainEnd i) s = .next (ends (endOp i stOk
            [0, tb + x.gen * 256 + x.version * 65536] d) s) ∧ d.mem = s.dev.mem ∧ d.longops = s.dev.longops
          ∧ (∀ k, k ≠ tb → tableOf d k = tableOf s.dev k)
          ∧ tableOf d tb = if pNat l.q.cmd 0 1 = 2 then { gen := nextGen8 x.gen } else { x with state := 1 }))

/-- INSERT, DELETE, FILTER_SET, MERGE and INDEX_FREE (R315 to R317, R324, R325, R328). -/
def Obligations.IndexChangesFiltersAndMerges : Prop :=
  (∀ c s q t l e, begins 0x0502 c s = some (q, t) →
    let i := pNat q.cmd 0 1
    let d := pruneSide i t.dev
    changeCheck d q = none →
    let g := (indexOf d i).desc
    let n := g.dim * vfmtBytes g.vfmt
    let il := bitAt (pNat q.cmd 2 1) 0
    fetch q [if il then (0, 0, 0) else (pNat q.cmd 8 8, n, pNat q.cmd 16 5)] d = (l, e) →
    (l = none → exec (.insert c) s = .next (ends e t))
    ∧ ∀ x, l = some x → (spansBad x ≠ stOk → exec (.insert c) s = .next (replied q (spansBad x) [] [] e t))
      ∧ (spansBad x = stOk →
          let v := if il then slice q.cmd.params 32 n else spanBytes (x.getD 0 [])
          exec (.insert c) s = .next (ends (appendSide q i false (if g.metric = 2 then
              encodeArray g.vfmt ((normalise e.draws ((decodeArray g.vfmt g.dim v).map toF32)).map f32Val) else v)
            { e with draws := e.draws + 1 }) t)))
  ∧ (∀ c s q t, begins 0x0503 c s = some (q, t) → changeCheck (pruneSide (pNat q.cmd 0 1) t.dev) q = none →
      exec (.delete c) s = .next (ends (appendSide q (pNat q.cmd 0 1) true [] (pruneSide (pNat q.cmd 0 1) t.dev)) t))
  ∧ (∀ q i del v (d : Dev),
      let x := indexOf d i
      let slot := x.sideNext % max 1 x.desc.sideSlots
      let a := x.desc.side + slot * sideBytes x.desc
      ∃ e, appendSide q i del v d = writeOut q a (devKey d a)
            (slice (toLe 8 d.stk.number ++ toLe 4 (pNat q.cmd 4 4) ++ toLe 1 (if del then 2 else 1) ++ zeros 3 ++ v) 0 (sideBytes x.desc))
            stOk [d.stk.number % 2 ^ 32] e
        ∧ indexOf e i = { x with sideNext := x.sideNext + 1
                                 sideList := x.sideList ++ [{ slot, publish := d.stk.number, ordinal := pNat q.cmd 4 4, isDelete := del }] }
        ∧ (∀ k, k ≠ i → indexOf e k = indexOf d k) ∧ e.mem = d.mem ∧ e.queues = d.queues ∧ e.sessions = d.sessions)
  ∧ (∀ op (r : Cmd → Instr) c s q t, ((op = 0 ∧ r = Instr.filterSet) ∨ (op = 1 ∧ r = Instr.filterClear)) →
      begins 0x0505 (withByte c 2 op) s = some (q, t) → pNat q.cmd 2 1 = op → filterCheck t.dev q = none →
      let i := pNat q.cmd 0 1
      let f := pNat q.cmd 3 1
      let g := nextGen8 ((tGet? (indexOf t.dev i).filters f).getD {}).gen
      ∃ d, exec (r c) s = .next (replied q stOk [g, t.dev.stk.number % 2 ^ 32] [] d t)
        ∧ tGet? (indexOf d i).filters f = some { bound := op == 0, gen := g, bitmap := if op = 0 then pNat q.cmd 8 8 else 0 }
        ∧ (∀ k, k ≠ f → tGet? (indexOf d i).filters k = tGet? (indexOf t.dev i).filters k)
        ∧ (∀ k, k ≠ i → indexOf d k = indexOf t.dev k) ∧ d.mem = t.dev.mem)
  ∧ (∀ op (r : Cmd → Instr) c s q t l e,
      ((op = 0 ∧ r = Instr.mergeAttach) ∨ (op = 1 ∧ r = Instr.mergeFold) ∨ (op = 2 ∧ r = Instr.mergeDetach)) →
      begins 0x0504 (withByte c 0 op) s = some (q, t) → pNat q.cmd 0 1 = op → mergeCheck t.dev q = none →
      fetch q [if op = 2 then (0, 0, 0) else (pNat q.cmd 8 8, 128, pNat q.cmd 16 5)] t.dev = (some l, e) → spansBad l = stOk →
      let b := spanBytes (l.getD 0 [])
      (∀ st, mergeLate e q b = some st → exec (r c) s = .next (replied q st [] [] e t))
      ∧ (mergeLate e q b = none →
          let i := if op = 0 then 64 else pNat q.cmd 1 1
          exec (r c) s = .next (ends (startOp q { first := i, words := [leNat b] }
            (if op = 1 then setIndex i { indexOf e i with state := 2 } e else e)) t)))
  ∧ (∀ i (s : State), ((indexOf s.dev i).state ≠ 3 ∨ searchesOn s.dev i ≠ []) → exec (.indexFree i) s = .next (ends s.dev s))
  ∧ (∀ i l (s : State), (indexOf s.dev i).state = 3 → searchesOn s.dev i = [] →
      ((liveOps s.dev).find? fun l => l.2.opcode == 0x504 && l.2.first == i && l.2.committed) = some l →
      ∃ d, exec (.indexFree i) s = .next (ends (endOp l.1 stOk [] d) s) ∧ indexOf d i = { gen := nextGen8 (indexOf s.dev i).gen }
        ∧ (∀ k, k ≠ i → indexOf d k = indexOf s.dev k) ∧ d.mem = s.dev.mem ∧ d.longops = s.dev.longops)

/-- SEARCH and LIST_SCAN (R317 to R324). -/
def Obligations.SearchesAndListScans : Prop :=
  (∀ c s q t, begins 0x0501 c s = some (q, t) → tGet? t.dev.searches q.id = none → searchCheck t.dev q = none →
    t.dev.searches.length < 16384 →
    let p := q.cmd
    let x := indexOf t.dev (pNat p 0 1)
    let g := x.desc
    let start := t.dev.stk.number
    let side := x.sideList.filter fun e => e.retired.isNone && decide (e.publish < start)
    let y : Search := { q, crew := p.crew, index := pNat p 0 1, desc := g, start
                        bitmap := if bitAt (pNat p 2 1) 1 then some ((tGet? x.filters (pNat p 9 1)).getD {}).bitmap else none
                        side }
    ∃ d u, exec (.search c) s = .next (ends d t) ∧ tGet? u.searches q.id = some y ∧ u.mem = t.dev.mem ∧ u.indexes = t.dev.indexes
      ∧ ∀ l e, fetch q ([if bitAt (pNat p 2 1) 0 then (0, 0, 0) else (pNat p 16 8, queryBytes g p, pNat p 24 5),
            (g.centroids, g.nlist * g.dim * 2, devKey u g.centroids)]
          ++ (side.filter fun e => latest side e.ordinal == some e && !e.isDelete).map fun e =>
            (sideAddr g e.slot + 16, g.dim * vfmtBytes g.vfmt, devKey u (sideAddr g e.slot))) u = (l, e) →
        (l = none → d = e)
        ∧ ∀ z, l = some z →
          (spansBad z ≠ stOk → d = searchWrite q start (spansBad z) 0 [] { e with searches := tDel e.searches q.id })
          ∧ (spansBad z = stOk → ∃ w, tGet? d.searches q.id = some w ∧ w.stage = 1 ∧ w.start = start ∧ w.desc = g ∧ w.side = side
              ∧ w.bitmap = y.bitmap ∧ d.mem = e.mem
              ∧ ∃ n0, w.visits = ((sortBy (fun p : Nat × BitVec 32 => f32Key p.2)
                  (((List.range g.nlist).zip (centroidRows g (spanBytes (z.getD 1 [])))).map fun r =>
                    (r.1, exactDist g.metric (n0 + r.1)
                      ((decodeArray 1 g.dim (encodeArray 1 (w.query.map f32Val))).map toF32) r.2))).take (pNat p 6 2)).map (·.1)))
  ∧ (∀ i (s : State), s.dev.stk.number % max 1 (cfgField s.dev 0xE0000 3 0) ≠ 0 → exec (.listScan i) s = .next (ends s.dev s))
  ∧ (∀ i id y (s : State), s.dev.stk.number % max 1 (cfgField s.dev 0xE0000 3 0) = 0 → s.dev.dir = [] →
      ((searchesOn s.dev i).filter fun x => x.2.stage == 1 && decide (x.2.start < s.dev.stk.number)) = [(id, y)] →
      ∃ d, exec (.listScan i) s = .next (ends (finishSearch id 0 y d) s) ∧ d.mem = s.dev.mem ∧ d.indexes = s.dev.indexes
        ∧ d.searches = s.dev.searches)
  ∧ (∀ id shared y (d : Dev), pNat y.q.cmd 8 1 = 0 →
      let g := y.desc
      let t := distTable g d.draws (memRead d.mem g.codebook (1024 * g.dim)) y.query
      let lists := y.visits.map fun l => listItems d g l
      let scanned := lists.foldl (fun a l => a ++ scanList d y (d.draws + 256 * g.m + a.length) t l.1) []
      let bad := y.visits.any (listPoisoned d g) || poisonIn d g.codebook (1024 * g.dim)
      ∃ e, e.mem = d.mem ∧ tGet? e.searches id = none ∧ e.queues = d.queues ∧ e.sessions = d.sessions
        ∧ finishSearch id shared y d = if bad then searchWrite y.q y.start stPoisoned shared [] e
          else searchWrite y.q y.start stOk shared
            (((sortBy Cand.key (y.cands ++ scanned)).filter (·.returnable)).take (pNat y.q.cmd 4 2)) e)
  ∧ (∀ (d : Dev) y n0 t items x, x ∈ scanList d y n0 t items →
      x.returnable = (!tombstoned y x.ordinal && allowed d y.bitmap x.ordinal && !isNanF32 x.dist))

/-- ATTEST, ATTEST_BATCH_CLOSE, IMPORT_KEY_EXPIRY, KEY_IMPORT and KEY_RETIRE (R339, R345 to R350). -/
def Obligations.AttestationAndKeys : Prop :=
  (∀ c s q t, begins 0x0701 c s = some (q, t) →
    (lmsLeft t.dev = 0 → exec (.attest c) s = .next (replied q stDeviceFault [] [] t.dev t))
    ∧ (lmsLeft t.dev ≠ 0 → t.dev.attest.length < 255 → ∃ d r, exec (.attest c) s = .next (ends d t)
        ∧ d.attest = t.dev.attest ++ [r] ∧ r.q = q ∧ r.leaf < 256 ∧ (∀ x ∈ t.dev.attest, x.leaf ≠ r.leaf)
        ∧ (∃ k, tGet? d.importKeys (importIndex t.dev) = some k ∧ k.live = true ∧ k.signed = false
            ∧ k.owner = (if fromManagement t.dev q then none else some q.cmd.crew))
        ∧ (∀ i, i ≠ importIndex t.dev → tGet? d.importKeys i = tGet? t.dev.importKeys i) ∧ d.mem = t.dev.mem))
  ∧ (∀ s : State, (s.dev.attest = [] → exec .attestBatchClose s = .next (ends s.dev s))
      ∧ (s.dev.attest ≠ [] → lmsLeft s.dev = 0 → exec .attestBatchClose s = .next (ends (s.dev.attest.foldl
          (fun d r => completeSt r.q stDeviceFault d) { s.dev with attest := [], attestFrom := none }) s))
      ∧ (s.dev.attest ≠ [] → lmsLeft s.dev ≠ 0 → ∃ t, exec .attestBatchClose s = .next (settle t) ∧ t.dev.attest = []
          ∧ s.nv.lmsStored ≤ t.nv.lmsStored ∧ 2 ^ 20 - lmsLeft s.dev < t.nv.lmsStored
          ∧ { t.nv with lmsStored := s.nv.lmsStored } = s.nv ∧ t.dev.regions = s.dev.regions ∧ t.dev.crews = s.dev.crews))
  ∧ (∀ i k (s : State), tGet? s.dev.importKeys i = some k → ∃ d, exec (.importKeyExpiry i) s = .next (ends d s)
      ∧ tGet? d.importKeys i = some { k with live := k.live && !k.signed } ∧ { d with importKeys := s.dev.importKeys } = s.dev)
  ∧ (∀ c s q t, begins 0x0702 c s = some (q, t) → keyImportCheck t.dev q = none →
      let i := pNat q.cmd 0 1
      let pub := slice q.cmd.params 24 96
      let g := nextGen8 (keySlot t.dev i).gen
      (pNat q.cmd 1 1 = 2 → ∃ d, exec (.keyImport c) s = .next (replied q stOk [i + g * 256] [] d t)
        ∧ keySlot d i = { use := 2, gen := g, crew := q.cmd.crew, keyId := (digest pub).take 16, key := pub }
        ∧ (∀ k, k ≠ i → keySlot d k = keySlot t.dev k) ∧ d.importKeys = t.dev.importKeys)
      ∧ (pNat q.cmd 1 1 = 1 →
          let id := pNat q.cmd 4 4
          let k := (importKey t.dev id).getD {}
          let v := Config.unwrapKey k.draw id (slice q.cmd.params 8 16) pub (slice q.cmd.params 120 40) k.report
          ∃ d, importKey d id = none
            ∧ (v = none → exec (.keyImport c) s = .next (replied q stAuthFailed [] [] d t) ∧ d.keySlots = t.dev.keySlots)
            ∧ (∀ x, v = some x → exec (.keyImport c) s = .next (replied q stOk [i + g * 256] [] d t)
                ∧ keySlot d i = { use := 1, gen := g, crew := q.cmd.crew, keyId := slice q.cmd.params 8 16, key := toLe 32 x.toNat }
                ∧ ∀ k, k ≠ i → keySlot d k = keySlot t.dev k)))
  ∧ (∀ c s q t, begins 0x0703 c s = some (q, t) →
      let i := pNat q.cmd 0 1
      let k := keySlot t.dev i
      ((k.use = 0 ∨ k.gen ≠ pNat q.cmd 1 1) → exec (.keyRetire c) s = .next (replied q stStale [] [] t.dev t))
      ∧ (k.use ≠ 0 → k.gen = pNat q.cmd 1 1 → k.crew = q.cmd.crew → slotNamed t.dev i = false →
          let ss := if k.use = 2 then credSessions t.dev k.crew i else []
          ∃ d, exec (.keyRetire c) s = .next (ends (ss.foldl (fun d j => closeSession j d) (complete q stOk [ss.length] [] d)) t)
            ∧ keySlot d i = { gen := nextGen8 k.gen } ∧ (∀ n, n ≠ i → keySlot d n = keySlot t.dev n)
            ∧ d.sessions = t.dev.sessions ∧ d.mem = t.dev.mem))

/-- FW_STAGE, FW_ACTIVATE, LOG_BATCH_CLOSE, LEDGER_INTERVAL_END and LOG_READ (R40, R335, R341, R342, R359 to R362). -/
def Obligations.ImagesLogsAndLedgers : Prop :=
  (∀ c s q t l e, begins 0x0704 c s = some (q, t) →
    let n := pNat q.cmd 16 4
    let a := pNat q.cmd 0 8
    let b := 1 - t.dev.banks.active
    4097 ≤ n → n ≤ 67112960 → homeDram t.dev a 4096 = true → rangeCheck t.dev q.cmd.crew a n (pNat q.cmd 8 5) = none →
    t.dev.banks.trial ≠ some b → fetch q [(a, n, pNat q.cmd 8 5)] t.dev = (some l, e) → spansBad l = stOk →
    let bytes := spanBytes l.flatten
    let h := bytes.take 4096
    (∀ st, imageRefused { t with dev := e } h (bytes.drop 4096) = some st →
      exec (.fwStage c) s = .next (replied q st [] [] e t))
    ∧ (imageRefused { t with dev := e } h (bytes.drop 4096) = none → t.dev.banks.active < 2 →
        ∃ d, exec (.fwStage c) s = .next (replied q stOk [] [] d t)
          ∧ tGet? (bankImages d b) (fieldLe h 8 1) = some { svn := fieldLe h 12 2, header := h, body := bytes.drop 4096 }
          ∧ (∀ k, k ≠ fieldLe h 8 1 → tGet? (bankImages d b) k = tGet? (bankImages e b) k)
          ∧ bankImages d t.dev.banks.active = bankImages e t.dev.banks.active ∧ d.banks.active = e.banks.active
          ∧ d.banks.trial = e.banks.trial ∧ d.banks.lastStage = Config.sha384 (h.take 128)))
  ∧ (∀ c s q t, begins 0x0705 c s = some (q, t) → pNat q.cmd 0 1 < 2 →
      (bankPasses t (pNat q.cmd 0 1) = false → exec (.fwActivate c) s = .next (replied q stAuthFailed [] [] t.dev t))
      ∧ (bankPasses t (pNat q.cmd 0 1) = true → ∃ d, exec (.fwActivate c) s = .next (replied q stOk [] [] d t)
          ∧ d.banks = { t.dev.banks with trial := some (pNat q.cmd 0 1) } ∧ { d with banks := t.dev.banks, log := t.dev.log } = t.dev))
  ∧ (∀ s : State,
      let l := s.dev.log
      (l.next ≤ l.batchFrom → exec .logBatchClose s = .next (ends s.dev s))
      ∧ (l.batchFrom < l.next →
          let last := min (l.next - 1) (l.batchFrom + max 1 (cfgField s.dev 0x150000 20 8) - 1)
          let rs := l.recs.filter fun r => decide (l.batchFrom ≤ r.seq) && decide (r.seq ≤ last)
          let chain := Config.sha384 (beBytes 48 l.chain.toNat ++ rs.flatMap logBytes)
          ∃ d b, exec .logBatchClose s = .next (ends d s) ∧ d.log.chain = chain ∧ d.log.batches.getLast? = some b
            ∧ b.number = l.batchNext ∧ b.first = l.batchFrom ∧ b.last = last ∧ b.chain = chain ∧ b.stroke = s.dev.stk.number
            ∧ b.signature = Config.deviceSign (batchHead b) ∧ d.log.batchFrom = last + 1 ∧ d.log.batchNext = l.batchNext + 1
            ∧ d.log.recs = l.recs ∧ d.log.next = l.next ∧ d.mem = s.dev.mem))
  ∧ (∀ s : State,
      let k := cfgField s.dev 0x20008 4 0
      ((aligned s.dev.stk.number (2 ^ k) = false ∨ s.dev.stk.number ≤ s.dev.log.ledgerStart) →
        exec .ledgerIntervalEnd s = .next (ends s.dev s))
      ∧ (aligned s.dev.stk.number (2 ^ k) = true → s.dev.log.ledgerStart < s.dev.stk.number →
          ∃ d g, exec .ledgerIntervalEnd s = .next (ends d s) ∧ d.log.ledgers.getLast? = some g ∧ g.finish = s.dev.stk.number
            ∧ d.log.ledgerStart = s.dev.stk.number ∧ d.log.ended = []
            ∧ (∀ n x, (n, x) ∈ s.dev.crews → x.state ≠ 0 → ∃ y ∈ g.entries, y.crew = n ∧ y.gen = x.gen ∧ y.finish = s.dev.stk.number
                ∧ y.start = s.dev.log.ledgerStart ∧ y.coreNs = x.cycCore * 20 / 17)
            ∧ (∀ n x, (n, x) ∈ d.crews → x.meterCore = 0 ∧ x.meterStack = 0 ∧ x.meterLink = 0 ∧ x.cycCore = 0)
            ∧ cfgField d 0x20008 4 0 = bitsOf (regRaw s.dev 0x20008) 4 0 ∧ d.mem = s.dev.mem))
  ∧ (∀ c s q t, begins 0x0706 c s = some (q, t) → logReadCheck t.dev q = none → pNat q.cmd 0 1 < 2 →
      let man := fromManagement t.dev q
      let rs := if pNat q.cmd 0 1 = 0 then t.dev.log.recs else t.dev.log.secure
      let sel := (rs.filter fun r => decide (pNat q.cmd 8 8 ≤ r.seq)
        && (man || (decide (r.owner < 2 ^ 15) && r.owner % 256 == q.cmd.crew))).take (pNat q.cmd 16 4)
      let next := if sel.length < pNat q.cmd 16 4 then t.dev.log.next else ((sel.getLast?.map (·.seq)).getD 0) + 1
      exec (.logRead c) s = .next (replied q stOk
        [sel.length, next % 2 ^ 32, ((rs.head?.map (·.seq)).getD t.dev.log.next) % 2 ^ 32] (sel.flatMap logBytes) t.dev t))
  ∧ (∀ c s q t, begins 0x0706 c s = some (q, t) → logReadCheck t.dev q = none →
      let bs := t.dev.log.batches
      let sel := (bs.filter fun b => decide (pNat q.cmd 8 8 ≤ b.number)).take (pNat q.cmd 16 4)
      let next := if sel.length < pNat q.cmd 16 4 then t.dev.log.batchNext else ((sel.getLast?.map (·.number)).getD 0) + 1
      let found := (t.dev.log.ledgers.find? fun g => g.finish == pNat q.cmd 8 8).bind fun g =>
        (g.entries.find? fun e => e.crew == pNat q.cmd 1 1 && e.gen == pNat q.cmd 2 1).map fun e => (g, e)
      (pNat q.cmd 0 1 = 2 → exec (.logRead c) s = .next (replied q stOk
        [sel.length, next % 2 ^ 32, ((bs.head?.map (·.number)).getD t.dev.log.batchNext) % 2 ^ 32] (sel.flatMap batchBytes) t.dev t))
      ∧ (pNat q.cmd 0 1 = 3 → (found = none → exec (.logRead c) s = .next (replied q stBadField [] [] t.dev t))
          ∧ ∀ g e, found = some (g, e) → ∃ w1 w2 d, { d with draws := t.dev.draws } = t.dev
            ∧ exec (.logRead c) s = .next (replied q stOk [1, w1, w2] (entryBytes e
              ++ ((merklePath 12 e.leaf (ledgerLeaves g.draw g.entries)).1).flatten ++ beBytes 96 g.signature.toNat) d t)))

/-- MIRROR, REGION, MIRROR_ACK, LINE_REQ, LINE_DATA and CREW_KEY (R389 to R391, R393, R367, R404). -/
def Obligations.MirrorStream : Prop :=
  (∀ (p : MirrorPkt) (s : State), mirrorListens s.dev = true →
    (p.mseq ≤ s.dev.pair.applied → exec (.mirror p) s = .next (ends s.dev s))
    ∧ (s.dev.pair.applied + 1 < p.mseq → tGet? s.dev.pair.buffer (s.dev.pair.applied + 1) = none →
        tGet? s.dev.pair.regionBuffer (s.dev.pair.applied + 1) = none →
        ∃ d, exec (.mirror p) s = .next (ends d s) ∧ d.mem = s.dev.mem ∧ d.pair.applied = s.dev.pair.applied
          ∧ tGet? d.pair.buffer p.mseq = some p)
    ∧ (p.mseq = s.dev.pair.applied + 1 → tGet? s.dev.pair.buffer (p.mseq + 1) = none → tGet? s.dev.pair.regionBuffer (p.mseq + 1) = none →
        Memory.wf s.dev.mem = true → p.line.length = 128 →
        ∃ d, exec (.mirror p) s = .next (ends d s) ∧ d.pair.applied = p.mseq
          ∧ lineData d (lineOf p.addr) = (if bitAt p.kind 6 then
              toLe 128 (Config.xtsDecrypt (tGet s.dev.pair.keys ((mirroredAt s.dev p.addr).getD {}).crew) p.addr
                ((mirroredAt s.dev p.addr).getD {}).dgen p.line).toNat else p.line)
          ∧ isPoisoned d (lineOf p.addr) = false
          ∧ (∀ a, lineOf a ≠ lineOf p.addr → memByte d.mem a = memByte s.dev.mem a) ∧ d.regions = s.dev.regions
          ∧ ∃ k ∈ d.fabTx, k.kind = 0x91 ∧ k.dest = unitId (partnerModule s.dev) 0 ∧ k.body = toLe 8 p.mseq))
  ∧ (∀ (p : RegionPkt) (s : State), mirrorListens s.dev = true →
    (p.mseq ≤ s.dev.pair.applied → exec (.region p) s = .next (ends s.dev s))
    ∧ (p.mseq = s.dev.pair.applied + 1 → tGet? s.dev.pair.buffer p.mseq = none → tGet? s.dev.pair.buffer (p.mseq + 1) = none →
        tGet? s.dev.pair.regionBuffer (p.mseq + 1) = none → Memory.wf s.dev.mem = true →
        ∃ d, exec (.region p) s = .next (ends d s) ∧ d.pair.applied = p.mseq
          ∧ (∀ r, r ∉ regionRun (regionNo p.first) p.count → mirroredAt d (r * 2 ^ 21) = mirroredAt s.dev (r * 2 ^ 21))
          ∧ (∀ r, r ∈ regionRun (regionNo p.first) p.count →
              (p.op = 1 → mirroredAt d (r * 2 ^ 21) = some { crew := p.crew, key := p.key, paired := true, prot := bitAt p.flags 1,
                                                             revert := bitAt p.flags 2, dgen := p.dgen })
              ∧ (p.op = 2 → mirroredAt d (r * 2 ^ 21) = (mirroredAt s.dev (r * 2 ^ 21)).map fun x =>
                  { x with key := p.key, dgen := p.dgen })
              ∧ (p.op = 3 → mirroredAt d (r * 2 ^ 21) = none))
          ∧ (∀ a, memByte d.mem a = if p.op = 1 ∧ p.first / 2 ^ 21 * 2 ^ 21 ≤ a ∧ a < p.first / 2 ^ 21 * 2 ^ 21 + p.count * 2 ^ 21
              then 0#8 else memByte s.dev.mem a)))
  ∧ (∀ n (s : State), s.dev.pair.state = 4 → s.dev.pair.switching = false → Memory.wf s.dev.mem = true →
    (∀ i j, (i, j) ∈ s.dev.jobs → ∀ p ∈ j.parts, p.waitsFor (waitsMirror (min n s.dev.pair.mseq)) = false) →
    ∃ d, exec (.mirrorAck n) s = .next (ends d s) ∧ d.pair.acked = max s.dev.pair.acked (min n s.dev.pair.mseq)
      ∧ d.pair.waits = s.dev.pair.waits.filter (fun w => decide (min n s.dev.pair.mseq < w.mseq))
      ∧ (∀ line, (∀ w ∈ s.dev.pair.waits, w.mseq ≤ min n s.dev.pair.mseq → lineOf w.addr ≠ line) → lineData d line = lineData s.dev line)
      ∧ ∀ l w r, s.dev.pair.waits = l ++ w :: r → w.mseq ≤ min n s.dev.pair.mseq → w.line.length = 128 →
          (∀ x ∈ r, x.mseq ≤ min n s.dev.pair.mseq → lineOf x.addr ≠ lineOf w.addr) → lineData d (lineOf w.addr) = w.line)
  ∧ (∀ a r (s : State), mirrorListens s.dev = true → mirroredAt s.dev a = some r →
    exec (.lineReq a) s = .next (ends (sendPair 0x72 (toLe 8 a ++ pairLine r a s.dev) s.dev) s)
    ∧ (r.prot = false → pairLine r a s.dev = lineData s.dev (lineOf a)))
  ∧ (∀ a data (s : State),
    (repairing s.dev (lineOf a) = false → exec (.lineData a data) s = .next (ends s.dev s))
    ∧ (repairing s.dev (lineOf a) = true → Memory.wf s.dev.mem = true → data.length = 128 →
        ∃ d, exec (.lineData a data) s = .next (ends d s)
          ∧ lineData d (lineOf a) = (match regionAt s.dev a with
              | some r => if r.prot then toLe 128 (Config.xtsDecrypt (tGet s.dev.pair.keys r.crew) (lineOf a * 128) r.dgen data).toNat
                  else data
              | none => data)
          ∧ isPoisoned d (lineOf a) = false ∧ repairing d (lineOf a) = false
          ∧ ∀ x, lineOf x ≠ lineOf a → memByte d.mem x = memByte s.dev.mem x))
  ∧ (∀ crew epoch wrapped (s : State), epoch < 2 ^ 32 → mirrorListens s.dev = true →
    ∃ d, exec (.crewKey crew epoch wrapped) s = .next (ends d s) ∧ tGet? d.pair.keys crew = some (Config.unwrapCrewKey wrapped)
      ∧ ∀ n, n ≠ crew → tGet? d.pair.keys n = tGet? s.dev.pair.keys n)

/-- REDIRECT_REPEAT, RECONCILE_END, TAKEOVER_RECORD_EXPIRY, EXPEL_WAIT_END, SWITCH, JOIN_REPEAT, JOIN, SAMPLE and SAMPLE_VERDICT. -/
def Obligations.TakeoverJoiningAndSwitch : Prop :=
  (∀ s : State, s.dev.pair.state = 8 → s.dev.cfg.role ≠ 1 →
    ∃ d, exec .reconcileEnd s = .next (ends d s) ∧ d.pair.state = 6 ∧ d.pair.redirectsLeft = 16
      ∧ d.pair.redirectAt = s.dev.stk.number + 64 ∧ d.pair.keptUntil = some (s.dev.stk.number + 2048) ∧ d.pair.kept = s.dev.pair.kept
      ∧ d.pair.mirrored = [] ∧ d.pair.mseq = s.dev.pair.applied ∧ d.mem = s.dev.mem
      ∧ (∀ r, (∀ x, (r, x) ∉ s.dev.pair.mirrored) → tGet? d.regions r = tGet? s.dev.regions r)
      ∧ (∀ l r x m, s.dev.pair.mirrored = l ++ (r, x) :: m → (∀ y, (r, y) ∉ m) → tGet? d.regions r = some x)
      ∧ ∃ k ∈ d.fabTx, k.kind = 0x84 ∧ k.dest = 0xFFFFFF
        ∧ k.body = toLe 2 (partnerModule s.dev) ++ toLe 2 (ownModule s.dev) ++ toLe 4 s.dev.pair.epoch ++ toLe 8 s.dev.stk.number)
  ∧ (∀ s : State,
    (0 < s.dev.pair.redirectsLeft → s.dev.pair.redirectAt ≤ s.dev.stk.number →
      ∃ d, exec .redirectRepeat s = .next (ends d s) ∧ d.pair.redirectsLeft + 1 = s.dev.pair.redirectsLeft
        ∧ d.pair.redirectAt = s.dev.stk.number + 64 ∧ d.fabTx.length = s.dev.fabTx.length + 1 ∧ d.mem = s.dev.mem)
    ∧ ((s.dev.pair.redirectsLeft = 0 ∨ s.dev.stk.number < s.dev.pair.redirectAt) → exec .redirectRepeat s = .next (ends s.dev s)))
  ∧ (∀ n (s : State), s.dev.pair.keptUntil = some n →
    (n ≤ s.dev.stk.number → exec .takeoverRecordExpiry s =
      .next (ends { s.dev with pair := { s.dev.pair with kept := [], keptUntil := none } } s))
    ∧ (s.dev.stk.number < n → exec .takeoverRecordExpiry s = .next (ends s.dev s)))
  ∧ (∀ n (s : State), s.dev.pair.expelUntil = some n → s.dev.pair.state = 5 →
    (n ≤ s.dev.stk.number → ∃ d, exec .expelWaitEnd s = .next (ends d s) ∧ d.pair.state = 8 ∧ d.pair.expelUntil = none
      ∧ d.pair.buffer = [] ∧ d.pair.regionBuffer = [] ∧ d.pair.owed = [])
    ∧ (s.dev.stk.number < n → exec .expelWaitEnd s = .next (ends s.dev s)))
  ∧ (∀ stroke epoch (s : State), stroke < 2 ^ 64 →
    (s.dev.pair.state = 5 → ∃ d, exec (.switch stroke epoch) s = .next (ends d s) ∧ d.pair.state = 4 ∧ d.pair.epoch = epoch
      ∧ d.pair.mseq = s.dev.pair.applied ∧ d.pair.redirectsLeft = 16 ∧ d.mem = s.dev.mem)
    ∧ (s.dev.pair.state ≠ 5 → exec (.switch stroke epoch) s = .next (ends s.dev s)))
  ∧ (∀ s : State,
    (s.dev.pair.state = 1 → s.dev.cfg.role = 1 → s.dev.pair.joinMsg = 1 →
      exec .joinRepeat s = .next (ends (sendJoin s.dev.pair.joinTrans [] s.dev) s))
    ∧ ((s.dev.pair.state ≠ 1 ∨ s.dev.cfg.role ≠ 1 ∨ s.dev.pair.joinMsg ≠ 1) → exec .joinRepeat s = .next (ends s.dev s)))
  ∧ (∀ (p : JoinPkt) (s : State), s.dev.pair.state = 1 →
    (s.dev.cfg.role = 2 ∧ (p.msg = 1 ∨ (p.msg = 3 ∧ s.dev.pair.joinMsg = 2))
      ∨ s.dev.cfg.role = 1 ∧ p.msg = 2 ∧ s.dev.pair.joinMsg = 1) →
    ((p.sigOk && p.fwEqual && p.witnessEqual && p.partnerOk) = false → exec (.join p) s = .next (ends (faultCE 0x10 0 0 s.dev) s))
    ∧ ((p.sigOk && p.fwEqual && p.witnessEqual && p.partnerOk) = true →
      (p.msg = 1 → ∃ d, exec (.join p) s = .next (ends d s) ∧ d.pair.joinMsg = 2 ∧ d.pair.state = 1 ∧ d.mem = s.dev.mem
        ∧ ∃ k ∈ d.fabTx, k.kind = 0x95 ∧ k.body.take 8 = toLe 1 2 ++ zeros 7)
      ∧ (p.msg ≠ 1 → s.dev.flt.fatal = false → ∃ d, exec (.join p) s = .next (ends d s) ∧ d.pair.joinMsg = 4 ∧ d.pair.state = 1
        ∧ ∃ k ∈ d.fabTx, d.pair.asking = some (k.tag, k.tagGen) ∧ k.kind = 0x03
          ∧ k.body = reqBody (regRaw s.dev 0x110010) (regRaw s.dev 0x110018) 9 8 0 0 0 0
            ++ toLe 16 (if s.dev.cfg.role = 1 then witnessWord 1 (ownModule s.dev) else 0) ++ toLe 16 0)))
  ∧ (∀ number desc step part data (s : State), mirrorListens s.dev = true →
    let old := if part = 0 then [] else ((tGet? s.dev.pair.samples number).getD default).2.2
    old.length = part * 1024 →
    (data.length = 1024 → exec (.sample number desc step part data) s =
      .next (ends { s.dev with pair := { s.dev.pair with samples := tSet s.dev.pair.samples number (desc, step, old ++ data) } } s))
    ∧ (data.length < 1024 → ∃ d failed, exec (.sample number desc step part data) s = .next (ends d s)
        ∧ tGet? d.pair.samples number = none
        ∧ ∃ k ∈ d.fabTx, k.kind = 0x93 ∧ k.body = toLe 8 number ++ toLe 1 (b2n failed) ++ zeros 7))
  ∧ (∀ number desc step bytes (s : State), tGet? s.dev.pair.samples number = some (desc, step, bytes) →
    ∃ d, exec (.sampleVerdict number false) s = .next (ends d s) ∧ tGet? d.pair.samples number = none
      ∧ bitsOf (regRaw d 0x100050) 63 32 = (bitsOf (regRaw s.dev 0x100050) 63 32 + 1) % 2 ^ 32 ∧ d.mem = s.dev.mem)
  ∧ (∀ number desc step bytes (s : State), tGet? s.dev.pair.samples number = some (desc, step, bytes) →
    ∃ d, exec (.sampleVerdict number true) s = .next (ends d s) ∧ tGet? d.pair.samples number = none)

/-- HEARTBEAT, FAULT_NOTICE, SERVE_MISS_LIMIT, MIRROR_MISS_LIMIT, WITNESS_ASK_RETRY, WITNESS_ANSWER, PAIR_JOIN, PAIR_LEAVE, EXPEL. -/
def Obligations.HeartbeatWitnessAndExpulsion : Prop :=
  (∀ (h : Heartbeat) (s : State),
    (h.epoch ≠ s.dev.pair.epoch → exec (.heartbeat h) s = .next (ends s.dev s))
    ∧ (s.dev.pair.state ≠ 0 → h.epoch = s.dev.pair.epoch → h.port ∈ pairPorts s.dev → ¬(h.state = 0 ∧ s.dev.pair.state = 4) →
        ∃ d, exec (.heartbeat h) s = .next (ends d s)
          ∧ (h.stroke = s.dev.stk.number → d.pair.heard = true ∧ d.pair.missed = 0)
          ∧ (h.stroke ≠ s.dev.stk.number → d.pair.heard = s.dev.pair.heard ∧ d.pair.missed = s.dev.pair.missed)
          ∧ d.pair.state = (if s.dev.pair.state = 3 ∧ h.state = 4 then 5 else s.dev.pair.state) ∧ d.mem = s.dev.mem)
    ∧ (s.dev.pair.state = 4 → h.epoch = s.dev.pair.epoch → h.port ∈ pairPorts s.dev → h.state = 0 →
        ∃ d, exec (.heartbeat h) s = .next (ends d s) ∧ d.pair.state = 6))
  ∧ (∀ s : State, s.dev.flt.fatal = false →
    (s.dev.pair.state = 4 → cfgField s.dev 0x110000 7 0 - 8 ≤ s.dev.pair.missed → s.dev.pair.expelling = false →
      ∃ d, exec .serveMissLimit s = .next (ends d s) ∧ d.pair.state = 7 ∧ d.pair.detectedAt = s.dev.stk.number
        ∧ Asked (ownModule s.dev) (ownModule s.dev) s.dev d)
    ∧ ((s.dev.pair.state ≠ 4 ∨ s.dev.pair.missed < cfgField s.dev 0x110000 7 0 - 8) → exec .serveMissLimit s = .next (ends s.dev s))
    ∧ (s.dev.pair.state = 5 → s.dev.pair.asking = none → s.dev.pair.expelUntil = none →
      (cfgField s.dev 0x110000 7 0 ≤ s.dev.pair.missed →
        ∃ d, exec .mirrorMissLimit s = .next (ends d s) ∧ d.pair.state = 5 ∧ Asked (partnerModule s.dev) (ownModule s.dev) s.dev d)
      ∧ (s.dev.pair.missed < cfgField s.dev 0x110000 7 0 → exec .mirrorMissLimit s = .next (ends s.dev s))
      ∧ (∀ stroke source, stroke < 2 ^ 64 → source < 256 →
        ∃ d, exec (.faultNotice stroke source) s = .next (ends d s) ∧ Asked (partnerModule s.dev) (ownModule s.dev) s.dev d))
    ∧ (s.dev.pair.state = 4 → ∀ stroke source, stroke < 2 ^ 64 → source < 256 →
        ∃ d, exec (.faultNotice stroke source) s = .next (ends d s) ∧ d.pair.state = 6)
    ∧ (s.dev.pair.asking.isSome = true → s.dev.pair.askedAt + 8 ≤ s.dev.stk.number →
        ¬(s.dev.pair.state = 1 ∧ s.dev.pair.joinMsg = 4) →
        ∃ d, exec .witnessAskRetry s = .next (ends d s) ∧ Asked s.dev.pair.askHolder (askFor s.dev) s.dev d)
    ∧ (s.dev.pair.asking.isSome = true → s.dev.pair.askedAt + 8 ≤ s.dev.stk.number → s.dev.pair.state = 1 → s.dev.pair.joinMsg = 4 →
        exec .witnessAskRetry s =
          .next (ends (witnessCas 0 (if s.dev.cfg.role = 1 then witnessWord 1 (ownModule s.dev) else 0) s.dev) s))
    ∧ ((s.dev.pair.asking = none ∨ s.dev.stk.number < s.dev.pair.askedAt + 8) → exec .witnessAskRetry s = .next (ends s.dev s)))
  ∧ (∀ (w : WitnessAns) (s : State),
    (s.dev.pair.asking ≠ some (w.tag, w.tagGen) → exec (.witnessAnswer w) s = .next (ends (bumpReg 0x80038 31 0 1 s.dev) s))
    ∧ (s.dev.pair.asking = some (w.tag, w.tagGen) → s.dev.pair.state ≠ 1 →
        let granted := w.returned = witnessWord s.dev.pair.epoch s.dev.pair.askHolder
          ∨ w.returned = witnessWord (s.dev.pair.epoch + 1) (askFor s.dev)
        ∃ d, exec (.witnessAnswer w) s = .next (ends d s)
          ∧ (¬granted → d.pair.state = 9)
          ∧ (granted → s.dev.pair.expelling = false → s.dev.pair.state = 5 →
              d.pair.state = 8 ∧ d.pair.epoch = s.dev.pair.epoch + 1 ∧ d.pair.buffer = [] ∧ d.pair.regionBuffer = [])
          ∧ (granted → s.dev.pair.state = 5 → s.dev.pair.expelling = true →
              d.pair.state = 5 ∧ d.pair.epoch = s.dev.pair.epoch + 1 ∧ d.pair.noHeartbeat = true
              ∧ d.pair.expelUntil = some (s.dev.stk.number + cfgField s.dev 0x110000 7 0))
          ∧ (granted → s.dev.pair.state = 7 → d.pair.state = 6)
          ∧ (granted → s.dev.pair.state = 4 → s.dev.pair.switching = true → d.pair.state = 5))
    ∧ (s.dev.pair.asking = some (w.tag, w.tagGen) → s.dev.pair.state = 1 → s.dev.pair.joinMsg = 4 →
        let bow := if s.dev.cfg.role = 1 then ownModule s.dev else partnerModule s.dev
        ∃ d, exec (.witnessAnswer w) s = .next (ends d s)
          ∧ d.pair.state = (if (if w.returned = 0 then bow else w.returned % 4096) = ownModule s.dev then 2 else 3)
          ∧ d.pair.epoch = (if w.returned = 0 then 1 else w.returned / 2 ^ 32) ∧ d.pair.joinBy = none))
  ∧ (∀ c (s : State) q t, begins 0x0803 (withByte c 0 0) s = some (q, t) → pNat q.cmd 0 1 = 0 →
    ((t.dev.pair.state = 1 ∨ t.dev.pair.state = 6 ∨ t.dev.pair.state = 9) → t.dev.pair.joinBy = none →
      ∃ d, exec (.pairJoinSync c) s = .next (ends d t) ∧ d.pair.joinBy = some q ∧ d.pair.state = 1 ∧ d.mem = t.dev.mem
        ∧ (t.dev.cfg.role = 1 → (t.dev.pair.state ≠ 1 ∨ t.dev.pair.joinMsg = 0) → d.pair.joinMsg = 1 ∧ ∃ k ∈ d.fabTx, k.kind = 0x95))
    ∧ ((t.dev.pair.state ≠ 1 ∧ t.dev.pair.state ≠ 6 ∧ t.dev.pair.state ≠ 9 ∨ t.dev.pair.joinBy ≠ none) →
        exec (.pairJoinSync c) s = .next (replied q stBusy [] [] t.dev t)))
  ∧ (∀ c (s : State) q t, begins 0x0803 (withByte c 0 1) s = some (q, t) →
    (t.dev.pair.state = 4 → t.dev.pair.switching = false → t.dev.pair.expelling = false →
      ∃ d, exec (.pairJoinSwitch c) s = .next (ends d t) ∧ d.pair.switching = true ∧ d.pair.joinBy = some q ∧ d.mem = t.dev.mem
        ∧ (t.dev.pair.waits = [] → t.dev.pair.asking = none → t.dev.flt.fatal = false →
            Asked (ownModule t.dev) (partnerModule t.dev) t.dev d))
    ∧ ((t.dev.pair.state ≠ 4 ∨ t.dev.pair.switching = true ∨ t.dev.pair.expelling = true) →
        exec (.pairJoinSwitch c) s = .next (replied q stBusy [] [] t.dev t)))
  ∧ (∀ c (s : State) q t, begins 0x0804 c s = some (q, t) → pNat q.cmd 0 1 = 0 →
    (t.dev.pair.state = 5 → t.dev.pair.expelUntil = none → t.dev.pair.asking = none →
      ∃ d, exec (.pairLeave c) s = .next (replied q stOk [] [] d t) ∧ d.pair.state = 0 ∧ d.pair.mirrored = [] ∧ d.mem = t.dev.mem
        ∧ (∀ n, (crewOf d n).dramUsed = (crewOf t.dev n).dramUsed - (t.dev.pair.mirrored.filter fun r => r.2.crew == n).length)
        ∧ ∀ p ∈ pairPorts t.dev, ∃ k ∈ d.fabTx, k.kind = 0x90 ∧ k.port = some p)
    ∧ ((t.dev.pair.state ≠ 5 ∨ t.dev.pair.expelUntil ≠ none ∨ t.dev.pair.asking ≠ none) →
        exec (.pairLeave c) s = .next (replied q stBusy [] [] t.dev t)))
  ∧ (∀ c (s : State) q t, begins 0x0805 c s = some (q, t) →
    (∀ st, expelCheck t q.cmd = some st → exec (.expel c) s = .next (replied q st [] [] t.dev t))
    ∧ (expelCheck t q.cmd = none → ∃ d, exec (.expel c) s = .next (ends d { t with nv := { t.nv with expelNext := t.nv.expelNext + 1 } })
        ∧ (pNat q.cmd 12 2 = ownModule t.dev → d.flt.fatal = true))
    ∧ (expelCheck t q.cmd = none → pNat q.cmd 16 8 = t.nv.expelNext % 2 ^ 32 ∧ t.dev.stk.number ≤ pNat q.cmd 24 8
        ∧ 3 ≤ (expelVotes t.dev q.cmd).length))

/-- OWNER_QUERY to OWNER_TAKE (R409 to R411). -/
def Obligations.AnchorRecords : Prop :=
  (∀ (i : Cmd → Instr) (op : Nat) c (s : State) q t,
    ((i = .ownerQuery ∧ op = 0) ∨ (i = .ownerClaim ∧ op = 1) ∨ (i = .ownerRenew ∧ op = 2) ∨ (i = .ownerOffer ∧ op = 3)
      ∨ (i = .ownerAccept ∧ op = 4) ∨ (i = .ownerAbort ∧ op = 5) ∨ (i = .ownerRelease ∧ op = 6) ∨ (i = .ownerTake ∧ op = 7)) →
    begins 0x0806 (withByte c 0 op) s = some (q, t) → pNat q.cmd 0 1 = op →
    (∀ st, ownerCheck q.cmd = some st → exec (i c) s = .next (replied q st [] [] t.dev t))
    ∧ (ownerCheck q.cmd = none → Memory.wf t.dev.mem = true → Plain t.dev (anchorAddr q.cmd) (pNat q.cmd 16 5) →
        tGet? t.dev.got q.id = none →
        (∀ st, anchorJudge q.cmd t.dev.stk.number (leNat (memRead t.dev.mem (anchorAddr q.cmd) 16)) = (st, none) →
          ∃ d, exec (i c) s = .next (replied q st (anchorWords (leNat (memRead t.dev.mem (anchorAddr q.cmd) 16))) [] d t)
            ∧ ∀ a, memByte d.mem a = memByte t.dev.mem a)
        ∧ (∀ st w, anchorJudge q.cmd t.dev.stk.number (leNat (memRead t.dev.mem (anchorAddr q.cmd) 16)) = (st, some w) →
          ∃ d, exec (i c) s = .next (replied q stOk (anchorWords w) [] d t)
            ∧ memRead d.mem (anchorAddr q.cmd) 16 = toLe 16 w
            ∧ (op = 1 ∨ op = 7 → memRead d.mem (anchorAddr q.cmd + 16) 8 = slice q.cmd.params 24 8)
            ∧ ∀ a, (a < anchorAddr q.cmd ∨ anchorAddr q.cmd + 24 ≤ a ∨ anchorAddr q.cmd + 16 ≤ a ∧ op ≠ 1 ∧ op ≠ 7) →
                memByte d.mem a = memByte t.dev.mem a)))
  ∧ (∀ (c : Cmd) (stroke w : Nat),
    let a := parseAnchor w
    let tag := anchorCrc (pNat c 24 8) / 2 ^ 34
    let mine := a.rtag = tag ∧ a.owner = pNat c 2 2
    let own : Anchor := { lease := (stroke + pNat c 32 4) % 2 ^ 32, rtag := tag, phase := 1, owner := pNat c 2 2,
                          epoch := (a.epoch + 1) % 2 ^ 32 }
    (pNat c 0 1 = 0 → (anchorJudge c stroke w).2 = none)
    ∧ (pNat c 0 1 = 1 → a.phase = 0 → anchorJudge c stroke w = (0, some own.word))
    ∧ (pNat c 0 1 = 1 → a.phase ≠ 0 → (anchorJudge c stroke w).2 = none)
    ∧ (2 ≤ pNat c 0 1 → pNat c 0 1 ≤ 6 → a.epoch ≠ pNat c 36 4 → (anchorJudge c stroke w).2 = none)
    ∧ (pNat c 0 1 ∈ [2, 3, 5, 6] → ¬mine → anchorJudge c stroke w = (0x30, none))
    ∧ (pNat c 0 1 = 2 → mine → a.epoch = pNat c 36 4 → a.expired stroke = false →
        anchorJudge c stroke w = (0, some { a with lease := own.lease, epoch := own.epoch }.word))
    ∧ (pNat c 0 1 = 3 → mine → a.epoch = pNat c 36 4 → a.expired stroke = false → a.phase = 1 →
        anchorJudge c stroke w = (0, some { a with phase := 2, target := pNat c 4 2, epoch := own.epoch }.word))
    ∧ (pNat c 0 1 = 4 → a.rtag = tag → a.phase = 2 → a.target = pNat c 2 2 → a.epoch = pNat c 36 4 →
        anchorJudge c stroke w = (0, some own.word))
    ∧ (pNat c 0 1 = 5 → mine → a.epoch = pNat c 36 4 → a.expired stroke = false → a.phase = 2 →
        anchorJudge c stroke w = (0, some { a with phase := 1, target := 0, epoch := own.epoch }.word))
    ∧ (pNat c 0 1 = 6 → mine → a.epoch = pNat c 36 4 → anchorJudge c stroke w = (0, some { epoch := own.epoch : Anchor }.word))
    ∧ (pNat c 0 1 = 7 → a.rtag = tag → a.phase ≠ 0 →
        anchorJudge c stroke w = (if a.expired stroke then (0, some own.word) else (0x30, none)))
    ∧ (own.lease < 2 ^ 32 ∧ own.rtag < 2 ^ 30 ∧ own.owner < 2 ^ 16 → parseAnchor own.word = own))

/-- RD, WR, ATOM, COPY_DATA, COPY_ACK, DONE, RSP, RELAYED_REQUEST_TIMEOUT and DEVICE_REQUEST_TIMEOUT. -/
def Obligations.RequestsAtTheHome : Prop :=
  (∀ (p : Req) (s : State), bitAt p.flags 0 = false → 0 < p.size → lineOf (p.addr + p.size - 1) = lineOf p.addr →
    Plain s.dev p.addr p.key → Memory.wf s.dev.mem = true → s.dev.jobs = [] →
    (limitOf s.dev p.source = none → Taken 0x01 p s.dev →
      ∃ d, exec (.rd p) s = .next (ends d s) ∧ Answered s.dev d p 0x22 stOk (memRead s.dev.mem p.addr p.size) ∧ d.mem = s.dev.mem)
    ∧ (limitOf s.dev p.source = none → Taken 0x02 p s.dev →
      ∃ d, exec (.wr p) s = .next (ends d s) ∧ Answered s.dev d p 0x21 stOk [] ∧ memRead d.mem p.addr p.size = p.data
        ∧ ∀ a, (a < p.addr ∨ p.addr + p.size ≤ a) → memByte d.mem a = memByte s.dev.mem a)
    ∧ (limitOf s.dev p.source = none → Taken 0x03 p s.dev → atomCheck p s.dev = none →
      let old := leNat (memRead s.dev.mem p.addr p.size)
      ∃ d, exec (.atom p) s = .next (ends d s) ∧ Answered s.dev d p 0x21 stOk (toLe 16 old)
        ∧ memRead d.mem p.addr p.size = toLe p.size (atomicResult p.op p.size old (p.operand % 2 ^ (8 * p.size))
            (p.compare % 2 ^ (8 * p.size)))
        ∧ ∀ a, (a < p.addr ∨ p.addr + p.size ≤ a) → memByte d.mem a = memByte s.dev.mem a)
    ∧ (takesTraffic s.dev p.port = true → p.dest = unitId (ownModule s.dev) 0 → reqFormed 0x61 p = true →
      ∃ d, exec (.copyData p) s = .next (ends d s)
        ∧ Answered s.dev d p 0x62 (if bitAt p.poison 0 then stPoisoned else stOk) []
        ∧ memRead d.mem p.addr p.size = p.data ∧ isPoisoned d (lineOf p.addr) = bitAt p.poison 0
        ∧ ∀ a, (a < p.addr ∨ p.addr + p.size ≤ a) → memByte d.mem a = memByte s.dev.mem a))
  ∧ (∀ (p : Req) (s : State), Taken 0x03 p s.dev → 0 < p.size → ∀ st, atomCheck p s.dev = some st →
      ∃ d, exec (.atom p) s = .next (ends d s) ∧ Answered s.dev d p 0x21 st (zeros 16) ∧ d.mem = s.dev.mem)
  ∧ (∀ (p : Rsp) (s : State), takesTraffic s.dev p.port = true → ownUnit s.dev p.dest = true →
    (rspFormed p = true → fromWitness s.dev p = false → p.status ≠ stTakeover →
      (∃ d, exec (.rsp p) s = .next (ends d s) ∧ d.mem = s.dev.mem
        ∧ ∀ i j, tGet? s.dev.jobs i = some j → tGet? d.jobs i = some (if j.copies then j else { j with
            ready := j.ready || j.parts.any (awaits p.tag p.tagGen)
            parts := j.parts.map fun x => if awaits p.tag p.tagGen x then takeRsp p x else x }))
      ∧ ((∀ i j, (i, j) ∈ s.dev.jobs → j.copies = false → ∀ x ∈ j.parts, awaits p.tag p.tagGen x = false) →
          exec (.rsp p) s = .next (ends (bumpReg 0x80038 31 0 1 s.dev) s)))
    ∧ (rspFormed { p with kind := 0x62 } = true →
      (∃ d, exec (.copyAck p) s = .next (ends d s) ∧ d.mem = s.dev.mem
        ∧ ∀ i j, tGet? s.dev.jobs i = some j → tGet? d.jobs i = some (if !j.copies then j else { j with
            ready := j.ready || j.parts.any (awaits p.tag p.tagGen)
            parts := j.parts.map fun x => if awaits p.tag p.tagGen x then
              x.fin (if stSuccess p.status && x.poisoned then stPoisoned else p.status) else x }))
      ∧ ((∀ i j, (i, j) ∈ s.dev.jobs → j.copies = true → ∀ x ∈ j.parts, awaits p.tag p.tagGen x = false) →
          exec (.copyAck p) s = .next (ends (bumpReg 0x80038 31 0 1 s.dev) s)))
    ∧ (rspFormed { p with kind := 0x2A } = true →
      let names (o : Outstanding) : Bool := o.requester == p.requester && o.tag == p.tag && o.tagGen == p.tagGen && o.relayedTo.isSome
      ((∃ o ∈ s.dev.outstanding, names o = true) →
        exec (.done p) s = .next (ends { s.dev with outstanding := s.dev.outstanding.filter fun o => !names o } s))
      ∧ ((∀ o ∈ s.dev.outstanding, names o = false) → exec (.done p) s = .next (ends (bumpReg 0x80038 31 0 1 s.dev) s))))
  ∧ (∀ requester tag tagGen o (s : State),
    (s.dev.outstanding.find? fun o => o.requester == requester && o.tag == tag && o.tagGen == tagGen && o.relayedTo.isSome) = some o →
    (s.dev.stk.number < o.stamp + parkTimeout s.dev + 16 → exec (.relayedRequestTimeout requester tag tagGen) s = .next (ends s.dev s))
    ∧ (o.stamp + parkTimeout s.dev + 16 ≤ s.dev.stk.number → s.dev.flt.fatal = false → o.req.vc = 1 →
        ∃ d, exec (.relayedRequestTimeout requester tag tagGen) s = .next (ends d s) ∧ d.mem = s.dev.mem
          ∧ Answered s.dev d o.req 0x21 stTimeout (if o.kind = 3 then zeros 16 else [])))
  ∧ (∀ job j (s : State), tGet? s.dev.jobs job = some j →
    let due (p : Part) : Bool := p.remote && decide (p.since + remoteLimit s.dev p.addr ≤ s.dev.stk.number)
    ((∀ p ∈ j.parts, due p = false) → exec (.deviceRequestTimeout job) s = .next (ends s.dev s))
    ∧ (j.parts ≠ [] → (∀ p ∈ j.parts, due p = true) → j.owner = .device → s.dev.jobs.length = 1 →
        ∃ d, exec (.deviceRequestTimeout job) s = .next (ends d s) ∧ d.jobs = [] ∧ d.mem = s.dev.mem)
    ∧ ((∃ p ∈ j.parts, due p = true) → exec (.deviceRequestTimeout job) s = .next (ends (runControl (runJob job (setJob job
        { j with parts := j.parts.map fun p => if due p then p.fin stTimeout else p } s.dev))) s)))

/-- RD_S, RD_X, UPG, WB, ACK, ACK_D, PENDING_RETRY, AGE_PROMOTION, SNOOP_LIMIT_EXPIRY, AGENT_REG and AGENT_BYE. -/
def Obligations.CoherenceAtTheHome : Prop :=
  (∀ (p : Req) (s : State), bitAt p.flags 0 = false → p.addr % 128 = 0 → p.size = 128 → registeredAs s.dev p.source p.regGen = true →
    limitOf s.dev p.source = none → (agentsOn s.dev (dieOf s.dev p.addr)).length < 4096 →
    (s.dev.dir.filter fun e => e.2.state != 0 && sameSet s.dev e.1 (lineOf p.addr)).length < 16 →
    Plain { s.dev with dir := tDel s.dev.dir (lineOf p.addr) } p.addr p.key →
    let line := lineOf p.addr
    let e := dirOf s.dev line
    (Taken 0x04 p s.dev →
      (e.state = 0 → ∃ d, exec (.rdS p) s = .next (ends d s) ∧ Answered s.dev d p 0x23 stOk (lineData s.dev line)
        ∧ (dirOf d line).state = 1 ∧ (dirOf d line).holders = [p.source] ∧ (dirOf d line).coarse = none ∧ d.mem = s.dev.mem
        ∧ ∀ m, m ≠ line → tGet? d.dir m = tGet? s.dev.dir m)
      ∧ (e.state = 2 → e.coarse = none → ∀ b, e.holders = [b] → ∃ d, exec (.rdS p) s = .next (ends d s)
        ∧ (dirOf d line).state = 0xA ∧ (dirOf d line).unanswered = [b] ∧ d.mem = s.dev.mem
        ∧ ∃ k ∈ d.fabTx, k.kind = 0x42 ∧ k.dest = b ∧ k.body = reqBody (line * 128) 0 0 0 e.gen 0 0 0))
    ∧ (∀ i kind, (i = .rdX p ∧ kind = 5 ∨ i = .upg p ∧ kind = 6) → Taken kind p s.dev →
      (e.state = 0 → ∃ d, exec i s = .next (ends d s) ∧ Answered s.dev d p 0x24 stOk (lineData s.dev line)
        ∧ (dirOf d line).state = 2 ∧ (dirOf d line).holders = [p.source] ∧ (dirOf d line).gen = (e.gen + 1) % 65536
        ∧ d.mem = s.dev.mem ∧ ∀ m, m ≠ line → tGet? d.dir m = tGet? s.dev.dir m)
      ∧ (e.state = 1 → e.coarse = none → e.holders = [p.source] →
        ∃ d, exec i s = .next (ends d s) ∧ Answered s.dev d p (if kind = 6 then 0x25 else 0x24) stOk
            (if kind = 6 then [] else lineData s.dev line)
          ∧ (dirOf d line).state = 2 ∧ (dirOf d line).holders = [p.source] ∧ d.mem = s.dev.mem)
      ∧ (e.state = 1 → e.coarse = none → ∀ b, b ≠ p.source → e.holders = [b] → ∃ d, exec i s = .next (ends d s)
        ∧ (dirOf d line).state = 8 ∧ (dirOf d line).unanswered = [b] ∧ d.mem = s.dev.mem ∧ ∃ k ∈ d.fabTx, k.kind = 0x41 ∧ k.dest = b)))
  ∧ (∀ (p : Req) (s : State), Taken 0x07 p s.dev → bitAt p.flags 0 = false → p.addr % 128 = 0 → (p.size = 128 ∨ p.size = 0) →
    registeredAs s.dev p.source p.regGen = true → p.regGen ∉ (agentOf s.dev p.source).crashed → limitOf s.dev p.source = none →
    Memory.wf s.dev.mem = true → (dirOf s.dev (lineOf p.addr)).state = 2 → (dirOf s.dev (lineOf p.addr)).holders = [p.source] →
    ((dirOf s.dev (lineOf p.addr)).gen = p.grantGen → ∃ d, exec (.wb p) s = .next (ends d s) ∧ Answered s.dev d p 0x26 stOk []
      ∧ (dirOf d (lineOf p.addr)).state = 0 ∧ (dirOf d (lineOf p.addr)).holders = []
      ∧ lineData d (lineOf p.addr) = (if p.size = 0 then lineData s.dev (lineOf p.addr) else p.data)
      ∧ ∀ a, lineOf a ≠ lineOf p.addr → memByte d.mem a = memByte s.dev.mem a)
    ∧ ((dirOf s.dev (lineOf p.addr)).gen ≠ p.grantGen → ∃ d, exec (.wb p) s = .next (ends d s) ∧ d.mem = s.dev.mem ∧ d.dir = s.dev.dir
        ∧ d.fabTx = s.dev.fabTx ∧ regRaw d 0x60040 = (regRaw s.dev 0x60040 + 1) % 2 ^ 64))
  ∧ (∀ (p : Rsp) sn (s : State), takesTraffic s.dev p.port = true → ownUnit s.dev p.dest = true →
    p.regGen ∉ (agentOf s.dev p.source).crashed →
    (s.dev.snoops.find? fun x => x.tag == p.tag && x.tagGen == p.tagGen && x.agent == p.source) = some sn → sn.regGen = p.regGen →
    Memory.wf s.dev.mem = true →
    let e := dirOf s.dev sn.line
    e.unanswered = [p.source] → e.evicting = false → e.heldWb = none → (∀ w ∈ s.dev.pendingBuf, w.line = sn.line → w.turn = false) →
    (∀ i, (i = .ack p ∧ rspFormed { p with kind := 0x28 } = true ∨ i = .ackD p ∧ rspFormed { p with kind := 0x29 } = true) →
      e.state = 8 ∨ ((e.state = 9 ∨ e.state = 0xA) ∧ p.grantGen = e.gen) →
      ∃ d, exec i s = .next (ends d s) ∧ (dirOf d sn.line).unanswered = [] ∧ (dirOf d sn.line).holders = (if e.coarse.isSome then [] else e.holders)
        ∧ (dirOf d sn.line).coarse = (if e.coarse.isSome && !e.holders.isEmpty then some (e.holders.foldl groupBit 0) else none)
        ∧ (dirOf d sn.line).state = (if e.holders.isEmpty then 0 else 1) ∧ (∀ x ∈ d.snoops, ¬(x.line = sn.line ∧ x.agent = p.source))
        ∧ lineData d sn.line = (if i = .ackD p ∧ e.state ≠ 8 then p.data else lineData s.dev sn.line)
        ∧ ∀ a, lineOf a ≠ sn.line → memByte d.mem a = memByte s.dev.mem a))
  ∧ (∀ line (s : State),
    (transient (dirOf s.dev line).state = true → exec (.pendingRetry line) s = .next (ends s.dev s))
    ∧ ((∀ w ∈ s.dev.pendingBuf, w.line = line → w.job ≠ none ∨ w.delayed = true) → exec (.pendingRetry line) s = .next (ends s.dev s))
    ∧ (∀ w, s.dev.pendingBuf = [w] → w.line = line → w.job = none → w.delayed = false → w.kind = 0x07 → w.throttled = false →
        (dirOf s.dev line).state = 2 → (dirOf s.dev line).holders = [w.req.source] → (dirOf s.dev line).gen = w.req.grantGen →
        s.dev.flt.fatal = false →
        ∃ d, exec (.pendingRetry line) s = .next (ends d s) ∧ d.pendingBuf = [] ∧ Answered s.dev d w.req 0x26 stOk []
          ∧ (dirOf d line).state = 0)
    ∧ ∃ d, exec (.agePromotion line) s = .next (ends d s) ∧ d.mem = s.dev.mem ∧ d.dir = s.dev.dir
        ∧ d.pendingBuf.map (fun w => { w with promoted := none }) = s.dev.pendingBuf.map (fun w => { w with promoted := none })
        ∧ d.pendingBuf.map (·.promoted.isSome) = s.dev.pendingBuf.map fun w =>
            w.promoted.isSome || (decide (w.line = line) && decide (cfgField s.dev 0x60008 7 0 ≤ w.retries)))
  ∧ (∀ line a (s : State),
    ((∀ x ∈ s.dev.snoops, x.line = line → x.agent = a → s.dev.stk.number < x.sent + cfgField s.dev 0x60000 7 0) →
      exec (.snoopLimitExpiry line a) s = .next (ends s.dev s))
    ∧ (∀ x ∈ s.dev.snoops, x.line = line → x.agent = a → x.sent + cfgField s.dev 0x60000 7 0 ≤ s.dev.stk.number →
        (∀ y ∈ s.dev.snoops, y.agent = a → registeredAs s.dev a y.regGen = true) →
        ∃ d, exec (.snoopLimitExpiry line a) s = .next (ends d s) ∧ (agentOf d a).registered = false
          ∧ (agentOf s.dev a).regGen ∈ (agentOf d a).crashed))
  ∧ (∀ (p : Req) (s : State), Taken 0x08 p s.dev →
      ∃ d, exec (.agentReg p) s = .next (ends d s) ∧ (agentOf d p.source).registered = true
        ∧ (agentOf d p.source).regGen = ((agentOf s.dev p.source).regGen + 1) % 65536
        ∧ Answered s.dev d p 0x27 stOk []
        ∧ ((agentOf s.dev p.source).registered = true → (agentOf s.dev p.source).regGen ∈ (agentOf d p.source).crashed))
  ∧ (∀ (p : Req) (s : State), Taken 0x09 p s.dev →
      ∃ d, exec (.agentBye p) s = .next (ends d s) ∧ (agentOf d p.source).registered = false ∧ Answered s.dev d p 0x21 stOk [])

/-- SYNC_SEND, DELAY_REQ_SEND, SYNC_LOSS, SYNC, DELAY_REQ, DELAY_RSP, PORT_HELLO, REDIRECT, REDIRECT_GRACE_END, FLIT, LINK_ACK_STALL,
RETRAIN_FAIL and PORT_TRAIN_END. -/
def Obligations.LinkLayerAndSync : Prop :=
  (∀ s : State,
    (s.dev.power.phase < 6 → exec .syncSend s = .next (ends s.dev s))
    ∧ (6 ≤ s.dev.power.phase → ∃ d, exec .syncSend s = .next (ends d s) ∧ d.mem = s.dev.mem ∧ d.stk = s.dev.stk
        ∧ d.fabTx.length = s.dev.fabTx.length + ((List.range 16).filter fun p => (syncPeer s.dev p).isSome).length
        ∧ ∀ p m, p < 16 → syncPeer s.dev p = some m → ∃ k ∈ d.fabTx, ∃ offset, k.kind = 0x81 ∧ k.port = some p ∧ k.dest = unitId m 0
            ∧ offset < periodPs s.dev.stk.current ∧ k.body = syncBody s.dev offset)
    ∧ (∀ now, s.dev.power.phase < 5 → exec (.delayReqSend now) s = .next (ends s.dev s))
    ∧ (∀ now, 5 ≤ s.dev.power.phase → ∃ d, exec (.delayReqSend now) s = .next (ends d s)
        ∧ d = { s.dev with fabTx := d.fabTx }
        ∧ ∀ p m, p < 16 → syncPeer s.dev p = some m → ∃ k ∈ d.fabTx, k.kind = 0x82 ∧ k.port = some p ∧ k.dest = unitId m 0
            ∧ k.body = toLe 8 now)
    ∧ (s.dev.cfg.master = false → s.dev.stk.locked = true → 6 ≤ s.dev.power.phase → s.dev.stk.lastSync + 256 ≤ s.dev.stk.number →
        ∃ d, exec .syncLoss s = .next (ends d s) ∧ d.stk.locked = false ∧ d.stk.number = s.dev.stk.number ∧ d.mem = s.dev.mem)
    ∧ ((s.dev.cfg.master = true ∨ s.dev.stk.number < s.dev.stk.lastSync + 256) → exec .syncLoss s = .next (ends s.dev s)))
  ∧ (∀ (p : SyncPkt) (s : State), portTakes s.dev p.port = true → bitAt (regRaw s.dev 0x10020) p.port = true →
    (p.rsvZero = false → exec (.sync p) s = .next (ends (dropBad s.dev) s))
    ∧ (p.rsvZero = true → ownNumber s.dev p.source = true →
        ∃ d, exec (.sync p) s = .next (ends d s) ∧ (portOf d p.port).refused = true ∧ d.stk = s.dev.stk)
    ∧ (p.rsvZero = true → ownNumber s.dev p.source = false → 6 ≤ s.dev.power.phase →
      (syncValid s.dev p = false → exec (.sync p) s = .next (ends (dropBad s.dev) s))
      ∧ (syncValid s.dev p = true → (s.dev.cfg.master = true ∨ s.dev.flt.fatal = true ∨ syncFollowed s.dev p = false) →
          exec (.sync p) s = .next (ends { s.dev with
            ports := tSet s.dev.ports p.port { portOf s.dev p.port with lastSync := some s.dev.stk.number }
            stk := { s.dev.stk with lastSync := s.dev.stk.number } } s))
      ∧ (syncValid s.dev p = true → s.dev.cfg.master = false → s.dev.flt.fatal = false → syncFollowed s.dev p = true →
          let m := syncMoment s.dev p
          let offset := syncOffset s.dev m
          (s.dev.stk.locked = true → p.port = s.dev.stk.source → (p.stroke : Int) ≠ s.dev.stk.number + nearestStroke s.dev m →
            ∃ d, exec (.sync p) s = .next (ends d s) ∧ d.flt.fatal = true)
          ∧ ((s.dev.stk.locked = false ∨ p.port ≠ s.dev.stk.source ∨ (p.stroke : Int) = s.dev.stk.number + nearestStroke s.dev m) →
            ∃ d, exec (.sync p) s = .next (ends d s) ∧ d.stk.number = s.dev.stk.number ∧ d.stk.source = p.port ∧ d.stk.hops = p.hops
              ∧ d.stk.offset = offset ∧ -6400 ≤ d.stk.steer ∧ d.stk.steer ≤ 6400 ∧ (offset.natAbs ≤ 6400 → d.stk.steer = -offset)
              ∧ (s.dev.stk.locked = true → (d.stk.locked = true ↔ offset.natAbs ≤ 20000))
              ∧ (s.dev.stk.locked = false → (d.stk.locked = true ↔ offset.natAbs ≤ 10000 ∧ 15 ≤ s.dev.stk.goodSyncs))))))
  ∧ (∀ (p : DelayPkt) leave (s : State), portTakes s.dev p.port = true → ownNumber s.dev p.source = false →
    exec (.delayReq p leave) s = .next (ends (sendPkt {
      kind := 0x83, dest := p.source, source := unitId (ownModule s.dev) 0, port := some p.port
      body := toLe 8 p.t1 ++ toLe 8 p.arrival ++ toLe 8 leave } s.dev) s)
    ∧ exec (.delayRsp p) s = .next (ends (setPort p.port { portOf s.dev p.port with
        delay := (((p.arrival : Int) - p.t1 - ((p.t3 : Int) - p.t2)) / 2).toNat } s.dev) s))
  ∧ (∀ port number hall (s : State), hall < 2 ^ 32 → portTakes s.dev port = true →
    (number = ownModule s.dev → s.dev.cfg.loaded = true →
      ∃ d, exec (.portHello port number hall) s = .next (ends d s) ∧ (portOf d port).refused = true
        ∧ ∀ k, k ≠ port → portOf d k = portOf s.dev k)
    ∧ (number ≠ ownModule s.dev → exec (.portHello port number hall) s = .next (ends s.dev s)))
  ∧ (∀ source fromM toM epoch stroke (s : State), source < 2 ^ 24 → stroke < 2 ^ 64 → fromM < 4096 → toM < 4096 → 4 ≤ s.dev.power.phase →
    ((∀ r, tGet? s.dev.redirects fromM = some r → r.epoch < epoch) →
      ∃ d, exec (.redirect source fromM toM epoch stroke) s = .next (ends d s)
        ∧ tGet? d.redirects fromM = some { toModule := toM, epoch, graceEnd := if fromM = toM then none else some (s.dev.stk.number + 16) }
        ∧ (∀ m, m ≠ fromM → tGet? d.redirects m = tGet? s.dev.redirects m) ∧ d.mem = s.dev.mem)
    ∧ (∀ r, tGet? s.dev.redirects fromM = some r → epoch ≤ r.epoch →
      exec (.redirect source fromM toM epoch stroke) s = .next (ends s.dev s)))
  ∧ (∀ m r n (s : State), tGet? s.dev.redirects m = some r → r.graceEnd = some n →
    (s.dev.stk.number < n → exec (.redirectGraceEnd m) s = .next (ends s.dev s))
    ∧ (n ≤ s.dev.stk.number → s.dev.flt.fatal = false → ∃ d, exec (.redirectGraceEnd m) s = .next (ends d s)
        ∧ tGet? d.redirects m = some { r with graceEnd := none } ∧ d.mem = s.dev.mem
        ∧ ∀ o ∈ s.dev.outstanding, o.relayedTo = some m → ∃ k ∈ d.fabTx, k.kind = o.kind ∧ k.source = o.req.source ∧ k.tag = o.req.tag
            ∧ k.tagGen = o.req.tagGen ∧ k.dest = unitId (routeModule s.dev o.req.addr) 0))
  ∧ (∀ p (l : List Byte) (s : State), let x := portOf s.dev p
    ((l.length ≠ 64 ∨ x.up = false ∨ x.retraining = true) → exec (.flit p l) s = .next (ends s.dev s))
    ∧ (l.length = 64 → x.up = true → x.retraining = false →
      (fieldLe l 60 4 ≠ (crc32 (l.take 60)).toNat →
        exec (.flit p l) s = .next (ends (sendNak p (bumpReg (0x81010 + 32 * p) 63 32 1 s.dev)) s))
      ∧ (fieldLe l 60 4 = (crc32 (l.take 60)).toNat → bitsOf (fieldLe l 56 4) 31 22 ≠ x.expect →
        exec (.flit p l) s = .next (ends (sendNak p s.dev) s))
      ∧ (fieldLe l 60 4 = (crc32 (l.take 60)).toNat → bitsOf (fieldLe l 56 4) 31 22 = x.expect →
        bitsOf (fieldLe l 56 4) 10 8 = 0 → bitAt (fieldLe l 56 4) 11 = false →
        ∃ d, exec (.flit p l) s = .next (ends d s) ∧ (portOf d p).expect = x.expect ∧ (portOf d p).nakSent = false ∧ d.mem = s.dev.mem
          ∧ ((bitsOf (fieldLe l 56 4) 21 12 + 1024 - x.acked) % 1024 ≤ x.retry.length →
              (portOf d p).acked = bitsOf (fieldLe l 56 4) 21 12))
      ∧ (∀ vc, fieldLe l 60 4 = (crc32 (l.take 60)).toNat → bitsOf (fieldLe l 56 4) 31 22 = x.expect →
        bitsOf (fieldLe l 56 4) 10 8 = vc → vc ≠ 0 → bitAt (fieldLe l 56 4) 11 = false → bitAt (fieldLe l 56 4) 7 = true →
        56 < fieldLe (l.take 56) 2 2 → fieldLe (l.take 56) 2 2 ≤ 1064 → tGet? x.partials vc = none →
        ∃ d, exec (.flit p l) s = .next (ends d s) ∧ (portOf d p).expect = (x.expect + 1) % 1024
          ∧ tGet? (portOf d p).partials vc = some (l.take 56) ∧ d.mem = s.dev.mem)))
  ∧ (∀ p (d : Dev), (portOf d p).nakSent = true → sendNak p d = d)
  ∧ (∀ p (s : State), let x := portOf s.dev p
    (x.up = true → x.retraining = false → x.retry ≠ [] →
      ∃ d, exec (.linkAckStall p) s = .next (ends d s) ∧ portOf d p = { x with retraining := true, naks := 0 } ∧ d.mem = s.dev.mem)
    ∧ ((x.up = false ∨ x.retraining = true ∨ x.retry = []) → exec (.linkAckStall p) s = .next (ends s.dev s))
    ∧ (x.retraining = true → ∃ d, exec (.retrainFail p) s = .next (ends d s) ∧ d.mem = s.dev.mem
        ∧ portOf d p = { x with up := false, retraining := false, retry := [], partials := [] })
    ∧ (x.retraining = false → exec (.retrainFail p) s = .next (ends s.dev s))
    ∧ (4 ≤ s.dev.power.phase → p < 16 → (x.idled = false ∨ s.dev.power.mode = 2) →
      (x.retraining = true → ∃ d, exec (.portTrainEnd p true) s = .next (ends d s) ∧ (portOf d p).retraining = false
        ∧ (portOf d p).retry = x.retry ∧ d.flitTx.length = s.dev.flitTx.length + x.retry.length ∧ d.mem = s.dev.mem)
      ∧ (x.retraining = false → x.up = false → ∃ d, exec (.portTrainEnd p true) s = .next (ends d s) ∧ (portOf d p).up = true
        ∧ (portOf d p).txSeq = 0 ∧ (portOf d p).expect = 0 ∧ (portOf d p).idled = false
        ∧ ∃ k ∈ d.fabTx, k.kind = 0x85 ∧ k.port = some p ∧ k.body.take 2 = toLe 2 (ownModule s.dev))
      ∧ ((x.retraining = true ∨ x.up = false) → ∃ d, exec (.portTrainEnd p false) s = .next (ends d s) ∧ (portOf d p).up = false
        ∧ (portOf d p).retry = [])))

/-- SESSION_OPEN, HANDSHAKE_MSG3, PENDING_SESSION_EXPIRY, SESSION_DATAGRAM, ACK_ONLY_DATAGRAM, ACK_TIMER, DATAGRAM_RESEND, SESSION_IDLE,
ETH_FRAME, PFC_FRAME, ARP_REQUEST, NEIGHBOR_SOLICITATION, ICMP_ECHO and PTP_MESSAGE. -/
def Obligations.SessionsAndFrames : Prop :=
  (∀ (h : Hello1) (s : State), helloServes s.dev = true → (s.dev.sessions.filter fun x => x.2.isPending).length < 64 →
    (∀ st, helloCheck s.dev h = some st → exec (.sessionOpen h) s = .next (ends (refuseHello 0 st s.dev) s)
      ∧ (refuseHello 0 st s.dev).sessions = s.dev.sessions)
    ∧ (∀ i, helloCheck s.dev h = none → freeSession s.dev = some i → ∃ d body, exec (.sessionOpen h) s = .next (ends d s)
        ∧ (sessOf d i).isPending = true ∧ (sessOf d i).isOpen = false ∧ (sessOf d i).gen = nextSession (sessOf s.dev i)
        ∧ (sessOf d i).management = (h.role == 0) ∧ (sessOf d i).crew = h.crew ∧ (sessOf d i).cred = h.cred
        ∧ (∀ k, k ≠ i → sessOf d k = sessOf s.dev k) ∧ d.mem = s.dev.mem
        ∧ (sessionPcp s.dev ∉ s.dev.pausedPcp →
            d.ethTx = s.dev.ethTx ++ [.message2 (nextSession (sessOf s.dev i) * 2 ^ 24 + i) 0 body])))
  ∧ (∀ (h : Hello3) (s : State), let i := h.session % 4096
    helloServes s.dev = true → (sessOf s.dev i).isPending = true → h.session = (sessOf s.dev i).gen * 2 ^ 24 + i →
    (msg3Check s.dev (sessOf s.dev i) h = none → ∃ d, exec (.handshakeMsg3 h) s = .next (ends d s) ∧ (sessOf d i).isOpen = true
        ∧ (sessOf d i).isPending = false ∧ (sessOf d i).gen = (sessOf s.dev i).gen
        ∧ (sessOf d i).management = (sessOf s.dev i).management ∧ (sessOf d i).crew = (sessOf s.dev i).crew
        ∧ (∀ k, k ≠ i → sessOf d k = sessOf s.dev k) ∧ d.mem = s.dev.mem)
    ∧ (∀ st, msg3Check s.dev (sessOf s.dev i) h = some st → exec (.handshakeMsg3 h) s =
        .next (ends (refuseHello h.session st (dropPending i s.dev)) s)))
  ∧ (∀ i (s : State),
    ((sessOf s.dev i).isPending = true → ∃ d, exec (.pendingSessionExpiry i) s = .next (ends d s)
      ∧ sessOf d i = { gen := nextGen8 (sessOf s.dev i).gen } ∧ ∀ k, k ≠ i → sessOf d k = sessOf s.dev k)
    ∧ ((sessOf s.dev i).isPending = false → exec (.pendingSessionExpiry i) s = .next (ends s.dev s))
    ∧ ((sessOf s.dev i).isOpen = true → ∃ d, exec (.sessionIdle i) s = .next (ends d s)
      ∧ sessOf d i = { gen := nextGen8 (sessOf s.dev i).gen, closedAt := some s.dev.stk.number }
      ∧ ∀ k, k ≠ i → sessOf d k = sessOf s.dev k)
    ∧ ((sessOf s.dev i).isOpen = false → exec (.sessionIdle i) s = .next (ends s.dev s))
    ∧ ((sessOf s.dev i).isOpen = true → 0 < (sessOf s.dev i).sinceAck → ∃ d, exec (.ackTimer i) s = .next (ends d s)
      ∧ sessOf d i = { sessOf s.dev i with ackSeq := (sessOf s.dev i).ackSeq + 1, sinceAck := 0, ceEcho := false })
    ∧ (((sessOf s.dev i).isOpen = false ∨ (sessOf s.dev i).sinceAck = 0) → exec (.ackTimer i) s = .next (ends s.dev s)))
  ∧ (∀ (g : Datagram) (s : State), ethServes s.dev = true →
    ((namedSession s.dev g.session = none ∨ g.auth = false ∨ g.type ≠ 2) →
      exec (.sessionDatagram g) s = .next (ends (bumpReg 0x90070 63 32 1 s.dev) s))
    ∧ (∀ i, namedSession s.dev g.session = some i → g.auth = true → g.type = 2 → g.ce = false → (sessOf s.dev i).waiting = [] →
      let x := sessOf s.dev i
      (g.seq < 2 ^ 63 → g.seq = x.next → g.count = 0 → bitAt g.flags 1 = false → bitAt g.flags 2 = false → g.payload = [] →
        x.recOpen = false → x.heldDg = [] → ∃ d, exec (.sessionDatagram g) s = .next (ends d s) ∧ (sessOf d i).next = x.next + 1
          ∧ (sessOf d i).hostAck = max x.hostAck g.ack ∧ (sessOf d i).unacked = x.unacked.filter (fun y => decide (max x.hostAck g.ack < y.seq))
          ∧ (∀ k, k ≠ i → sessOf d k = sessOf s.dev k) ∧ d.mem = s.dev.mem)
      ∧ (g.seq < 2 ^ 63 → g.seq < x.next → ∃ d, exec (.sessionDatagram g) s = .next (ends d s) ∧ (sessOf d i).next = x.next
          ∧ (sessOf d i).sinceAck = 0 ∧ bitsOf (regRaw d 0x90078) 63 32 = (bitsOf (regRaw s.dev 0x90078) 63 32 + 1) % 2 ^ 32)
      ∧ (g.count = 0 → bitAt g.flags 1 = false → bitAt g.flags 2 = false → ∃ d, exec (.ackOnlyDatagram g) s = .next (ends d s)
          ∧ sessOf d i = { x with hostAck := max x.hostAck g.ack
                                  unacked := x.unacked.filter fun y => decide (max x.hostAck g.ack < y.seq) })))
  ∧ (∀ i (g : Datagram) (d : Dev), (sessOf d i).recOpen = false → bitAt g.flags 1 = false → g.count = 1 →
    g.payload.length = 64 * entriesFor (fieldLe g.payload 12 4) →
    actDatagram i g d = takeCommand i g.dscp g.payload (setSess i { sessOf d i with openRec := [], recOpen := false } d))
  ∧ (∀ i seq g (s : State), ((sessOf s.dev i).unacked.find? fun x => x.seq == seq) = some g →
    (g.resends < cfgField s.dev 0x90050 7 0 → ∃ d, exec (.datagramResend i seq) s = .next (ends d s)
      ∧ (sessOf d i).unacked = (sessOf s.dev i).unacked.map (fun x => if x.seq = seq then { x with resends := x.resends + 1 } else x)
      ∧ (sessOf d i).isOpen = (sessOf s.dev i).isOpen
      ∧ (sessionPcp s.dev ∉ s.dev.pausedPcp → d.ethTx = s.dev.ethTx ++ [.datagram { g with resends := 0 }]))
    ∧ (cfgField s.dev 0x90050 7 0 ≤ g.resends → (sessOf s.dev i).isOpen = true → ∃ d, exec (.datagramResend i seq) s = .next (ends d s)
      ∧ sessOf d i = { gen := nextGen8 (sessOf s.dev i).gen, closedAt := some s.dev.stk.number }))
  ∧ (∀ (f : Frame) (s : State), ethServes s.dev = true → exec (.ethFrame f) s =
    .next (ends (if frameBad s.dev f then bumpReg 0x90070 31 0 1 s.dev else s.dev) s))
  ∧ (∀ p (s : State), ethServes s.dev = true → p < 8 → bitAt (cfgField s.dev 0x90000 23 16) p = true →
    (∃ d, exec (.pfcFrame p true) s = .next (ends d s) ∧ p ∈ d.pausedPcp ∧ d = { s.dev with pausedPcp := d.pausedPcp })
    ∧ (∃ d, exec (.pfcFrame p false) s = .next (ends d s) ∧ p ∉ d.pausedPcp
        ∧ (∀ k, k ≠ p → (k ∈ d.pausedPcp ↔ k ∈ s.dev.pausedPcp)) ∧ (∀ e, (p, e) ∉ d.ethHeld)
        ∧ ∀ e, (p, e) ∈ s.dev.ethHeld → e ∈ d.ethTx))
  ∧ (∀ address sender (s : State), ethServes s.dev = true →
    (ownIpv4 s.dev address = true →
      exec (.arpRequest address sender) s = .next (ends (ethSend 0 (.arpReply address sender) s.dev) s)
      ∧ ∀ data, exec (.icmpEcho false address sender data) s = .next (ends (ethSend 0 (.echoReply false address sender data) s.dev) s))
    ∧ (ownIpv6 s.dev address = true →
      exec (.neighborSolicitation address sender) s = .next (ends (ethSend 0 (.neighborAdvertisement address sender) s.dev) s)
      ∧ ∀ data, exec (.icmpEcho true address sender data) s = .next (ends (ethSend 0 (.echoReply true address sender data) s.dev) s))
    ∧ (ownIpv4 s.dev address = false → exec (.arpRequest address sender) s = .next (ends s.dev s))
    ∧ (ownIpv6 s.dev address = false → exec (.neighborSolicitation address sender) s = .next (ends s.dev s)))
  ∧ (∀ (m : PtpMsg) (s : State), ethServes s.dev = true → bitAt (cfgField s.dev 0x90060 0 0) 0 = true →
    m.domain = cfgField s.dev 0x90060 15 8 → m.ipv6 = bitAt (cfgField s.dev 0x90060 1 1) 0 →
    ∃ d, exec (.ptpMessage m) s = .next (ends d s) ∧ d.stk.tod / 2 ^ 30 = m.seconds % 2 ^ 34 ∧ d.stk.tod % 2 ^ 30 = m.nanos % 10 ^ 9
      ∧ d.stk.ptpLocked = m.locked ∧ d.stk.number = s.dev.stk.number ∧ d.mem = s.dev.mem)

/-- WAIT_DEADLINE, PARK_TIMEOUT, ITEM_ABANDON, PARKED_RESUME, CLUSTER_WAKE and STROKE_BOUNDARY. -/
def Obligations.WaitsAndStrokes : Prop :=
  (∀ i dense job (s : State), (i = Instr.waitDeadline job ∧ dense = false ∨ i = .parkTimeout job ∧ dense = true) →
    (tGet? s.dev.jobs job = none → exec i s = .next (ends s.dev s))
    ∧ (∀ j, tGet? s.dev.jobs job = some j → j.slot = none → j.owner ≠ .device → (∀ x ∈ j.parts, x.overdue s.dev dense = false) →
        exec i s = .next (ends s.dev s))
    ∧ (∀ j p x, s.dev.jobs = [(job, j)] → j.slot = none → j.owner = .fabric p → j.parts = [x] → x.act = .write →
        x.overdue s.dev dense = true → p.vc = 1 → s.dev.flt.fatal = false →
        ∃ d, exec i s = .next (ends d s) ∧ Answered s.dev d p 0x21 stTimeout [] ∧ d.jobs = [] ∧ d.mem = s.dev.mem))
  ∧ (∀ id x (s : State), tGet? s.dev.items id = some x →
    (x.cuts < 15 → exec (.itemAbandon id) s = .next (ends s.dev s))
    ∧ (∀ q, 15 ≤ x.cuts → x.kind = .command q → q.opcode ∉ [0x301, 0x302, 0x402, 0x501] → ∃ d, exec (.itemAbandon id) s =
          .next (ends (faultCE 0x0C 0 x.crew (complete q stTimeout [] [] d)) s)
        ∧ tGet? d.items id = none ∧ (∀ k, k ≠ id → tGet? d.items k = tGet? s.dev.items k) ∧ d.mem = s.dev.mem
        ∧ d = { s.dev with regs := d.regs, items := d.items }))
  ∧ (∀ job j p x (s : State), s.dev.jobs = [(job, j)] → j.owner = .fabric p → j.slot = none → j.ready = true → j.parts = [x] →
    x.state = .todo → x.act = .read → x.off = 0 → x.len = p.size → 0 < p.size → lineOf (x.addr + x.len - 1) = lineOf x.addr →
    Plain s.dev x.addr x.key → p.vc = 1 → s.dev.flt.fatal = false → s.dev.retry = [] → j.goal = .respond →
    ∃ d, exec (.parkedResume job) s = .next (ends d s) ∧ d.jobs = [] ∧ d.mem = s.dev.mem
      ∧ Answered s.dev d p 0x22 (if j.throttled then stOkThrottled else stOk) (memRead s.dev.mem x.addr x.len))
  ∧ (∀ k (s : State),
    (k < 16 → bitAt s.dev.power.asleep k = true → s.dev.power.mode ≠ 1 → ∃ d, exec (.clusterWake k) s = .next (ends d s)
      ∧ (∀ i, bitAt d.power.asleep i = (bitAt s.dev.power.asleep i && i != k)) ∧ d.power.wakes = (s.dev.power.wakes + 1) % 2 ^ 32
      ∧ d.mem = s.dev.mem)
    ∧ ((bitAt s.dev.power.asleep k = false ∨ s.dev.power.mode = 1) → exec (.clusterWake k) s = .next (ends s.dev s)))
  ∧ (∀ finished (s : State),
    ((s.dev.power.phase < 6 ∨ s.dev.power.on = false) → exec (.strokeBoundary finished) s = .next s)
    ∧ (6 ≤ s.dev.power.phase → s.dev.power.on = true → s.dev.flt.fatal = false → s.dev.crews = [] → s.dev.sessions = [] →
        s.dev.queues = [] → s.dev.jobs = [] → s.dev.items = [] → s.dev.longops = [] → s.dev.armed = [] → s.dev.moves = [] →
        s.dev.revokes = [] → s.dev.retry = [] → s.dev.sealedDone = [] → s.dev.indexes = [] → s.dev.regQueue = [] → s.dev.searches = [] →
        s.dev.pendingBuf = [] → s.dev.pair.state = 0 → s.dev.attest = [] →
        ∃ t, exec (.strokeBoundary finished) s = .next t ∧ t.dev.stk.number = s.dev.stk.number + 1
          ∧ t.dev.stk.tod = tickTod s.dev.stk ∧ t.nv = s.nv ∧ t.pending = s.pending))

/-- A step runs the command at the front of the queue; the idling is the model's choice (log entry 4). -/
def Obligations.StepRunsFront : Prop :=
  (∀ (c : Instr) (rest : List Instr) (s : State), step { s with pending := c :: rest } = exec c { s with pending := rest })
  ∧ ∀ s : State, s.pending = [] → step s = .next s

/-- The state after reset (R14, R440, Table 16-4); fields that start-up fills read zero (the model's choice, log entry 1). -/
def Obligations.ResetState : Prop :=
  let d := State.reset.dev
  State.reset.pending = [] ∧ d.pins.aux = false ∧ d.pins.powerEn = false ∧ d.pins.pwrGood = false ∧ d.power.on = false
  ∧ d.power.serving = false ∧ d.power.phase = 0 ∧ d.flt.fatal = false ∧ d.banks.owner = none ∧ d.mem = [] ∧ Memory.wf d.mem = true
  ∧ d.poison = [] ∧ d.scratch = [] ∧ d.crews = [] ∧ d.queues = [] ∧ d.sessions = [] ∧ d.regions = [] ∧ d.jobs = [] ∧ d.longops = []
  ∧ d.items = [] ∧ d.dir = [] ∧ d.agents = [] ∧ d.tables = [] ∧ d.indexes = [] ∧ d.profiles = [] ∧ d.keySlots = [] ∧ d.redirects = []
  ∧ (∀ p, (portOf d p).up = false) ∧ State.reset.snap.latched = none ∧ State.reset.snap.frozen = false
  ∧ (∀ off, regRaw d off = regReset off ∧ regInForce d off = regReset off)
  ∧ cfgField d 0x10028 7 0 = 64 ∧ cfgField d 0x10028 31 16 = 2048 ∧ cfgField d 0x60000 7 0 = 8 ∧ cfgField d 0x60008 7 0 = 8
  ∧ cfgField d 0x10020 15 0 = 0xFFFF

/-- The replay-protected counters never go back over a step (R96, R225, R338, R339, R351, R407), and the queue loses its front only. -/
def Obligations.ReplayProtectedCountersNeverGoBack : Prop :=
  ∀ (bound : Nv) (s t : State), step s = .next t → NvLe bound s.nv → NvLe bound t.nv ∧ t.pending = s.pending.tail
end

