-- ==== Sys2Proof/Laws/Tables.lean ====
section
/-! SUPPORT. Laws/Tables.lean: a keyed table reads back what was set, and every other key as before. -/

namespace Sys2Proof.Machine

variable {α : Type}

@[simp] theorem tGet?_nil (k : Nat) : tGet? ([] : Tbl α) k = none := rfl

/-- A key that was set reads as its new value. -/
@[simp] theorem tGet?_tSet_self (t : Tbl α) (k : Nat) (v : α) : tGet? (tSet t k v) k = some v := by
  induction t with
  | nil => simp [tSet, tGet?]
  | cons p t ih =>
    obtain ⟨a, w⟩ := p
    unfold tSet
    split
    · simp [tGet?]
    · split
      · simp [tGet?]
      · simp [tGet?, *]

/-- Every other key reads as before. -/
theorem tGet?_tSet_ne (t : Tbl α) {k x : Nat} (v : α) (h : x ≠ k) : tGet? (tSet t k v) x = tGet? t x := by
  induction t with
  | nil => simp [tSet, tGet?, h]
  | cons p t ih =>
    obtain ⟨a, w⟩ := p
    unfold tSet
    split
    · simp only [tGet?, h, if_false]
    · split
      · rename_i h1 h2
        subst h2
        simp [tGet?, h]
      · simp only [tGet?, ih]

/-- A table after a key was set, read at any key. -/
theorem tGet?_tSet (t : Tbl α) (k x : Nat) (v : α) : tGet? (tSet t k v) x = if x = k then some v else tGet? t x := by
  by_cases h : x = k
  · subst h
    simp
  · simp [h, tGet?_tSet_ne t v h]

/-- The value of a key that was set. -/
@[simp] theorem tGet_tSet_self [Inhabited α] (t : Tbl α) (k : Nat) (v : α) : tGet (tSet t k v) k = v := by simp [tGet]

/-- A table whose value at a key was changed, read at any key. -/
theorem tGet?_tMod (t : Tbl α) (k x : Nat) (f : α → α) : tGet? (tMod t k f) x = if x = k then (tGet? t x).map f else tGet? t x := by
  induction t with
  | nil => simp [tMod]
  | cons p t ih =>
    obtain ⟨a, v⟩ := p
    simp only [tMod, List.map_cons] at ih ⊢
    by_cases h : a = k
    · subst h
      simp only [if_true, tGet?, ih]
      split <;> simp
    · simp only [h, if_false, tGet?, ih]
      split
      · rename_i hx
        rw [if_neg (by omega)]
      · rfl

/-- A table from which keys were taken away reads, at the keys kept, as before. -/
theorem tGet?_filter (t : Tbl α) (f : Nat → Bool) (x : Nat) :
    tGet? (t.filter fun p => f p.1) x = if f x then tGet? t x else none := by
  induction t with
  | nil => simp
  | cons p t ih =>
    obtain ⟨a, v⟩ := p
    rw [List.filter_cons]
    by_cases h : x = a
    · subst h
      by_cases hf : f x = true <;> simp [hf, tGet?, ih]
    · by_cases hf : f a = true <;> simp [hf, tGet?, h, ih]

/-- A key taken away reads as absent. -/
@[simp] theorem tGet?_tDel_self (t : Tbl α) (k : Nat) : tGet? (tDel t k) k = none := by
  simp [tDel, tGet?_filter t (· != k)]

/-- Every other key of a table from which one was taken away reads as before. -/
theorem tGet?_tDel_ne (t : Tbl α) {k x : Nat} (h : x ≠ k) : tGet? (tDel t k) x = tGet? t x := by
  simp [tDel, tGet?_filter t (· != k), h]

end Sys2Proof.Machine
end

