-- ==== Sys2Proof/Laws/Small.lean ====
section
/-! SUPPORT. Laws/Small.lean: for the small shared operations, what each may change, once: the result is the argument with only the
named fields different. -/

namespace Sys2Proof.Machine

/-- A change-log record changes nothing but the log. -/
theorem logChange_eq (ok o ow k ob : Nat) (sec : Bool) (a b : List Byte) (d : Dev) :
    logChange ok o ow k ob sec a b d = { d with log := (logChange ok o ow k ob sec a b d).log } := rfl

/-- A command's change-log record changes nothing but the log. -/
theorem logCmd_eq (q : QCmd) (ow k ob a b : Nat) (d : Dev) :
    logCmd q ow k ob a b d = { d with log := (logCmd q ow k ob a b d).log } := by
  unfold logCmd
  split <;> rfl

/-- The device's own change-log record changes nothing but the log. -/
theorem logDev_eq (ow k ob a b : Nat) (d : Dev) : logDev ow k ob a b d = { d with log := (logDev ow k ob a b d).log } := by
  unfold logDev
  split <;> rfl

/-- A key drawn changes nothing but the key counter. -/
theorem drawKey_eq (s : State) : (drawKey s).2 = { s with nv := (drawKey s).2.nv } := rfl

/-- A key word bumped changes nothing but the key counter. -/
theorem bumpKey_eq (k : Nat) (s : State) : (bumpKey k s).2 = { s with nv := (bumpKey k s).2.nv } := by
  unfold bumpKey
  split <;> rfl

/-- A packet sent changes nothing but what has been released to the fabric. -/
theorem sendPkt_eq (p : OutPkt) (d : Dev) : sendPkt p d = { d with fabTx := (sendPkt p d).fabTx } := by
  unfold sendPkt
  split <;> rfl

/-- A frame sent changes nothing but what has been sent, or is held, on Ethernet. -/
theorem ethSend_eq (pcp : Nat) (e : EthOut) (d : Dev) :
    ethSend pcp e d = { d with ethTx := (ethSend pcp e d).ethTx, ethHeld := (ethSend pcp e d).ethHeld } := by
  unfold ethSend
  split <;> rfl

end Sys2Proof.Machine
end

