-- ==== Sys2Proof/Laws/Frames.lean ====
section
/-! SUPPORT. Laws/Frames.lean: what the shared operations may change, once. Each law says that a view of the device, which leaves out the
fields the operation may change, is the same after it. -/

namespace Sys2Proof.Machine

/-- The device without what the controller of Chapter 15 changes when a source is driven: its sources, its targets and their rings. -/
def Dev.offIcu (d : Dev) : Dev := { d with draws := 0, icu := [], tgts := [], serviceMem := [] }

/-- The device without what an access at this home may change: memory, poison, the directory, the pending buffer, the tier cache, the
counters and what leaves on the fabric. -/
def Dev.offHome (d : Dev) : Dev :=
  { d with
    draws := 0, nextId := 0, nextTag := 0, regs := [], mem := [], poison := [], dir := [], agents := [], snoops := [], pendingBuf := []
    pages := [], fills := [], counters := [], nvme := [], fabTx := [], pair := { d.pair with mseq := 0, waits := [] } }

/-- The device without what a completion may change: what an access may, and the sessions, queues, jobs and what leaves on Ethernet. -/
def Dev.offDone (d : Dev) : Dev :=
  { d.offHome with sessions := [], queues := [], jobs := [], ethTx := [], ethHeld := [], sealedDone := [] }

/-- The device without what a fault record may change: what a completion may, and the fault unit, the controller and the triggers. -/
def Dev.offFault (d : Dev) : Dev := { d.offDone with flt := {}, icu := [], tgts := [], serviceMem := [], trig := [] }

/-- The device without what the entry into the fatal state may change: what a fault record may, the change log, SNP's register in force
and what the side band raises. -/
def Dev.offFatal (d : Dev) : Dev := { d.offFault with log := {}, inForce := [], side := {} }

theorem Dev.offDone_of_offHome {d e : Dev} (h : e.offHome = d.offHome) : e.offDone = d.offDone := by
  unfold offDone
  rw [h]

theorem Dev.offFault_of_offDone {d e : Dev} (h : e.offDone = d.offDone) : e.offFault = d.offFault := by
  unfold offFault
  rw [h]

theorem Dev.offFatal_of_offFault {d e : Dev} (h : e.offFault = d.offFault) : e.offFatal = d.offFatal := by
  unfold offFatal
  rw [h]

theorem Dev.offFault_of_offIcu {d e : Dev} (h : e.offIcu = d.offIcu) : e.offFault = d.offFault := by
  have : e.offIcu.offFault = d.offIcu.offFault := by rw [h]
  exact this

/-! ### The controller -/

@[simp] theorem offIcu_setSrc (n : Nat) (x : Src) (d : Dev) : (setSrc n x d).offIcu = d.offIcu := rfl
@[simp] theorem offIcu_setTgt (t : Nat) (g : Tgt) (d : Dev) : (setTgt t g d).offIcu = d.offIcu := rfl
@[simp] theorem offIcu_takeSrc (n : Nat) (d : Dev) : (takeSrc n d).offIcu = d.offIcu := rfl
@[simp] theorem offIcu_drawNat (d : Dev) : (drawNat d).2.offIcu = d.offIcu := rfl

@[simp] theorem offIcu_ringPump (t k : Nat) (d : Dev) : (ringPump t k d).offIcu = d.offIcu := by
  induction k generalizing d with
  | zero => rfl
  | succ k ih =>
    unfold ringPump
    dsimp only
    split
    · rfl
    · split
      · rfl
      · rw [ih]; rfl

@[simp] theorem offIcu_pumpFor (n : Nat) (d : Dev) : (pumpFor n d).offIcu = d.offIcu := offIcu_ringPump ..

@[simp] theorem offIcu_pulse (n : Nat) (d : Dev) : (pulse n d).offIcu = d.offIcu := by
  unfold pulse
  split
  · rfl
  · exact offIcu_pumpFor ..

@[simp] theorem offIcu_setWire (n : Nat) (b : Bool) (d : Dev) : (setWire n b d).offIcu = d.offIcu := by
  unfold setWire
  split
  · rfl
  · exact offIcu_pumpFor ..

/-! ### The home of a line -/

@[simp] theorem offHome_sendPkt (p : OutPkt) (d : Dev) : (sendPkt p d).offHome = d.offHome := by
  unfold sendPkt
  split <;> rfl

@[simp] theorem offHome_setReg (o v : Nat) (d : Dev) : (setReg o v d).offHome = d.offHome := rfl
@[simp] theorem offHome_bumpReg (o h l n : Nat) (d : Dev) : (bumpReg o h l n d).offHome = d.offHome := rfl
@[simp] theorem offHome_setDir (l : Nat) (e : DirEntry) (d : Dev) : (setDir l e d).offHome = d.offHome := rfl
@[simp] theorem offHome_setLine (l : Nat) (b : List Byte) (d : Dev) : (setLine l b d).offHome = d.offHome := by
  unfold setLine Dev.offHome
  rfl
@[simp] theorem offHome_poisonLine (l : Nat) (d : Dev) : (poisonLine l d).offHome = d.offHome := rfl
@[simp] theorem offHome_unpoison (l : Nat) (d : Dev) : (unpoison l d).offHome = d.offHome := rfl

@[simp] theorem offHome_countAccess (a : Nat) (d : Dev) : (countAccess a d).offHome = d.offHome := by
  unfold countAccess
  split <;> (try split) <;> rfl

@[simp] theorem offHome_sendSnoop (l g : Nat) (b : Bool) (d : Dev) (a : Nat) : (sendSnoop l g b d a).offHome = d.offHome := by
  unfold sendSnoop
  rw [offHome_sendPkt]
  rfl

theorem offHome_foldl {α : Type} (f : Dev → α → Dev) (h : ∀ d a, (f d a).offHome = d.offHome) (l : List α) (d : Dev) :
    (l.foldl f d).offHome = d.offHome := by
  induction l generalizing d with
  | nil => rfl
  | cons a l ih => rw [List.foldl_cons, ih, h]

@[simp] theorem offHome_sweepLine (l : Nat) (d : Dev) : (sweepLine l d).offHome = d.offHome := by
  unfold sweepLine
  split
  · rfl
  · dsimp only
    split
    · rfl
    · split
      · split <;> rfl
      · rfl

@[simp] theorem offHome_stayCoarse (l : Nat) (d : Dev) : (stayCoarse l d).offHome = d.offHome := by
  unfold stayCoarse
  dsimp only
  split <;> rfl

@[simp] theorem offHome_startSnoops (l st : Nat) (b : Bool) (ts : List Nat) (d : Dev) (k : List Nat) :
    (startSnoops l st b ts d k).offHome = d.offHome := by
  unfold startSnoops
  dsimp only
  split
  · split <;> simp
  · rw [offHome_foldl _ (fun d a => offHome_sendSnoop ..)]
    simp

@[simp] theorem offHome_startFill (p : Nat) (b : Bool) (d : Dev) : (startFill p b d).offHome = d.offHome := by
  unfold startFill issueNvme dropPage
  dsimp only
  split
  · rfl
  · split
    · rfl
    · split
      · split <;> rfl
      · rfl

@[simp] theorem offHome_touchPage (p : Nat) (d : Dev) : (touchPage p d).offHome = d.offHome := rfl

@[simp] theorem offHome_sendMirror (a k : Nat) (w : Nat × Nat × Nat) (b : Bool) (l o : List Byte) (d : Dev) :
    (sendMirror a k w b l o d).offHome = d.offHome := by
  unfold sendMirror
  dsimp only
  rw [offHome_sendPkt]
  rfl

theorem offHome_ite {c : Prop} [Decidable c] {x y z : Dev} (hx : x.offHome = z.offHome) (hy : y.offHome = z.offHome) :
    (if c then x else y).offHome = z.offHome := by
  split <;> assumption

theorem offHome_snd_ite {c : Prop} [Decidable c] {x y : Part × Dev} {z : Dev} (hx : x.2.offHome = z.offHome)
    (hy : y.2.offHome = z.offHome) : (if c then x else y).2.offHome = z.offHome := by
  split <;> assumption

/-- A device whose mirror queue is replaced. -/
theorem offHome_waits (w : List MirrorWait) (d : Dev) : Dev.offHome { d with pair := { d.pair with waits := w } } = d.offHome := rfl

@[simp] theorem offHome_performPart (j : Nat) (o : Owner) (b : Bool) (p : Part) (d : Dev) :
    (performPart j o b p d).2.offHome = d.offHome := by
  have key (e : Dev) (he : e.offHome = d.offHome) (n : Nat) (l : List MirrorWait) (k : Nat) (a : Nat) (w : Nat × Nat × Nat)
      (x y : List Byte) : Dev.offHome (if p.poisoned then poisonLine n
        { sendMirror a k w b x y e with pair := { (sendMirror a k w b x y e).pair with waits := l } }
      else if p.whole then unpoison n
        { sendMirror a k w b x y e with pair := { (sendMirror a k w b x y e).pair with waits := l } }
      else { sendMirror a k w b x y e with pair := { (sendMirror a k w b x y e).pair with waits := l } }) = d.offHome := by
    refine offHome_ite ?_ (offHome_ite ?_ ?_) <;>
    first
      | rw [offHome_poisonLine, offHome_waits, offHome_sendMirror, he]
      | rw [offHome_unpoison, offHome_waits, offHome_sendMirror, he]
      | rw [offHome_waits, offHome_sendMirror, he]
  have key2 (e : Dev) (he : e.offHome = d.offHome) (n : Nat) (l : List Byte) :
      Dev.offHome (if p.poisoned then poisonLine n (setLine n l e) else if p.whole then unpoison n (setLine n l e)
        else setLine n l e) = d.offHome := by
    refine offHome_ite ?_ (offHome_ite ?_ ?_) <;> simp only [offHome_poisonLine, offHome_unpoison, offHome_setLine, he]
  have hc : (match o with
    | .device => d
    | _ => countAccess p.addr d).offHome = d.offHome := by cases o <;> simp
  unfold performPart
  dsimp only
  refine offHome_snd_ite hc ?_
  cases p.act <;> dsimp only
  · refine offHome_snd_ite hc ?_
    split <;> exact hc
  all_goals
    refine offHome_snd_ite hc (offHome_snd_ite (offHome_snd_ite hc (key _ hc ..)) (key2 _ (offHome_ite ?_ hc) ..))
    exact (offHome_sendMirror ..).trans hc

@[simp] theorem offHome_waitLine (j l : Nat) (d : Dev) : (waitLine j l d).offHome = d.offHome := by
  unfold waitLine
  split
  · rfl
  · split <;> rfl

@[simp] theorem offHome_leaveLine (j l : Nat) (d : Dev) : (leaveLine j l d).offHome = d.offHome := rfl

@[simp] theorem offHome_dirCheck (j : Nat) (p : Part) (d : Dev) : (dirCheck j p d).2.offHome = d.offHome := by
  unfold dirCheck
  dsimp only
  split
  · simp
  · split
    · simp
    · split
      · split <;> simp
      · split
        · split <;> simp
        · simp

@[simp] theorem offHome_keyCheck (p : Part) (d : Dev) : (keyCheck p d).2.offHome = d.offHome := by
  unfold keyCheck
  dsimp only
  split
  · rfl
  · split
    · split
      · rfl
      · split
        · rfl
        · split <;> rfl
    · split
      · rfl
      · split
        · rfl
        · split
          · rfl
          · split <;> rfl

@[simp] theorem offHome_homeTry (j : Nat) (o : Owner) (b : Bool) (p : Part) (d : Dev) :
    (homeTry j o b p d).2.offHome = d.offHome := by
  unfold homeTry
  have hk : (if p.admitted then ((none : Option Nat), d) else keyCheck p d).2.offHome = d.offHome := by
    split
    · rfl
    · simp
  generalize (if p.admitted then ((none : Option Nat), d) else keyCheck p d) = x at hk ⊢
  obtain ⟨r, e⟩ := x
  dsimp only at hk ⊢
  rw [← hk]
  cases r with
  | some st => rfl
  | none =>
    dsimp only
    split
    · rfl
    · split
      · rfl
      · split
        · rfl
        · split
          · rfl
          · split
            · rfl
            · split
              · rfl
              · split
                · split <;> simp
                · split
                  · simp
                  · split
                    · rename_i h
                      have := offHome_dirCheck j { p with admitted := true } e
                      rw [h] at this
                      simpa using this
                    · rename_i h
                      have := offHome_dirCheck j { p with admitted := true } e
                      rw [h] at this
                      simpa using this

/-! ### Jobs and completions -/

@[simp] theorem offHome_sendPart (o : Owner) (r t g : Nat) (p : Part) (d : Dev) : (sendPart o r t g p d).offHome = d.offHome := by
  unfold sendPart
  dsimp only
  exact offHome_sendPkt ..

@[simp] theorem offHome_remoteTry (o : Owner) (r : Nat) (p : Part) (d : Dev) : (remoteTry o r p d).2.offHome = d.offHome := by
  unfold remoteTry
  dsimp only
  rw [offHome_sendPart]
  rfl

@[simp] theorem offHome_tryParts (j : Nat) (o : Owner) (r n k : Nat) (ps : List Part) (d : Dev) :
    (tryParts j o r n k ps d).2.offHome = d.offHome := by
  induction ps generalizing k d with
  | nil => rfl
  | cons p ps ih =>
    unfold tryParts
    dsimp only
    rw [ih]
    split
    · split <;> simp
    · rfl

@[simp] theorem offDone_setSess (i : Nat) (x : Session) (d : Dev) : (setSess i x d).offDone = d.offDone := rfl
@[simp] theorem offDone_setQueue (i : Nat) (x : Queue) (d : Dev) : (setQueue i x d).offDone = d.offDone := rfl
@[simp] theorem offDone_setJob (i : Nat) (x : Job) (d : Dev) : (setJob i x d).offDone = d.offDone := rfl
@[simp] theorem offDone_freshId (d : Dev) : (freshId d).2.offDone = d.offDone := rfl
@[simp] theorem offDone_drawNat (d : Dev) : (drawNat d).2.offDone = d.offDone := rfl

@[simp] theorem offDone_deviceWrite (a k : Nat) (b : List Byte) (d : Dev) : (deviceWrite a k b d).offDone = d.offDone := by
  unfold deviceWrite
  dsimp only
  have h (j : Nat) (r n : Nat) (ps : List Part) : (tryParts j .device r n 0 ps (freshId d).2).2.offDone = d.offDone :=
    Dev.offDone_of_offHome (offHome_tryParts ..)
  split
  · exact h ..
  · rw [offDone_setJob]; exact h ..

@[simp] theorem offHome_deviceRead (a n k : Nat) (d : Dev) : (deviceRead a n k d).2.offHome = d.offHome := offHome_tryParts ..

@[simp] theorem offDone_ethSend (p : Nat) (e : EthOut) (d : Dev) : (ethSend p e d).offDone = d.offDone := by
  unfold ethSend
  split <;> rfl

@[simp] theorem offDone_emitRecord (i : Nat) (a b : Bool) (l : List Byte) (d : Dev) : (emitRecord i a b l d).offDone = d.offDone := by
  unfold emitRecord
  dsimp only
  rw [offDone_ethSend]
  rfl

@[simp] theorem offDone_emitSplit (i k : Nat) (a : Bool) (l : List Byte) (d : Dev) : (emitSplit i k a l d).offDone = d.offDone := by
  induction k generalizing a l d with
  | zero => rfl
  | succ k ih =>
    unfold emitSplit
    dsimp only
    split <;> simp [ih]

@[simp] theorem offDone_flushWaiting (i k : Nat) (d : Dev) : (flushWaiting i k d).offDone = d.offDone := by
  induction k generalizing d with
  | zero => rfl
  | succ k ih =>
    unfold flushWaiting
    dsimp only
    split
    · rfl
    · split
      · rfl
      · simp [ih]

@[simp] theorem offDone_sessionSend (i : Nat) (l : List Byte) (d : Dev) : (sessionSend i l d).offDone = d.offDone := by
  unfold sessionSend
  dsimp only
  split <;> simp

@[simp] theorem offDone_writeCq (n : Nat) (c : Completion) (d : Dev) : (writeCq n c d).offDone = d.offDone := by
  unfold writeCq
  simp

@[simp] theorem offDone_postRing (n : Nat) (c : Completion) (d : Dev) : (postRing n c d).offDone = d.offDone := by
  unfold postRing
  dsimp only
  split
  · rfl
  · split <;> simp

@[simp] theorem offDone_engineLoad (n : Nat) (d : Dev) : (engineLoad n d).2.offDone = d.offDone := by
  unfold engineLoad
  split <;> rfl

@[simp] theorem offDone_unreserve (q : QCmd) (d : Dev) : (unreserve q d).offDone = d.offDone := by
  unfold unreserve
  split <;> rfl

@[simp] theorem offDone_makeCompletion (q : QCmd) (st : Nat) (w : List Nat) (b : List Byte) (d : Dev) :
    (makeCompletion q st w b d).2.offDone = d.offDone := by
  unfold makeCompletion
  dsimp only
  split
  · exact offDone_engineLoad ..
  · rw [offDone_drawNat]; exact offDone_engineLoad ..

@[simp] theorem offDone_release (q : QCmd) (st : Nat) (w : List Nat) (b : List Byte) (d : Dev) :
    (release q st w b d).offDone = d.offDone := by
  unfold release
  have h := offDone_makeCompletion q st w b (unreserve q d)
  generalize makeCompletion q st w b (unreserve q d) = x at h ⊢
  obtain ⟨c, e⟩ := x
  rw [offDone_unreserve] at h
  dsimp only at h ⊢
  split
  · simpa using h
  · split
    · split <;> simpa using h
    · split <;> simpa using h

/-- A completion changes only what `Dev.offDone` leaves out: what an access may change, the sessions, the queues, the device's own jobs
and what has been sent. -/
@[simp] theorem offDone_complete (q : QCmd) (st : Nat) (w : List Nat) (b : List Byte) (d : Dev) :
    (complete q st w b d).offDone = d.offDone := by
  unfold complete
  split
  · rfl
  · simp

@[simp] theorem offDone_completeSt (q : QCmd) (st : Nat) (d : Dev) : (completeSt q st d).offDone = d.offDone := offDone_complete ..

@[simp] theorem offDone_deviceCompletion (n st : Nat) (w : List Nat) (d : Dev) : (deviceCompletion n st w d).offDone = d.offDone := by
  unfold deviceCompletion
  dsimp only
  split
  · rfl
  · split
    · split <;> simp
    · simp

/-! ### Fault records -/

@[simp] theorem offFault_pinPulse (c : Nat) (d : Dev) : (pinPulse c d).offFault = d.offFault := by
  unfold pinPulse
  split <;> rfl

@[simp] theorem offFault_deviceRing (r : FaultRec) (d : Dev) : (deviceRing r d).offFault = d.offFault := by
  unfold deviceRing
  dsimp only
  split
  · rfl
  · split <;> rfl

@[simp] theorem offFault_ucNotice (c : Nat) (r : FaultRec) (d : Dev) : (ucNotice c r d).offFault = d.offFault := by
  unfold ucNotice
  dsimp only
  split
  · rfl
  · exact Dev.offFault_of_offDone (offDone_deviceCompletion ..)

@[simp] theorem offFault_crewFault (c : Nat) (r : FaultRec) (d : Dev) : (crewFault c r d).offFault = d.offFault := by
  unfold crewFault
  dsimp only
  rw [offFault_ucNotice]
  rfl

@[simp] theorem offFault_pulse (n : Nat) (d : Dev) : (pulse n d).offFault = d.offFault := Dev.offFault_of_offIcu (offIcu_pulse ..)

/-- A fault record changes only what `Dev.offFault` leaves out: what a completion may change, the fault unit, the controller's sources
and the snapshot triggers of the step. -/
@[simp] theorem offFault_recordFault (r : FaultRec) (o : Option Nat) (d : Dev) : (recordFault r o d).offFault = d.offFault := by
  have hi (x y : Dev) (c : Prop) [Decidable c] (hx : x.offFault = d.offFault) (hy : y.offFault = d.offFault) :
      (if c then x else y).offFault = d.offFault := by
    split <;> assumption
  have hk (x : Dev) (l : List Nat) : Dev.offFault { x with trig := l } = x.offFault := rfl
  have hf (x : Dev) (f : Flt) : Dev.offFault { x with flt := f } = x.offFault := rfl
  unfold recordFault
  lift_lets
  intro r1
  have hs : (stampFault r1 d).2.offFault = d.offFault := rfl
  generalize stampFault r1 d = x at hs ⊢
  obtain ⟨r2, e⟩ := x
  dsimp -zeta only at hs ⊢
  lift_lets
  intro e1
  have hd : e1.offFault = d.offFault := (offFault_deviceRing ..).trans hs
  clear_value e1
  intro f e2
  have hm : e2.offFault = d.offFault := by
    unfold e2
    split
    · exact (offFault_crewFault ..).trans hd
    · exact hd
    · exact hd
  clear_value e2
  intro f1 e3
  have h3 : e3.offFault = d.offFault := hi _ _ _ ((hf _ _).trans hm) (hi _ _ _ ((hf _ _).trans hm) hm)
  clear_value e3
  have h4 : (pinPulse r2.cls (pulse (8 * 32 + 7 + r2.cls) (pulse (9 * 32 + 7 + r2.cls) e3))).offFault = d.offFault := by
    rw [offFault_pinPulse, offFault_pulse, offFault_pulse, h3]
  exact hi _ _ _ ((hk _ _).trans h4) h4

@[simp] theorem offFault_faultCE (s u x : Nat) (d : Dev) : (faultCE s u x d).offFault = d.offFault := offFault_recordFault ..

/-! ### The fatal state -/

@[simp] theorem offFatal_closeSession (i : Nat) (d : Dev) : (closeSession i d).offFatal = d.offFatal := by
  unfold closeSession
  dsimp only
  split
  · rw [logDev_eq]
    rfl
  · rfl

@[simp] theorem offFatal_raiseIbi (b : Nat) (d : Dev) : (raiseIbi b d).offFatal = d.offFatal := by
  unfold raiseIbi
  split <;> rfl

theorem offFatal_closeAll (l : List (Nat × Session)) (d : Dev) :
    (l.foldl (fun d s => if s.2.management then d else closeSession s.1 d) d).offFatal = d.offFatal := by
  induction l generalizing d with
  | nil => rfl
  | cons a l ih =>
    rw [List.foldl_cons, ih]
    split
    · rfl
    · simp

/-- Entering the fatal state changes only what `Dev.offFatal` leaves out. -/
@[simp] theorem offFatal_enterFatal (n : Nat) (d : Dev) : (enterFatal n d).offFatal = d.offFatal := by
  have hk (x : Dev) (l : List Nat) : Dev.offFatal { x with trig := l } = x.offFatal := rfl
  unfold enterFatal
  split
  · rfl
  · lift_lets
    intro e1
    have h1 : e1.offFatal = d.offFatal := by
      unfold e1
      split
      · exact Dev.offFatal_of_offFault (Dev.offFault_of_offDone (Dev.offDone_of_offHome (offHome_sendPkt ..)))
      · rfl
    clear_value e1
    intro f1 e2
    have h2 : e2.offFatal = d.offFatal := h1
    clear_value e2
    intro e3
    have h3 : e3.offFatal = d.offFatal := (offFatal_closeAll _ _).trans h2
    clear_value e3
    intro e4
    have h4 : e4.offFatal = d.offFatal := (Dev.offFatal_of_offFault (offFault_recordFault ..)).trans h3
    clear_value e4
    intro l f2 e5
    have h5 : e5.offFatal = d.offFatal := h4
    clear_value e5
    intro s e6
    have h6 : e6.offFatal = d.offFatal := h5
    clear_value e6
    refine (offFatal_raiseIbi ..).trans ?_
    split
    · exact (hk _ _).trans h6
    · exact h6

/-- A message to the partner changes nothing but the fabric. -/
@[simp] theorem offHome_sendPair (k : Nat) (b : List Byte) (d : Dev) : (sendPair k b d).offHome = d.offHome := offHome_sendPkt ..

end Sys2Proof.Machine
end

