-- ==== Sys2Proof/Laws/Memory.lean ====
section
/-! SUPPORT. Laws/Memory.lean: read after write, and the canonical form that every memory operation keeps. -/

namespace Sys2Proof.Machine

/-- Every listed address is at or above a bound. -/
def Memory.above (a : Nat) (m : List Host.Cell) : Prop := ∀ c ∈ m, a ≤ c.1

theorem Memory.wf_cons {a : Nat} {b : Byte} {m : List Host.Cell} :
    Memory.wf ((a, b) :: m) = true ↔ b ≠ 0 ∧ Memory.above (a + 1) m ∧ Memory.wf m = true := by
  induction m generalizing a b with
  | nil => simp [Memory.wf, Memory.above]
  | cons c m ih =>
    obtain ⟨a', b'⟩ := c
    have h := @ih a' b'
    simp only [Memory.wf, Bool.and_eq_true, bne_iff_ne, decide_eq_true_eq, h, Memory.above, List.mem_cons, forall_eq_or_imp]
    constructor
    · rintro ⟨⟨h1, h2⟩, h3, h4, h5⟩
      exact ⟨h1, ⟨h2, fun c hc => by have := h4 c hc; omega⟩, h3, h4, h5⟩
    · rintro ⟨h1, ⟨h2, -⟩, h3⟩
      exact ⟨⟨h1, h2⟩, h3⟩

/-- A byte below every listed address reads as zero. -/
theorem memByte_above {m : List Host.Cell} {a x : Nat} (h : Memory.above a m) (hx : x < a) : memByte m x = 0 := by
  cases m with
  | nil => rfl
  | cons c m =>
    have := h c (by simp)
    simp only [memByte]
    rw [if_neg (by omega), if_pos (by omega)]

/-- A byte read after it was written. -/
theorem memByte_memPut_self (m : List Host.Cell) (h : Memory.wf m = true) (x : Nat) (v : Byte) : memByte (memPut m x v) x = v := by
  induction m with
  | nil => by_cases hv : v = 0#8 <;> simp [memPut, memByte, hv]
  | cons c m ih =>
    obtain ⟨a, b⟩ := c
    obtain ⟨-, h2, h3⟩ := Memory.wf_cons.mp h
    unfold memPut
    by_cases h1 : x < a
    · by_cases hv : v = 0#8
      · simp [h1, hv, memByte, Nat.ne_of_lt h1]
      · simp [h1, hv, memByte]
    · by_cases h4 : x = a
      · subst h4
        by_cases hv : v = 0#8
        · simp [hv, memByte_above h2 (Nat.lt_succ_self x)]
        · simp [hv, memByte]
      · simp [h1, h4, memByte, ih h3]

/-- Writing one byte leaves every other as it was. -/
theorem memByte_memPut_ne (m : List Host.Cell) (h : Memory.wf m = true) {x y : Nat} (v : Byte) (hy : y ≠ x) :
    memByte (memPut m x v) y = memByte m y := by
  induction m with
  | nil =>
    by_cases hv : v = 0#8
    · simp [memPut, hv]
    · simp [memPut, memByte, hv, hy]
  | cons c m ih =>
    obtain ⟨a, b⟩ := c
    obtain ⟨-, h2, h3⟩ := Memory.wf_cons.mp h
    unfold memPut
    by_cases h1 : x < a
    · by_cases hv : v = 0#8
      · simp [h1, hv]
      · by_cases h5 : y < x
        · have h6 : y ≠ a := by omega
          have h7 : y < a := by omega
          simp [h1, hv, memByte, hy, h5, h6, h7]
        · simp [h1, hv, memByte, hy, h5]
    · by_cases h4 : x = a
      · subst h4
        by_cases hv : v = 0#8
        · by_cases h5 : y < x
          · simp [hv, memByte, hy, h5, memByte_above h2 (Nat.lt_succ_of_lt h5)]
          · simp [hv, memByte, hy, h5]
        · simp [hv, memByte, hy]
      · simp only [h1, h4, if_false, memByte, ih h3]

theorem memPut_above {m : List Host.Cell} {a x : Nat} (v : Byte) (h : Memory.above a m) (hx : a ≤ x) : Memory.above a (memPut m x v) := by
  induction m with
  | nil =>
    by_cases hv : v = 0#8 <;> simp [memPut, hv, Memory.above, hx]
  | cons c m ih =>
    obtain ⟨k, b⟩ := c
    have hk : a ≤ k := h (k, b) (by simp)
    have hm : Memory.above a m := fun c hc => h c (by simp [hc])
    unfold memPut
    split
    · split
      · exact h
      · intro c hc
        rcases List.mem_cons.mp hc with rfl | hc
        · exact hx
        · exact h c hc
    · split
      · split
        · exact hm
        · intro c hc
          rcases List.mem_cons.mp hc with rfl | hc
          · exact hx
          · exact hm c hc
      · intro c hc
        rcases List.mem_cons.mp hc with rfl | hc
        · exact hk
        · exact ih hm c hc

/-- Writing one byte keeps the canonical form. -/
theorem memPut_wf (m : List Host.Cell) (x : Nat) (v : Byte) (h : Memory.wf m = true) : Memory.wf (memPut m x v) = true := by
  induction m with
  | nil => by_cases hv : v = 0#8 <;> simp [memPut, hv, Memory.wf]
  | cons c m ih =>
    obtain ⟨a, b⟩ := c
    obtain ⟨h1, h2, h3⟩ := Memory.wf_cons.mp h
    unfold memPut
    split
    · rename_i hx
      split
      · exact h
      · rename_i hv
        refine Memory.wf_cons.mpr ⟨hv, ?_, h⟩
        intro c hc
        rcases List.mem_cons.mp hc with rfl | hc
        · exact hx
        · have := h2 c hc
          omega
    · split
      · rename_i hx hxa
        subst hxa
        split
        · exact h3
        · rename_i hv
          exact Memory.wf_cons.mpr ⟨hv, h2, h3⟩
      · exact Memory.wf_cons.mpr ⟨h1, memPut_above v h2 (by omega), ih h3⟩

/-- Writing bytes keeps the canonical form. -/
theorem memWrite_wf (l : List Byte) : ∀ (m : List Host.Cell) (a : Nat), Memory.wf m = true → Memory.wf (memWrite m a l) = true := by
  induction l with
  | nil => intro m a h; exact h
  | cons b l ih => intro m a h; exact ih _ _ (memPut_wf m a b h)

/-- A memory of which some cells are left out keeps the canonical form. -/
theorem memFilter_wf (p : Host.Cell → Bool) (m : List Host.Cell) (h : Memory.wf m = true) : Memory.wf (m.filter p) = true := by
  induction m with
  | nil => rfl
  | cons c m ih =>
    obtain ⟨a, b⟩ := c
    obtain ⟨h1, h2, h3⟩ := Memory.wf_cons.mp h
    by_cases hp : p (a, b) = true
    · rw [List.filter_cons_of_pos hp]
      exact Memory.wf_cons.mpr ⟨h1, fun c hc => h2 c (List.mem_of_mem_filter hc), ih h3⟩
    · rw [List.filter_cons_of_neg hp]
      exact ih h3

/-- Clearing a range keeps the canonical form. -/
theorem memClear_wf (m : List Host.Cell) (a n : Nat) (h : Memory.wf m = true) : Memory.wf (memClear m a n) = true :=
  memFilter_wf _ m h

/-- Copying a range keeps the canonical form. -/
theorem memCopy_wf (m : List Host.Cell) (src dst n : Nat) (h : Memory.wf m = true) : Memory.wf (memCopy m src dst n) = true := by
  unfold memCopy
  generalize m.filter _ = l
  have h' := memClear_wf m dst n h
  generalize memClear m dst n = m' at h'
  induction l generalizing m' with
  | nil => exact h'
  | cons c l ih => exact ih _ (memPut_wf _ _ _ h')

/-- Every byte of a cleared range reads as zero. -/
theorem memByte_memClear_in (m : List Host.Cell) {a n x : Nat} (h1 : a ≤ x) (h2 : x < a + n) : memByte (memClear m a n) x = 0 := by
  induction m with
  | nil => rfl
  | cons c m ih =>
    obtain ⟨k, b⟩ := c
    unfold memClear at *
    rw [List.filter_cons]
    split
    · rename_i h
      simp only [Bool.or_eq_true, decide_eq_true_eq] at h
      simp only [memByte]
      rw [if_neg (by omega), ih]
      simp
    · exact ih

/-- Every byte outside a cleared range reads as before. -/
theorem memByte_memClear_out (m : List Host.Cell) (hm : Memory.wf m = true) {a n x : Nat} (h : x < a ∨ a + n ≤ x) :
    memByte (memClear m a n) x = memByte m x := by
  induction m with
  | nil => rfl
  | cons c m ih =>
    obtain ⟨k, b⟩ := c
    obtain ⟨-, h2, h3⟩ := Memory.wf_cons.mp hm
    have ih := ih h3
    unfold memClear at *
    rw [List.filter_cons]
    split
    · simp only [memByte, ih]
    · rename_i hh
      simp only [Bool.or_eq_true, decide_eq_true_eq, not_or, not_lt, not_le] at hh
      rw [ih]
      simp only [memByte]
      rw [if_neg (by omega)]
      split
      · rw [memByte_above h2 (by omega)]
      · rfl

/-- A byte outside the bytes written reads as before. -/
theorem memByte_memWrite_ne (l : List Byte) : ∀ (m : List Host.Cell) (a y : Nat), Memory.wf m = true →
    (y < a ∨ a + l.length ≤ y) → memByte (memWrite m a l) y = memByte m y := by
  induction l with
  | nil => intro m a y _ _; rfl
  | cons b l ih =>
    intro m a y h hy
    simp only [List.length_cons] at hy
    rw [memWrite, ih _ _ _ (memPut_wf m a b h) (by omega), memByte_memPut_ne m h b (by omega)]

/-- The bytes written read back. -/
theorem memByte_memWrite (l : List Byte) : ∀ (m : List Host.Cell) (a i : Nat), Memory.wf m = true → (hi : i < l.length) →
    memByte (memWrite m a l) (a + i) = l[i] := by
  induction l with
  | nil => intro m a i _ hi; simp at hi
  | cons b l ih =>
    intro m a i h hi
    cases i with
    | zero =>
      rw [memWrite, memByte_memWrite_ne l _ _ _ (memPut_wf m a b h) (by omega)]
      simpa using memByte_memPut_self m h a b
    | succ i =>
      have h1 := ih (memPut m a b) (a + 1) i (memPut_wf m a b h) (by simpa using hi)
      rw [memWrite, show a + (i + 1) = a + 1 + i by omega, h1]
      simp

/-- A memory laid out by a run of listed cells, each moved from src to dst. -/
theorem memByte_moved (src dst n : Nat) (l : List Host.Cell) : ∀ (m : List Host.Cell), Memory.wf m = true → Memory.wf l = true →
    (∀ c ∈ l, src ≤ c.1 ∧ c.1 < src + n) → ∀ x,
    memByte (l.foldl (fun m c => memPut m (dst + (c.1 - src)) c.2) m) x
      = if dst ≤ x ∧ x < dst + n ∧ memByte l (src + (x - dst)) ≠ 0 then memByte l (src + (x - dst)) else memByte m x := by
  induction l with
  | nil => intro m _ _ _ x; simp [memByte]
  | cons c l ih =>
    obtain ⟨a, b⟩ := c
    intro m hm hl hr x
    obtain ⟨h1, h2, h3⟩ := Memory.wf_cons.mp hl
    have ha := hr (a, b) (by simp)
    rw [List.foldl_cons, ih _ (memPut_wf _ _ _ hm) h3 (fun c hc => hr c (by simp [hc]))]
    by_cases hx : x = dst + (a - src)
    · have e : src + (x - dst) = a := by omega
      have h5 : memByte l a = 0 := memByte_above h2 (Nat.lt_succ_self a)
      have h6 : memByte ((a, b) :: l) a = b := by simp [memByte]
      rw [e, h5, h6, if_neg (by simp), if_pos ⟨by omega, by omega, h1⟩, hx]
      exact memByte_memPut_self _ hm _ _
    · rw [memByte_memPut_ne _ hm _ hx]
      by_cases h7 : dst ≤ x ∧ x < dst + n
      · have h8 : src + (x - dst) ≠ a := by omega
        have h9 : memByte ((a, b) :: l) (src + (x - dst)) = memByte l (src + (x - dst)) := by
          simp only [memByte, h8, if_false]
          split
          · exact (memByte_above h2 (by omega)).symm
          · rfl
        rw [h9]
      · rw [if_neg (fun h => h7 ⟨h.1, h.2.1⟩), if_neg (fun h => h7 ⟨h.1, h.2.1⟩)]

/-- A byte of a memory of which only some cells are kept. -/
theorem memByte_filter (p : Host.Cell → Bool) (m : List Host.Cell) (hm : Memory.wf m = true) (x : Nat)
    (hp : ∀ b, p (x, b) = true) : memByte (m.filter p) x = memByte m x := by
  induction m with
  | nil => rfl
  | cons c m ih =>
    obtain ⟨k, b⟩ := c
    obtain ⟨-, h2, h3⟩ := Memory.wf_cons.mp hm
    rw [List.filter_cons]
    split
    · simp only [memByte, ih h3]
    · rename_i hh
      rw [ih h3]
      simp only [memByte]
      rw [if_neg (by rintro rfl; exact hh (hp b))]
      split
      · exact memByte_above h2 (by omega)
      · rfl

/-- A range copied: the destination reads as the source did, and every other byte as before. -/
theorem memByte_memCopy (m : List Host.Cell) (hm : Memory.wf m = true) (src dst n x : Nat) :
    memByte (memCopy m src dst n) x = if dst ≤ x ∧ x < dst + n then memByte m (src + (x - dst)) else memByte m x := by
  unfold memCopy
  rw [memByte_moved src dst n _ _ (memClear_wf m dst n hm) (memFilter_wf _ m hm) (by
    intro c hc
    simpa using (List.mem_filter.mp hc).2)]
  by_cases h : dst ≤ x ∧ x < dst + n
  · have e : memByte (m.filter fun c => decide (src ≤ c.1) && decide (c.1 < src + n)) (src + (x - dst)) = memByte m (src + (x - dst)) :=
      memByte_filter _ m hm _ (by intro b; simp; omega)
    rw [e, if_pos h]
    split
    · rfl
    · rename_i h1
      rw [memByte_memClear_in _ h.1 h.2]
      by_contra h2
      exact h1 ⟨h.1, h.2, fun h3 => h2 h3.symm⟩
  · rw [if_neg (fun h1 => h ⟨h1.1, h1.2.1⟩), if_neg h, memByte_memClear_out _ hm (by omega)]

/-- The bytes written read back as one run. -/
theorem memRead_memWrite (m : List Host.Cell) (a : Nat) (l : List Byte) (h : Memory.wf m = true) :
    memRead (memWrite m a l) a l.length = l := by
  apply List.ext_getElem
  · simp [memRead]
  · intro i h1 h2
    simp [memRead, memByte_memWrite l m a i h h2]

end Sys2Proof.Machine
end

