-- ==== Sys2Proof/Laws/Rows.lean ====
section
/-! SUPPORT. Laws/Rows.lean: what a command row does, once: where its effect begins, its body runs. -/

namespace Sys2Proof

open Machine

/-- Where a command's effect begins, its row runs its body on the command and the state so reached. -/
theorem runRow_begins {op : Nat} {c : Cmd} {s : State} {q : QCmd} {t : State} (body : QCmd → State → State)
    (h : begins op c s = some (q, t)) : runRow op c body s = settle (body q t) := by
  unfold begins at h
  unfold runRow
  congr 1
  generalize reachable s.dev c = r at h ⊢
  generalize discarded s.dev c = e at h ⊢
  generalize arrive op c 0 s.dev = a at h ⊢
  obtain ⟨q1, d1⟩ := a
  generalize hp : police q1 d1 = b at h ⊢
  obtain ⟨ok, d2⟩ := b
  simp only [hp] at h ⊢
  generalize arrivalCheck d2 q1 = x at h ⊢
  generalize lengthCheck op c = y at h ⊢
  generalize sessionFull d2 q1 = f at h ⊢
  generalize cqRoom d2 q1 = g at h ⊢
  generalize fenceHolds d2 q1 = k at h ⊢
  generalize reserveCq q1 (ringIn q1 d2) = w at h ⊢
  obtain ⟨q2, d3⟩ := w
  cases r <;> cases e <;> cases ok <;> cases x <;> cases y <;> cases f <;> cases g <;> cases k <;> simp_all

/-- A body that changes only the device. -/
theorem devBody_dev (f : QCmd → Dev → Dev) (q : QCmd) (t : State) : devBody f q t = { t with dev := f q t.dev } := rfl

end Sys2Proof
end

