-- ==== Sys2Proof/Laws/State.lean ====
section
/-! SUPPORT. Laws/State.lean: what each named update of the device leaves as it was, field by field, and what it writes. -/

namespace Sys2Proof.Machine

/-! ### setReg -/

@[simp] theorem setReg_pins (o v : Nat) (d : Dev) : (setReg o v d).pins = d.pins := rfl
@[simp] theorem setReg_power (o v : Nat) (d : Dev) : (setReg o v d).power = d.power := rfl
@[simp] theorem setReg_stk (o v : Nat) (d : Dev) : (setReg o v d).stk = d.stk := rfl
@[simp] theorem setReg_cfg (o v : Nat) (d : Dev) : (setReg o v d).cfg = d.cfg := rfl
@[simp] theorem setReg_banks (o v : Nat) (d : Dev) : (setReg o v d).banks = d.banks := rfl
@[simp] theorem setReg_inForce (o v : Nat) (d : Dev) : (setReg o v d).inForce = d.inForce := rfl
@[simp] theorem setReg_mem (o v : Nat) (d : Dev) : (setReg o v d).mem = d.mem := rfl
@[simp] theorem setReg_poison (o v : Nat) (d : Dev) : (setReg o v d).poison = d.poison := rfl
@[simp] theorem setReg_scratch (o v : Nat) (d : Dev) : (setReg o v d).scratch = d.scratch := rfl
@[simp] theorem setReg_crews (o v : Nat) (d : Dev) : (setReg o v d).crews = d.crews := rfl
@[simp] theorem setReg_queues (o v : Nat) (d : Dev) : (setReg o v d).queues = d.queues := rfl
@[simp] theorem setReg_sessions (o v : Nat) (d : Dev) : (setReg o v d).sessions = d.sessions := rfl
@[simp] theorem setReg_contexts (o v : Nat) (d : Dev) : (setReg o v d).contexts = d.contexts := rfl
@[simp] theorem setReg_regions (o v : Nat) (d : Dev) : (setReg o v d).regions = d.regions := rfl
@[simp] theorem setReg_jobs (o v : Nat) (d : Dev) : (setReg o v d).jobs = d.jobs := rfl
@[simp] theorem setReg_longops (o v : Nat) (d : Dev) : (setReg o v d).longops = d.longops := rfl
@[simp] theorem setReg_items (o v : Nat) (d : Dev) : (setReg o v d).items = d.items := rfl
@[simp] theorem setReg_dir (o v : Nat) (d : Dev) : (setReg o v d).dir = d.dir := rfl
@[simp] theorem setReg_agents (o v : Nat) (d : Dev) : (setReg o v d).agents = d.agents := rfl
@[simp] theorem setReg_pendingBuf (o v : Nat) (d : Dev) : (setReg o v d).pendingBuf = d.pendingBuf := rfl
@[simp] theorem setReg_pages (o v : Nat) (d : Dev) : (setReg o v d).pages = d.pages := rfl
@[simp] theorem setReg_wins (o v : Nat) (d : Dev) : (setReg o v d).wins = d.wins := rfl
@[simp] theorem setReg_tables (o v : Nat) (d : Dev) : (setReg o v d).tables = d.tables := rfl
@[simp] theorem setReg_indexes (o v : Nat) (d : Dev) : (setReg o v d).indexes = d.indexes := rfl
@[simp] theorem setReg_profiles (o v : Nat) (d : Dev) : (setReg o v d).profiles = d.profiles := rfl
@[simp] theorem setReg_log (o v : Nat) (d : Dev) : (setReg o v d).log = d.log := rfl
@[simp] theorem setReg_flt (o v : Nat) (d : Dev) : (setReg o v d).flt = d.flt := rfl
@[simp] theorem setReg_icu (o v : Nat) (d : Dev) : (setReg o v d).icu = d.icu := rfl
@[simp] theorem setReg_tgts (o v : Nat) (d : Dev) : (setReg o v d).tgts = d.tgts := rfl
@[simp] theorem setReg_ports (o v : Nat) (d : Dev) : (setReg o v d).ports = d.ports := rfl
@[simp] theorem setReg_outstanding (o v : Nat) (d : Dev) : (setReg o v d).outstanding = d.outstanding := rfl
@[simp] theorem setReg_pair (o v : Nat) (d : Dev) : (setReg o v d).pair = d.pair := rfl
@[simp] theorem setReg_side (o v : Nat) (d : Dev) : (setReg o v d).side = d.side := rfl
@[simp] theorem setReg_fabTx (o v : Nat) (d : Dev) : (setReg o v d).fabTx = d.fabTx := rfl
@[simp] theorem setReg_ethTx (o v : Nat) (d : Dev) : (setReg o v d).ethTx = d.ethTx := rfl
@[simp] theorem setReg_trig (o v : Nat) (d : Dev) : (setReg o v d).trig = d.trig := rfl

/-! ### setField -/

@[simp] theorem setField_pins (o h l v : Nat) (d : Dev) : (setField o h l v d).pins = d.pins := rfl
@[simp] theorem setField_power (o h l v : Nat) (d : Dev) : (setField o h l v d).power = d.power := rfl
@[simp] theorem setField_stk (o h l v : Nat) (d : Dev) : (setField o h l v d).stk = d.stk := rfl
@[simp] theorem setField_cfg (o h l v : Nat) (d : Dev) : (setField o h l v d).cfg = d.cfg := rfl
@[simp] theorem setField_banks (o h l v : Nat) (d : Dev) : (setField o h l v d).banks = d.banks := rfl
@[simp] theorem setField_inForce (o h l v : Nat) (d : Dev) : (setField o h l v d).inForce = d.inForce := rfl
@[simp] theorem setField_mem (o h l v : Nat) (d : Dev) : (setField o h l v d).mem = d.mem := rfl
@[simp] theorem setField_poison (o h l v : Nat) (d : Dev) : (setField o h l v d).poison = d.poison := rfl
@[simp] theorem setField_scratch (o h l v : Nat) (d : Dev) : (setField o h l v d).scratch = d.scratch := rfl
@[simp] theorem setField_crews (o h l v : Nat) (d : Dev) : (setField o h l v d).crews = d.crews := rfl
@[simp] theorem setField_queues (o h l v : Nat) (d : Dev) : (setField o h l v d).queues = d.queues := rfl
@[simp] theorem setField_sessions (o h l v : Nat) (d : Dev) : (setField o h l v d).sessions = d.sessions := rfl
@[simp] theorem setField_contexts (o h l v : Nat) (d : Dev) : (setField o h l v d).contexts = d.contexts := rfl
@[simp] theorem setField_regions (o h l v : Nat) (d : Dev) : (setField o h l v d).regions = d.regions := rfl
@[simp] theorem setField_jobs (o h l v : Nat) (d : Dev) : (setField o h l v d).jobs = d.jobs := rfl
@[simp] theorem setField_longops (o h l v : Nat) (d : Dev) : (setField o h l v d).longops = d.longops := rfl
@[simp] theorem setField_items (o h l v : Nat) (d : Dev) : (setField o h l v d).items = d.items := rfl
@[simp] theorem setField_dir (o h l v : Nat) (d : Dev) : (setField o h l v d).dir = d.dir := rfl
@[simp] theorem setField_agents (o h l v : Nat) (d : Dev) : (setField o h l v d).agents = d.agents := rfl
@[simp] theorem setField_pendingBuf (o h l v : Nat) (d : Dev) : (setField o h l v d).pendingBuf = d.pendingBuf := rfl
@[simp] theorem setField_pages (o h l v : Nat) (d : Dev) : (setField o h l v d).pages = d.pages := rfl
@[simp] theorem setField_wins (o h l v : Nat) (d : Dev) : (setField o h l v d).wins = d.wins := rfl
@[simp] theorem setField_tables (o h l v : Nat) (d : Dev) : (setField o h l v d).tables = d.tables := rfl
@[simp] theorem setField_indexes (o h l v : Nat) (d : Dev) : (setField o h l v d).indexes = d.indexes := rfl
@[simp] theorem setField_profiles (o h l v : Nat) (d : Dev) : (setField o h l v d).profiles = d.profiles := rfl
@[simp] theorem setField_log (o h l v : Nat) (d : Dev) : (setField o h l v d).log = d.log := rfl
@[simp] theorem setField_flt (o h l v : Nat) (d : Dev) : (setField o h l v d).flt = d.flt := rfl
@[simp] theorem setField_icu (o h l v : Nat) (d : Dev) : (setField o h l v d).icu = d.icu := rfl
@[simp] theorem setField_tgts (o h l v : Nat) (d : Dev) : (setField o h l v d).tgts = d.tgts := rfl
@[simp] theorem setField_ports (o h l v : Nat) (d : Dev) : (setField o h l v d).ports = d.ports := rfl
@[simp] theorem setField_outstanding (o h l v : Nat) (d : Dev) : (setField o h l v d).outstanding = d.outstanding := rfl
@[simp] theorem setField_pair (o h l v : Nat) (d : Dev) : (setField o h l v d).pair = d.pair := rfl
@[simp] theorem setField_side (o h l v : Nat) (d : Dev) : (setField o h l v d).side = d.side := rfl
@[simp] theorem setField_fabTx (o h l v : Nat) (d : Dev) : (setField o h l v d).fabTx = d.fabTx := rfl
@[simp] theorem setField_ethTx (o h l v : Nat) (d : Dev) : (setField o h l v d).ethTx = d.ethTx := rfl
@[simp] theorem setField_trig (o h l v : Nat) (d : Dev) : (setField o h l v d).trig = d.trig := rfl

/-! ### bumpReg -/

@[simp] theorem bumpReg_pins (o h l n : Nat) (d : Dev) : (bumpReg o h l n d).pins = d.pins := rfl
@[simp] theorem bumpReg_power (o h l n : Nat) (d : Dev) : (bumpReg o h l n d).power = d.power := rfl
@[simp] theorem bumpReg_stk (o h l n : Nat) (d : Dev) : (bumpReg o h l n d).stk = d.stk := rfl
@[simp] theorem bumpReg_cfg (o h l n : Nat) (d : Dev) : (bumpReg o h l n d).cfg = d.cfg := rfl
@[simp] theorem bumpReg_banks (o h l n : Nat) (d : Dev) : (bumpReg o h l n d).banks = d.banks := rfl
@[simp] theorem bumpReg_inForce (o h l n : Nat) (d : Dev) : (bumpReg o h l n d).inForce = d.inForce := rfl
@[simp] theorem bumpReg_mem (o h l n : Nat) (d : Dev) : (bumpReg o h l n d).mem = d.mem := rfl
@[simp] theorem bumpReg_poison (o h l n : Nat) (d : Dev) : (bumpReg o h l n d).poison = d.poison := rfl
@[simp] theorem bumpReg_scratch (o h l n : Nat) (d : Dev) : (bumpReg o h l n d).scratch = d.scratch := rfl
@[simp] theorem bumpReg_crews (o h l n : Nat) (d : Dev) : (bumpReg o h l n d).crews = d.crews := rfl
@[simp] theorem bumpReg_queues (o h l n : Nat) (d : Dev) : (bumpReg o h l n d).queues = d.queues := rfl
@[simp] theorem bumpReg_sessions (o h l n : Nat) (d : Dev) : (bumpReg o h l n d).sessions = d.sessions := rfl
@[simp] theorem bumpReg_contexts (o h l n : Nat) (d : Dev) : (bumpReg o h l n d).contexts = d.contexts := rfl
@[simp] theorem bumpReg_regions (o h l n : Nat) (d : Dev) : (bumpReg o h l n d).regions = d.regions := rfl
@[simp] theorem bumpReg_jobs (o h l n : Nat) (d : Dev) : (bumpReg o h l n d).jobs = d.jobs := rfl
@[simp] theorem bumpReg_longops (o h l n : Nat) (d : Dev) : (bumpReg o h l n d).longops = d.longops := rfl
@[simp] theorem bumpReg_items (o h l n : Nat) (d : Dev) : (bumpReg o h l n d).items = d.items := rfl
@[simp] theorem bumpReg_dir (o h l n : Nat) (d : Dev) : (bumpReg o h l n d).dir = d.dir := rfl
@[simp] theorem bumpReg_agents (o h l n : Nat) (d : Dev) : (bumpReg o h l n d).agents = d.agents := rfl
@[simp] theorem bumpReg_pendingBuf (o h l n : Nat) (d : Dev) : (bumpReg o h l n d).pendingBuf = d.pendingBuf := rfl
@[simp] theorem bumpReg_pages (o h l n : Nat) (d : Dev) : (bumpReg o h l n d).pages = d.pages := rfl
@[simp] theorem bumpReg_wins (o h l n : Nat) (d : Dev) : (bumpReg o h l n d).wins = d.wins := rfl
@[simp] theorem bumpReg_tables (o h l n : Nat) (d : Dev) : (bumpReg o h l n d).tables = d.tables := rfl
@[simp] theorem bumpReg_indexes (o h l n : Nat) (d : Dev) : (bumpReg o h l n d).indexes = d.indexes := rfl
@[simp] theorem bumpReg_profiles (o h l n : Nat) (d : Dev) : (bumpReg o h l n d).profiles = d.profiles := rfl
@[simp] theorem bumpReg_log (o h l n : Nat) (d : Dev) : (bumpReg o h l n d).log = d.log := rfl
@[simp] theorem bumpReg_flt (o h l n : Nat) (d : Dev) : (bumpReg o h l n d).flt = d.flt := rfl
@[simp] theorem bumpReg_icu (o h l n : Nat) (d : Dev) : (bumpReg o h l n d).icu = d.icu := rfl
@[simp] theorem bumpReg_tgts (o h l n : Nat) (d : Dev) : (bumpReg o h l n d).tgts = d.tgts := rfl
@[simp] theorem bumpReg_ports (o h l n : Nat) (d : Dev) : (bumpReg o h l n d).ports = d.ports := rfl
@[simp] theorem bumpReg_outstanding (o h l n : Nat) (d : Dev) : (bumpReg o h l n d).outstanding = d.outstanding := rfl
@[simp] theorem bumpReg_pair (o h l n : Nat) (d : Dev) : (bumpReg o h l n d).pair = d.pair := rfl
@[simp] theorem bumpReg_side (o h l n : Nat) (d : Dev) : (bumpReg o h l n d).side = d.side := rfl
@[simp] theorem bumpReg_fabTx (o h l n : Nat) (d : Dev) : (bumpReg o h l n d).fabTx = d.fabTx := rfl
@[simp] theorem bumpReg_ethTx (o h l n : Nat) (d : Dev) : (bumpReg o h l n d).ethTx = d.ethTx := rfl
@[simp] theorem bumpReg_trig (o h l n : Nat) (d : Dev) : (bumpReg o h l n d).trig = d.trig := rfl

/-! ### setCtx -/

@[simp] theorem setCtx_pins (c : Nat) (x : Context) (d : Dev) : (setCtx c x d).pins = d.pins := rfl
@[simp] theorem setCtx_power (c : Nat) (x : Context) (d : Dev) : (setCtx c x d).power = d.power := rfl
@[simp] theorem setCtx_stk (c : Nat) (x : Context) (d : Dev) : (setCtx c x d).stk = d.stk := rfl
@[simp] theorem setCtx_cfg (c : Nat) (x : Context) (d : Dev) : (setCtx c x d).cfg = d.cfg := rfl
@[simp] theorem setCtx_banks (c : Nat) (x : Context) (d : Dev) : (setCtx c x d).banks = d.banks := rfl
@[simp] theorem setCtx_regs (c : Nat) (x : Context) (d : Dev) : (setCtx c x d).regs = d.regs := rfl
@[simp] theorem setCtx_inForce (c : Nat) (x : Context) (d : Dev) : (setCtx c x d).inForce = d.inForce := rfl
@[simp] theorem setCtx_mem (c : Nat) (x : Context) (d : Dev) : (setCtx c x d).mem = d.mem := rfl
@[simp] theorem setCtx_poison (c : Nat) (x : Context) (d : Dev) : (setCtx c x d).poison = d.poison := rfl
@[simp] theorem setCtx_scratch (c : Nat) (x : Context) (d : Dev) : (setCtx c x d).scratch = d.scratch := rfl
@[simp] theorem setCtx_crews (c : Nat) (x : Context) (d : Dev) : (setCtx c x d).crews = d.crews := rfl
@[simp] theorem setCtx_queues (c : Nat) (x : Context) (d : Dev) : (setCtx c x d).queues = d.queues := rfl
@[simp] theorem setCtx_sessions (c : Nat) (x : Context) (d : Dev) : (setCtx c x d).sessions = d.sessions := rfl
@[simp] theorem setCtx_regions (c : Nat) (x : Context) (d : Dev) : (setCtx c x d).regions = d.regions := rfl
@[simp] theorem setCtx_jobs (c : Nat) (x : Context) (d : Dev) : (setCtx c x d).jobs = d.jobs := rfl
@[simp] theorem setCtx_longops (c : Nat) (x : Context) (d : Dev) : (setCtx c x d).longops = d.longops := rfl
@[simp] theorem setCtx_items (c : Nat) (x : Context) (d : Dev) : (setCtx c x d).items = d.items := rfl
@[simp] theorem setCtx_dir (c : Nat) (x : Context) (d : Dev) : (setCtx c x d).dir = d.dir := rfl
@[simp] theorem setCtx_agents (c : Nat) (x : Context) (d : Dev) : (setCtx c x d).agents = d.agents := rfl
@[simp] theorem setCtx_pendingBuf (c : Nat) (x : Context) (d : Dev) : (setCtx c x d).pendingBuf = d.pendingBuf := rfl
@[simp] theorem setCtx_pages (c : Nat) (x : Context) (d : Dev) : (setCtx c x d).pages = d.pages := rfl
@[simp] theorem setCtx_wins (c : Nat) (x : Context) (d : Dev) : (setCtx c x d).wins = d.wins := rfl
@[simp] theorem setCtx_tables (c : Nat) (x : Context) (d : Dev) : (setCtx c x d).tables = d.tables := rfl
@[simp] theorem setCtx_indexes (c : Nat) (x : Context) (d : Dev) : (setCtx c x d).indexes = d.indexes := rfl
@[simp] theorem setCtx_profiles (c : Nat) (x : Context) (d : Dev) : (setCtx c x d).profiles = d.profiles := rfl
@[simp] theorem setCtx_log (c : Nat) (x : Context) (d : Dev) : (setCtx c x d).log = d.log := rfl
@[simp] theorem setCtx_flt (c : Nat) (x : Context) (d : Dev) : (setCtx c x d).flt = d.flt := rfl
@[simp] theorem setCtx_icu (c : Nat) (x : Context) (d : Dev) : (setCtx c x d).icu = d.icu := rfl
@[simp] theorem setCtx_tgts (c : Nat) (x : Context) (d : Dev) : (setCtx c x d).tgts = d.tgts := rfl
@[simp] theorem setCtx_ports (c : Nat) (x : Context) (d : Dev) : (setCtx c x d).ports = d.ports := rfl
@[simp] theorem setCtx_outstanding (c : Nat) (x : Context) (d : Dev) : (setCtx c x d).outstanding = d.outstanding := rfl
@[simp] theorem setCtx_pair (c : Nat) (x : Context) (d : Dev) : (setCtx c x d).pair = d.pair := rfl
@[simp] theorem setCtx_side (c : Nat) (x : Context) (d : Dev) : (setCtx c x d).side = d.side := rfl
@[simp] theorem setCtx_fabTx (c : Nat) (x : Context) (d : Dev) : (setCtx c x d).fabTx = d.fabTx := rfl
@[simp] theorem setCtx_ethTx (c : Nat) (x : Context) (d : Dev) : (setCtx c x d).ethTx = d.ethTx := rfl
@[simp] theorem setCtx_trig (c : Nat) (x : Context) (d : Dev) : (setCtx c x d).trig = d.trig := rfl

/-! ### setSrc -/

@[simp] theorem setSrc_pins (n : Nat) (x : Src) (d : Dev) : (setSrc n x d).pins = d.pins := rfl
@[simp] theorem setSrc_power (n : Nat) (x : Src) (d : Dev) : (setSrc n x d).power = d.power := rfl
@[simp] theorem setSrc_stk (n : Nat) (x : Src) (d : Dev) : (setSrc n x d).stk = d.stk := rfl
@[simp] theorem setSrc_cfg (n : Nat) (x : Src) (d : Dev) : (setSrc n x d).cfg = d.cfg := rfl
@[simp] theorem setSrc_banks (n : Nat) (x : Src) (d : Dev) : (setSrc n x d).banks = d.banks := rfl
@[simp] theorem setSrc_regs (n : Nat) (x : Src) (d : Dev) : (setSrc n x d).regs = d.regs := rfl
@[simp] theorem setSrc_inForce (n : Nat) (x : Src) (d : Dev) : (setSrc n x d).inForce = d.inForce := rfl
@[simp] theorem setSrc_mem (n : Nat) (x : Src) (d : Dev) : (setSrc n x d).mem = d.mem := rfl
@[simp] theorem setSrc_poison (n : Nat) (x : Src) (d : Dev) : (setSrc n x d).poison = d.poison := rfl
@[simp] theorem setSrc_scratch (n : Nat) (x : Src) (d : Dev) : (setSrc n x d).scratch = d.scratch := rfl
@[simp] theorem setSrc_crews (n : Nat) (x : Src) (d : Dev) : (setSrc n x d).crews = d.crews := rfl
@[simp] theorem setSrc_queues (n : Nat) (x : Src) (d : Dev) : (setSrc n x d).queues = d.queues := rfl
@[simp] theorem setSrc_sessions (n : Nat) (x : Src) (d : Dev) : (setSrc n x d).sessions = d.sessions := rfl
@[simp] theorem setSrc_contexts (n : Nat) (x : Src) (d : Dev) : (setSrc n x d).contexts = d.contexts := rfl
@[simp] theorem setSrc_regions (n : Nat) (x : Src) (d : Dev) : (setSrc n x d).regions = d.regions := rfl
@[simp] theorem setSrc_jobs (n : Nat) (x : Src) (d : Dev) : (setSrc n x d).jobs = d.jobs := rfl
@[simp] theorem setSrc_longops (n : Nat) (x : Src) (d : Dev) : (setSrc n x d).longops = d.longops := rfl
@[simp] theorem setSrc_items (n : Nat) (x : Src) (d : Dev) : (setSrc n x d).items = d.items := rfl
@[simp] theorem setSrc_dir (n : Nat) (x : Src) (d : Dev) : (setSrc n x d).dir = d.dir := rfl
@[simp] theorem setSrc_agents (n : Nat) (x : Src) (d : Dev) : (setSrc n x d).agents = d.agents := rfl
@[simp] theorem setSrc_pendingBuf (n : Nat) (x : Src) (d : Dev) : (setSrc n x d).pendingBuf = d.pendingBuf := rfl
@[simp] theorem setSrc_pages (n : Nat) (x : Src) (d : Dev) : (setSrc n x d).pages = d.pages := rfl
@[simp] theorem setSrc_wins (n : Nat) (x : Src) (d : Dev) : (setSrc n x d).wins = d.wins := rfl
@[simp] theorem setSrc_tables (n : Nat) (x : Src) (d : Dev) : (setSrc n x d).tables = d.tables := rfl
@[simp] theorem setSrc_indexes (n : Nat) (x : Src) (d : Dev) : (setSrc n x d).indexes = d.indexes := rfl
@[simp] theorem setSrc_profiles (n : Nat) (x : Src) (d : Dev) : (setSrc n x d).profiles = d.profiles := rfl
@[simp] theorem setSrc_log (n : Nat) (x : Src) (d : Dev) : (setSrc n x d).log = d.log := rfl
@[simp] theorem setSrc_flt (n : Nat) (x : Src) (d : Dev) : (setSrc n x d).flt = d.flt := rfl
@[simp] theorem setSrc_tgts (n : Nat) (x : Src) (d : Dev) : (setSrc n x d).tgts = d.tgts := rfl
@[simp] theorem setSrc_ports (n : Nat) (x : Src) (d : Dev) : (setSrc n x d).ports = d.ports := rfl
@[simp] theorem setSrc_outstanding (n : Nat) (x : Src) (d : Dev) : (setSrc n x d).outstanding = d.outstanding := rfl
@[simp] theorem setSrc_pair (n : Nat) (x : Src) (d : Dev) : (setSrc n x d).pair = d.pair := rfl
@[simp] theorem setSrc_side (n : Nat) (x : Src) (d : Dev) : (setSrc n x d).side = d.side := rfl
@[simp] theorem setSrc_fabTx (n : Nat) (x : Src) (d : Dev) : (setSrc n x d).fabTx = d.fabTx := rfl
@[simp] theorem setSrc_ethTx (n : Nat) (x : Src) (d : Dev) : (setSrc n x d).ethTx = d.ethTx := rfl
@[simp] theorem setSrc_trig (n : Nat) (x : Src) (d : Dev) : (setSrc n x d).trig = d.trig := rfl

/-! ### setTgt -/

@[simp] theorem setTgt_pins (t : Nat) (g : Tgt) (d : Dev) : (setTgt t g d).pins = d.pins := rfl
@[simp] theorem setTgt_power (t : Nat) (g : Tgt) (d : Dev) : (setTgt t g d).power = d.power := rfl
@[simp] theorem setTgt_stk (t : Nat) (g : Tgt) (d : Dev) : (setTgt t g d).stk = d.stk := rfl
@[simp] theorem setTgt_cfg (t : Nat) (g : Tgt) (d : Dev) : (setTgt t g d).cfg = d.cfg := rfl
@[simp] theorem setTgt_banks (t : Nat) (g : Tgt) (d : Dev) : (setTgt t g d).banks = d.banks := rfl
@[simp] theorem setTgt_regs (t : Nat) (g : Tgt) (d : Dev) : (setTgt t g d).regs = d.regs := rfl
@[simp] theorem setTgt_inForce (t : Nat) (g : Tgt) (d : Dev) : (setTgt t g d).inForce = d.inForce := rfl
@[simp] theorem setTgt_mem (t : Nat) (g : Tgt) (d : Dev) : (setTgt t g d).mem = d.mem := rfl
@[simp] theorem setTgt_poison (t : Nat) (g : Tgt) (d : Dev) : (setTgt t g d).poison = d.poison := rfl
@[simp] theorem setTgt_scratch (t : Nat) (g : Tgt) (d : Dev) : (setTgt t g d).scratch = d.scratch := rfl
@[simp] theorem setTgt_crews (t : Nat) (g : Tgt) (d : Dev) : (setTgt t g d).crews = d.crews := rfl
@[simp] theorem setTgt_queues (t : Nat) (g : Tgt) (d : Dev) : (setTgt t g d).queues = d.queues := rfl
@[simp] theorem setTgt_sessions (t : Nat) (g : Tgt) (d : Dev) : (setTgt t g d).sessions = d.sessions := rfl
@[simp] theorem setTgt_contexts (t : Nat) (g : Tgt) (d : Dev) : (setTgt t g d).contexts = d.contexts := rfl
@[simp] theorem setTgt_regions (t : Nat) (g : Tgt) (d : Dev) : (setTgt t g d).regions = d.regions := rfl
@[simp] theorem setTgt_jobs (t : Nat) (g : Tgt) (d : Dev) : (setTgt t g d).jobs = d.jobs := rfl
@[simp] theorem setTgt_longops (t : Nat) (g : Tgt) (d : Dev) : (setTgt t g d).longops = d.longops := rfl
@[simp] theorem setTgt_items (t : Nat) (g : Tgt) (d : Dev) : (setTgt t g d).items = d.items := rfl
@[simp] theorem setTgt_dir (t : Nat) (g : Tgt) (d : Dev) : (setTgt t g d).dir = d.dir := rfl
@[simp] theorem setTgt_agents (t : Nat) (g : Tgt) (d : Dev) : (setTgt t g d).agents = d.agents := rfl
@[simp] theorem setTgt_pendingBuf (t : Nat) (g : Tgt) (d : Dev) : (setTgt t g d).pendingBuf = d.pendingBuf := rfl
@[simp] theorem setTgt_pages (t : Nat) (g : Tgt) (d : Dev) : (setTgt t g d).pages = d.pages := rfl
@[simp] theorem setTgt_wins (t : Nat) (g : Tgt) (d : Dev) : (setTgt t g d).wins = d.wins := rfl
@[simp] theorem setTgt_tables (t : Nat) (g : Tgt) (d : Dev) : (setTgt t g d).tables = d.tables := rfl
@[simp] theorem setTgt_indexes (t : Nat) (g : Tgt) (d : Dev) : (setTgt t g d).indexes = d.indexes := rfl
@[simp] theorem setTgt_profiles (t : Nat) (g : Tgt) (d : Dev) : (setTgt t g d).profiles = d.profiles := rfl
@[simp] theorem setTgt_log (t : Nat) (g : Tgt) (d : Dev) : (setTgt t g d).log = d.log := rfl
@[simp] theorem setTgt_flt (t : Nat) (g : Tgt) (d : Dev) : (setTgt t g d).flt = d.flt := rfl
@[simp] theorem setTgt_icu (t : Nat) (g : Tgt) (d : Dev) : (setTgt t g d).icu = d.icu := rfl
@[simp] theorem setTgt_ports (t : Nat) (g : Tgt) (d : Dev) : (setTgt t g d).ports = d.ports := rfl
@[simp] theorem setTgt_outstanding (t : Nat) (g : Tgt) (d : Dev) : (setTgt t g d).outstanding = d.outstanding := rfl
@[simp] theorem setTgt_pair (t : Nat) (g : Tgt) (d : Dev) : (setTgt t g d).pair = d.pair := rfl
@[simp] theorem setTgt_side (t : Nat) (g : Tgt) (d : Dev) : (setTgt t g d).side = d.side := rfl
@[simp] theorem setTgt_fabTx (t : Nat) (g : Tgt) (d : Dev) : (setTgt t g d).fabTx = d.fabTx := rfl
@[simp] theorem setTgt_ethTx (t : Nat) (g : Tgt) (d : Dev) : (setTgt t g d).ethTx = d.ethTx := rfl
@[simp] theorem setTgt_trig (t : Nat) (g : Tgt) (d : Dev) : (setTgt t g d).trig = d.trig := rfl

/-! ### setLine -/

@[simp] theorem setLine_pins (l : Nat) (b : List Byte) (d : Dev) : (setLine l b d).pins = d.pins := by unfold setLine; rfl
@[simp] theorem setLine_power (l : Nat) (b : List Byte) (d : Dev) : (setLine l b d).power = d.power := by unfold setLine; rfl
@[simp] theorem setLine_stk (l : Nat) (b : List Byte) (d : Dev) : (setLine l b d).stk = d.stk := by unfold setLine; rfl
@[simp] theorem setLine_cfg (l : Nat) (b : List Byte) (d : Dev) : (setLine l b d).cfg = d.cfg := by unfold setLine; rfl
@[simp] theorem setLine_banks (l : Nat) (b : List Byte) (d : Dev) : (setLine l b d).banks = d.banks := by unfold setLine; rfl
@[simp] theorem setLine_regs (l : Nat) (b : List Byte) (d : Dev) : (setLine l b d).regs = d.regs := by unfold setLine; rfl
@[simp] theorem setLine_inForce (l : Nat) (b : List Byte) (d : Dev) : (setLine l b d).inForce = d.inForce := by unfold setLine; rfl
@[simp] theorem setLine_poison (l : Nat) (b : List Byte) (d : Dev) : (setLine l b d).poison = d.poison := by unfold setLine; rfl
@[simp] theorem setLine_scratch (l : Nat) (b : List Byte) (d : Dev) : (setLine l b d).scratch = d.scratch := by unfold setLine; rfl
@[simp] theorem setLine_crews (l : Nat) (b : List Byte) (d : Dev) : (setLine l b d).crews = d.crews := by unfold setLine; rfl
@[simp] theorem setLine_queues (l : Nat) (b : List Byte) (d : Dev) : (setLine l b d).queues = d.queues := by unfold setLine; rfl
@[simp] theorem setLine_sessions (l : Nat) (b : List Byte) (d : Dev) : (setLine l b d).sessions = d.sessions := by unfold setLine; rfl
@[simp] theorem setLine_contexts (l : Nat) (b : List Byte) (d : Dev) : (setLine l b d).contexts = d.contexts := by unfold setLine; rfl
@[simp] theorem setLine_regions (l : Nat) (b : List Byte) (d : Dev) : (setLine l b d).regions = d.regions := by unfold setLine; rfl
@[simp] theorem setLine_jobs (l : Nat) (b : List Byte) (d : Dev) : (setLine l b d).jobs = d.jobs := by unfold setLine; rfl
@[simp] theorem setLine_longops (l : Nat) (b : List Byte) (d : Dev) : (setLine l b d).longops = d.longops := by unfold setLine; rfl
@[simp] theorem setLine_items (l : Nat) (b : List Byte) (d : Dev) : (setLine l b d).items = d.items := by unfold setLine; rfl
@[simp] theorem setLine_dir (l : Nat) (b : List Byte) (d : Dev) : (setLine l b d).dir = d.dir := by unfold setLine; rfl
@[simp] theorem setLine_agents (l : Nat) (b : List Byte) (d : Dev) : (setLine l b d).agents = d.agents := by unfold setLine; rfl
@[simp] theorem setLine_pendingBuf (l : Nat) (b : List Byte) (d : Dev) : (setLine l b d).pendingBuf = d.pendingBuf := by unfold setLine; rfl
@[simp] theorem setLine_pages (l : Nat) (b : List Byte) (d : Dev) : (setLine l b d).pages = d.pages := by unfold setLine; rfl
@[simp] theorem setLine_wins (l : Nat) (b : List Byte) (d : Dev) : (setLine l b d).wins = d.wins := by unfold setLine; rfl
@[simp] theorem setLine_tables (l : Nat) (b : List Byte) (d : Dev) : (setLine l b d).tables = d.tables := by unfold setLine; rfl
@[simp] theorem setLine_indexes (l : Nat) (b : List Byte) (d : Dev) : (setLine l b d).indexes = d.indexes := by unfold setLine; rfl
@[simp] theorem setLine_profiles (l : Nat) (b : List Byte) (d : Dev) : (setLine l b d).profiles = d.profiles := by unfold setLine; rfl
@[simp] theorem setLine_log (l : Nat) (b : List Byte) (d : Dev) : (setLine l b d).log = d.log := by unfold setLine; rfl
@[simp] theorem setLine_flt (l : Nat) (b : List Byte) (d : Dev) : (setLine l b d).flt = d.flt := by unfold setLine; rfl
@[simp] theorem setLine_icu (l : Nat) (b : List Byte) (d : Dev) : (setLine l b d).icu = d.icu := by unfold setLine; rfl
@[simp] theorem setLine_tgts (l : Nat) (b : List Byte) (d : Dev) : (setLine l b d).tgts = d.tgts := by unfold setLine; rfl
@[simp] theorem setLine_ports (l : Nat) (b : List Byte) (d : Dev) : (setLine l b d).ports = d.ports := by unfold setLine; rfl
@[simp] theorem setLine_outstanding (l : Nat) (b : List Byte) (d : Dev) : (setLine l b d).outstanding = d.outstanding := by unfold setLine; rfl
@[simp] theorem setLine_pair (l : Nat) (b : List Byte) (d : Dev) : (setLine l b d).pair = d.pair := by unfold setLine; rfl
@[simp] theorem setLine_side (l : Nat) (b : List Byte) (d : Dev) : (setLine l b d).side = d.side := by unfold setLine; rfl
@[simp] theorem setLine_fabTx (l : Nat) (b : List Byte) (d : Dev) : (setLine l b d).fabTx = d.fabTx := by unfold setLine; rfl
@[simp] theorem setLine_ethTx (l : Nat) (b : List Byte) (d : Dev) : (setLine l b d).ethTx = d.ethTx := by unfold setLine; rfl
@[simp] theorem setLine_trig (l : Nat) (b : List Byte) (d : Dev) : (setLine l b d).trig = d.trig := by unfold setLine; rfl

/-! ### poisonLine -/

@[simp] theorem poisonLine_pins (l : Nat) (d : Dev) : (poisonLine l d).pins = d.pins := rfl
@[simp] theorem poisonLine_power (l : Nat) (d : Dev) : (poisonLine l d).power = d.power := rfl
@[simp] theorem poisonLine_stk (l : Nat) (d : Dev) : (poisonLine l d).stk = d.stk := rfl
@[simp] theorem poisonLine_cfg (l : Nat) (d : Dev) : (poisonLine l d).cfg = d.cfg := rfl
@[simp] theorem poisonLine_banks (l : Nat) (d : Dev) : (poisonLine l d).banks = d.banks := rfl
@[simp] theorem poisonLine_regs (l : Nat) (d : Dev) : (poisonLine l d).regs = d.regs := rfl
@[simp] theorem poisonLine_inForce (l : Nat) (d : Dev) : (poisonLine l d).inForce = d.inForce := rfl
@[simp] theorem poisonLine_mem (l : Nat) (d : Dev) : (poisonLine l d).mem = d.mem := rfl
@[simp] theorem poisonLine_scratch (l : Nat) (d : Dev) : (poisonLine l d).scratch = d.scratch := rfl
@[simp] theorem poisonLine_crews (l : Nat) (d : Dev) : (poisonLine l d).crews = d.crews := rfl
@[simp] theorem poisonLine_queues (l : Nat) (d : Dev) : (poisonLine l d).queues = d.queues := rfl
@[simp] theorem poisonLine_sessions (l : Nat) (d : Dev) : (poisonLine l d).sessions = d.sessions := rfl
@[simp] theorem poisonLine_contexts (l : Nat) (d : Dev) : (poisonLine l d).contexts = d.contexts := rfl
@[simp] theorem poisonLine_regions (l : Nat) (d : Dev) : (poisonLine l d).regions = d.regions := rfl
@[simp] theorem poisonLine_jobs (l : Nat) (d : Dev) : (poisonLine l d).jobs = d.jobs := rfl
@[simp] theorem poisonLine_longops (l : Nat) (d : Dev) : (poisonLine l d).longops = d.longops := rfl
@[simp] theorem poisonLine_items (l : Nat) (d : Dev) : (poisonLine l d).items = d.items := rfl
@[simp] theorem poisonLine_dir (l : Nat) (d : Dev) : (poisonLine l d).dir = d.dir := rfl
@[simp] theorem poisonLine_agents (l : Nat) (d : Dev) : (poisonLine l d).agents = d.agents := rfl
@[simp] theorem poisonLine_pendingBuf (l : Nat) (d : Dev) : (poisonLine l d).pendingBuf = d.pendingBuf := rfl
@[simp] theorem poisonLine_pages (l : Nat) (d : Dev) : (poisonLine l d).pages = d.pages := rfl
@[simp] theorem poisonLine_wins (l : Nat) (d : Dev) : (poisonLine l d).wins = d.wins := rfl
@[simp] theorem poisonLine_tables (l : Nat) (d : Dev) : (poisonLine l d).tables = d.tables := rfl
@[simp] theorem poisonLine_indexes (l : Nat) (d : Dev) : (poisonLine l d).indexes = d.indexes := rfl
@[simp] theorem poisonLine_profiles (l : Nat) (d : Dev) : (poisonLine l d).profiles = d.profiles := rfl
@[simp] theorem poisonLine_log (l : Nat) (d : Dev) : (poisonLine l d).log = d.log := rfl
@[simp] theorem poisonLine_flt (l : Nat) (d : Dev) : (poisonLine l d).flt = d.flt := rfl
@[simp] theorem poisonLine_icu (l : Nat) (d : Dev) : (poisonLine l d).icu = d.icu := rfl
@[simp] theorem poisonLine_tgts (l : Nat) (d : Dev) : (poisonLine l d).tgts = d.tgts := rfl
@[simp] theorem poisonLine_ports (l : Nat) (d : Dev) : (poisonLine l d).ports = d.ports := rfl
@[simp] theorem poisonLine_outstanding (l : Nat) (d : Dev) : (poisonLine l d).outstanding = d.outstanding := rfl
@[simp] theorem poisonLine_pair (l : Nat) (d : Dev) : (poisonLine l d).pair = d.pair := rfl
@[simp] theorem poisonLine_side (l : Nat) (d : Dev) : (poisonLine l d).side = d.side := rfl
@[simp] theorem poisonLine_fabTx (l : Nat) (d : Dev) : (poisonLine l d).fabTx = d.fabTx := rfl
@[simp] theorem poisonLine_ethTx (l : Nat) (d : Dev) : (poisonLine l d).ethTx = d.ethTx := rfl
@[simp] theorem poisonLine_trig (l : Nat) (d : Dev) : (poisonLine l d).trig = d.trig := rfl

/-! ### unpoison -/

@[simp] theorem unpoison_pins (l : Nat) (d : Dev) : (unpoison l d).pins = d.pins := rfl
@[simp] theorem unpoison_power (l : Nat) (d : Dev) : (unpoison l d).power = d.power := rfl
@[simp] theorem unpoison_stk (l : Nat) (d : Dev) : (unpoison l d).stk = d.stk := rfl
@[simp] theorem unpoison_cfg (l : Nat) (d : Dev) : (unpoison l d).cfg = d.cfg := rfl
@[simp] theorem unpoison_banks (l : Nat) (d : Dev) : (unpoison l d).banks = d.banks := rfl
@[simp] theorem unpoison_regs (l : Nat) (d : Dev) : (unpoison l d).regs = d.regs := rfl
@[simp] theorem unpoison_inForce (l : Nat) (d : Dev) : (unpoison l d).inForce = d.inForce := rfl
@[simp] theorem unpoison_mem (l : Nat) (d : Dev) : (unpoison l d).mem = d.mem := rfl
@[simp] theorem unpoison_scratch (l : Nat) (d : Dev) : (unpoison l d).scratch = d.scratch := rfl
@[simp] theorem unpoison_crews (l : Nat) (d : Dev) : (unpoison l d).crews = d.crews := rfl
@[simp] theorem unpoison_queues (l : Nat) (d : Dev) : (unpoison l d).queues = d.queues := rfl
@[simp] theorem unpoison_sessions (l : Nat) (d : Dev) : (unpoison l d).sessions = d.sessions := rfl
@[simp] theorem unpoison_contexts (l : Nat) (d : Dev) : (unpoison l d).contexts = d.contexts := rfl
@[simp] theorem unpoison_regions (l : Nat) (d : Dev) : (unpoison l d).regions = d.regions := rfl
@[simp] theorem unpoison_jobs (l : Nat) (d : Dev) : (unpoison l d).jobs = d.jobs := rfl
@[simp] theorem unpoison_longops (l : Nat) (d : Dev) : (unpoison l d).longops = d.longops := rfl
@[simp] theorem unpoison_items (l : Nat) (d : Dev) : (unpoison l d).items = d.items := rfl
@[simp] theorem unpoison_dir (l : Nat) (d : Dev) : (unpoison l d).dir = d.dir := rfl
@[simp] theorem unpoison_agents (l : Nat) (d : Dev) : (unpoison l d).agents = d.agents := rfl
@[simp] theorem unpoison_pendingBuf (l : Nat) (d : Dev) : (unpoison l d).pendingBuf = d.pendingBuf := rfl
@[simp] theorem unpoison_pages (l : Nat) (d : Dev) : (unpoison l d).pages = d.pages := rfl
@[simp] theorem unpoison_wins (l : Nat) (d : Dev) : (unpoison l d).wins = d.wins := rfl
@[simp] theorem unpoison_tables (l : Nat) (d : Dev) : (unpoison l d).tables = d.tables := rfl
@[simp] theorem unpoison_indexes (l : Nat) (d : Dev) : (unpoison l d).indexes = d.indexes := rfl
@[simp] theorem unpoison_profiles (l : Nat) (d : Dev) : (unpoison l d).profiles = d.profiles := rfl
@[simp] theorem unpoison_log (l : Nat) (d : Dev) : (unpoison l d).log = d.log := rfl
@[simp] theorem unpoison_flt (l : Nat) (d : Dev) : (unpoison l d).flt = d.flt := rfl
@[simp] theorem unpoison_icu (l : Nat) (d : Dev) : (unpoison l d).icu = d.icu := rfl
@[simp] theorem unpoison_tgts (l : Nat) (d : Dev) : (unpoison l d).tgts = d.tgts := rfl
@[simp] theorem unpoison_ports (l : Nat) (d : Dev) : (unpoison l d).ports = d.ports := rfl
@[simp] theorem unpoison_outstanding (l : Nat) (d : Dev) : (unpoison l d).outstanding = d.outstanding := rfl
@[simp] theorem unpoison_pair (l : Nat) (d : Dev) : (unpoison l d).pair = d.pair := rfl
@[simp] theorem unpoison_side (l : Nat) (d : Dev) : (unpoison l d).side = d.side := rfl
@[simp] theorem unpoison_fabTx (l : Nat) (d : Dev) : (unpoison l d).fabTx = d.fabTx := rfl
@[simp] theorem unpoison_ethTx (l : Nat) (d : Dev) : (unpoison l d).ethTx = d.ethTx := rfl
@[simp] theorem unpoison_trig (l : Nat) (d : Dev) : (unpoison l d).trig = d.trig := rfl

/-! ### setDir -/

@[simp] theorem setDir_pins (l : Nat) (e : DirEntry) (d : Dev) : (setDir l e d).pins = d.pins := rfl
@[simp] theorem setDir_power (l : Nat) (e : DirEntry) (d : Dev) : (setDir l e d).power = d.power := rfl
@[simp] theorem setDir_stk (l : Nat) (e : DirEntry) (d : Dev) : (setDir l e d).stk = d.stk := rfl
@[simp] theorem setDir_cfg (l : Nat) (e : DirEntry) (d : Dev) : (setDir l e d).cfg = d.cfg := rfl
@[simp] theorem setDir_banks (l : Nat) (e : DirEntry) (d : Dev) : (setDir l e d).banks = d.banks := rfl
@[simp] theorem setDir_regs (l : Nat) (e : DirEntry) (d : Dev) : (setDir l e d).regs = d.regs := rfl
@[simp] theorem setDir_inForce (l : Nat) (e : DirEntry) (d : Dev) : (setDir l e d).inForce = d.inForce := rfl
@[simp] theorem setDir_mem (l : Nat) (e : DirEntry) (d : Dev) : (setDir l e d).mem = d.mem := rfl
@[simp] theorem setDir_poison (l : Nat) (e : DirEntry) (d : Dev) : (setDir l e d).poison = d.poison := rfl
@[simp] theorem setDir_scratch (l : Nat) (e : DirEntry) (d : Dev) : (setDir l e d).scratch = d.scratch := rfl
@[simp] theorem setDir_crews (l : Nat) (e : DirEntry) (d : Dev) : (setDir l e d).crews = d.crews := rfl
@[simp] theorem setDir_queues (l : Nat) (e : DirEntry) (d : Dev) : (setDir l e d).queues = d.queues := rfl
@[simp] theorem setDir_sessions (l : Nat) (e : DirEntry) (d : Dev) : (setDir l e d).sessions = d.sessions := rfl
@[simp] theorem setDir_contexts (l : Nat) (e : DirEntry) (d : Dev) : (setDir l e d).contexts = d.contexts := rfl
@[simp] theorem setDir_regions (l : Nat) (e : DirEntry) (d : Dev) : (setDir l e d).regions = d.regions := rfl
@[simp] theorem setDir_jobs (l : Nat) (e : DirEntry) (d : Dev) : (setDir l e d).jobs = d.jobs := rfl
@[simp] theorem setDir_longops (l : Nat) (e : DirEntry) (d : Dev) : (setDir l e d).longops = d.longops := rfl
@[simp] theorem setDir_items (l : Nat) (e : DirEntry) (d : Dev) : (setDir l e d).items = d.items := rfl
@[simp] theorem setDir_agents (l : Nat) (e : DirEntry) (d : Dev) : (setDir l e d).agents = d.agents := rfl
@[simp] theorem setDir_pendingBuf (l : Nat) (e : DirEntry) (d : Dev) : (setDir l e d).pendingBuf = d.pendingBuf := rfl
@[simp] theorem setDir_pages (l : Nat) (e : DirEntry) (d : Dev) : (setDir l e d).pages = d.pages := rfl
@[simp] theorem setDir_wins (l : Nat) (e : DirEntry) (d : Dev) : (setDir l e d).wins = d.wins := rfl
@[simp] theorem setDir_tables (l : Nat) (e : DirEntry) (d : Dev) : (setDir l e d).tables = d.tables := rfl
@[simp] theorem setDir_indexes (l : Nat) (e : DirEntry) (d : Dev) : (setDir l e d).indexes = d.indexes := rfl
@[simp] theorem setDir_profiles (l : Nat) (e : DirEntry) (d : Dev) : (setDir l e d).profiles = d.profiles := rfl
@[simp] theorem setDir_log (l : Nat) (e : DirEntry) (d : Dev) : (setDir l e d).log = d.log := rfl
@[simp] theorem setDir_flt (l : Nat) (e : DirEntry) (d : Dev) : (setDir l e d).flt = d.flt := rfl
@[simp] theorem setDir_icu (l : Nat) (e : DirEntry) (d : Dev) : (setDir l e d).icu = d.icu := rfl
@[simp] theorem setDir_tgts (l : Nat) (e : DirEntry) (d : Dev) : (setDir l e d).tgts = d.tgts := rfl
@[simp] theorem setDir_ports (l : Nat) (e : DirEntry) (d : Dev) : (setDir l e d).ports = d.ports := rfl
@[simp] theorem setDir_outstanding (l : Nat) (e : DirEntry) (d : Dev) : (setDir l e d).outstanding = d.outstanding := rfl
@[simp] theorem setDir_pair (l : Nat) (e : DirEntry) (d : Dev) : (setDir l e d).pair = d.pair := rfl
@[simp] theorem setDir_side (l : Nat) (e : DirEntry) (d : Dev) : (setDir l e d).side = d.side := rfl
@[simp] theorem setDir_fabTx (l : Nat) (e : DirEntry) (d : Dev) : (setDir l e d).fabTx = d.fabTx := rfl
@[simp] theorem setDir_ethTx (l : Nat) (e : DirEntry) (d : Dev) : (setDir l e d).ethTx = d.ethTx := rfl
@[simp] theorem setDir_trig (l : Nat) (e : DirEntry) (d : Dev) : (setDir l e d).trig = d.trig := rfl

/-! ### setQueue -/

@[simp] theorem setQueue_pins (q : Nat) (r : Queue) (d : Dev) : (setQueue q r d).pins = d.pins := rfl
@[simp] theorem setQueue_power (q : Nat) (r : Queue) (d : Dev) : (setQueue q r d).power = d.power := rfl
@[simp] theorem setQueue_stk (q : Nat) (r : Queue) (d : Dev) : (setQueue q r d).stk = d.stk := rfl
@[simp] theorem setQueue_cfg (q : Nat) (r : Queue) (d : Dev) : (setQueue q r d).cfg = d.cfg := rfl
@[simp] theorem setQueue_banks (q : Nat) (r : Queue) (d : Dev) : (setQueue q r d).banks = d.banks := rfl
@[simp] theorem setQueue_regs (q : Nat) (r : Queue) (d : Dev) : (setQueue q r d).regs = d.regs := rfl
@[simp] theorem setQueue_inForce (q : Nat) (r : Queue) (d : Dev) : (setQueue q r d).inForce = d.inForce := rfl
@[simp] theorem setQueue_mem (q : Nat) (r : Queue) (d : Dev) : (setQueue q r d).mem = d.mem := rfl
@[simp] theorem setQueue_poison (q : Nat) (r : Queue) (d : Dev) : (setQueue q r d).poison = d.poison := rfl
@[simp] theorem setQueue_scratch (q : Nat) (r : Queue) (d : Dev) : (setQueue q r d).scratch = d.scratch := rfl
@[simp] theorem setQueue_crews (q : Nat) (r : Queue) (d : Dev) : (setQueue q r d).crews = d.crews := rfl
@[simp] theorem setQueue_sessions (q : Nat) (r : Queue) (d : Dev) : (setQueue q r d).sessions = d.sessions := rfl
@[simp] theorem setQueue_contexts (q : Nat) (r : Queue) (d : Dev) : (setQueue q r d).contexts = d.contexts := rfl
@[simp] theorem setQueue_regions (q : Nat) (r : Queue) (d : Dev) : (setQueue q r d).regions = d.regions := rfl
@[simp] theorem setQueue_jobs (q : Nat) (r : Queue) (d : Dev) : (setQueue q r d).jobs = d.jobs := rfl
@[simp] theorem setQueue_longops (q : Nat) (r : Queue) (d : Dev) : (setQueue q r d).longops = d.longops := rfl
@[simp] theorem setQueue_items (q : Nat) (r : Queue) (d : Dev) : (setQueue q r d).items = d.items := rfl
@[simp] theorem setQueue_dir (q : Nat) (r : Queue) (d : Dev) : (setQueue q r d).dir = d.dir := rfl
@[simp] theorem setQueue_agents (q : Nat) (r : Queue) (d : Dev) : (setQueue q r d).agents = d.agents := rfl
@[simp] theorem setQueue_pendingBuf (q : Nat) (r : Queue) (d : Dev) : (setQueue q r d).pendingBuf = d.pendingBuf := rfl
@[simp] theorem setQueue_pages (q : Nat) (r : Queue) (d : Dev) : (setQueue q r d).pages = d.pages := rfl
@[simp] theorem setQueue_wins (q : Nat) (r : Queue) (d : Dev) : (setQueue q r d).wins = d.wins := rfl
@[simp] theorem setQueue_tables (q : Nat) (r : Queue) (d : Dev) : (setQueue q r d).tables = d.tables := rfl
@[simp] theorem setQueue_indexes (q : Nat) (r : Queue) (d : Dev) : (setQueue q r d).indexes = d.indexes := rfl
@[simp] theorem setQueue_profiles (q : Nat) (r : Queue) (d : Dev) : (setQueue q r d).profiles = d.profiles := rfl
@[simp] theorem setQueue_log (q : Nat) (r : Queue) (d : Dev) : (setQueue q r d).log = d.log := rfl
@[simp] theorem setQueue_flt (q : Nat) (r : Queue) (d : Dev) : (setQueue q r d).flt = d.flt := rfl
@[simp] theorem setQueue_icu (q : Nat) (r : Queue) (d : Dev) : (setQueue q r d).icu = d.icu := rfl
@[simp] theorem setQueue_tgts (q : Nat) (r : Queue) (d : Dev) : (setQueue q r d).tgts = d.tgts := rfl
@[simp] theorem setQueue_ports (q : Nat) (r : Queue) (d : Dev) : (setQueue q r d).ports = d.ports := rfl
@[simp] theorem setQueue_outstanding (q : Nat) (r : Queue) (d : Dev) : (setQueue q r d).outstanding = d.outstanding := rfl
@[simp] theorem setQueue_pair (q : Nat) (r : Queue) (d : Dev) : (setQueue q r d).pair = d.pair := rfl
@[simp] theorem setQueue_side (q : Nat) (r : Queue) (d : Dev) : (setQueue q r d).side = d.side := rfl
@[simp] theorem setQueue_fabTx (q : Nat) (r : Queue) (d : Dev) : (setQueue q r d).fabTx = d.fabTx := rfl
@[simp] theorem setQueue_ethTx (q : Nat) (r : Queue) (d : Dev) : (setQueue q r d).ethTx = d.ethTx := rfl
@[simp] theorem setQueue_trig (q : Nat) (r : Queue) (d : Dev) : (setQueue q r d).trig = d.trig := rfl

/-! ### setSess -/

@[simp] theorem setSess_pins (i : Nat) (x : Session) (d : Dev) : (setSess i x d).pins = d.pins := rfl
@[simp] theorem setSess_power (i : Nat) (x : Session) (d : Dev) : (setSess i x d).power = d.power := rfl
@[simp] theorem setSess_stk (i : Nat) (x : Session) (d : Dev) : (setSess i x d).stk = d.stk := rfl
@[simp] theorem setSess_cfg (i : Nat) (x : Session) (d : Dev) : (setSess i x d).cfg = d.cfg := rfl
@[simp] theorem setSess_banks (i : Nat) (x : Session) (d : Dev) : (setSess i x d).banks = d.banks := rfl
@[simp] theorem setSess_regs (i : Nat) (x : Session) (d : Dev) : (setSess i x d).regs = d.regs := rfl
@[simp] theorem setSess_inForce (i : Nat) (x : Session) (d : Dev) : (setSess i x d).inForce = d.inForce := rfl
@[simp] theorem setSess_mem (i : Nat) (x : Session) (d : Dev) : (setSess i x d).mem = d.mem := rfl
@[simp] theorem setSess_poison (i : Nat) (x : Session) (d : Dev) : (setSess i x d).poison = d.poison := rfl
@[simp] theorem setSess_scratch (i : Nat) (x : Session) (d : Dev) : (setSess i x d).scratch = d.scratch := rfl
@[simp] theorem setSess_crews (i : Nat) (x : Session) (d : Dev) : (setSess i x d).crews = d.crews := rfl
@[simp] theorem setSess_queues (i : Nat) (x : Session) (d : Dev) : (setSess i x d).queues = d.queues := rfl
@[simp] theorem setSess_contexts (i : Nat) (x : Session) (d : Dev) : (setSess i x d).contexts = d.contexts := rfl
@[simp] theorem setSess_regions (i : Nat) (x : Session) (d : Dev) : (setSess i x d).regions = d.regions := rfl
@[simp] theorem setSess_jobs (i : Nat) (x : Session) (d : Dev) : (setSess i x d).jobs = d.jobs := rfl
@[simp] theorem setSess_longops (i : Nat) (x : Session) (d : Dev) : (setSess i x d).longops = d.longops := rfl
@[simp] theorem setSess_items (i : Nat) (x : Session) (d : Dev) : (setSess i x d).items = d.items := rfl
@[simp] theorem setSess_dir (i : Nat) (x : Session) (d : Dev) : (setSess i x d).dir = d.dir := rfl
@[simp] theorem setSess_agents (i : Nat) (x : Session) (d : Dev) : (setSess i x d).agents = d.agents := rfl
@[simp] theorem setSess_pendingBuf (i : Nat) (x : Session) (d : Dev) : (setSess i x d).pendingBuf = d.pendingBuf := rfl
@[simp] theorem setSess_pages (i : Nat) (x : Session) (d : Dev) : (setSess i x d).pages = d.pages := rfl
@[simp] theorem setSess_wins (i : Nat) (x : Session) (d : Dev) : (setSess i x d).wins = d.wins := rfl
@[simp] theorem setSess_tables (i : Nat) (x : Session) (d : Dev) : (setSess i x d).tables = d.tables := rfl
@[simp] theorem setSess_indexes (i : Nat) (x : Session) (d : Dev) : (setSess i x d).indexes = d.indexes := rfl
@[simp] theorem setSess_profiles (i : Nat) (x : Session) (d : Dev) : (setSess i x d).profiles = d.profiles := rfl
@[simp] theorem setSess_log (i : Nat) (x : Session) (d : Dev) : (setSess i x d).log = d.log := rfl
@[simp] theorem setSess_flt (i : Nat) (x : Session) (d : Dev) : (setSess i x d).flt = d.flt := rfl
@[simp] theorem setSess_icu (i : Nat) (x : Session) (d : Dev) : (setSess i x d).icu = d.icu := rfl
@[simp] theorem setSess_tgts (i : Nat) (x : Session) (d : Dev) : (setSess i x d).tgts = d.tgts := rfl
@[simp] theorem setSess_ports (i : Nat) (x : Session) (d : Dev) : (setSess i x d).ports = d.ports := rfl
@[simp] theorem setSess_outstanding (i : Nat) (x : Session) (d : Dev) : (setSess i x d).outstanding = d.outstanding := rfl
@[simp] theorem setSess_pair (i : Nat) (x : Session) (d : Dev) : (setSess i x d).pair = d.pair := rfl
@[simp] theorem setSess_side (i : Nat) (x : Session) (d : Dev) : (setSess i x d).side = d.side := rfl
@[simp] theorem setSess_fabTx (i : Nat) (x : Session) (d : Dev) : (setSess i x d).fabTx = d.fabTx := rfl
@[simp] theorem setSess_ethTx (i : Nat) (x : Session) (d : Dev) : (setSess i x d).ethTx = d.ethTx := rfl
@[simp] theorem setSess_trig (i : Nat) (x : Session) (d : Dev) : (setSess i x d).trig = d.trig := rfl

/-! ### setJob -/

@[simp] theorem setJob_pins (i : Nat) (j : Job) (d : Dev) : (setJob i j d).pins = d.pins := rfl
@[simp] theorem setJob_power (i : Nat) (j : Job) (d : Dev) : (setJob i j d).power = d.power := rfl
@[simp] theorem setJob_stk (i : Nat) (j : Job) (d : Dev) : (setJob i j d).stk = d.stk := rfl
@[simp] theorem setJob_cfg (i : Nat) (j : Job) (d : Dev) : (setJob i j d).cfg = d.cfg := rfl
@[simp] theorem setJob_banks (i : Nat) (j : Job) (d : Dev) : (setJob i j d).banks = d.banks := rfl
@[simp] theorem setJob_regs (i : Nat) (j : Job) (d : Dev) : (setJob i j d).regs = d.regs := rfl
@[simp] theorem setJob_inForce (i : Nat) (j : Job) (d : Dev) : (setJob i j d).inForce = d.inForce := rfl
@[simp] theorem setJob_mem (i : Nat) (j : Job) (d : Dev) : (setJob i j d).mem = d.mem := rfl
@[simp] theorem setJob_poison (i : Nat) (j : Job) (d : Dev) : (setJob i j d).poison = d.poison := rfl
@[simp] theorem setJob_scratch (i : Nat) (j : Job) (d : Dev) : (setJob i j d).scratch = d.scratch := rfl
@[simp] theorem setJob_crews (i : Nat) (j : Job) (d : Dev) : (setJob i j d).crews = d.crews := rfl
@[simp] theorem setJob_queues (i : Nat) (j : Job) (d : Dev) : (setJob i j d).queues = d.queues := rfl
@[simp] theorem setJob_sessions (i : Nat) (j : Job) (d : Dev) : (setJob i j d).sessions = d.sessions := rfl
@[simp] theorem setJob_contexts (i : Nat) (j : Job) (d : Dev) : (setJob i j d).contexts = d.contexts := rfl
@[simp] theorem setJob_regions (i : Nat) (j : Job) (d : Dev) : (setJob i j d).regions = d.regions := rfl
@[simp] theorem setJob_longops (i : Nat) (j : Job) (d : Dev) : (setJob i j d).longops = d.longops := rfl
@[simp] theorem setJob_items (i : Nat) (j : Job) (d : Dev) : (setJob i j d).items = d.items := rfl
@[simp] theorem setJob_dir (i : Nat) (j : Job) (d : Dev) : (setJob i j d).dir = d.dir := rfl
@[simp] theorem setJob_agents (i : Nat) (j : Job) (d : Dev) : (setJob i j d).agents = d.agents := rfl
@[simp] theorem setJob_pendingBuf (i : Nat) (j : Job) (d : Dev) : (setJob i j d).pendingBuf = d.pendingBuf := rfl
@[simp] theorem setJob_pages (i : Nat) (j : Job) (d : Dev) : (setJob i j d).pages = d.pages := rfl
@[simp] theorem setJob_wins (i : Nat) (j : Job) (d : Dev) : (setJob i j d).wins = d.wins := rfl
@[simp] theorem setJob_tables (i : Nat) (j : Job) (d : Dev) : (setJob i j d).tables = d.tables := rfl
@[simp] theorem setJob_indexes (i : Nat) (j : Job) (d : Dev) : (setJob i j d).indexes = d.indexes := rfl
@[simp] theorem setJob_profiles (i : Nat) (j : Job) (d : Dev) : (setJob i j d).profiles = d.profiles := rfl
@[simp] theorem setJob_log (i : Nat) (j : Job) (d : Dev) : (setJob i j d).log = d.log := rfl
@[simp] theorem setJob_flt (i : Nat) (j : Job) (d : Dev) : (setJob i j d).flt = d.flt := rfl
@[simp] theorem setJob_icu (i : Nat) (j : Job) (d : Dev) : (setJob i j d).icu = d.icu := rfl
@[simp] theorem setJob_tgts (i : Nat) (j : Job) (d : Dev) : (setJob i j d).tgts = d.tgts := rfl
@[simp] theorem setJob_ports (i : Nat) (j : Job) (d : Dev) : (setJob i j d).ports = d.ports := rfl
@[simp] theorem setJob_outstanding (i : Nat) (j : Job) (d : Dev) : (setJob i j d).outstanding = d.outstanding := rfl
@[simp] theorem setJob_pair (i : Nat) (j : Job) (d : Dev) : (setJob i j d).pair = d.pair := rfl
@[simp] theorem setJob_side (i : Nat) (j : Job) (d : Dev) : (setJob i j d).side = d.side := rfl
@[simp] theorem setJob_fabTx (i : Nat) (j : Job) (d : Dev) : (setJob i j d).fabTx = d.fabTx := rfl
@[simp] theorem setJob_ethTx (i : Nat) (j : Job) (d : Dev) : (setJob i j d).ethTx = d.ethTx := rfl
@[simp] theorem setJob_trig (i : Nat) (j : Job) (d : Dev) : (setJob i j d).trig = d.trig := rfl

/-! ### modCrew -/

@[simp] theorem modCrew_pins (n : Nat) (f : Crew → Crew) (d : Dev) : (modCrew n f d).pins = d.pins := rfl
@[simp] theorem modCrew_power (n : Nat) (f : Crew → Crew) (d : Dev) : (modCrew n f d).power = d.power := rfl
@[simp] theorem modCrew_stk (n : Nat) (f : Crew → Crew) (d : Dev) : (modCrew n f d).stk = d.stk := rfl
@[simp] theorem modCrew_cfg (n : Nat) (f : Crew → Crew) (d : Dev) : (modCrew n f d).cfg = d.cfg := rfl
@[simp] theorem modCrew_banks (n : Nat) (f : Crew → Crew) (d : Dev) : (modCrew n f d).banks = d.banks := rfl
@[simp] theorem modCrew_regs (n : Nat) (f : Crew → Crew) (d : Dev) : (modCrew n f d).regs = d.regs := rfl
@[simp] theorem modCrew_inForce (n : Nat) (f : Crew → Crew) (d : Dev) : (modCrew n f d).inForce = d.inForce := rfl
@[simp] theorem modCrew_mem (n : Nat) (f : Crew → Crew) (d : Dev) : (modCrew n f d).mem = d.mem := rfl
@[simp] theorem modCrew_poison (n : Nat) (f : Crew → Crew) (d : Dev) : (modCrew n f d).poison = d.poison := rfl
@[simp] theorem modCrew_scratch (n : Nat) (f : Crew → Crew) (d : Dev) : (modCrew n f d).scratch = d.scratch := rfl
@[simp] theorem modCrew_queues (n : Nat) (f : Crew → Crew) (d : Dev) : (modCrew n f d).queues = d.queues := rfl
@[simp] theorem modCrew_sessions (n : Nat) (f : Crew → Crew) (d : Dev) : (modCrew n f d).sessions = d.sessions := rfl
@[simp] theorem modCrew_contexts (n : Nat) (f : Crew → Crew) (d : Dev) : (modCrew n f d).contexts = d.contexts := rfl
@[simp] theorem modCrew_regions (n : Nat) (f : Crew → Crew) (d : Dev) : (modCrew n f d).regions = d.regions := rfl
@[simp] theorem modCrew_jobs (n : Nat) (f : Crew → Crew) (d : Dev) : (modCrew n f d).jobs = d.jobs := rfl
@[simp] theorem modCrew_longops (n : Nat) (f : Crew → Crew) (d : Dev) : (modCrew n f d).longops = d.longops := rfl
@[simp] theorem modCrew_items (n : Nat) (f : Crew → Crew) (d : Dev) : (modCrew n f d).items = d.items := rfl
@[simp] theorem modCrew_dir (n : Nat) (f : Crew → Crew) (d : Dev) : (modCrew n f d).dir = d.dir := rfl
@[simp] theorem modCrew_agents (n : Nat) (f : Crew → Crew) (d : Dev) : (modCrew n f d).agents = d.agents := rfl
@[simp] theorem modCrew_pendingBuf (n : Nat) (f : Crew → Crew) (d : Dev) : (modCrew n f d).pendingBuf = d.pendingBuf := rfl
@[simp] theorem modCrew_pages (n : Nat) (f : Crew → Crew) (d : Dev) : (modCrew n f d).pages = d.pages := rfl
@[simp] theorem modCrew_wins (n : Nat) (f : Crew → Crew) (d : Dev) : (modCrew n f d).wins = d.wins := rfl
@[simp] theorem modCrew_tables (n : Nat) (f : Crew → Crew) (d : Dev) : (modCrew n f d).tables = d.tables := rfl
@[simp] theorem modCrew_indexes (n : Nat) (f : Crew → Crew) (d : Dev) : (modCrew n f d).indexes = d.indexes := rfl
@[simp] theorem modCrew_profiles (n : Nat) (f : Crew → Crew) (d : Dev) : (modCrew n f d).profiles = d.profiles := rfl
@[simp] theorem modCrew_log (n : Nat) (f : Crew → Crew) (d : Dev) : (modCrew n f d).log = d.log := rfl
@[simp] theorem modCrew_flt (n : Nat) (f : Crew → Crew) (d : Dev) : (modCrew n f d).flt = d.flt := rfl
@[simp] theorem modCrew_icu (n : Nat) (f : Crew → Crew) (d : Dev) : (modCrew n f d).icu = d.icu := rfl
@[simp] theorem modCrew_tgts (n : Nat) (f : Crew → Crew) (d : Dev) : (modCrew n f d).tgts = d.tgts := rfl
@[simp] theorem modCrew_ports (n : Nat) (f : Crew → Crew) (d : Dev) : (modCrew n f d).ports = d.ports := rfl
@[simp] theorem modCrew_outstanding (n : Nat) (f : Crew → Crew) (d : Dev) : (modCrew n f d).outstanding = d.outstanding := rfl
@[simp] theorem modCrew_pair (n : Nat) (f : Crew → Crew) (d : Dev) : (modCrew n f d).pair = d.pair := rfl
@[simp] theorem modCrew_side (n : Nat) (f : Crew → Crew) (d : Dev) : (modCrew n f d).side = d.side := rfl
@[simp] theorem modCrew_fabTx (n : Nat) (f : Crew → Crew) (d : Dev) : (modCrew n f d).fabTx = d.fabTx := rfl
@[simp] theorem modCrew_ethTx (n : Nat) (f : Crew → Crew) (d : Dev) : (modCrew n f d).ethTx = d.ethTx := rfl
@[simp] theorem modCrew_trig (n : Nat) (f : Crew → Crew) (d : Dev) : (modCrew n f d).trig = d.trig := rfl

/-! ### modRegion -/

@[simp] theorem modRegion_pins (n : Nat) (f : Region → Region) (d : Dev) : (modRegion n f d).pins = d.pins := rfl
@[simp] theorem modRegion_power (n : Nat) (f : Region → Region) (d : Dev) : (modRegion n f d).power = d.power := rfl
@[simp] theorem modRegion_stk (n : Nat) (f : Region → Region) (d : Dev) : (modRegion n f d).stk = d.stk := rfl
@[simp] theorem modRegion_cfg (n : Nat) (f : Region → Region) (d : Dev) : (modRegion n f d).cfg = d.cfg := rfl
@[simp] theorem modRegion_banks (n : Nat) (f : Region → Region) (d : Dev) : (modRegion n f d).banks = d.banks := rfl
@[simp] theorem modRegion_regs (n : Nat) (f : Region → Region) (d : Dev) : (modRegion n f d).regs = d.regs := rfl
@[simp] theorem modRegion_inForce (n : Nat) (f : Region → Region) (d : Dev) : (modRegion n f d).inForce = d.inForce := rfl
@[simp] theorem modRegion_mem (n : Nat) (f : Region → Region) (d : Dev) : (modRegion n f d).mem = d.mem := rfl
@[simp] theorem modRegion_poison (n : Nat) (f : Region → Region) (d : Dev) : (modRegion n f d).poison = d.poison := rfl
@[simp] theorem modRegion_scratch (n : Nat) (f : Region → Region) (d : Dev) : (modRegion n f d).scratch = d.scratch := rfl
@[simp] theorem modRegion_crews (n : Nat) (f : Region → Region) (d : Dev) : (modRegion n f d).crews = d.crews := rfl
@[simp] theorem modRegion_queues (n : Nat) (f : Region → Region) (d : Dev) : (modRegion n f d).queues = d.queues := rfl
@[simp] theorem modRegion_sessions (n : Nat) (f : Region → Region) (d : Dev) : (modRegion n f d).sessions = d.sessions := rfl
@[simp] theorem modRegion_contexts (n : Nat) (f : Region → Region) (d : Dev) : (modRegion n f d).contexts = d.contexts := rfl
@[simp] theorem modRegion_jobs (n : Nat) (f : Region → Region) (d : Dev) : (modRegion n f d).jobs = d.jobs := rfl
@[simp] theorem modRegion_longops (n : Nat) (f : Region → Region) (d : Dev) : (modRegion n f d).longops = d.longops := rfl
@[simp] theorem modRegion_items (n : Nat) (f : Region → Region) (d : Dev) : (modRegion n f d).items = d.items := rfl
@[simp] theorem modRegion_dir (n : Nat) (f : Region → Region) (d : Dev) : (modRegion n f d).dir = d.dir := rfl
@[simp] theorem modRegion_agents (n : Nat) (f : Region → Region) (d : Dev) : (modRegion n f d).agents = d.agents := rfl
@[simp] theorem modRegion_pendingBuf (n : Nat) (f : Region → Region) (d : Dev) : (modRegion n f d).pendingBuf = d.pendingBuf := rfl
@[simp] theorem modRegion_pages (n : Nat) (f : Region → Region) (d : Dev) : (modRegion n f d).pages = d.pages := rfl
@[simp] theorem modRegion_wins (n : Nat) (f : Region → Region) (d : Dev) : (modRegion n f d).wins = d.wins := rfl
@[simp] theorem modRegion_tables (n : Nat) (f : Region → Region) (d : Dev) : (modRegion n f d).tables = d.tables := rfl
@[simp] theorem modRegion_indexes (n : Nat) (f : Region → Region) (d : Dev) : (modRegion n f d).indexes = d.indexes := rfl
@[simp] theorem modRegion_profiles (n : Nat) (f : Region → Region) (d : Dev) : (modRegion n f d).profiles = d.profiles := rfl
@[simp] theorem modRegion_log (n : Nat) (f : Region → Region) (d : Dev) : (modRegion n f d).log = d.log := rfl
@[simp] theorem modRegion_flt (n : Nat) (f : Region → Region) (d : Dev) : (modRegion n f d).flt = d.flt := rfl
@[simp] theorem modRegion_icu (n : Nat) (f : Region → Region) (d : Dev) : (modRegion n f d).icu = d.icu := rfl
@[simp] theorem modRegion_tgts (n : Nat) (f : Region → Region) (d : Dev) : (modRegion n f d).tgts = d.tgts := rfl
@[simp] theorem modRegion_ports (n : Nat) (f : Region → Region) (d : Dev) : (modRegion n f d).ports = d.ports := rfl
@[simp] theorem modRegion_outstanding (n : Nat) (f : Region → Region) (d : Dev) : (modRegion n f d).outstanding = d.outstanding := rfl
@[simp] theorem modRegion_pair (n : Nat) (f : Region → Region) (d : Dev) : (modRegion n f d).pair = d.pair := rfl
@[simp] theorem modRegion_side (n : Nat) (f : Region → Region) (d : Dev) : (modRegion n f d).side = d.side := rfl
@[simp] theorem modRegion_fabTx (n : Nat) (f : Region → Region) (d : Dev) : (modRegion n f d).fabTx = d.fabTx := rfl
@[simp] theorem modRegion_ethTx (n : Nat) (f : Region → Region) (d : Dev) : (modRegion n f d).ethTx = d.ethTx := rfl
@[simp] theorem modRegion_trig (n : Nat) (f : Region → Region) (d : Dev) : (modRegion n f d).trig = d.trig := rfl

/-! ### setOp -/

@[simp] theorem setOp_pins (i : Nat) (l : LongOp) (d : Dev) : (setOp i l d).pins = d.pins := rfl
@[simp] theorem setOp_power (i : Nat) (l : LongOp) (d : Dev) : (setOp i l d).power = d.power := rfl
@[simp] theorem setOp_stk (i : Nat) (l : LongOp) (d : Dev) : (setOp i l d).stk = d.stk := rfl
@[simp] theorem setOp_cfg (i : Nat) (l : LongOp) (d : Dev) : (setOp i l d).cfg = d.cfg := rfl
@[simp] theorem setOp_banks (i : Nat) (l : LongOp) (d : Dev) : (setOp i l d).banks = d.banks := rfl
@[simp] theorem setOp_regs (i : Nat) (l : LongOp) (d : Dev) : (setOp i l d).regs = d.regs := rfl
@[simp] theorem setOp_inForce (i : Nat) (l : LongOp) (d : Dev) : (setOp i l d).inForce = d.inForce := rfl
@[simp] theorem setOp_mem (i : Nat) (l : LongOp) (d : Dev) : (setOp i l d).mem = d.mem := rfl
@[simp] theorem setOp_poison (i : Nat) (l : LongOp) (d : Dev) : (setOp i l d).poison = d.poison := rfl
@[simp] theorem setOp_scratch (i : Nat) (l : LongOp) (d : Dev) : (setOp i l d).scratch = d.scratch := rfl
@[simp] theorem setOp_crews (i : Nat) (l : LongOp) (d : Dev) : (setOp i l d).crews = d.crews := rfl
@[simp] theorem setOp_queues (i : Nat) (l : LongOp) (d : Dev) : (setOp i l d).queues = d.queues := rfl
@[simp] theorem setOp_sessions (i : Nat) (l : LongOp) (d : Dev) : (setOp i l d).sessions = d.sessions := rfl
@[simp] theorem setOp_contexts (i : Nat) (l : LongOp) (d : Dev) : (setOp i l d).contexts = d.contexts := rfl
@[simp] theorem setOp_regions (i : Nat) (l : LongOp) (d : Dev) : (setOp i l d).regions = d.regions := rfl
@[simp] theorem setOp_jobs (i : Nat) (l : LongOp) (d : Dev) : (setOp i l d).jobs = d.jobs := rfl
@[simp] theorem setOp_items (i : Nat) (l : LongOp) (d : Dev) : (setOp i l d).items = d.items := rfl
@[simp] theorem setOp_dir (i : Nat) (l : LongOp) (d : Dev) : (setOp i l d).dir = d.dir := rfl
@[simp] theorem setOp_agents (i : Nat) (l : LongOp) (d : Dev) : (setOp i l d).agents = d.agents := rfl
@[simp] theorem setOp_pendingBuf (i : Nat) (l : LongOp) (d : Dev) : (setOp i l d).pendingBuf = d.pendingBuf := rfl
@[simp] theorem setOp_pages (i : Nat) (l : LongOp) (d : Dev) : (setOp i l d).pages = d.pages := rfl
@[simp] theorem setOp_wins (i : Nat) (l : LongOp) (d : Dev) : (setOp i l d).wins = d.wins := rfl
@[simp] theorem setOp_tables (i : Nat) (l : LongOp) (d : Dev) : (setOp i l d).tables = d.tables := rfl
@[simp] theorem setOp_indexes (i : Nat) (l : LongOp) (d : Dev) : (setOp i l d).indexes = d.indexes := rfl
@[simp] theorem setOp_profiles (i : Nat) (l : LongOp) (d : Dev) : (setOp i l d).profiles = d.profiles := rfl
@[simp] theorem setOp_log (i : Nat) (l : LongOp) (d : Dev) : (setOp i l d).log = d.log := rfl
@[simp] theorem setOp_flt (i : Nat) (l : LongOp) (d : Dev) : (setOp i l d).flt = d.flt := rfl
@[simp] theorem setOp_icu (i : Nat) (l : LongOp) (d : Dev) : (setOp i l d).icu = d.icu := rfl
@[simp] theorem setOp_tgts (i : Nat) (l : LongOp) (d : Dev) : (setOp i l d).tgts = d.tgts := rfl
@[simp] theorem setOp_ports (i : Nat) (l : LongOp) (d : Dev) : (setOp i l d).ports = d.ports := rfl
@[simp] theorem setOp_outstanding (i : Nat) (l : LongOp) (d : Dev) : (setOp i l d).outstanding = d.outstanding := rfl
@[simp] theorem setOp_pair (i : Nat) (l : LongOp) (d : Dev) : (setOp i l d).pair = d.pair := rfl
@[simp] theorem setOp_side (i : Nat) (l : LongOp) (d : Dev) : (setOp i l d).side = d.side := rfl
@[simp] theorem setOp_fabTx (i : Nat) (l : LongOp) (d : Dev) : (setOp i l d).fabTx = d.fabTx := rfl
@[simp] theorem setOp_ethTx (i : Nat) (l : LongOp) (d : Dev) : (setOp i l d).ethTx = d.ethTx := rfl
@[simp] theorem setOp_trig (i : Nat) (l : LongOp) (d : Dev) : (setOp i l d).trig = d.trig := rfl

/-! ### modOp -/

@[simp] theorem modOp_pins (i : Nat) (f : LongOp → LongOp) (d : Dev) : (modOp i f d).pins = d.pins := rfl
@[simp] theorem modOp_power (i : Nat) (f : LongOp → LongOp) (d : Dev) : (modOp i f d).power = d.power := rfl
@[simp] theorem modOp_stk (i : Nat) (f : LongOp → LongOp) (d : Dev) : (modOp i f d).stk = d.stk := rfl
@[simp] theorem modOp_cfg (i : Nat) (f : LongOp → LongOp) (d : Dev) : (modOp i f d).cfg = d.cfg := rfl
@[simp] theorem modOp_banks (i : Nat) (f : LongOp → LongOp) (d : Dev) : (modOp i f d).banks = d.banks := rfl
@[simp] theorem modOp_regs (i : Nat) (f : LongOp → LongOp) (d : Dev) : (modOp i f d).regs = d.regs := rfl
@[simp] theorem modOp_inForce (i : Nat) (f : LongOp → LongOp) (d : Dev) : (modOp i f d).inForce = d.inForce := rfl
@[simp] theorem modOp_mem (i : Nat) (f : LongOp → LongOp) (d : Dev) : (modOp i f d).mem = d.mem := rfl
@[simp] theorem modOp_poison (i : Nat) (f : LongOp → LongOp) (d : Dev) : (modOp i f d).poison = d.poison := rfl
@[simp] theorem modOp_scratch (i : Nat) (f : LongOp → LongOp) (d : Dev) : (modOp i f d).scratch = d.scratch := rfl
@[simp] theorem modOp_crews (i : Nat) (f : LongOp → LongOp) (d : Dev) : (modOp i f d).crews = d.crews := rfl
@[simp] theorem modOp_queues (i : Nat) (f : LongOp → LongOp) (d : Dev) : (modOp i f d).queues = d.queues := rfl
@[simp] theorem modOp_sessions (i : Nat) (f : LongOp → LongOp) (d : Dev) : (modOp i f d).sessions = d.sessions := rfl
@[simp] theorem modOp_contexts (i : Nat) (f : LongOp → LongOp) (d : Dev) : (modOp i f d).contexts = d.contexts := rfl
@[simp] theorem modOp_regions (i : Nat) (f : LongOp → LongOp) (d : Dev) : (modOp i f d).regions = d.regions := rfl
@[simp] theorem modOp_jobs (i : Nat) (f : LongOp → LongOp) (d : Dev) : (modOp i f d).jobs = d.jobs := rfl
@[simp] theorem modOp_items (i : Nat) (f : LongOp → LongOp) (d : Dev) : (modOp i f d).items = d.items := rfl
@[simp] theorem modOp_dir (i : Nat) (f : LongOp → LongOp) (d : Dev) : (modOp i f d).dir = d.dir := rfl
@[simp] theorem modOp_agents (i : Nat) (f : LongOp → LongOp) (d : Dev) : (modOp i f d).agents = d.agents := rfl
@[simp] theorem modOp_pendingBuf (i : Nat) (f : LongOp → LongOp) (d : Dev) : (modOp i f d).pendingBuf = d.pendingBuf := rfl
@[simp] theorem modOp_pages (i : Nat) (f : LongOp → LongOp) (d : Dev) : (modOp i f d).pages = d.pages := rfl
@[simp] theorem modOp_wins (i : Nat) (f : LongOp → LongOp) (d : Dev) : (modOp i f d).wins = d.wins := rfl
@[simp] theorem modOp_tables (i : Nat) (f : LongOp → LongOp) (d : Dev) : (modOp i f d).tables = d.tables := rfl
@[simp] theorem modOp_indexes (i : Nat) (f : LongOp → LongOp) (d : Dev) : (modOp i f d).indexes = d.indexes := rfl
@[simp] theorem modOp_profiles (i : Nat) (f : LongOp → LongOp) (d : Dev) : (modOp i f d).profiles = d.profiles := rfl
@[simp] theorem modOp_log (i : Nat) (f : LongOp → LongOp) (d : Dev) : (modOp i f d).log = d.log := rfl
@[simp] theorem modOp_flt (i : Nat) (f : LongOp → LongOp) (d : Dev) : (modOp i f d).flt = d.flt := rfl
@[simp] theorem modOp_icu (i : Nat) (f : LongOp → LongOp) (d : Dev) : (modOp i f d).icu = d.icu := rfl
@[simp] theorem modOp_tgts (i : Nat) (f : LongOp → LongOp) (d : Dev) : (modOp i f d).tgts = d.tgts := rfl
@[simp] theorem modOp_ports (i : Nat) (f : LongOp → LongOp) (d : Dev) : (modOp i f d).ports = d.ports := rfl
@[simp] theorem modOp_outstanding (i : Nat) (f : LongOp → LongOp) (d : Dev) : (modOp i f d).outstanding = d.outstanding := rfl
@[simp] theorem modOp_pair (i : Nat) (f : LongOp → LongOp) (d : Dev) : (modOp i f d).pair = d.pair := rfl
@[simp] theorem modOp_side (i : Nat) (f : LongOp → LongOp) (d : Dev) : (modOp i f d).side = d.side := rfl
@[simp] theorem modOp_fabTx (i : Nat) (f : LongOp → LongOp) (d : Dev) : (modOp i f d).fabTx = d.fabTx := rfl
@[simp] theorem modOp_ethTx (i : Nat) (f : LongOp → LongOp) (d : Dev) : (modOp i f d).ethTx = d.ethTx := rfl
@[simp] theorem modOp_trig (i : Nat) (f : LongOp → LongOp) (d : Dev) : (modOp i f d).trig = d.trig := rfl

/-! ### setTable -/

@[simp] theorem setTable_pins (t : Nat) (x : EmbTable) (d : Dev) : (setTable t x d).pins = d.pins := rfl
@[simp] theorem setTable_power (t : Nat) (x : EmbTable) (d : Dev) : (setTable t x d).power = d.power := rfl
@[simp] theorem setTable_stk (t : Nat) (x : EmbTable) (d : Dev) : (setTable t x d).stk = d.stk := rfl
@[simp] theorem setTable_cfg (t : Nat) (x : EmbTable) (d : Dev) : (setTable t x d).cfg = d.cfg := rfl
@[simp] theorem setTable_banks (t : Nat) (x : EmbTable) (d : Dev) : (setTable t x d).banks = d.banks := rfl
@[simp] theorem setTable_regs (t : Nat) (x : EmbTable) (d : Dev) : (setTable t x d).regs = d.regs := rfl
@[simp] theorem setTable_inForce (t : Nat) (x : EmbTable) (d : Dev) : (setTable t x d).inForce = d.inForce := rfl
@[simp] theorem setTable_mem (t : Nat) (x : EmbTable) (d : Dev) : (setTable t x d).mem = d.mem := rfl
@[simp] theorem setTable_poison (t : Nat) (x : EmbTable) (d : Dev) : (setTable t x d).poison = d.poison := rfl
@[simp] theorem setTable_scratch (t : Nat) (x : EmbTable) (d : Dev) : (setTable t x d).scratch = d.scratch := rfl
@[simp] theorem setTable_crews (t : Nat) (x : EmbTable) (d : Dev) : (setTable t x d).crews = d.crews := rfl
@[simp] theorem setTable_queues (t : Nat) (x : EmbTable) (d : Dev) : (setTable t x d).queues = d.queues := rfl
@[simp] theorem setTable_sessions (t : Nat) (x : EmbTable) (d : Dev) : (setTable t x d).sessions = d.sessions := rfl
@[simp] theorem setTable_contexts (t : Nat) (x : EmbTable) (d : Dev) : (setTable t x d).contexts = d.contexts := rfl
@[simp] theorem setTable_regions (t : Nat) (x : EmbTable) (d : Dev) : (setTable t x d).regions = d.regions := rfl
@[simp] theorem setTable_jobs (t : Nat) (x : EmbTable) (d : Dev) : (setTable t x d).jobs = d.jobs := rfl
@[simp] theorem setTable_longops (t : Nat) (x : EmbTable) (d : Dev) : (setTable t x d).longops = d.longops := rfl
@[simp] theorem setTable_items (t : Nat) (x : EmbTable) (d : Dev) : (setTable t x d).items = d.items := rfl
@[simp] theorem setTable_dir (t : Nat) (x : EmbTable) (d : Dev) : (setTable t x d).dir = d.dir := rfl
@[simp] theorem setTable_agents (t : Nat) (x : EmbTable) (d : Dev) : (setTable t x d).agents = d.agents := rfl
@[simp] theorem setTable_pendingBuf (t : Nat) (x : EmbTable) (d : Dev) : (setTable t x d).pendingBuf = d.pendingBuf := rfl
@[simp] theorem setTable_pages (t : Nat) (x : EmbTable) (d : Dev) : (setTable t x d).pages = d.pages := rfl
@[simp] theorem setTable_wins (t : Nat) (x : EmbTable) (d : Dev) : (setTable t x d).wins = d.wins := rfl
@[simp] theorem setTable_indexes (t : Nat) (x : EmbTable) (d : Dev) : (setTable t x d).indexes = d.indexes := rfl
@[simp] theorem setTable_profiles (t : Nat) (x : EmbTable) (d : Dev) : (setTable t x d).profiles = d.profiles := rfl
@[simp] theorem setTable_log (t : Nat) (x : EmbTable) (d : Dev) : (setTable t x d).log = d.log := rfl
@[simp] theorem setTable_flt (t : Nat) (x : EmbTable) (d : Dev) : (setTable t x d).flt = d.flt := rfl
@[simp] theorem setTable_icu (t : Nat) (x : EmbTable) (d : Dev) : (setTable t x d).icu = d.icu := rfl
@[simp] theorem setTable_tgts (t : Nat) (x : EmbTable) (d : Dev) : (setTable t x d).tgts = d.tgts := rfl
@[simp] theorem setTable_ports (t : Nat) (x : EmbTable) (d : Dev) : (setTable t x d).ports = d.ports := rfl
@[simp] theorem setTable_outstanding (t : Nat) (x : EmbTable) (d : Dev) : (setTable t x d).outstanding = d.outstanding := rfl
@[simp] theorem setTable_pair (t : Nat) (x : EmbTable) (d : Dev) : (setTable t x d).pair = d.pair := rfl
@[simp] theorem setTable_side (t : Nat) (x : EmbTable) (d : Dev) : (setTable t x d).side = d.side := rfl
@[simp] theorem setTable_fabTx (t : Nat) (x : EmbTable) (d : Dev) : (setTable t x d).fabTx = d.fabTx := rfl
@[simp] theorem setTable_ethTx (t : Nat) (x : EmbTable) (d : Dev) : (setTable t x d).ethTx = d.ethTx := rfl
@[simp] theorem setTable_trig (t : Nat) (x : EmbTable) (d : Dev) : (setTable t x d).trig = d.trig := rfl

/-! ### setIndex -/

@[simp] theorem setIndex_pins (i : Nat) (x : Index) (d : Dev) : (setIndex i x d).pins = d.pins := rfl
@[simp] theorem setIndex_power (i : Nat) (x : Index) (d : Dev) : (setIndex i x d).power = d.power := rfl
@[simp] theorem setIndex_stk (i : Nat) (x : Index) (d : Dev) : (setIndex i x d).stk = d.stk := rfl
@[simp] theorem setIndex_cfg (i : Nat) (x : Index) (d : Dev) : (setIndex i x d).cfg = d.cfg := rfl
@[simp] theorem setIndex_banks (i : Nat) (x : Index) (d : Dev) : (setIndex i x d).banks = d.banks := rfl
@[simp] theorem setIndex_regs (i : Nat) (x : Index) (d : Dev) : (setIndex i x d).regs = d.regs := rfl
@[simp] theorem setIndex_inForce (i : Nat) (x : Index) (d : Dev) : (setIndex i x d).inForce = d.inForce := rfl
@[simp] theorem setIndex_mem (i : Nat) (x : Index) (d : Dev) : (setIndex i x d).mem = d.mem := rfl
@[simp] theorem setIndex_poison (i : Nat) (x : Index) (d : Dev) : (setIndex i x d).poison = d.poison := rfl
@[simp] theorem setIndex_scratch (i : Nat) (x : Index) (d : Dev) : (setIndex i x d).scratch = d.scratch := rfl
@[simp] theorem setIndex_crews (i : Nat) (x : Index) (d : Dev) : (setIndex i x d).crews = d.crews := rfl
@[simp] theorem setIndex_queues (i : Nat) (x : Index) (d : Dev) : (setIndex i x d).queues = d.queues := rfl
@[simp] theorem setIndex_sessions (i : Nat) (x : Index) (d : Dev) : (setIndex i x d).sessions = d.sessions := rfl
@[simp] theorem setIndex_contexts (i : Nat) (x : Index) (d : Dev) : (setIndex i x d).contexts = d.contexts := rfl
@[simp] theorem setIndex_regions (i : Nat) (x : Index) (d : Dev) : (setIndex i x d).regions = d.regions := rfl
@[simp] theorem setIndex_jobs (i : Nat) (x : Index) (d : Dev) : (setIndex i x d).jobs = d.jobs := rfl
@[simp] theorem setIndex_longops (i : Nat) (x : Index) (d : Dev) : (setIndex i x d).longops = d.longops := rfl
@[simp] theorem setIndex_items (i : Nat) (x : Index) (d : Dev) : (setIndex i x d).items = d.items := rfl
@[simp] theorem setIndex_dir (i : Nat) (x : Index) (d : Dev) : (setIndex i x d).dir = d.dir := rfl
@[simp] theorem setIndex_agents (i : Nat) (x : Index) (d : Dev) : (setIndex i x d).agents = d.agents := rfl
@[simp] theorem setIndex_pendingBuf (i : Nat) (x : Index) (d : Dev) : (setIndex i x d).pendingBuf = d.pendingBuf := rfl
@[simp] theorem setIndex_pages (i : Nat) (x : Index) (d : Dev) : (setIndex i x d).pages = d.pages := rfl
@[simp] theorem setIndex_wins (i : Nat) (x : Index) (d : Dev) : (setIndex i x d).wins = d.wins := rfl
@[simp] theorem setIndex_tables (i : Nat) (x : Index) (d : Dev) : (setIndex i x d).tables = d.tables := rfl
@[simp] theorem setIndex_profiles (i : Nat) (x : Index) (d : Dev) : (setIndex i x d).profiles = d.profiles := rfl
@[simp] theorem setIndex_log (i : Nat) (x : Index) (d : Dev) : (setIndex i x d).log = d.log := rfl
@[simp] theorem setIndex_flt (i : Nat) (x : Index) (d : Dev) : (setIndex i x d).flt = d.flt := rfl
@[simp] theorem setIndex_icu (i : Nat) (x : Index) (d : Dev) : (setIndex i x d).icu = d.icu := rfl
@[simp] theorem setIndex_tgts (i : Nat) (x : Index) (d : Dev) : (setIndex i x d).tgts = d.tgts := rfl
@[simp] theorem setIndex_ports (i : Nat) (x : Index) (d : Dev) : (setIndex i x d).ports = d.ports := rfl
@[simp] theorem setIndex_outstanding (i : Nat) (x : Index) (d : Dev) : (setIndex i x d).outstanding = d.outstanding := rfl
@[simp] theorem setIndex_pair (i : Nat) (x : Index) (d : Dev) : (setIndex i x d).pair = d.pair := rfl
@[simp] theorem setIndex_side (i : Nat) (x : Index) (d : Dev) : (setIndex i x d).side = d.side := rfl
@[simp] theorem setIndex_fabTx (i : Nat) (x : Index) (d : Dev) : (setIndex i x d).fabTx = d.fabTx := rfl
@[simp] theorem setIndex_ethTx (i : Nat) (x : Index) (d : Dev) : (setIndex i x d).ethTx = d.ethTx := rfl
@[simp] theorem setIndex_trig (i : Nat) (x : Index) (d : Dev) : (setIndex i x d).trig = d.trig := rfl

/-! ### setProf -/

@[simp] theorem setProf_pins (p : Nat) (x : Profile) (d : Dev) : (setProf p x d).pins = d.pins := rfl
@[simp] theorem setProf_power (p : Nat) (x : Profile) (d : Dev) : (setProf p x d).power = d.power := rfl
@[simp] theorem setProf_stk (p : Nat) (x : Profile) (d : Dev) : (setProf p x d).stk = d.stk := rfl
@[simp] theorem setProf_cfg (p : Nat) (x : Profile) (d : Dev) : (setProf p x d).cfg = d.cfg := rfl
@[simp] theorem setProf_banks (p : Nat) (x : Profile) (d : Dev) : (setProf p x d).banks = d.banks := rfl
@[simp] theorem setProf_regs (p : Nat) (x : Profile) (d : Dev) : (setProf p x d).regs = d.regs := rfl
@[simp] theorem setProf_inForce (p : Nat) (x : Profile) (d : Dev) : (setProf p x d).inForce = d.inForce := rfl
@[simp] theorem setProf_mem (p : Nat) (x : Profile) (d : Dev) : (setProf p x d).mem = d.mem := rfl
@[simp] theorem setProf_poison (p : Nat) (x : Profile) (d : Dev) : (setProf p x d).poison = d.poison := rfl
@[simp] theorem setProf_scratch (p : Nat) (x : Profile) (d : Dev) : (setProf p x d).scratch = d.scratch := rfl
@[simp] theorem setProf_crews (p : Nat) (x : Profile) (d : Dev) : (setProf p x d).crews = d.crews := rfl
@[simp] theorem setProf_queues (p : Nat) (x : Profile) (d : Dev) : (setProf p x d).queues = d.queues := rfl
@[simp] theorem setProf_sessions (p : Nat) (x : Profile) (d : Dev) : (setProf p x d).sessions = d.sessions := rfl
@[simp] theorem setProf_contexts (p : Nat) (x : Profile) (d : Dev) : (setProf p x d).contexts = d.contexts := rfl
@[simp] theorem setProf_regions (p : Nat) (x : Profile) (d : Dev) : (setProf p x d).regions = d.regions := rfl
@[simp] theorem setProf_jobs (p : Nat) (x : Profile) (d : Dev) : (setProf p x d).jobs = d.jobs := rfl
@[simp] theorem setProf_longops (p : Nat) (x : Profile) (d : Dev) : (setProf p x d).longops = d.longops := rfl
@[simp] theorem setProf_items (p : Nat) (x : Profile) (d : Dev) : (setProf p x d).items = d.items := rfl
@[simp] theorem setProf_dir (p : Nat) (x : Profile) (d : Dev) : (setProf p x d).dir = d.dir := rfl
@[simp] theorem setProf_agents (p : Nat) (x : Profile) (d : Dev) : (setProf p x d).agents = d.agents := rfl
@[simp] theorem setProf_pendingBuf (p : Nat) (x : Profile) (d : Dev) : (setProf p x d).pendingBuf = d.pendingBuf := rfl
@[simp] theorem setProf_pages (p : Nat) (x : Profile) (d : Dev) : (setProf p x d).pages = d.pages := rfl
@[simp] theorem setProf_wins (p : Nat) (x : Profile) (d : Dev) : (setProf p x d).wins = d.wins := rfl
@[simp] theorem setProf_tables (p : Nat) (x : Profile) (d : Dev) : (setProf p x d).tables = d.tables := rfl
@[simp] theorem setProf_indexes (p : Nat) (x : Profile) (d : Dev) : (setProf p x d).indexes = d.indexes := rfl
@[simp] theorem setProf_log (p : Nat) (x : Profile) (d : Dev) : (setProf p x d).log = d.log := rfl
@[simp] theorem setProf_flt (p : Nat) (x : Profile) (d : Dev) : (setProf p x d).flt = d.flt := rfl
@[simp] theorem setProf_icu (p : Nat) (x : Profile) (d : Dev) : (setProf p x d).icu = d.icu := rfl
@[simp] theorem setProf_tgts (p : Nat) (x : Profile) (d : Dev) : (setProf p x d).tgts = d.tgts := rfl
@[simp] theorem setProf_ports (p : Nat) (x : Profile) (d : Dev) : (setProf p x d).ports = d.ports := rfl
@[simp] theorem setProf_outstanding (p : Nat) (x : Profile) (d : Dev) : (setProf p x d).outstanding = d.outstanding := rfl
@[simp] theorem setProf_pair (p : Nat) (x : Profile) (d : Dev) : (setProf p x d).pair = d.pair := rfl
@[simp] theorem setProf_side (p : Nat) (x : Profile) (d : Dev) : (setProf p x d).side = d.side := rfl
@[simp] theorem setProf_fabTx (p : Nat) (x : Profile) (d : Dev) : (setProf p x d).fabTx = d.fabTx := rfl
@[simp] theorem setProf_ethTx (p : Nat) (x : Profile) (d : Dev) : (setProf p x d).ethTx = d.ethTx := rfl
@[simp] theorem setProf_trig (p : Nat) (x : Profile) (d : Dev) : (setProf p x d).trig = d.trig := rfl

/-! ### setWin -/

@[simp] theorem setWin_pins (w : Nat) (x : Win) (d : Dev) : (setWin w x d).pins = d.pins := rfl
@[simp] theorem setWin_power (w : Nat) (x : Win) (d : Dev) : (setWin w x d).power = d.power := rfl
@[simp] theorem setWin_stk (w : Nat) (x : Win) (d : Dev) : (setWin w x d).stk = d.stk := rfl
@[simp] theorem setWin_cfg (w : Nat) (x : Win) (d : Dev) : (setWin w x d).cfg = d.cfg := rfl
@[simp] theorem setWin_banks (w : Nat) (x : Win) (d : Dev) : (setWin w x d).banks = d.banks := rfl
@[simp] theorem setWin_regs (w : Nat) (x : Win) (d : Dev) : (setWin w x d).regs = d.regs := rfl
@[simp] theorem setWin_inForce (w : Nat) (x : Win) (d : Dev) : (setWin w x d).inForce = d.inForce := rfl
@[simp] theorem setWin_mem (w : Nat) (x : Win) (d : Dev) : (setWin w x d).mem = d.mem := rfl
@[simp] theorem setWin_poison (w : Nat) (x : Win) (d : Dev) : (setWin w x d).poison = d.poison := rfl
@[simp] theorem setWin_scratch (w : Nat) (x : Win) (d : Dev) : (setWin w x d).scratch = d.scratch := rfl
@[simp] theorem setWin_crews (w : Nat) (x : Win) (d : Dev) : (setWin w x d).crews = d.crews := rfl
@[simp] theorem setWin_queues (w : Nat) (x : Win) (d : Dev) : (setWin w x d).queues = d.queues := rfl
@[simp] theorem setWin_sessions (w : Nat) (x : Win) (d : Dev) : (setWin w x d).sessions = d.sessions := rfl
@[simp] theorem setWin_contexts (w : Nat) (x : Win) (d : Dev) : (setWin w x d).contexts = d.contexts := rfl
@[simp] theorem setWin_regions (w : Nat) (x : Win) (d : Dev) : (setWin w x d).regions = d.regions := rfl
@[simp] theorem setWin_jobs (w : Nat) (x : Win) (d : Dev) : (setWin w x d).jobs = d.jobs := rfl
@[simp] theorem setWin_longops (w : Nat) (x : Win) (d : Dev) : (setWin w x d).longops = d.longops := rfl
@[simp] theorem setWin_items (w : Nat) (x : Win) (d : Dev) : (setWin w x d).items = d.items := rfl
@[simp] theorem setWin_dir (w : Nat) (x : Win) (d : Dev) : (setWin w x d).dir = d.dir := rfl
@[simp] theorem setWin_agents (w : Nat) (x : Win) (d : Dev) : (setWin w x d).agents = d.agents := rfl
@[simp] theorem setWin_pendingBuf (w : Nat) (x : Win) (d : Dev) : (setWin w x d).pendingBuf = d.pendingBuf := rfl
@[simp] theorem setWin_pages (w : Nat) (x : Win) (d : Dev) : (setWin w x d).pages = d.pages := rfl
@[simp] theorem setWin_tables (w : Nat) (x : Win) (d : Dev) : (setWin w x d).tables = d.tables := rfl
@[simp] theorem setWin_indexes (w : Nat) (x : Win) (d : Dev) : (setWin w x d).indexes = d.indexes := rfl
@[simp] theorem setWin_profiles (w : Nat) (x : Win) (d : Dev) : (setWin w x d).profiles = d.profiles := rfl
@[simp] theorem setWin_log (w : Nat) (x : Win) (d : Dev) : (setWin w x d).log = d.log := rfl
@[simp] theorem setWin_flt (w : Nat) (x : Win) (d : Dev) : (setWin w x d).flt = d.flt := rfl
@[simp] theorem setWin_icu (w : Nat) (x : Win) (d : Dev) : (setWin w x d).icu = d.icu := rfl
@[simp] theorem setWin_tgts (w : Nat) (x : Win) (d : Dev) : (setWin w x d).tgts = d.tgts := rfl
@[simp] theorem setWin_ports (w : Nat) (x : Win) (d : Dev) : (setWin w x d).ports = d.ports := rfl
@[simp] theorem setWin_outstanding (w : Nat) (x : Win) (d : Dev) : (setWin w x d).outstanding = d.outstanding := rfl
@[simp] theorem setWin_pair (w : Nat) (x : Win) (d : Dev) : (setWin w x d).pair = d.pair := rfl
@[simp] theorem setWin_side (w : Nat) (x : Win) (d : Dev) : (setWin w x d).side = d.side := rfl
@[simp] theorem setWin_fabTx (w : Nat) (x : Win) (d : Dev) : (setWin w x d).fabTx = d.fabTx := rfl
@[simp] theorem setWin_ethTx (w : Nat) (x : Win) (d : Dev) : (setWin w x d).ethTx = d.ethTx := rfl
@[simp] theorem setWin_trig (w : Nat) (x : Win) (d : Dev) : (setWin w x d).trig = d.trig := rfl

/-! ### setPort -/

@[simp] theorem setPort_pins (p : Nat) (x : Port) (d : Dev) : (setPort p x d).pins = d.pins := rfl
@[simp] theorem setPort_power (p : Nat) (x : Port) (d : Dev) : (setPort p x d).power = d.power := rfl
@[simp] theorem setPort_stk (p : Nat) (x : Port) (d : Dev) : (setPort p x d).stk = d.stk := rfl
@[simp] theorem setPort_cfg (p : Nat) (x : Port) (d : Dev) : (setPort p x d).cfg = d.cfg := rfl
@[simp] theorem setPort_banks (p : Nat) (x : Port) (d : Dev) : (setPort p x d).banks = d.banks := rfl
@[simp] theorem setPort_regs (p : Nat) (x : Port) (d : Dev) : (setPort p x d).regs = d.regs := rfl
@[simp] theorem setPort_inForce (p : Nat) (x : Port) (d : Dev) : (setPort p x d).inForce = d.inForce := rfl
@[simp] theorem setPort_mem (p : Nat) (x : Port) (d : Dev) : (setPort p x d).mem = d.mem := rfl
@[simp] theorem setPort_poison (p : Nat) (x : Port) (d : Dev) : (setPort p x d).poison = d.poison := rfl
@[simp] theorem setPort_scratch (p : Nat) (x : Port) (d : Dev) : (setPort p x d).scratch = d.scratch := rfl
@[simp] theorem setPort_crews (p : Nat) (x : Port) (d : Dev) : (setPort p x d).crews = d.crews := rfl
@[simp] theorem setPort_queues (p : Nat) (x : Port) (d : Dev) : (setPort p x d).queues = d.queues := rfl
@[simp] theorem setPort_sessions (p : Nat) (x : Port) (d : Dev) : (setPort p x d).sessions = d.sessions := rfl
@[simp] theorem setPort_contexts (p : Nat) (x : Port) (d : Dev) : (setPort p x d).contexts = d.contexts := rfl
@[simp] theorem setPort_regions (p : Nat) (x : Port) (d : Dev) : (setPort p x d).regions = d.regions := rfl
@[simp] theorem setPort_jobs (p : Nat) (x : Port) (d : Dev) : (setPort p x d).jobs = d.jobs := rfl
@[simp] theorem setPort_longops (p : Nat) (x : Port) (d : Dev) : (setPort p x d).longops = d.longops := rfl
@[simp] theorem setPort_items (p : Nat) (x : Port) (d : Dev) : (setPort p x d).items = d.items := rfl
@[simp] theorem setPort_dir (p : Nat) (x : Port) (d : Dev) : (setPort p x d).dir = d.dir := rfl
@[simp] theorem setPort_agents (p : Nat) (x : Port) (d : Dev) : (setPort p x d).agents = d.agents := rfl
@[simp] theorem setPort_pendingBuf (p : Nat) (x : Port) (d : Dev) : (setPort p x d).pendingBuf = d.pendingBuf := rfl
@[simp] theorem setPort_pages (p : Nat) (x : Port) (d : Dev) : (setPort p x d).pages = d.pages := rfl
@[simp] theorem setPort_wins (p : Nat) (x : Port) (d : Dev) : (setPort p x d).wins = d.wins := rfl
@[simp] theorem setPort_tables (p : Nat) (x : Port) (d : Dev) : (setPort p x d).tables = d.tables := rfl
@[simp] theorem setPort_indexes (p : Nat) (x : Port) (d : Dev) : (setPort p x d).indexes = d.indexes := rfl
@[simp] theorem setPort_profiles (p : Nat) (x : Port) (d : Dev) : (setPort p x d).profiles = d.profiles := rfl
@[simp] theorem setPort_log (p : Nat) (x : Port) (d : Dev) : (setPort p x d).log = d.log := rfl
@[simp] theorem setPort_flt (p : Nat) (x : Port) (d : Dev) : (setPort p x d).flt = d.flt := rfl
@[simp] theorem setPort_icu (p : Nat) (x : Port) (d : Dev) : (setPort p x d).icu = d.icu := rfl
@[simp] theorem setPort_tgts (p : Nat) (x : Port) (d : Dev) : (setPort p x d).tgts = d.tgts := rfl
@[simp] theorem setPort_outstanding (p : Nat) (x : Port) (d : Dev) : (setPort p x d).outstanding = d.outstanding := rfl
@[simp] theorem setPort_pair (p : Nat) (x : Port) (d : Dev) : (setPort p x d).pair = d.pair := rfl
@[simp] theorem setPort_side (p : Nat) (x : Port) (d : Dev) : (setPort p x d).side = d.side := rfl
@[simp] theorem setPort_fabTx (p : Nat) (x : Port) (d : Dev) : (setPort p x d).fabTx = d.fabTx := rfl
@[simp] theorem setPort_ethTx (p : Nat) (x : Port) (d : Dev) : (setPort p x d).ethTx = d.ethTx := rfl
@[simp] theorem setPort_trig (p : Nat) (x : Port) (d : Dev) : (setPort p x d).trig = d.trig := rfl

/-! ### setAgent -/

@[simp] theorem setAgent_pins (a : Nat) (g : Agent) (d : Dev) : (setAgent a g d).pins = d.pins := rfl
@[simp] theorem setAgent_power (a : Nat) (g : Agent) (d : Dev) : (setAgent a g d).power = d.power := rfl
@[simp] theorem setAgent_stk (a : Nat) (g : Agent) (d : Dev) : (setAgent a g d).stk = d.stk := rfl
@[simp] theorem setAgent_cfg (a : Nat) (g : Agent) (d : Dev) : (setAgent a g d).cfg = d.cfg := rfl
@[simp] theorem setAgent_banks (a : Nat) (g : Agent) (d : Dev) : (setAgent a g d).banks = d.banks := rfl
@[simp] theorem setAgent_regs (a : Nat) (g : Agent) (d : Dev) : (setAgent a g d).regs = d.regs := rfl
@[simp] theorem setAgent_inForce (a : Nat) (g : Agent) (d : Dev) : (setAgent a g d).inForce = d.inForce := rfl
@[simp] theorem setAgent_mem (a : Nat) (g : Agent) (d : Dev) : (setAgent a g d).mem = d.mem := rfl
@[simp] theorem setAgent_poison (a : Nat) (g : Agent) (d : Dev) : (setAgent a g d).poison = d.poison := rfl
@[simp] theorem setAgent_scratch (a : Nat) (g : Agent) (d : Dev) : (setAgent a g d).scratch = d.scratch := rfl
@[simp] theorem setAgent_crews (a : Nat) (g : Agent) (d : Dev) : (setAgent a g d).crews = d.crews := rfl
@[simp] theorem setAgent_queues (a : Nat) (g : Agent) (d : Dev) : (setAgent a g d).queues = d.queues := rfl
@[simp] theorem setAgent_sessions (a : Nat) (g : Agent) (d : Dev) : (setAgent a g d).sessions = d.sessions := rfl
@[simp] theorem setAgent_contexts (a : Nat) (g : Agent) (d : Dev) : (setAgent a g d).contexts = d.contexts := rfl
@[simp] theorem setAgent_regions (a : Nat) (g : Agent) (d : Dev) : (setAgent a g d).regions = d.regions := rfl
@[simp] theorem setAgent_jobs (a : Nat) (g : Agent) (d : Dev) : (setAgent a g d).jobs = d.jobs := rfl
@[simp] theorem setAgent_longops (a : Nat) (g : Agent) (d : Dev) : (setAgent a g d).longops = d.longops := rfl
@[simp] theorem setAgent_items (a : Nat) (g : Agent) (d : Dev) : (setAgent a g d).items = d.items := rfl
@[simp] theorem setAgent_dir (a : Nat) (g : Agent) (d : Dev) : (setAgent a g d).dir = d.dir := rfl
@[simp] theorem setAgent_pendingBuf (a : Nat) (g : Agent) (d : Dev) : (setAgent a g d).pendingBuf = d.pendingBuf := rfl
@[simp] theorem setAgent_pages (a : Nat) (g : Agent) (d : Dev) : (setAgent a g d).pages = d.pages := rfl
@[simp] theorem setAgent_wins (a : Nat) (g : Agent) (d : Dev) : (setAgent a g d).wins = d.wins := rfl
@[simp] theorem setAgent_tables (a : Nat) (g : Agent) (d : Dev) : (setAgent a g d).tables = d.tables := rfl
@[simp] theorem setAgent_indexes (a : Nat) (g : Agent) (d : Dev) : (setAgent a g d).indexes = d.indexes := rfl
@[simp] theorem setAgent_profiles (a : Nat) (g : Agent) (d : Dev) : (setAgent a g d).profiles = d.profiles := rfl
@[simp] theorem setAgent_log (a : Nat) (g : Agent) (d : Dev) : (setAgent a g d).log = d.log := rfl
@[simp] theorem setAgent_flt (a : Nat) (g : Agent) (d : Dev) : (setAgent a g d).flt = d.flt := rfl
@[simp] theorem setAgent_icu (a : Nat) (g : Agent) (d : Dev) : (setAgent a g d).icu = d.icu := rfl
@[simp] theorem setAgent_tgts (a : Nat) (g : Agent) (d : Dev) : (setAgent a g d).tgts = d.tgts := rfl
@[simp] theorem setAgent_ports (a : Nat) (g : Agent) (d : Dev) : (setAgent a g d).ports = d.ports := rfl
@[simp] theorem setAgent_outstanding (a : Nat) (g : Agent) (d : Dev) : (setAgent a g d).outstanding = d.outstanding := rfl
@[simp] theorem setAgent_pair (a : Nat) (g : Agent) (d : Dev) : (setAgent a g d).pair = d.pair := rfl
@[simp] theorem setAgent_side (a : Nat) (g : Agent) (d : Dev) : (setAgent a g d).side = d.side := rfl
@[simp] theorem setAgent_fabTx (a : Nat) (g : Agent) (d : Dev) : (setAgent a g d).fabTx = d.fabTx := rfl
@[simp] theorem setAgent_ethTx (a : Nat) (g : Agent) (d : Dev) : (setAgent a g d).ethTx = d.ethTx := rfl
@[simp] theorem setAgent_trig (a : Nat) (g : Agent) (d : Dev) : (setAgent a g d).trig = d.trig := rfl

/-! ### Reading back -/

@[simp] theorem sessOf_setSess_self (k : Nat) (x : Session) (d : Dev) : sessOf (setSess k x d) k = x := by simp [sessOf, setSess]
theorem sessOf_setSess_ne (k j : Nat) (x : Session) (d : Dev) (h : j ≠ k) : sessOf (setSess k x d) j = sessOf d j := by
  simp [sessOf, setSess, tGet?_tSet_ne _ _ h]

@[simp] theorem queueOf_setQueue_self (k : Nat) (x : Queue) (d : Dev) : queueOf (setQueue k x d) k = x := by simp [queueOf, setQueue]
theorem queueOf_setQueue_ne (k j : Nat) (x : Queue) (d : Dev) (h : j ≠ k) : queueOf (setQueue k x d) j = queueOf d j := by
  simp [queueOf, setQueue, tGet?_tSet_ne _ _ h]

@[simp] theorem portOf_setPort_self (k : Nat) (x : Port) (d : Dev) : portOf (setPort k x d) k = x := by simp [portOf, setPort]
theorem portOf_setPort_ne (k j : Nat) (x : Port) (d : Dev) (h : j ≠ k) : portOf (setPort k x d) j = portOf d j := by
  simp [portOf, setPort, tGet?_tSet_ne _ _ h]

@[simp] theorem dirOf_setDir_self (k : Nat) (x : DirEntry) (d : Dev) : dirOf (setDir k x d) k = x := by simp [dirOf, setDir]
theorem dirOf_setDir_ne (k j : Nat) (x : DirEntry) (d : Dev) (h : j ≠ k) : dirOf (setDir k x d) j = dirOf d j := by
  simp [dirOf, setDir, tGet?_tSet_ne _ _ h]

@[simp] theorem srcOf_setSrc_self (k : Nat) (x : Src) (d : Dev) : srcOf (setSrc k x d) k = x := by simp [srcOf, setSrc]
theorem srcOf_setSrc_ne (k j : Nat) (x : Src) (d : Dev) (h : j ≠ k) : srcOf (setSrc k x d) j = srcOf d j := by
  simp [srcOf, setSrc, tGet?_tSet_ne _ _ h]

@[simp] theorem tgtOf_setTgt_self (k : Nat) (x : Tgt) (d : Dev) : tgtOf (setTgt k x d) k = x := by simp [tgtOf, setTgt]
theorem tgtOf_setTgt_ne (k j : Nat) (x : Tgt) (d : Dev) (h : j ≠ k) : tgtOf (setTgt k x d) j = tgtOf d j := by
  simp [tgtOf, setTgt, tGet?_tSet_ne _ _ h]

@[simp] theorem agentOf_setAgent_self (k : Nat) (x : Agent) (d : Dev) : agentOf (setAgent k x d) k = x := by simp [agentOf, setAgent]
theorem agentOf_setAgent_ne (k j : Nat) (x : Agent) (d : Dev) (h : j ≠ k) : agentOf (setAgent k x d) j = agentOf d j := by
  simp [agentOf, setAgent, tGet?_tSet_ne _ _ h]

/-! ### The state around the device -/

theorem ends_eq (d : Dev) (t : State) : ends d t = settle { t with dev := d } := rfl

/-- A step that ends with no snapshot trigger in hand ends with the device as it is. -/
theorem ends_of_trig (d : Dev) (t : State) (h : d.trig = []) : ends d t = { t with dev := d } := by
  unfold ends settle
  rw [h]

@[simp] theorem latchSnap_nv (k : Nat) (o : Nat × Nat) (c : Option Nat) (s : State) : (latchSnap k o c s).nv = s.nv := by
  unfold latchSnap
  dsimp only
  split <;> rfl

@[simp] theorem latchSnap_pending (k : Nat) (o : Nat × Nat) (c : Option Nat) (s : State) : (latchSnap k o c s).pending = s.pending := by
  unfold latchSnap
  dsimp only
  split <;> rfl

@[simp] theorem settle_nv (s : State) : (settle s).nv = s.nv := by
  unfold settle
  split
  · rfl
  · exact latchSnap_nv ..

@[simp] theorem settle_pending (s : State) : (settle s).pending = s.pending := by
  unfold settle
  split
  · rfl
  · exact latchSnap_pending ..

/-- An event that changes only the device leaves the counters and the queue. -/
@[simp] theorem onDev_nv (f : Dev → Dev) (s : State) : (onDev f s).nv = s.nv := settle_nv _

@[simp] theorem onDev_pending (f : Dev → Dev) (s : State) : (onDev f s).pending = s.pending := settle_pending _

end Sys2Proof.Machine
end

