-- ==== Sys2Proof/WellFormed.lean ====
section
/-! DEFINITION. WellFormed.lean: the widths of the operands: what a packet, record, pin or message can carry at all. -/

namespace Sys2Proof

/-- A number that fits n bits. -/
def fits (n v : Nat) : Bool := decide (v < 2 ^ n)

/-- A list of exactly n bytes. -/
def sized (n : Nat) (l : List Byte) : Bool := l.length == n

/-- The fields of Table 7-4 within their widths, with parameter bytes for LENGTH, at most 8,208 of them. -/
def Cmd.wf (c : Cmd) : Bool :=
  (match c.route with
    | .session i => decide (i < 4096)
    | .ring q => decide (q < 32768)) &&
  fits 8 c.flags && fits 8 c.crew && fits 16 c.tag && fits 8 c.tagGen && fits 8 c.rsv7 && fits 16 c.queue && fits 8 c.qgen
  && fits 8 c.rsv11 && fits 32 c.length && c.params.length == (if c.length ≤ 8208 then c.length else 48)

/-- A writer that exists. -/
def Writer.wf : Writer → Bool
  | .session i => decide (i < 4096)
  | .fabric c r => fits 8 c && fits 24 r
  | .service k => decide (k < 2)
  | .firmware => true

/-- The fields of Tables 6-4 and 6-7 within their widths. -/
def Req.wf (p : Req) : Bool :=
  decide (p.port < 16) && fits 3 p.vc && fits 8 p.flags && fits 16 p.length && fits 24 p.dest && fits 24 p.source
  && fits 16 p.tag && fits 8 p.tagGen && fits 64 p.addr && fits 40 p.key && fits 8 p.op && fits 16 p.size
  && fits 16 p.grantGen && fits 16 p.regGen && fits 16 p.entry && fits 16 p.poison && fits 128 p.operand && fits 128 p.compare
  && decide (p.data.length ≤ 1024)

/-- The fields of Tables 6-4 and 6-8 within their widths. -/
def Rsp.wf (p : Rsp) : Bool :=
  decide (p.port < 16) && fits 3 p.vc && fits 8 p.kind && fits 16 p.length && fits 24 p.dest && fits 24 p.source
  && fits 16 p.tag && fits 8 p.tagGen && fits 8 p.status && fits 8 p.load && fits 16 p.credit && fits 32 p.stroke
  && fits 16 p.grantGen && fits 16 p.regGen && fits 24 p.requester && fits 128 p.old && decide (p.data.length ≤ 1024)

/-- The fields of Table 6-11 within their widths. -/
def SyncPkt.wf (p : SyncPkt) : Bool :=
  decide (p.port < 16) && fits 24 p.source && fits 64 p.stroke && fits 32 p.txOffset && fits 13 p.period && fits 12 p.master
  && fits 8 p.hops && fits 32 p.hall

/-- The timestamps of a path-delay packet within 64 bits. -/
def DelayPkt.wf (p : DelayPkt) : Bool :=
  decide (p.port < 16) && fits 24 p.source && fits 64 p.t1 && fits 64 p.t2 && fits 64 p.t3 && fits 64 p.arrival

/-- The fields of Table 7-2 within their widths. -/
def Datagram.wf (d : Datagram) : Bool :=
  fits 32 d.session && fits 64 d.seq && fits 64 d.ack && fits 8 d.type && fits 8 d.flags && fits 16 d.count && fits 6 d.dscp
  && decide (d.payload.length ≤ 9000)

/-- A MIRROR packet's fields within their widths. -/
def MirrorPkt.wf (p : MirrorPkt) : Bool :=
  fits 64 p.mseq && fits 64 p.addr && fits 24 p.requester && fits 16 p.tag && fits 8 p.tagGen && fits 8 p.kind
  && sized 128 p.line && fits 128 p.old

/-- A REGION packet's fields within their widths. -/
def RegionPkt.wf (p : RegionPkt) : Bool :=
  fits 64 p.mseq && fits 64 p.first && fits 32 p.count && fits 40 p.key && fits 8 p.crew && fits 8 p.flags && fits 8 p.op
  && fits 32 p.dgen

/-- A HEARTBEAT's fields within their widths. -/
def Heartbeat.wf (h : Heartbeat) : Bool :=
  decide (h.port < 16) && fits 64 h.stroke && fits 64 h.sent && fits 64 h.applied && fits 64 h.answered && fits 32 h.epoch
  && fits 8 h.state

/-- A command or event whose operands are within their widths. -/
def Instr.wf : Instr → Bool
  | .nop c => c.wf
  | .sessionOpen h => fits 8 h.role && fits 8 h.crew && fits 8 h.cred && sized 136 h.body
  | .handshakeMsg3 h => fits 32 h.session && fits 16 h.tag && fits 8 h.tagGen
  | .sessionClose c => c.wf
  | .queueCreate c => c.wf
  | .queueAttach c => c.wf
  | .queueDelete c => c.wf
  | .queueDeleteEnd queue => decide (queue < 32768)
  | .crewCreate c => c.wf
  | .crewReset c => c.wf
  | .crewResetDrainEnd crew => fits 8 crew
  | .crewDelete c => c.wf
  | .regRead c => c.wf
  | .regWrite c => c.wf
  | .registerWrite who offset _ => who.wf && fits 64 offset
  | .snapshotNow c => c.wf
  | .snapshotAt c => c.wf
  | .snapshotDisarm c => c.wf
  | .snapshotAtTrigger => true
  | .read c => c.wf
  | .write c => c.wf
  | .fill c => c.wf
  | .copy c => c.wf
  | .atomic c => c.wf
  | .fence c => c.wf
  | .regionRegister c => c.wf
  | .regionRevokeRekey c => c.wf
  | .regionRevokeRelease c => c.wf
  | .revokeDrainEnd _ => true
  | .revokeDeadline _ => true
  | .regionScrubDone _ => true
  | .segmentSet c => c.wf
  | .faultResolveReplay c => c.wf
  | .faultResolveFail c => c.wf
  | .placeToDense c => c.wf
  | .placeToDram c => c.wf
  | .placeDrainEnd _ => true
  | .sealExtent c => c.wf
  | .sealLogCreate c => c.wf
  | .sealKvAppend c => c.wf
  | .tierEvict c => c.wf
  | .windowCreate c => c.wf
  | .windowAdvance c => c.wf
  | .windowDelete c => c.wf
  | .windowDeleteEnd window => decide (window < 64)
  | .countersRead c => c.wf
  | .imageLoad c => c.wf
  | .expert c => c.wf
  | .attnPartial c => c.wf
  | .combine c => c.wf
  | .combineFire _ => true
  | .combineDeadline _ => true
  | .expand c => c.wf
  | .factor c => c.wf
  | .scratchLoad c => c.wf
  | .scratchStore c => c.wf
  | .pool c => c.wf
  | .rowPublish c => c.wf
  | .rowMove c => c.wf
  | .rowConvert c => c.wf
  | .rowFenceEnd slot => decide (slot < 1024)
  | .hotsetLoad c => c.wf
  | .hotsetDrop c => c.wf
  | .rowReplicateSet c => c.wf
  | .rowReplicateClear c => c.wf
  | .tableCreate c => c.wf
  | .tableSwitch c => c.wf
  | .tableDelete c => c.wf
  | .tableDrainEnd _ => true
  | .search c => c.wf
  | .listScan _ => true
  | .insert c => c.wf
  | .delete c => c.wf
  | .mergeAttach c => c.wf
  | .mergeFold c => c.wf
  | .mergeDetach c => c.wf
  | .indexFree index => decide (index < 64)
  | .filterSet c => c.wf
  | .filterClear c => c.wf
  | .longopQuery c => c.wf
  | .suspend c => c.wf
  | .resume c => c.wf
  | .cancel c => c.wf
  | .attest c => c.wf
  | .attestBatchClose => true
  | .importKeyExpiry index => decide (index < 256)
  | .keyImport c => c.wf
  | .keyRetire c => c.wf
  | .fwStage c => c.wf
  | .fwActivate c => c.wf
  | .logRead c => c.wf
  | .faultRead c => c.wf
  | .faultAck c => c.wf
  | .pairJoinSync c => c.wf
  | .pairJoinSwitch c => c.wf
  | .pairLeave c => c.wf
  | .expel c => c.wf
  | .ownerQuery c => c.wf
  | .ownerClaim c => c.wf
  | .ownerRenew c => c.wf
  | .ownerOffer c => c.wf
  | .ownerAccept c => c.wf
  | .ownerAbort c => c.wf
  | .ownerRelease c => c.wf
  | .ownerTake c => c.wf
  | .sqTail who queue _ => who.wf && decide (queue < 32768)
  | .cqHead who queue _ => who.wf && decide (queue < 32768)
  | .schQconfApply who _ => who.wf
  | .schQconfSelect who _ => who.wf
  | .schQshapeApply who _ => who.wf
  | .schQshapeSelect who _ => who.wf
  | .stkPeriodAt who _ => who.wf
  | .periodChange => true
  | .engCrewSpad who crew _ => who.wf && fits 8 crew
  | .tirCrewCache who crew _ => who.wf && fits 8 crew
  | .wskMark who _ => who.wf
  | .wskUnmark who _ => who.wf
  | .wskMarkSelect who _ => who.wf
  | .wskProfPublish who profile _ => who.wf && decide (profile < 64)
  | .wskProfDisable who profile _ => who.wf && decide (profile < 64)
  | .profileRetire profile => decide (profile < 64)
  | .snpFrozenRelease who => who.wf
  | .icuSoft who target => who.wf && decide (target < 26)
  | .icuTgtClaim target => decide (target < 26)
  | .icuTgtComplete target source => decide (target < 26) && decide (source < 1024)
  | .icuTgtMode who target _ => who.wf && decide (target < 26)
  | .icuRingConsumer who target consumer => who.wf && decide (target < 26) && fits 32 consumer
  | .icuSrc who source _ => who.wf && decide (source < 1024)
  | .watchdogKick who target => who.wf && decide (target < 26)
  | .watchdogHalf target => decide (target < 26)
  | .watchdogMiss target _ => decide (target < 26)
  | .pwrResetModule who => who.wf
  | .pwrResetDie who die => who.wf && decide (die < 2)
  | .clusterResetEnd die _ => decide (die < 2)
  | .pwrStandbyEnter who => who.wf
  | .pwrStandbyLeave who => who.wf
  | .strokeBoundary _ => true
  | .waitDeadline _ => true
  | .clusterWake cluster => decide (cluster < 16)
  | .itemAbandon _ => true
  | .parkTimeout _ => true
  | .parkedResume _ => true
  | .deferredCompletionWrite queue => decide (queue < 32768)
  | .ledgerIntervalEnd => true
  | .counterDecay => true
  | .meterLatch => true
  | .throttleStep _ => true
  | .syncSend => true
  | .delayReqSend _ => true
  | .syncLoss => true
  | .sync p => p.wf
  | .delayReq p _ => p.wf
  | .delayRsp p => p.wf
  | .portHello port number hall => decide (port < 16) && fits 12 number && fits 32 hall
  | .redirect source fromM toM epoch stroke => fits 24 source && fits 12 fromM && fits 12 toM && fits 32 epoch && fits 64 stroke
  | .redirectRepeat => true
  | .redirectGraceEnd module => fits 12 module
  | .flit port bytes => decide (port < 16) && sized 64 bytes
  | .linkAckStall port => decide (port < 16)
  | .retrainFail port => decide (port < 16)
  | .portTrainEnd port _ => decide (port < 16)
  | .rd p => p.wf
  | .wr p => p.wf
  | .atom p => p.wf
  | .rdS p => p.wf
  | .rdX p => p.wf
  | .upg p => p.wf
  | .wb p => p.wf
  | .agentReg p => p.wf
  | .agentBye p => p.wf
  | .ack p => p.wf
  | .ackD p => p.wf
  | .pendingRetry _ => true
  | .agePromotion _ => true
  | .snoopLimitExpiry _ agent => fits 24 agent
  | .copyData p => p.wf
  | .copyAck p => p.wf
  | .done p => p.wf
  | .rsp p => p.wf
  | .relayedRequestTimeout requester tag tagGen => fits 24 requester && fits 16 tag && fits 8 tagGen
  | .deviceRequestTimeout _ => true
  | .tierFillEnd _ _ => true
  | .windowFillEnd window _ _ => decide (window < 64)
  | .nvmeCompletion link _ _ => decide (link < 8)
  | .nvmeCmdTimeout link _ => decide (link < 8)
  | .namespaceReturn link => decide (link < 8)
  | .pcieAerEvent link _ _ => decide (link < 8)
  | .patrolScrubRead _ _ => true
  | .sramDoubleBitError _ => true
  | .bridgeFailure => true
  | .thermalTrip die => decide (die < 2)
  | .faultNPulseEnd => true
  | .sessionDatagram d => d.wf
  | .ackOnlyDatagram d => d.wf
  | .ackTimer session => decide (session < 4096)
  | .datagramResend session seq => decide (session < 4096) && fits 64 seq
  | .sessionIdle session => decide (session < 4096)
  | .pendingSessionExpiry session => decide (session < 4096)
  | .ethFrame _ => true
  | .pfcFrame priority _ => decide (priority < 8)
  | .arpRequest address sender => fits 128 address && fits 128 sender
  | .neighborSolicitation address sender => fits 128 address && fits 128 sender
  | .icmpEcho _ address sender _ => fits 128 address && fits 128 sender
  | .ptpMessage _ => true
  | .logBatchClose => true
  | .mirror p => p.wf
  | .region p => p.wf
  | .mirrorAck applied => fits 64 applied
  | .lineReq addr => fits 64 addr
  | .lineData addr data => fits 64 addr && sized 128 data
  | .sample number _ _ _ data => fits 64 number && decide (data.length ≤ 1024)
  | .sampleVerdict number _ => fits 64 number
  | .heartbeat h => h.wf
  | .faultNotice stroke source => fits 64 stroke && fits 8 source
  | .serveMissLimit => true
  | .mirrorMissLimit => true
  | .witnessAnswer _ => true
  | .witnessAskRetry => true
  | .reconcileEnd => true
  | .takeoverRecordExpiry => true
  | .join _ => true
  | .joinRepeat => true
  | .crewKey crew epoch wrapped => fits 8 crew && fits 32 epoch && sized 72 wrapped
  | .switch stroke epoch => fits 64 stroke && fits 32 epoch
  | .powerEnRise => true
  | .powerEnFall => true
  | .inputOutOfRange vin => fits 16 vin
  | .refclkLoss => true
  | .warmReset => true
  | .snapIn _ => true
  | .auxRise slot => decide (slot < 32)
  | .bootRails _ => true
  | .bootRom _ _ _ => true
  | .bootLoader _ => true
  | .training _ => true
  | .selfTest _ _ => true
  | .strokeLock p => p.wf
  | .masterListenEnd _ => true
  | .strokeLockWait => true
  | .denseTierStart _ => true
  | .pairJoinPhase _ => true
  | .joinTimeout _ => true
  | .crewRestore => true
  | .phaseBoundExceeded => true
  | .i3cPrivateWrite data => decide (1 ≤ data.length)
  | .i3cPrivateRead => true
  | .enec => true
  | .disec => true
  | .rstdaa => true
  | .setdasa address => fits 7 address
  | .entdaa address => fits 7 address
  | .getpid => true
  | .getbcr => true
  | .getdcr => true
  | .getstatus => true
  | .ibiRetry _ => true
  | .writeEnable => true
  | .status => true
  | .provRead address _ => fits 18 address
  | .program address data => fits 18 address && decide (1 ≤ data.length) && decide (data.length ≤ 256)
  | .erase => true
  | .expelWaitEnd => true
  | .ethLinkDown => true
  | .ethLinkUp => true
  | .throttleThresholdCrossing die _ => decide (die < 2)
  | .inputWarningCrossing _ => true
  | .conversionFault => true
  | .trivetCheckFailure => true
  | .auxFall => true
  | .provisioningBusyEnd => true
  | .releaseToken _ => true

end Sys2Proof
end

