-- ==== Sys2Proof/Tests/Slice0.lean ====
section
/-! SUPPORT. Tests/Slice0.lean: the model's own tests: ill-formed operands, small examples worked by hand from the manual, and for every
statement of Certificates/Slice0/Obligations.lean states and operands that meet the hypotheses of its clauses. -/

namespace Sys2Proof.Tests
set_option Elab.async false
open Machine

/-! ### States and commands -/

/-- An address in region n of module 5's stacked DRAM. -/
def own (n : Nat) : Nat := 5 * 2 ^ 52 + n * 2 ^ 21
/-- The number of that region. -/
def regn (n : Nat) : Nat := 5 * 2 ^ 31 + n
/-- The number of region n of module 5's sealed tier. -/
def dense (n : Nat) : Nat := (5 * 2 ^ 52 + 2 ^ 50) / 2 ^ 21 + n

/-- Module 5 serving in stroke 1,000: crew 1 with core 0, sixteen queues and regions 0 to 3 of stacked DRAM under key 7; queue 3 of that
crew; session 0 for management and session 1 bound to crew 1. -/
def dev : Dev := {
  pins := { powerEn := true, pwrGood := true, aux := true, ethUp := true }
  power := { on := true, phase := 9, serving := true }
  stk := { number := 1000, current := 425, locked := true }
  cfg := { loaded := true, hall := 7, module := 5, mgmtValid := 1, mgmtCreds := [[]], stackCount := 16, passed := 2 ^ 128 - 1 }
  regs := [(0x18, 65536#64), (0x90000, (1500 * 2 ^ 32 : Nat))]
  inForce := [(0x18, 65536#64), (0x90000, (1500 * 2 ^ 32 : Nat))]
  crews := [(1, { state := 1, gen := 1, cores := 1, stackMask := 0xFFFF, ethWeight := 1, qFirst := 0, qCount := 16, dramQuota := 100 })]
  regions := [(regn 0, { crew := 1, key := 7 }), (regn 1, { crew := 1, key := 7 }), (regn 2, { crew := 1, key := 7 }),
              (regn 3, { crew := 1, key := 7 })]
  queues := [(3, { present := true, crew := 1, gen := 1, doorbell := true, sqBase := own 3, sqKey := 7, cqBase := own 3 + 65536, cqKey := 7 })]
  sessions := [(0, { gen := 1, isOpen := true, management := true }), (1, { gen := 1, isOpen := true, crew := 1, crewGen := 1 })] }

/-- A state around a device. -/
def st (d : Dev) : State := { dev := d }
/-- Parameter bytes, zero but for the fields given as offset, bytes and value. -/
def pb (n : Nat) (fs : List (Nat × Nat × Nat)) : List Byte := fs.foldl (fun l f => overlay l f.1 (toLe f.2.1 f.2.2)) (zeros n)
/-- A command of a crew over a session. -/
def cmd (session crew : Nat) (ps : List Byte) : Cmd := { route := .session session, crew, length := ps.length, params := ps }
/-- A command of crew 1 in a ring of queue 3. -/
def ringCmd (ps : List Byte) : Cmd := { cmd 0 1 ps with route := .ring 3, queue := 3, qgen := 1 }
/-- A command whose own effect begins, and what holds then. -/
def met (op : Nat) (c : Cmd) (s : State) (f : QCmd → State → Bool) : Bool := match begins op c s with
  | some (q, t) => f q t
  | none => false

/-! ### Queues, regions, segments -/

def createPs : List Byte := pb 40 [(0, 2, 4), (2, 1, 1), (4, 1, 8), (5, 1, 8), (8, 8, own 0), (16, 5, 7), (24, 8, own 1), (32, 5, 7)]
theorem test_hyp_queueCreate : met 4 (withByte (cmd 1 1 createPs) 3 (putBits (pNat (cmd 1 1 createPs) 3 1) 2 2 0)) (st dev)
    (fun q t => !bitAt (pNat q.cmd 3 1) 2 && queueCreateCheck t.dev q == none) = true := by decide
theorem test_hyp_queueAttach : met 4 (withByte (cmd 1 1 (pb 40 [(0, 2, 3)])) 3 4) (st dev)
    (fun q t => bitAt (pNat q.cmd 3 1) 2 && queueCreateCheck t.dev q == none) = true := by decide
theorem test_hyp_queueDelete : met 5 (cmd 1 1 (pb 4 [(0, 2, 3), (2, 1, 1)])) (st dev) (fun q t => queueDeleteCheck t.dev q == none) = true := by
  decide
def deleting : Dev := { dev with queues := [(3, { present := true, crew := 1, gen := 2, deleting := some {} })] }
theorem test_hyp_queueDeleteEnd : (queueOf deleting 3).deleting = some {} ∧ queueBusy deleting 3 = false := by decide
theorem test_hyp_doorbells : doorbellRight dev (.session 1) 3 = some true ∧ dev.flt.fatal = false := by decide
def waitingRing : Dev := { dev with queues := [(3, { queueOf dev 3 with deferred := [default] })] }
theorem test_hyp_deferred : (queueOf waitingRing 3).deferred = [default] ∧ 0 < (queueOf waitingRing 3).cqFree ∧ waitingRing.flt.fatal = false := by
  decide
theorem test_hyp_regionRegister : met 0x107 (cmd 1 1 (pb 16 [(0, 8, own 8), (8, 4, 2)])) (st dev)
    (fun q t => registerCheck t.dev q == none && !bitAt (pNat q.cmd 12 1) 0) = true := by decide
/-- A bow in SERVE with room for eight paired regions. -/
def bow : Dev := { dev with
  cfg := { dev.cfg with role := 1 }
  pair := { state := 4, epoch := 1 }
  regs := (0x110008, (8 * 2 ^ 32 + 6 : Nat)) :: dev.regs
  inForce := (0x110008, (8 * 2 ^ 32 + 6 : Nat)) :: dev.inForce }
theorem test_hyp_regionRegister_paired : met 0x107 (cmd 1 1 (pb 16 [(0, 8, own 8), (8, 4, 2), (12, 1, 1)])) (st bow)
    (fun q t => registerCheck t.dev q == none && bitAt (pNat q.cmd 12 1) 0) = true := by decide
theorem test_hyp_revoke_rekey : met 0x108 (withByte (cmd 1 1 (pb 16 [(0, 8, own 0), (8, 4, 2)])) 12 0) (st dev)
    (fun q t => revokeCheck t.dev q == none && pNat q.cmd 12 1 == 0) = true := by decide
theorem test_hyp_revoke_release : met 0x108 (withByte (cmd 1 1 (pb 16 [(0, 8, own 0), (8, 4, 1)])) 12 1) (st dev)
    (fun q t => revokeCheck t.dev q == none && pNat q.cmd 12 1 == 1) = true := by decide
theorem test_hyp_beginRevoke : tGet? dev.regions (regn 0) = some { crew := 1, key := 7 } ∧ 7 / 2 ^ 32 < 255 := by decide
def revoking : Dev := { dev with revokes := [(0, { first := regn 0, count := 1, bumped := 900 })] }
theorem test_hyp_revokeDrain : tGet? revoking.revokes 0 = some { first := regn 0, count := 1, bumped := 900 }
    ∧ revokeLeft revoking { first := regn 0, count := 1, bumped := 900 } = [] ∧ 0 ≤ revoking.pair.acked
    ∧ 900 + reqTimeout revoking ≤ revoking.stk.number := by decide
def scrubbed : Dev := { dev with scrubbing := [regn 0], mem := [(own 0, 1#8)] }
theorem test_hyp_scrub : regn 0 ∈ scrubbed.scrubbing ∧ heldLines scrubbed (regn 0) = [] ∧ Memory.wf scrubbed.mem = true := by decide
theorem test_hyp_segmentSet_header : met 0x109 (cmd 1 1 (pb 40 [(0, 2, 9), (2, 1, 64), (8, 8, 2 ^ 63)])) (st dev)
    (fun q t => segmentCheck t.dev q == none && pNat q.cmd 2 1 == 64) = true := by decide
def ctxDev : Dev := { dev with contexts := [(9, { en := true, crew := 1, gen := 1, faultEn := true })] }
theorem test_hyp_segmentSet_slot : met 0x109 (cmd 1 1 (pb 40 [(0, 2, 9), (2, 1, 63)])) (st ctxDev)
    (fun q t => segmentCheck t.dev q == none && decide (pNat q.cmd 2 1 < 64)) = true := by decide
theorem test_hyp_segmentSet_drop : met 0x109 (cmd 1 1 (pb 40 [(0, 2, 9), (2, 1, 64)])) (st ctxDev)
    (fun q t => segmentCheck t.dev q == none && pNat q.cmd 2 1 == 64) = true := by decide
def slotDev : Dev := { ctxDev with slots := [(2, { used := true, gen := 5, context := 9 })] }
theorem test_hyp_faultReplay : met 0x10A (withByte (cmd 1 1 (pb 8 [(0, 4, 5 * 2 ^ 24 + 2)])) 4 0) (st slotDev) (fun q t =>
    pNat q.cmd 4 1 == 0 && bitsOf (pNat q.cmd 0 4) 23 10 == 0 && (slotOf t.dev (pNat q.cmd 0 4 % 1024)).used
    && (slotOf t.dev (pNat q.cmd 0 4 % 1024)).gen == pNat q.cmd 0 4 / 2 ^ 24
    && (ctxOf t.dev (slotOf t.dev (pNat q.cmd 0 4 % 1024)).context).crew == q.cmd.crew) = true := by decide
theorem test_hyp_faultFail : met 0x10A (withByte (cmd 1 1 (pb 8 [(0, 4, 5 * 2 ^ 24 + 2)])) 4 1) (st slotDev) (fun q t =>
    pNat q.cmd 4 1 == 1 && bitsOf (pNat q.cmd 0 4) 23 10 == 0 && (slotOf t.dev (pNat q.cmd 0 4 % 1024)).used
    && (slotOf t.dev (pNat q.cmd 0 4 % 1024)).gen == pNat q.cmd 0 4 / 2 ^ 24
    && (ctxOf t.dev (slotOf t.dev (pNat q.cmd 0 4 % 1024)).context).crew == q.cmd.crew) = true := by decide

/-! ### The memory tiers -/

/-- Crew 1 with a tier-cache share, a namespace, a sealed extent under key 9 and a log under key 11, and context 9 with two segments. -/
def tier : Dev := { dev with
  crews := [(1, { crewOf dev 1 with denseQuota := 100 })]
  inForce := (0x71020, 4#64) :: dev.inForce
  namespaces := [(0, { en := true, link := 3, nsid := 1, total := 1048576, free := 1048576 })]
  regions := dev.regions ++ [(dense 0, { crew := 1, key := 9, state := .sealedExtent }), (dense 4, { crew := 1, key := 11, state := .opened })]
  contexts := [(9, { en := true, crew := 1, gen := 1, segs := [(0, { p := true, lenU := 1, hallBase := own 0, key := 7 }),
                                                              (1, { p := true, lenU := 1, hallBase := dense 0 * 2 ^ 21, key := 9 })] })] }
set_option maxRecDepth 100000 in
theorem test_hyp_placeToDense : met 0x201 (withByte (cmd 1 1 (pb 24 [(0, 2, 9), (2, 1, 0)])) 3 0) (st tier)
    (fun q t => placeCheck t.dev q == none && pNat q.cmd 3 1 == 0) = true := by decide +kernel
set_option maxRecDepth 100000 in
theorem test_hyp_placeToDram : met 0x201 (withByte (cmd 1 1 (pb 24 [(0, 2, 9), (2, 1, 1), (8, 8, own 2), (16, 5, 7)])) 3 1) (st tier)
    (fun q t => placeCheck t.dev q == none && pNat q.cmd 3 1 == 1) = true := by decide +kernel
set_option maxRecDepth 100000 in
theorem test_hyp_sealExtent : met 0x202 (withByte (cmd 1 1 (pb 48 [(0, 8, own 0), (8, 5, 7), (16, 4, 1)])) 13 0) (st tier)
    (fun q t => sealExtentCheck t.dev q == none && pNat q.cmd 13 1 == 0) = true := by decide +kernel
def placing (l : LongOp) : Dev := { tier with longops := [(7, l)] }
theorem test_hyp_placeDrain_none : let d := placing { state := 2, opcode := 0x201, phase := 1, since := 1000 }
    (opOf d 7).state ≠ 5 ∧ (opOf d 7).opcode = 0x201 ∧ (opOf d 7).phase = 1 ∧ (opOf d 7).admitted = [] := by decide
theorem test_hyp_placeDrain_deadline : let d := placing { state := 2, opcode := 0x201, phase := 1, since := 936, admitted := [1] }
    (opOf d 7).state ≠ 5 ∧ (opOf d 7).opcode = 0x201 ∧ (opOf d 7).phase = 1 ∧ (opOf d 7).since + reqTimeout d ≤ d.stk.number := by decide
def placeDram : Dev := placing { state := 2, opcode := 0x201, phase := 2, first := dense 0, count := 1, dest := regn 2,
                                 q := { cmd := cmd 1 1 (pb 24 [(0, 2, 9), (2, 1, 1), (3, 1, 1)]) } }
theorem test_hyp_placeCommit : pNat (opOf placeDram 7).q.cmd 3 1 = 1 ∧ bitAt (pNat (opOf placeDram 7).q.cmd 4 1) 0 = false
    ∧ Memory.wf placeDram.mem = true ∧ recallLines true (regn 2) 1 placeDram = (true, placeDram)
    ∧ (tGet? (ctxOf placeDram 9).segs 1).isSome = true := by decide +kernel
theorem test_hyp_sealLogCreate : met 0x202 (withByte (cmd 1 1 (pb 48 [(16, 4, 2)])) 13 1) (st tier)
    (fun q t => logCreateCheck t.dev q == none && pNat q.cmd 13 1 == 1) = true := by decide
def appendPs : List Byte := pb 48 [(0, 8, own 0), (8, 5, 7), (14, 1, 8), (16, 4, 1), (20, 8, dense 4 * 2 ^ 21), (28, 5, 11), (33, 1, 1), (34, 2, 64)]
theorem test_hyp_sealKvAppend : met 0x202 (withByte (cmd 1 1 appendPs) 13 2) (st tier) (fun q t =>
    let n := pNat q.cmd 33 1 * pNat q.cmd 34 2
    let ls := appendLayers q.cmd
    let ns := ((regionAt t.dev (pNat q.cmd 20 8)).getD {}).ns
    let x := readLayers .device (pNat q.cmd 8 5) n ls t.dev
    appendCheck t.dev q == none && pNat q.cmd 13 1 == 2 && decide (appendBlocks ls n ≤ (tGet t.dev.namespaces ns : Ns).free)
      && stSuccess x.2.1 && x.2.2.1) = true := by decide +kernel
theorem test_hyp_appendDone : (tGet? { dev with jobs := [(4, {})] }.jobs 4).isSome = true := by decide
theorem test_hyp_tierEvict : met 0x203 (cmd 1 1 (pb 24 [(0, 8, dense 0 * 2 ^ 21), (8, 5, 9), (16, 4, 32)])) (st tier)
    (fun q t => tierEvictCheck t.dev q == none) = true := by decide
theorem test_hyp_evictPage : pageBusy { tier with fills := tMod tier.fills 3 fun f => { f with keep := false } } 3 = false := by decide
theorem test_hyp_countersRead : met 0x205 (cmd 1 1 (pb 48 [(0, 8, own 0), (8, 5, 7), (16, 4, 2), (24, 8, own 1), (32, 5, 7)])) (st tier)
    (fun q t => countersReadCheck t.dev q == none) = true := by decide
def decaying : Dev := { tier with stk := { tier.stk with number := 2 ^ 20 } }
theorem test_hyp_counterDecay : decaying.stk.number % 2 ^ cfgField decaying 0x70000 12 8 = 0 := by decide
theorem test_hyp_windowCreate : met 0x204 (withByte (cmd 1 1 (pb 56 [(3, 1, 2), (4, 4, 4), (8, 8, dense 0 * 2 ^ 21), (16, 5, 9), (24, 8, own 0),
    (32, 5, 7), (40, 4, 65536)])) 0 0) (st tier) (fun q t => windowCreateCheck t.dev q == none && pNat q.cmd 0 1 == 0) = true := by decide
def window (w : Win) : Dev := { tier with wins := [(5, w)] }
def win : Win := { gen := 1, state := 1, crew := 1, slots := 2, spans := 4, source := dense 0 * 2 ^ 21, ring := own 0, spanBytes := 65536 }
theorem test_hyp_windowAdvance : met 0x204 (withByte (cmd 1 1 (pb 56 [(1, 1, 5), (2, 1, 1), (44, 4, 2)])) 0 1) (st (window win))
    (fun q t => windowAdvanceCheck t.dev q == none && pNat q.cmd 0 1 == 1) = true := by decide
theorem test_hyp_windowDelete : met 0x204 (withByte (cmd 1 1 (pb 56 [(1, 1, 5), (2, 1, 1)])) 0 2) (st (window win))
    (fun q t => windowDeleteCheck t.dev q == none && pNat q.cmd 0 1 == 2) = true := by decide
theorem test_hyp_windowDeleteEnd : let d := window { win with state := 2, deleteBy := some {} }
    (winOf d 5).state = 2 ∧ (winOf d 5).filling = [] ∧ (winOf d 5).deleteBy = some {} := by decide
theorem test_hyp_windowFillEnd : let d := window { win with filling := [1] }
    (winOf d 5).state = 1 ∧ 1 ∈ (winOf d 5).filling ∧ (winOf d 5).cursor ≤ 1 := by decide
def filling : Dev := { tier with fills := [(dense 0 * 32, { crew := 1 })] }
theorem test_hyp_tierFillEnd : tGet? filling.fills (dense 0 * 32) = some { crew := 1 }
    ∧ ((tGet? filling.regions (dense 0 * 32 / 32)).getD { state := .scrubbing }).state = .sealedExtent := by decide
def nvmeDev : Dev := { tier with nvme := [{ link := 3, command := 4, ns := 0, work := .windowFill 5 1 }] }
theorem test_hyp_nvme : (nvmeDev.nvme.find? fun n => n.link == 3 && n.command == 4)
    = some { link := 3, command := 4, ns := 0, work := .windowFill 5 1 } := by decide

/-! ### Moving data -/

theorem test_hyp_write : met 0x102 (cmd 1 1 (pb 24 [(0, 8, own 0), (8, 5, 7), (16, 8, 0x1122334455667788)])) (st dev)
    (fun q _ => addrField q.cmd == false) = true := by decide
theorem test_hyp_fill : met 0x103 (cmd 1 1 (pb 32 [(0, 8, own 0), (8, 5, 7), (16, 4, 2 ^ 28), (24, 8, 0xAB)])) (st dev)
    (fun q _ => addrField q.cmd == false && decide (pNat q.cmd 16 4 ≤ 2 ^ 28)) = true := by decide
/-- Nothing stands in the way of an access to module 5's region 0 under key 7, up to its last byte. -/
theorem test_hyp_plain : Plain dev (own 1 - 128) 7 := by
  refine ⟨by decide, by decide, ⟨{ crew := 1, key := 7 }, by decide, rfl, rfl, rfl, rfl, rfl, by decide⟩, by decide, by decide, ?_, ?_, by decide,
    by decide⟩ <;> intro x hx <;> cases hx
theorem test_hyp_writeLine : 0 < [1#8, 2#8].length ∧ lineOf (own 1 - 128 + 2 - 1) = lineOf (own 1 - 128) ∧ Memory.wf dev.mem = true := by decide
theorem test_hyp_read : met 0x101 (cmd 1 1 (pb 40 [(0, 8, own 0), (8, 5, 7), (16, 4, 64)])) (st dev)
    (fun q t => readCheck t.dev q == none && pNat q.cmd 24 8 == 0) = true := by decide
theorem test_hyp_readOn : met 0x101 (cmd 1 1 (pb 40 [(0, 8, own 0), (8, 5, 7), (16, 4, 64), (24, 8, own 1), (32, 5, 7)])) (st dev)
    (fun q t => readCheck t.dev q == none && pNat q.cmd 24 8 != 0) = true := by decide
theorem test_hyp_atomic : met 0x105 (cmd 1 1 (pb 48 [(0, 8, own 0), (8, 5, 7), (13, 1, 9), (14, 1, 3), (15, 1, 4), (16, 8, 5), (32, 8, 4)])) (st dev)
    (fun q t => atomicCheck t.dev q == none) = true := by decide
theorem test_hyp_atomicLine : (16 = 4 ∨ 16 = 8 ∨ 16 = 16) ∧ (own 1 - 128) % 16 = 0 ∧ Memory.wf dev.mem = true := by decide
theorem test_hyp_copy : met 0x104 (cmd 1 1 (pb 48 [(0, 8, own 0), (8, 5, 7), (16, 8, own 1), (24, 5, 7), (32, 4, 4096)])) (st dev)
    (fun q t => copyCheck t.dev q == none) = true := by decide
def okPart : Part := { off := 128, len := 2, data := [1#8, 2#8], state := .ended stOk }
theorem test_hyp_onward : okPart.state = .ended stOk ∧ 0 < okPart.len
    ∧ lineOf (own 1 + okPart.off + okPart.len - 1) = lineOf (own 1 + okPart.off) := by decide
theorem test_hyp_fence : met 0x106 (ringCmd (pb 8 [(0, 1, 1)])) (st dev) (fun q _ => pNat q.cmd 0 1 == 1) = true := by decide
theorem test_hyp_nop : met 1 (cmd 1 1 (pb 8 [(0, 4, 7)])) (st dev) (fun _ _ => true) = true := by decide
theorem test_hyp_sessionClose : met 3 (cmd 0 0 (pb 4 [(0, 4, 2 ^ 24 + 1)])) (st dev) (fun q t =>
    bitsOf (pNat q.cmd 0 4) 23 12 == 0 && fromManagement t.dev q && (sessOf t.dev (pNat q.cmd 0 4 % 4096)).isOpen
    && (sessOf t.dev (pNat q.cmd 0 4 % 4096)).gen == pNat q.cmd 0 4 / 2 ^ 24) = true := by decide
theorem test_hyp_closeSession : (sessOf dev 1).isOpen = true := by decide

/-! ### Crews and long operations -/

def createCrew : List Byte := pb 48 [(0, 16, 2), (16, 2, 0xFFFF), (19, 1, 1), (36, 2, 16), (38, 2, 4), (40, 4, 8)]
theorem test_hyp_crewCreate : met 6 (cmd 0 2 createCrew) (st dev) (fun q t =>
    crewReserved q.cmd.params == false && t.dev.power.mode != 1 && crewCheck t.dev q.cmd.crew q.cmd.params == none) = true := by decide
theorem test_hyp_crewReset : met 7 (cmd 0 1 (pb 4 [(0, 1, 1)])) (st dev) (fun q t => crewEndCheck t.dev q == none) = true := by decide
theorem test_hyp_crewDelete : met 8 (cmd 0 1 (pb 4 [(0, 1, 1)])) (st { dev with regions := [] }) (fun q t => crewEndCheck t.dev q == none) = true := by decide
def resetting (k : Nat) : Dev := { dev with crews := [(1, { state := k, gen := 1, resetBy := some {} })] }
theorem test_hyp_resetDrainEnd : (crewOf (resetting 2) 1).state = 2 ∧ (crewOf (resetting 2) 1).resetBy = some {} := by decide
theorem test_hyp_deleteDrainEnd : (crewOf (resetting 3) 1).state = 3 ∧ (crewOf (resetting 3) 1).resetBy = some {} := by decide
set_option maxRecDepth 100000 in
theorem test_hyp_freeOp : freeOp dev = some 0 := by decide +kernel
def running (l : LongOp) : Dev := { dev with longops := [(0, l)] }
theorem test_hyp_endOp : (opOf (running { state := 2 }) 0).state ≠ 5 ∧ (opOf dev 0).state = 5 := by decide
def opDev : Dev := running { gen := 3, state := 2, crew := 1, opcode := 0x201 }
theorem test_hyp_longopQuery : met 0x601 (cmd 1 1 (pb 4 [(0, 4, 3 * 2 ^ 24)])) (st opDev) (fun q t => opCheck t.dev q == none) = true := by decide
theorem test_hyp_suspend : met 0x602 (ringCmd (pb 4 [(0, 4, 3 * 2 ^ 24)])) (st opDev) (fun _ _ => true) = true := by decide
theorem test_hyp_resume : met 0x603 (ringCmd (pb 4 [(0, 4, 3 * 2 ^ 24)])) (st opDev) (fun _ _ => true) = true := by decide
theorem test_hyp_cancel : met 0x604 (ringCmd (pb 4 [(0, 4, 3 * 2 ^ 24)])) (st opDev) (fun _ _ => true) = true := by decide
def suspendCmd : QCmd := { cmd := ringCmd (pb 4 [(0, 4, 3 * 2 ^ 24)]), opcode := 0x602, admitted := true }
def suspending : Dev := { opDev with queues := [(3, { queueOf dev 3 with held := [suspendCmd] })] }
theorem test_hyp_controlStep : (heldCmds suspending).filter (fun q => isControl q.opcode && q.admitted) = [suspendCmd]
    ∧ cqRoom suspending suspendCmd = true ∧ lengthCheck suspendCmd.opcode suspendCmd.cmd = none ∧ opCheck suspending suspendCmd = none := by decide +kernel
theorem test_hyp_controlOp : (opOf opDev 0).state = 2 ∧ (opOf opDev 0).committed = false
    ∧ tGet? (running { state := 3 }).longops 0 = some { state := 3 } := by decide
/-! ### Interrupts and watchdogs -/

def src (x : Src) : Dev := { dev with icu := [(265, x)] }
def waiting : Dev := src { en := true, prio := 3, sense := 2, latched := true, target := 8 }
theorem test_hyp_claim : (tgtOf waiting 8).ring = false ∧ selected waiting 8 = some 265 := by decide
theorem test_hyp_claimNone : (tgtOf dev 25).ring = false ∧ selected dev 25 = none := by decide
theorem test_hyp_complete : let d := src { active := true, target := 8 }; (srcOf d 265).active = true ∧ (srcOf d 265).target = 8 := by decide
theorem test_hyp_badComplete : ¬((srcOf dev 1023).active = true ∧ (srcOf dev 1023).target = 0) := by decide
/-- Two sources of target 8 wait with the same PRIO. -/
def tied : Dev := { dev with icu := [(264, { en := true, prio := 3, sense := 2, latched := true, target := 8 }),
                                      (265, { en := true, prio := 3, sense := 2, latched := true, target := 8 })] }
theorem test_hyp_selection : selected tied 8 = some 264 ∧ claimable tied 8 265 = true ∧ (srcOf tied 265).prio ≤ 7 ∧ (srcOf tied 264).prio ≤ 7 := by
  decide
theorem test_hyp_targetMode : icuOwns dev .firmware 8 = true
    ∧ (bitAt (1#64).toNat 0 && ((8 : Nat) == 8 || (8 : Nat) == 9)) ≠ (tgtOf dev 8).ring
    ∧ tgtActive (src { active := true, target := 8 }) 8 = true := by decide
theorem test_hyp_targetModeRing : icuOwns dev .firmware 8 = true ∧ bitAt (1#64).toNat 0 = true ∧ (tgtOf dev 8).ring = false
    ∧ tgtActive dev 8 = false ∧ (tgtOf dev 8).producer = (tgtOf dev 8).consumer := by decide
theorem test_hyp_soft : icuWriter dev (.service 0) = true ∧ srcReserved 265 = false ∧ (tgtOf dev (srcOf dev 265).target).ring = false := by decide
theorem test_hyp_srcWrite : let v : Word := BitVec.ofNat 64 (8 * 2 ^ 16 + 7 * 256 + 2 * 2 + 1)
    srcReserved 265 = false ∧ bitsOf v.toNat 3 1 ≤ 4 ∧ (srcPulse 265 = true → 2 ≤ bitsOf v.toNat 3 1)
    ∧ bitsOf v.toNat 20 16 = (srcOf waiting 265).target ∧ (tgtOf waiting (srcOf waiting 265).target).ring = false ∧ bitAt v.toNat 0 = true := by
  decide
theorem test_hyp_ringConsumer : icuOwns dev .firmware 25 = true := by decide
theorem test_hyp_kick : icuOwns dev .firmware 9 = true ∧ (tgtOf dev 9).period < 2 ^ 32 := by decide
def watched (t : Nat) : Dev := { dev with tgts := [(t, { tgtOf dev t with period := 1000 })] }
theorem test_hyp_watchdogHalf : (tgtOf (watched 9) 9).period ≠ 0 ∧ (tgtOf (watched 9) 9).half = false := by decide
theorem test_hyp_watchdogMiss : (tgtOf (watched 7) 7).period ≠ 0 ∧ (tgtOf (watched 8) 8).period ≠ 0 := by decide
/-! ### Faults, snapshots, sideband -/

/-- A CE ring that holds records 1 to 3. -/
def faulted : Dev := { dev with flt := { dev.flt with ring := [{ seq := 1 }, { seq := 2 }, { seq := 3 }], next := 4 } }
theorem test_hyp_faultRead : met 0x801 (cmd 0 0 (pb 40 [(0, 1, 1), (8, 8, 2), (16, 4, 1)])) (st faulted)
    (fun q t => faultReadCheck t.dev q == none) = true := by decide
theorem test_hyp_faultAck : met 0x802 (cmd 0 0 (pb 16 [(0, 1, 1), (8, 8, 3)])) (st faulted) (fun q t =>
    ringFields q.cmd == false && ringRight t.dev q && decide (pNat q.cmd 8 8 < (faultRing t.dev (pNat q.cmd 0 1) (pNat q.cmd 1 1)).2.1)
    && (faultRing t.dev (pNat q.cmd 0 1) (pNat q.cmd 1 1)).1 == faulted.flt.ring) = true := by decide
theorem test_hyp_fatal : dev.flt.fatal = false ∧ (sessOf dev 1).isOpen = true ∧ (sessOf dev 1).management = false
    ∧ (∀ x ∈ dev.sessions, x.1 = 0 → x.2.management = true) := by decide
theorem test_hyp_patrol : (2 : Nat) ≤ 2 ∧ ((regionAt dev (lineOf (own 0) * 128)).getD {}).paired = false := by decide
theorem test_hyp_latch : (st dev).snap.frozen = false := by decide
def frozen : State := { st dev with snap := { frozen := true, source := 1 } }
theorem test_hyp_latchHeld : frozen.snap.frozen = true ∧ (1 : Nat) ≠ 4 := by decide
theorem test_hyp_snapshotNow : met 0xB (withByte (cmd 0 0 (pb 16 [])) 0 0) (st dev)
    (fun q t => pNat q.cmd 0 1 == 0 && pNat q.cmd 8 8 == 0 && !t.snap.frozen) = true := by decide
theorem test_hyp_snapshotAt : met 0xB (withByte (cmd 0 0 (pb 16 [(8, 8, 1002)])) 0 1) (st dev)
    (fun q t => pNat q.cmd 0 1 == 1 && decide (q.stamp + 2 ≤ pNat q.cmd 8 8) && t.snap.armedAt == none) = true := by decide
theorem test_hyp_snapshotDisarm : met 0xB (withByte (cmd 0 0 (pb 16 [])) 0 2) (st dev)
    (fun q _ => pNat q.cmd 0 1 == 2 && pNat q.cmd 8 8 == 0) = true := by decide
def armedSnap : State := { st dev with snap := { armedAt := some 1001 } }
theorem test_hyp_snapshotAtTrigger : armedSnap.snap.armedAt = some 1001 ∧ 1001 ≤ armedSnap.dev.stk.number + 1 := by decide
def pinSnap : State := st { dev with regs := (0x130000, 1#64) :: dev.regs }
theorem test_hyp_snapIn : pinSnap.dev.power.phase = 9
    ∧ bitAt (regRaw (setWire 832 true (setWire 832 false pinSnap.dev)) 0x130000) 0 = true := by decide
theorem test_hyp_sideband : dev.pins.aux = true ∧ dev.side.dynamic = none ∧ ({} : Pins).aux = false ∧ ([1#8, 2#8] : List Byte).length ≠ 1 := by
  decide
def addressed : Dev := { dev with side := { dev.side with dynamic := some 9, ibi := some 2, events := true } }
theorem test_hyp_addressed : addressed.side.dynamic = some 9 ∧ addressed.pins.aux = true ∧ addressed.side.ibi = some 2 := by decide
/-- The provisioning port open: AUX_3V3 present and POWER_EN low. -/
def port (side : Side) : Dev := { dev with pins := { dev.pins with powerEn := false }, side }
theorem test_hyp_prov : (port {}).pins.aux = true ∧ (port {}).pins.powerEn = false ∧ (port {}).side.busy = false := by decide
theorem test_hyp_program : let d := port { wel := true }
    d.pins.aux = true ∧ d.pins.powerEn = false ∧ d.side.busy = false ∧ d.side.wel = true ∧ d.banks.owner = none
    ∧ 1 ≤ [1#8].length ∧ 255 % 256 + [1#8].length ≤ 256 ∧ 255 < 262144 := by decide
theorem test_hyp_provHigh : dev.pins.powerEn = true := by decide
theorem test_hyp_provLocked : ({ dev with banks := { dev.banks with owner := some default } } : Dev).banks.owner.isSome = true := by decide
theorem test_hyp_busyEnd : let d := port { busy := true }; d.power.phaseHeld = false ∧ d.side.busy = true := by decide
theorem test_hyp_busyEndHeld : let d := { dev with side := { busy := true }, power := { on := true, phase := 0, phaseHeld := true } }
    d.power.phaseHeld = true ∧ d.pins.pwrGood = true ∧ inPhase d 0 = true := by decide

/-! ### Power and start-up -/

theorem test_hyp_powerEnRise : let d := port {}; d.pins.aux = true ∧ d.pins.powerEn = false ∧ d.pins.inputOk = true := by decide
theorem test_hyp_powerFall : dev.power.on = true := by decide
theorem test_hyp_resets : dev.pins.powerEn = true ∧ isManager dev (.session 0) = true ∧ dev.power.on = true ∧ dev.pins.pwrGood = true
    ∧ dev.flt.fatal = false := by decide
theorem test_hyp_resetsFatal : let d := enterFatal 4 dev; d.pins.powerEn = true ∧ d.power.on = true ∧ d.pins.pwrGood = true ∧ d.flt.fatal = true := by
  decide
theorem test_hyp_dieReset : isManager dev (.session 0) = true ∧ dieInUse dev 1 = false ∧ dieInUse dev 0 = true := by decide
theorem test_hyp_clusterReset : 1 ∈ ({ dev with power := { dev.power with dieResetting := [1] } } : Dev).power.dieResetting := by decide
def atPhase (p : Nat) : Dev := { dev with power := { on := true, phase := p }, stk := {}, sessions := [], queues := [], crews := [] }
theorem test_hyp_phase0 : let d := { atPhase 0 with pins := { dev.pins with pwrGood := false } }
    d.flt.fatal = false ∧ d.power.on = true ∧ d.power.phase = 0 ∧ d.pins.pwrGood = false := by decide
theorem test_hyp_phases : ∀ p ≤ 8, (atPhase p).flt.fatal = false ∧ (atPhase p).power.on = true ∧ (atPhase p).power.phase = p := by decide
/-- The header of an unsigned image of a type over a body of n bytes (Table 12-1). -/
def header (t n : Nat) : List Byte :=
  toLe 20 (0x4E5A494D41470001 + t * 2 ^ 64 + (if t ≤ 4 then 1 else 2) * 2 ^ 72 + 0x5860 * 2 ^ 80 + 2 ^ 96 + n * 2 ^ 128) ++ zeros 4076
/-- A CONFIG body without crew entries, for module 5 of hall 7 (Table 12-4). -/
def config : List Byte :=
  toLe 32 (0x4E5A434647310001 + 7 * 2 ^ 64 + 5 * 2 ^ 96 + 425 * 2 ^ 128 + 16 * 2 ^ 144 + 24 * 2 ^ 152)
    ++ toLe 32 (1500 * 2 ^ 160 + 2 ^ 176) ++ zeros 44 ++ toLe 20 (1000 + 16 * 2 ^ 32) ++ zeros 2432
/-- A bank A whose every image stands. -/
def banked (p : Nat) : State := st { atPhase p with banks := { dev.banks with imagesA :=
  [(1, { svn := 1, header := header 1 0 }), (2, { svn := 1, header := header 2 0 }), (3, { svn := 1, header := header 3 0 }),
   (4, { svn := 1, header := header 4 0 }), (6, { svn := 1, header := header 6 2560, body := config })] } }
set_option maxRecDepth 100000 in
theorem test_hyp_bootRom : imageStands (banked 1) (firstBank (banked 1).dev) 1 = true ∧ verdictOn { aOk := true } (firstBank (banked 1).dev) = true := by
  decide +kernel
set_option maxRecDepth 100000 in
theorem test_hyp_bootLoader : bankStands (banked 2) (banked 2).dev.banks.booted = true := by decide +kernel
def syncFor (d : Dev) : SyncPkt := { hall := d.cfg.hall, port := 2, period := 425, source := unitId 6 0, stroke := 77 }
def listening : Dev := { atPhase 5 with ports := [(2, { up := true })], regs := [(0x10020, 4#64)] }
theorem test_hyp_strokeLock : listening.power.phase = 5 ∧ listening.cfg.master = false ∧ syncUsable listening (syncFor listening) = true := by decide
theorem test_hyp_master : ({ atPhase 5 with cfg := { dev.cfg with master := true } } : Dev).cfg.master = true := by decide
theorem test_hyp_joinTimeout : let d := { atPhase 7 with cfg := { dev.cfg with role := 1 }, pair := { state := 1 } }
    d.cfg.role ≠ 0 ∧ d.pair.state = 1 ∧ d.power.phase = 7 ∧ bitAt (2 ^ 12 + 5) 12 = true ∧ (2 ^ 12 + 5) % 4096 = ownModule d := by decide
theorem test_hyp_wire : srcReserved 834 = false ∧ (tgtOf dev (srcOf dev 834).target).ring = false := by decide
/-! ### Registers -/

theorem test_hyp_regRead : met 9 (cmd 0 0 (pb 8 [(0, 8, 0x18)])) (st dev)
    (fun q _ => decide (pNat q.cmd 0 8 < 2 ^ 50) && q.cmd.route == .session 0) = true := by decide
theorem test_hyp_regNone : 0x11FFFF8 % 8 = 0 ∧ 0x11FFFF8 < 0x01200000 ∧ 0x11FFFF8 / 65536 ≠ 0xF ∧ regFind 0x11FFFF8 = none := by decide +kernel
theorem test_hyp_regReadManagement : (sessOf dev 0).management = true ∧ (sessOf dev 1).management = false ∧ (255 : Nat) ≠ (sessOf dev 1).crew := by
  decide
theorem test_hyp_meterLatch : ∃ c, (1, c) ∈ liveCrews dev := ⟨_, List.mem_singleton.mpr rfl⟩
theorem test_hyp_writeRefused : writerActs dev (.session 2) = false := by decide
theorem test_hyp_regWrite : met 0xA (cmd 0 0 (pb 24 [(0, 8, 0xB0018), (8, 8, 1), (16, 8, 1)])) (st dev)
    (fun q _ => decide (pNat q.cmd 0 8 < 2 ^ 50)) = true := by decide
theorem test_hyp_registerWrite : (regFind 0x90000).isSome = true ∧ isManager dev (.session 0) = true
    ∧ 0x90000 ∉ [0x30008, 0x30010, 0x50008, 0x120030, 0x120050, 0xC0000, 0x60050, 0xB1000, 0xC1000, 0xC1008] := by decide +kernel
def qconf : Word := BitVec.ofNat 64 (3 * 2 ^ 48 + 255)
theorem test_hyp_qconf : writerActs dev (.session 1) = true ∧ mayName dev (.session 1) (bitsOf qconf.toNat 62 48) = true
    ∧ (queueOf dev 3).present = true ∧ bitsOf qconf.toNat 7 0 ≠ 0 ∧ bitAt qconf.toNat 15 = false
    ∧ 3 * 2 ^ 48 + 255 ≠ qconfRead dev 3 ∧ 3 * 2 ^ 48 + 5 * 2 ^ 24 ≠ qshapeRead dev 3 := by decide
theorem test_hyp_periodAt : isManager dev (.session 0) = true ∧ (2023#64).toNat < dev.stk.number + 1024 ∧ dev.stk.number + 1024 ≤ (2024#64).toNat := by
  decide
def changing : Dev := { dev with regs := (0x10010, 1000#64) :: dev.regs }
theorem test_hyp_periodChange : regRaw changing 0x10010 ≠ 0 ∧ regRaw changing 0x10010 ≤ changing.stk.number := by decide
theorem test_hyp_spad : isManager dev (.session 0) = true ∧ crewLives dev 1 = true ∧ bitsOf (28 * 256) 15 8 ≠ tGet dev.spadSet 1
    ∧ (setSpad 1 28 dev).1 = stOk := by decide +kernel
theorem test_hyp_cacheShare : (∃ c, tGet? dev.crews 1 = some c) ∧ bitsOf 100 31 0 ≠ bitsOf (regRaw dev (0x71000 + 0x20)) 31 0
    ∧ (crewOf dev 1).dramUsed - 0 + 100 ≤ (crewOf dev 1).dramQuota := ⟨⟨_, rfl⟩, by decide +kernel, by decide⟩
theorem test_hyp_markWrites : writerActs dev (.session 0) = true ∧ isManager dev (.session 0) = true ∧ bitAt (regRaw dev 0x140008) 1 = false := by
  decide +kernel
theorem test_hyp_profile : let d := { dev with profiles := [(63, { en := true, crew := 1 })] }
    (profOf d 63).oldGen = 0 ∧ (profOf d 63).en = true ∧ bitsOf (256 + 16) 5 4 ≠ 3 ∧ bitsOf (256 + 16) 15 8 = 1 := by decide
theorem test_hyp_frozenRelease : frozen.snap.frozen = true ∧ writerActs frozen.dev (.session 0) = true ∧ isManager frozen.dev (.session 0) = true := by
  decide
theorem test_hyp_standby : liveCrews (atPhase 9) = [] ∧ bitAt 2 1 = true ∧ bitAt (regInForce (atPhase 9) 0x140008) 1 = false
    ∧ isManager { dev with crews := [], regs := [(0x140008, 2#64)] } (.session 0) = true
    ∧ bitAt (regRaw { dev with crews := [], regs := [(0x140008, 2#64)] } 0x140008) 1 = true := by decide +kernel

/-! ### Compute -/

def loadPs (cs rows : Nat) : List Byte := pb 32 [(0, 8, if cs = 1 then 0 else own 0), (8, 5, if cs = 1 then 0 else 7), (13, 1, cs), (16, 4, 64),
  (20, 4, 64), (24, 4, rows), (28, 4, 128)]
def shared : Dev := { dev with inForce := (0x61008, 4#64) :: dev.inForce }
theorem test_hyp_scratchLoad : met 0x306 (cmd 1 1 (loadPs 0 2)) (st dev)
    (fun q t => scratchCheck t.dev q == none && !bitAt (pNat q.cmd 13 1) 0) = true := by decide +kernel
theorem test_hyp_scratchLoadCache : met 0x306 (cmd 1 1 (loadPs 1 1)) (st shared)
    (fun q t => scratchCheck t.dev q == none && bitAt (pNat q.cmd 13 1) 0 && pNat q.cmd 24 4 == 1) = true := by decide +kernel
theorem test_hyp_scratchStore : met 0x307 (cmd 1 1 (loadPs 0 2)) (st dev)
    (fun q t => scratchCheck t.dev q == none && t.dev.flagged == [] && !bitAt (pNat q.cmd 13 1) 0) = true := by decide +kernel
theorem test_hyp_scratchStoreCache : met 0x307 (cmd 1 1 (loadPs 1 1)) (st shared)
    (fun q t => scratchCheck t.dev q == none && t.dev.flagged == [] && bitAt (pNat q.cmd 13 1) 0) = true := by decide +kernel
def loadJob (p : Part) : Job := { owner := .command {}, goal := .scratch 0 64 0, parts := [p] }
theorem test_hyp_finishLoad : (loadJob okPart).goal = .scratch 0 64 0 ∧ (loadJob okPart).parts = [okPart] ∧ okPart.state = .ended stOk
    ∧ ({ okPart with state := .ended stPoisoned } : Part).state = .ended stPoisoned := by decide
def expertPs : List Byte := pb 64 [(0, 8, own 0), (8, 5, 7), (13, 1, 2), (14, 1, 1), (16, 4, 0x3F800000), (24, 8, own 1), (32, 5, 7), (40, 8, own 2),
  (48, 5, 7)]
theorem test_hyp_expert : met 0x301 (cmd 1 1 expertPs) (st dev) (fun q t => expertCheck t.dev q == none) = true := by decide
theorem test_hyp_expertRefused : met 0x301 (cmd 1 1 (overlay expertPs 13 [4#8])) (st dev) (fun q t => expertCheck t.dev q == some stBadField) = true := by
  decide
def tokenCmd : QCmd := { cmd := cmd 1 1 expertPs, opcode := 0x301 }
/-- A descriptor of D_MODEL 1 and D_FF 1 with flags, whose weights of format 7 begin region 3. -/
def descOf (flags : Nat) : Nat := own 3 + 7 * 2 ^ 64 + 7 * 2 ^ 104 + flags * 2 ^ 112 + 2 ^ 144 + 2 ^ 160
/-- What the batch of that descriptor reads for a token. -/
def expertSpans (flags : Nat) : List Span :=
  let x := parseExpert (toLe 128 (descOf flags))
  [(x.weights, 3 * x.tiles * x.tile (0, 0), devKey dev x.weights), (pNat tokenCmd.cmd 40 8, arrayBytes 2 (x.dm * 128), pNat tokenCmd.cmd 48 5)]
/-- The status of the weights and of the activation that are read. -/
def expertReads (flags : Nat) (d : Dev) : Option (Nat × Nat) := match fetchNow (expertSpans flags) d with
  | (some [w, a], _) => some (firstBad w, firstBad a)
  | _ => none
theorem test_hyp_expertBatch : profLive dev 1 0 0 0 = none ∧ expertReads 0 dev = some (stOk, stOk) := by decide +kernel
def poisonedAt (a : Nat) : Dev := { dev with poison := [lineOf a] }
theorem test_hyp_expertWeights : (expertReads 1 (poisonedAt (own 3))).map (·.1) = some stPoisoned := by decide +kernel
theorem test_hyp_expertActivation : expertReads 1 (poisonedAt (own 2)) = some (stOk, stPoisoned) := by decide +kernel
theorem test_hyp_expertParked : expertReads 1 { dev with dir := [(lineOf (own 2), { state := 3, holders := [unitId 6 3] })] } = none := by decide +kernel
def attnPs : List Byte := pb 80 [(0, 8, own 0), (8, 5, 7), (13, 1, 2), (14, 1, 2), (16, 2, 1), (18, 2, 16), (20, 2, 16), (24, 8, own 1), (32, 5, 7),
  (37, 1, 1), (38, 2, 1), (40, 4, 0x3F800000), (48, 8, own 2), (56, 5, 7), (64, 5, 7)]
theorem test_hyp_attn : met 0x302 (cmd 1 1 attnPs) (st dev) (fun q t => attnCheck t.dev q == none) = true := by decide +kernel
def combinePs : List Byte := pb 64 [(0, 8, own 0), (8, 5, 7), (15, 1, 2), (16, 4, 128), (20, 4, 5), (24, 1, 15), (25, 1, 1), (32, 8, own 1), (40, 5, 7)]
theorem test_hyp_combine : met 0x303 (cmd 1 1 combinePs) (st dev)
    (fun q t => combineCheck t.dev q == none && decide (t.dev.armed.length < 4096)) = true := by decide +kernel
def armedOf (mem : List Host.Cell) : Dev := { dev with armed := [(2, { q := { cmd := cmd 1 1 combinePs }, crew := 1, deadline := 1000 })], mem }
theorem test_hyp_combineMissing : combineComplete (armedOf []) (cmd 1 1 combinePs) = false ∧ (armedOf []).stk.number < 1001
    ∧ 1000 ≤ (armedOf []).stk.number := by decide +kernel
theorem test_hyp_combineThere : let d := armedOf [(own 0, 5#8), (own 0 + 128, 5#8)]
    combineComplete d (cmd 1 1 combinePs) = true ∧ d.dir = [] ∧ bitAt (pNat (cmd 1 1 combinePs) 14 1) 0 = false
    ∧ (∀ i, i < pNat (cmd 1 1 combinePs) 15 1 → combineArrived d (cmd 1 1 combinePs) i = true → inputStatus d (cmd 1 1 combinePs) i = 0) := by
  decide +kernel
theorem test_hyp_combineFailed : let d := armedOf [(own 0, 5#8), (own 0 + 128, 5#8), (own 0 + 132, 1#8)]
    combineArrived d (cmd 1 1 combinePs) 1 = true ∧ inputStatus d (cmd 1 1 combinePs) 1 ≠ 0
    ∧ (∀ k, k < 1 → combineArrived d (cmd 1 1 combinePs) k = true → inputStatus d (cmd 1 1 combinePs) k = 0) := by decide +kernel
/-! ### Factored weights, image loads, tables, indexes -/

/-- Profile 0 at generation 1, rank 0; region 0 marked for it, region 2 not; image key 3 of crew 1. -/
def factored : Dev := { dev with
  profiles := [(0, { en := true, crew := 1, gen := 1, dfmt := 1 })]
  regions := (regn 0, { crew := 1, key := 7, mark := some (0, 0) }) :: dev.regions.tail
  keySlots := [(3, { use := 1, crew := 1 })] }
def expandPs (spad : Nat) : List Byte := pb 48 [(0, 8, own 0), (8, 5, 7), (14, 1, 1), (15, 1, spad), (16, 2, 1), (22, 2, 1), (24, 2, 1),
  (32, 8, if spad = 1 then 64 else own 1), (40, 5, if spad = 1 then 0 else 7)]
theorem test_hyp_expand : met 0x304 (cmd 1 1 (expandPs 0)) (st factored) (fun q t => expandCheck t.dev q == none) = true := by decide +kernel
theorem test_hyp_expandPad : met 0x304 (cmd 1 1 (expandPs 1)) (st factored) (fun q t => expandCheck t.dev q == none) = true := by decide +kernel
theorem test_hyp_expandRead :
    ((fetch { cmd := cmd 1 1 (expandPs 0) } ((expandSrc (cmd 1 1 (expandPs 0)) 1040).map fun r => (r.1, r.2, 7)) factored).1).isSome = true := by
  decide +kernel
def factorPs : List Byte := pb 48 [(0, 8, own 1), (8, 5, 7), (13, 1, 2), (15, 1, 1), (16, 2, 1), (18, 2, 1), (24, 8, own 2), (32, 5, 7)]
set_option maxRecDepth 100000 in
theorem test_hyp_factor : met 0x305 (cmd 1 1 factorPs) (st factored)
    (fun q t => factorCheck t.dev q == none && !(freeOp t.dev).isNone) = true := by decide +kernel
theorem test_hyp_factorUndo : (opOf dev 0).phase = 0 ∧ (opOf (running { phase := 1 }) 0).phase ≠ 0 := by decide
theorem test_hyp_imageLoad : met 0x206 (cmd 1 1 (pb 40 [(0, 8, own 0), (8, 5, 7), (15, 1, 3), (20, 8, own 1), (28, 5, 7), (36, 4, 2)])) (st factored)
    (fun q t => imageLoadCheck t.dev q == none && (imageSlot t.dev q.cmd.crew (pNat q.cmd 15 1)).isSome) = true := by decide +kernel
def retiring : Dev := { dev with profiles := [(5, { crew := 1, gen := 2, oldGen := 1 })] }
theorem test_hyp_profileRetire : (profOf retiring 5).oldGen ≠ 0 ∧ profHolders retiring (profOf retiring 5) = 0 := by decide +kernel

/-- Table 2 of crew 1: 100 rows of 32 elements, its descriptors in region 0 and its bodies in region 1; operation 0 as given. -/
def tabled : Dev := { dev with tables := [(2, { state := 1, gen := 1, crew := 1, version := 1, dim := 1, rows := 100, descs := own 0, body := own 1,
                                                bodyRegions := 1 })] }
def poolPs : List Byte := pb 48 [(0, 1, 2), (1, 1, 1), (4, 2, 1), (8, 4, 1), (12, 8, own 2), (20, 5, 7), (28, 8, own 3), (36, 5, 7)]
theorem test_hyp_pool : met 0x401 (cmd 1 1 poolPs) (st tabled) (fun q t => poolCheck t.dev q == none
    && (fetch q [(own 2, 8, 7)] t.dev).1.isSome) = true := by decide +kernel
theorem test_hyp_poolBag : met 0x401 (cmd 1 1 poolPs) (st { tabled with mem := [(own 2, 1#8)] }) (fun q t => poolCheck t.dev q == none
    && (match (fetch q [(own 2, 8, 7)] t.dev).1 with
      | some x => fieldLe (spanBytes (x.getD 0 [])) 0 2 == pNat q.cmd 8 4
      | none => false)) = true := by decide +kernel
theorem test_hyp_bindTable : (tabled.bound.find? fun b => b.work == 0) = none := by decide
theorem test_hyp_poolOut : bitAt (pNat (cmd 1 1 poolPs) 2 1) 2 = false ∧ ((lookRows { cmd := cmd 1 1 poolPs } (bindTable {} 2 tabled).1 32 true [(0, 5)]
    { (bindTable {} 2 tabled).2 with draws := 1 }).1.map List.length) = some 1 := by decide +kernel
def hotDev : Dev := { tabled with hotOn := [(2, 15)], hot := [{ table := 2, cluster := 15, row := 99, body := [1#8] }] }
theorem test_hyp_hotCopy : hotCopy hotDev 2 15 99 = some { table := 2, cluster := 15, row := 99, body := [1#8] } := by decide
def good8 (n : Nat) : Part := { len := 8, data := toLe 8 n, state := .ended stOk }
theorem test_hyp_resolve : firstBad [good8 (2 ^ 61 + 2 ^ 51)] = stOk
    ∧ (let r := parseRow (spanBytes [good8 (2 ^ 61 + 2 ^ 51)])
      r.rsv = 0 ∧ bodyFits 32 1 r = true ∧ r.replica = true ∧ r.version = 1)
    ∧ replicaOf { dev with replicas := [{ table := 2, cluster := 0, row := 5, version := 1, filled := true }] } 2 0 5 1
      = some { table := 2, cluster := 0, row := 5, version := 1, filled := true }
    ∧ (parseRow (spanBytes [good8 0])).replica = false := by decide +kernel
theorem test_hyp_hotsetDrop : met 0x403 (withByte (cmd 1 1 (pb 8 [(0, 1, 2), (1, 1, 1), (4, 2, 1)])) 2 1) (st tabled)
    (fun q t => pNat q.cmd 2 1 == 1 && hotsetCheck t.dev q == none) = true := by decide +kernel
def hotPs : List Byte := pb 40 [(0, 1, 2), (1, 1, 1), (4, 2, 1), (8, 4, 1), (16, 4, 65536), (20, 8, own 2), (28, 5, 7)]
theorem test_hyp_hotsetLoad : met 0x403 (withByte (cmd 1 1 hotPs) 2 0) (st tabled) (fun q t =>
    let b := bindTable q 2 (dropHot 2 0 t.dev)
    pNat q.cmd 2 1 == 0 && hotsetCheck t.dev q == none && maskBits 16 (pNat q.cmd 4 2) == [0]
    && (match fetch q [(own 2, 4, 7)] b.2 with
      | (some l, e) => spansBad l == stOk && (lookRows q b.1 32 false [(0, 0)] e).1.isSome
          && bagStatus ((lookRows q b.1 32 false [(0, 0)] e).1.getD []) == stOk
      | _ => false)) = true := by decide +kernel
def replicatePs : List Byte := pb 16 [(0, 1, 2), (1, 1, 1), (4, 4, 5)]
theorem test_hyp_rowReplicateClear : met 0x404 (withByte (cmd 1 1 replicatePs) 2 1) (st tabled) (fun q t =>
    pNat q.cmd 2 1 == 1 && rowReplicateCheck t.dev q == none && (match fetch q [descSpan t.dev (own 0) 5] t.dev with
      | (some l, e) => spansBad l == stOk && e.dir == []
      | _ => false)) = true := by decide +kernel
theorem test_hyp_rowReplicateSet : met 0x404 (withByte (cmd 1 1 replicatePs) 2 0) (st tabled) (fun q t =>
    pNat q.cmd 2 1 == 0 && rowReplicateCheck t.dev q == none && (match fetch q [descSpan t.dev (own 0) 5] t.dev with
      | (some l, e) => spansBad l == stOk && (parseRow (spanBytes (l.getD 0 []))).rsv == 0 && bodyFits 32 1 (parseRow (spanBytes (l.getD 0 [])))
          && (match fetch q [(own 1, bodyBytes 0 32, 7)] e with
            | (some l2, f) => spansBad l2 == stOk && f.dir == []
                && (crewClusters f 1).all fun k => decide (replicaUsed f 1 k + 256 ≤ replicaRoom f 1 k)
            | _ => false)
      | _ => false)) = true := by decide +kernel
def publishPs (op off : Nat) : List Byte := pb 48 [(0, 1, 2), (1, 1, 1), (3, 1, 2), (4, 1, if op = 1 then 0 else 1), (8, 4, 5), (16, 8, off),
  (24, 8, if op = 0 then own 2 else 0), (32, 5, if op = 0 then 7 else 0)]
theorem test_hyp_rowPublish : ([0, 1, 2].all fun op => met 0x402 (withByte (cmd 1 1 (publishPs op 100)) 2 op) (st tabled) (fun q t =>
    moveOf t.dev q == none && rowPublishCheck t.dev q == none && (match fetch q [descSpan t.dev (own 0) 5] t.dev with
      | (some l, e) => spansBad l == stOk && e.moves == t.dev.moves
      | _ => false))) = true := by decide +kernel
theorem test_hyp_rowSwap : let q : QCmd := { cmd := cmd 1 1 (publishPs 0 100) }
    bitAt (pNat q.cmd 3 1) 1 = true ∧ ({ version := 5 } : RowDesc).version ≠ pNat q.cmd 6 2 ∧ ({} : RowDesc).version = pNat q.cmd 6 2 := by
  decide +kernel
def moved : Dev := { tabled with moves := [(0, { table := 2, row := 5, swapped := some 900 })] }
theorem test_hyp_rowFenceEnd : tGet? moved.moves 0 = some { table := 2, row := 5, swapped := some 900 } ∧ 900 + reqTimeout moved ≤ moved.stk.number
    ∧ { moved.stk with number := 963 }.number < 900 + reqTimeout { moved with stk := { moved.stk with number := 963 } } := by decide +kernel
def switchPs (op : Nat) : List Byte := pb 64 (if op = 2 then [(0, 1, 2), (1, 1, 2), (2, 1, 1)] else
  [(1, 1, if op = 0 then 0 else 2), (2, 1, if op = 0 then 0 else 1), (4, 1, if op = 0 then 8 else 0), (8, 8, own 2), (16, 5, 7), (24, 4, 100),
   (32, 8, own 3), (40, 5, 7), (48, 4, 1)])
set_option maxRecDepth 100000 in
theorem test_hyp_tableSwitch : ([0, 1, 2].all fun op => met 0x405 (withByte (cmd 1 1 (switchPs op)) 0 op) (st tabled)
    (fun q t => pNat q.cmd 0 1 == op && tableSwitchCheck t.dev q == none)) = true := by decide +kernel
def draining (b : List Bound) : Dev := { tabled with
  longops := [(4095, { state := 4, opcode := 0x405, first := 2, committed := true })]
  jobs := [(1, { owner := .command { id := 8 } })]
  bound := b }
theorem test_hyp_tableDrainEnd : (opOf (draining []) 4095).state ≠ 5 ∧ (opOf (draining []) 4095).opcode = 0x405
    ∧ (opOf (draining []) 4095).committed = true ∧ oldBound (draining []) 2 = false
    ∧ oldBound (draining [{ work := 8, table := 2 }]) 2 = true := by decide +kernel

/-- Index 7 of crew 1: dimension 16, one list, eight side slots. -/
def descr : IndexDesc := { vfmt := 1, dim := 16, m := 8, nlist := 1, capK := 1, sideSlots := 8, centroids := own 0, codebook := own 0
                           directory := own 1, lists := own 2, listBytes := 4096, codes := own 2, side := own 3 }
def indexed : Dev := { dev with indexes := [(7, { state := 1, gen := 1, crew := 1, desc := descr, filters := [(3, { bound := true, gen := 9 })] })] }
theorem test_hyp_insert : met 0x502 (cmd 1 1 (pb 32 [(0, 1, 7), (1, 1, 1), (4, 4, 1023), (8, 8, own 1), (16, 5, 7)])) (st indexed) (fun q t =>
    let d := pruneSide 7 t.dev
    changeCheck d q == none && (match fetch q [(own 1, 32, 7)] d with
      | (some x, _) => spansBad x == stOk
      | _ => false)) = true := by decide +kernel
theorem test_hyp_delete : met 0x503 (cmd 1 1 (pb 8 [(0, 1, 7), (1, 1, 1), (4, 4, 0)])) (st indexed)
    (fun q t => changeCheck (pruneSide (pNat q.cmd 0 1) t.dev) q == none) = true := by decide +kernel
def filterPs (op : Nat) : List Byte := pb 32 ([(0, 1, 7), (1, 1, 1), (3, 1, 15)] ++ if op = 0 then [(8, 8, own 1), (16, 5, 7)] else [])
theorem test_hyp_filters : ([0, 1].all fun op => met 0x505 (withByte (cmd 1 1 (filterPs op)) 2 op) (st indexed)
    (fun q t => pNat q.cmd 2 1 == op && filterCheck t.dev q == none)) = true := by decide +kernel
def mergePs (op : Nat) : List Byte := pb 24 (if op = 0 then [(8, 8, own 1), (16, 5, 7)] else if op = 1 then [(1, 1, 7), (2, 1, 1), (8, 8, own 1), (16, 5, 7)]
  else [(1, 1, 7), (2, 1, 1)])
theorem test_hyp_mergeDescriptor : ([0, 1].all fun op => met 0x504 (withByte (cmd 1 1 (mergePs op)) 0 op) (st indexed) (fun q t =>
    pNat q.cmd 0 1 == op && mergeCheck t.dev q == none && (match fetch q [(own 1, 128, 7)] t.dev with
      | (some l, e) => spansBad l == stOk && mergeLate e q (spanBytes (l.getD 0 [])) == some stBadField
      | _ => false))) = true := by decide +kernel
set_option maxRecDepth 100000 in
theorem test_hyp_mergeDetach : met 0x504 (withByte (cmd 1 1 (mergePs 2)) 0 2) (st indexed) (fun q t =>
    pNat q.cmd 0 1 == 2 && mergeCheck t.dev q == none && (match fetch q [(0, 0, 0)] t.dev with
      | (some l, e) => spansBad l == stOk && mergeLate e q (spanBytes (l.getD 0 [])) == none
      | _ => false)) = true := by decide +kernel
def detached : Dev := { dev with
  indexes := [(63, { state := 3, gen := 1, crew := 1 })]
  longops := [(0, { state := 4, opcode := 0x504, first := 63, committed := true })] }
theorem test_hyp_indexFree : (indexOf detached 63).state = 3 ∧ searchesOn detached 63 = []
    ∧ ((liveOps detached).find? fun l => l.2.opcode == 0x504 && l.2.first == 63 && l.2.committed)
      = some (0, { state := 4, opcode := 0x504, first := 63, committed := true }) := by decide +kernel
def searchPs : List Byte := pb 64 [(0, 1, 7), (1, 1, 1), (2, 1, 2), (3, 1, 1), (4, 2, 1), (6, 2, 1), (9, 1, 3), (10, 1, 9), (16, 8, own 1), (24, 5, 7),
  (32, 8, own 2), (40, 5, 7)]
theorem test_hyp_search : met 0x501 (cmd 1 1 searchPs) (st indexed) (fun q t =>
    tGet? t.dev.searches q.id == none && searchCheck t.dev q == none && (match fetch q [(own 1, 32, 7), (own 0, 32, 7)] t.dev with
      | (some x, _) => spansBad x == stOk
      | _ => false)) = true := by decide +kernel
theorem test_hyp_listScanBetween : ({ dev with regs := [(0xE0000, 2#64)], inForce := [(0xE0000, 2#64)], stk := { number := 1001 } } : Dev).stk.number
    % max 1 (cfgField { dev with regs := [(0xE0000, 2#64)], inForce := [(0xE0000, 2#64)] } 0xE0000 3 0) ≠ 0 := by decide +kernel
def waitingSearch : Search := { q := { cmd := cmd 1 1 searchPs }, crew := 1, index := 7, desc := descr, start := 999, stage := 1 }
def searching : Dev := { indexed with searches := [(8, waitingSearch)] }
theorem test_hyp_listScan : searching.stk.number % max 1 (cfgField searching 0xE0000 3 0) = 0 ∧ searching.dir = []
    ∧ ((searchesOn searching 7).filter fun x => x.2.stage == 1 && decide (x.2.start < searching.stk.number)) = [(8, waitingSearch)]
    ∧ pNat waitingSearch.q.cmd 8 1 = 0 := by decide +kernel

/-! ### Attestation, keys, images, logs -/

def leaves (n : Nat) : Dev := { dev with regs := (0x120018, (n : Word)) :: dev.regs }
theorem test_hyp_attest : met 0x701 (cmd 1 1 (pb 32 [])) (st (leaves 1)) (fun _ t => lmsLeft t.dev != 0 && decide (t.dev.attest.length < 255)) = true := by
  decide +kernel
theorem test_hyp_attestEmpty : met 0x701 (cmd 1 1 (pb 32 [])) (st (leaves 0)) (fun _ t => lmsLeft t.dev == 0) = true := by decide +kernel
def reported (n : Nat) : Dev := { leaves n with attest := [{ leaf := 7 }] }
theorem test_hyp_attestBatchClose : (reported 0).attest ≠ [] ∧ lmsLeft (reported 0) = 0 ∧ lmsLeft (reported 1048576) ≠ 0 := by decide +kernel
theorem test_hyp_importKeyExpiry : (tGet? { dev with importKeys := [(255, { live := true, signed := true })] }.importKeys 255).isSome = true := by
  decide
def credential : List Byte := pb 160 [(1, 1, 2), (24, 1, 1)]
theorem test_hyp_keyImport (h : Config.onCurve (slice (cmd 0 1 credential).params 24 96) = true) :
    keyImportCheck dev { cmd := cmd 0 1 credential, opcode := 0x702, sessGen := 1 } = none := by
  dsimp only [keyImportCheck]
  generalize Config.onCurve (slice (cmd 0 1 credential).params 24 96) = b at h ⊢
  subst h
  decide +kernel
theorem test_hyp_keyImportBegins : met 0x702 (cmd 0 1 credential) (st dev) (fun q _ => pNat q.cmd 1 1 == 2) = true := by decide +kernel
def importing : Dev := { dev with importKeys := [(9, { gen := 1, live := true, signed := true, owner := some 1 })] }
def wrapped : List Byte := pb 160 [(1, 1, 1), (4, 4, 2 ^ 24 + 9), (8, 16, 5), (24, 1, 1)]
theorem test_hyp_keyImportWrapped (h : Config.onCurve (slice (cmd 1 1 wrapped).params 24 96) = true) :
    keyImportCheck importing { cmd := cmd 1 1 wrapped, opcode := 0x702 } = none := by
  dsimp only [keyImportCheck]
  generalize Config.onCurve (slice (cmd 1 1 wrapped).params 24 96) = b at h ⊢
  subst h
  decide +kernel
theorem test_hyp_keyImportWrappedBegins : met 0x702 (cmd 1 1 wrapped) (st importing) (fun q _ => pNat q.cmd 1 1 == 1) = true := by decide +kernel
def slotted : Dev := { dev with keySlots := [(63, { use := 2, gen := 4, crew := 1 })] }
theorem test_hyp_keyRetire : met 0x703 (cmd 0 1 (pb 4 [(0, 1, 63), (1, 1, 4)])) (st slotted) (fun q t =>
    let k := keySlot t.dev (pNat q.cmd 0 1)
    k.use != 0 && k.gen == pNat q.cmd 1 1 && k.crew == q.cmd.crew && !slotNamed t.dev (pNat q.cmd 0 1)) = true := by decide +kernel
theorem test_hyp_keyRetireStale : met 0x703 (cmd 0 1 (pb 4 [(0, 1, 63), (1, 1, 3)])) (st slotted)
    (fun q t => (keySlot t.dev (pNat q.cmd 0 1)).gen != pNat q.cmd 1 1) = true := by decide +kernel
def stagePs : List Byte := pb 24 [(0, 8, own 0), (8, 5, 7), (16, 4, 4097)]
def management : Dev := { dev with regions := [(regn 0, { crew := 0, key := 7 })], crews := (0, { crewOf dev 1 with qCount := 0 }) :: dev.crews }
theorem test_hyp_fwStage : met 0x704 (cmd 0 0 stagePs) (st management) (fun q t =>
    homeDram t.dev (own 0) 4096 && rangeCheck t.dev q.cmd.crew (own 0) 4097 7 == none && t.dev.banks.trial != some (1 - t.dev.banks.active)
    && decide (t.dev.banks.active < 2) && (match fetch q [(own 0, 4097, 7)] t.dev with
      | (some l, e) => spansBad l == stOk && imageRefused { t with dev := e } ((spanBytes l.flatten).take 4096) ((spanBytes l.flatten).drop 4096) == some stBadField
      | _ => false)) = true := by decide +kernel
theorem test_hyp_fwActivate : met 0x705 (cmd 0 0 (pb 4 [(0, 1, 1)])) (st dev) (fun q t => decide (pNat q.cmd 0 1 < 2) && !bankPasses t (pNat q.cmd 0 1)) = true := by
  decide +kernel
def logged : Dev := { dev with log := { dev.log with recs := [{ seq := 1, owner := 1 }, { seq := 2, owner := 0x8000 }], next := 3, batchFrom := 1
                                                     batches := [{ number := 4 }], ledgers := [{ finish := 16, entries := [{ crew := 1, gen := 1 }] }] } }
theorem test_hyp_logBatchClose : logged.log.batchFrom < logged.log.next := by decide
theorem test_hyp_ledger : let d := { dev with stk := { dev.stk with number := 2 ^ 31 } }
    aligned d.stk.number (2 ^ cfgField d 0x20008 4 0) = true ∧ d.log.ledgerStart < d.stk.number := by decide +kernel
def logPs (w : Nat) : List Byte := pb 24 [(0, 1, w), (1, 1, if w = 3 then 1 else 0), (2, 1, if w = 3 then 1 else 0), (8, 8, if w = 3 then 16 else 0), (16, 4, 1)]
theorem test_hyp_logRead : ([0, 1, 2, 3].all fun w => met 0x706 (cmd 0 0 (logPs w)) (st logged)
    (fun q t => logReadCheck t.dev q == none && pNat q.cmd 0 1 == w)) = true := by decide +kernel
theorem test_hyp_ledgerEntry : ((logged.log.ledgers.find? fun g => g.finish == 16).bind fun g => g.entries.find? fun e => e.crew == 1 && e.gen == 1).isSome
    = true := by decide

/-! ### Pairs -/

/-- A member in a state of Table 14-2 with its pair record otherwise as given; the partner is module 6. -/
def member (role : Nat) (p : Pair) : Dev := { bow with cfg := { bow.cfg with role }, pair := p }
theorem test_hyp_mirrorIn : let d := member 2 { state := 5, applied := 4 }
    mirrorListens d = true ∧ tGet? d.pair.buffer 6 = none ∧ tGet? d.pair.regionBuffer 6 = none ∧ Memory.wf d.mem = true ∧ (zeros 128).length = 128
    ∧ d.pair.applied + 1 < 2 ^ 64 - 1 := by decide +kernel
theorem test_hyp_mirrorAck : let d := member 1 { state := 4, mseq := 9, waits := [{ mseq := 8, addr := own 0, line := zeros 128 }] }
    d.pair.state = 4 ∧ d.pair.switching = false ∧ Memory.wf d.mem = true ∧ d.jobs = []
    ∧ d.pair.waits = [] ++ { mseq := 8, addr := own 0, line := zeros 128 } :: [] ∧ 8 ≤ min 8 d.pair.mseq := by decide +kernel
theorem test_hyp_lineReq : let d := member 2 { state := 3, mirrored := [(6 * 2 ^ 31, { crew := 1, key := 7 })] }
    mirrorListens d = true ∧ (mirroredAt d (6 * 2 ^ 52)).isSome = true := by decide +kernel
theorem test_hyp_lineData : let d := { member 1 { state := 4 } with jobs := [(1, { parts := [{ state := .waiting (.repair (lineOf (own 0))) }] })] }
    repairing d (lineOf (own 0)) = true ∧ Memory.wf d.mem = true := by decide +kernel
theorem test_hyp_reconcileEnd : let d := member 2 { state := 8, mirrored := [] ++ (6 * 2 ^ 31, { crew := 1, key := 7 }) :: [] }
    d.pair.state = 8 ∧ d.cfg.role ≠ 1 := by decide
theorem test_hyp_redirectRepeat : let d := member 2 { state := 6, redirectsLeft := 1, redirectAt := 1000, keptUntil := some 1000, expelUntil := some 1000 }
    0 < d.pair.redirectsLeft ∧ d.pair.redirectAt ≤ d.stk.number ∧ d.pair.keptUntil = some 1000 ∧ 1000 ≤ d.stk.number := by decide
theorem test_hyp_expelWait : let d := member 2 { state := 5, expelUntil := some 1000 }
    d.pair.expelUntil = some 1000 ∧ d.pair.state = 5 ∧ 1000 ≤ d.stk.number ∧ d.stk.number < 1001 := by decide
theorem test_hyp_joinRepeat : let d := member 1 { state := 1, joinMsg := 1 }
    d.pair.state = 1 ∧ d.cfg.role = 1 ∧ d.pair.joinMsg = 1 := by decide
theorem test_hyp_join : let p : JoinPkt := {}
    (member 2 { state := 1 }).cfg.role = 2 ∧ (p.sigOk && p.fwEqual && p.witnessEqual && p.partnerOk) = true ∧ p.msg = 1
    ∧ (member 2 { state := 1, joinMsg := 2 }).pair.joinMsg = 2 ∧ (member 1 { state := 1, joinMsg := 1 }).pair.joinMsg = 1 := by decide
theorem test_hyp_sample : let d := member 2 { state := 5, samples := [(3, (0, 0, zeros 1024))] }
    mirrorListens d = true ∧ ((tGet? d.pair.samples 3).getD default).2.2.length = 1 * 1024 ∧ ([] : List Byte).length < 1024 := by decide +kernel
theorem test_hyp_heartbeat : let d := member 2 { state := 5, epoch := 3, missed := 7 }
    let h : Heartbeat := { port := 15, stroke := 1000, epoch := 3 }
    d.pair.state ≠ 0 ∧ h.epoch = d.pair.epoch ∧ h.stroke = d.stk.number ∧ ¬(h.state = 0 ∧ d.pair.state = 4) := by decide
def paired (role : Nat) (p : Pair) : Dev := { member role p with regs := (0x80000, (14 * 2 ^ 8 + 15 * 2 ^ 12 : Nat)) :: bow.regs
                                                                 inForce := (0x80000, (14 * 2 ^ 8 + 15 * 2 ^ 12 : Nat)) :: (0x110000, 64#64) :: bow.inForce }
theorem test_hyp_pairPorts : 15 ∈ pairPorts (paired 2 { state := 5 }) ∧ 14 ∈ pairPorts (paired 2 { state := 5 }) := by decide +kernel
theorem test_hyp_serveMissLimit : let d := paired 1 { state := 4, missed := 56 }
    d.flt.fatal = false ∧ d.pair.state = 4 ∧ cfgField d 0x110000 7 0 - 8 ≤ d.pair.missed ∧ d.pair.expelling = false := by decide +kernel
theorem test_hyp_mirrorMissLimit : let d := paired 2 { state := 5, missed := 64 }
    d.pair.state = 5 ∧ d.pair.asking = none ∧ d.pair.expelUntil = none ∧ cfgField d 0x110000 7 0 ≤ d.pair.missed := by decide +kernel
theorem test_hyp_askRetry : let d := paired 2 { state := 5, asking := some (1, 1), askedAt := 992 }
    d.pair.asking.isSome = true ∧ d.pair.askedAt + 8 ≤ d.stk.number ∧ ¬(d.pair.state = 1 ∧ d.pair.joinMsg = 4) := by decide
theorem test_hyp_askRetryJoin : let d := paired 2 { state := 1, joinMsg := 4, asking := some (1, 1), askedAt := 992 }
    d.pair.asking.isSome = true ∧ d.pair.askedAt + 8 ≤ d.stk.number ∧ d.pair.state = 1 ∧ d.pair.joinMsg = 4 := by decide
def asker (p : Pair) : Dev := paired 2 { p with epoch := 3, asking := some (7, 1), askHolder := 6 }
theorem test_hyp_witnessAnswer : (asker { state := 5 }).pair.asking = some (7, 1) ∧ (asker { state := 5, expelling := true }).pair.expelling = true
    ∧ (asker { state := 7 }).pair.state = 7 ∧ (asker { state := 4, switching := true }).pair.switching = true
    ∧ (asker { state := 1, joinMsg := 4 }).pair.joinMsg = 4 ∧ witnessWord 4 5 ≠ witnessWord 3 6 := by decide
theorem test_hyp_pairJoinSync : met 0x803 (withByte (cmd 0 0 (pb 8 [])) 0 0) (st (member 1 { state := 6 })) (fun q t =>
    pNat q.cmd 0 1 == 0 && t.dev.pair.state == 6 && t.dev.pair.joinBy == none) = true := by decide +kernel
theorem test_hyp_pairJoinBusy : met 0x803 (withByte (cmd 0 0 (pb 8 [])) 0 0) (st (member 1 { state := 5 })) (fun q t =>
    pNat q.cmd 0 1 == 0 && t.dev.pair.state == 5) = true := by decide +kernel
theorem test_hyp_pairJoinSwitch : met 0x803 (withByte (cmd 0 0 (pb 8 [])) 0 1) (st (member 1 { state := 4 })) (fun q t =>
    pNat q.cmd 0 1 == 1 && t.dev.pair.state == 4 && !t.dev.pair.switching && !t.dev.pair.expelling && t.dev.pair.waits == []
    && t.dev.pair.asking == none) = true := by decide +kernel
theorem test_hyp_pairLeave : met 0x804 (cmd 0 0 (pb 8 [])) (st (member 2 { state := 5 })) (fun q t =>
    pNat q.cmd 0 1 == 0 && t.dev.pair.state == 5 && t.dev.pair.expelUntil == none && t.dev.pair.asking == none) = true := by decide +kernel
/-- An EXPEL of this module with the signatures of managers 0, 1 and 2. -/
def expelPs : List Byte := pb 584 [(0, 8, 0x4E5A455850454C01), (8, 4, 7), (12, 2, 5), (24, 8, 1000), (168, 1, 1), (272, 1, 2), (376, 1, 0xFF), (480, 1, 0xFF)]
def enrolled : Dev := { dev with cfg := { dev.cfg with enrolled := 7 } }
theorem test_hyp_expelRefused : met 0x805 (cmd 0 0 expelPs) (st enrolled) (fun _ _ => true) = true := by decide +kernel
theorem test_hyp_expel (h : ∀ k m s, Config.ecdsaVerify k m s = true) : expelCheck (st enrolled) (cmd 0 0 expelPs) = none := by
  have e : expelVotes (st enrolled).dev (cmd 0 0 expelPs) = [0, 1, 2] := by
    simp only [expelVotes, h]
    decide +kernel
  simp only [expelCheck, e]
  decide +kernel
def ownerPs (op : Nat) : List Byte := pb 40 [(0, 1, op), (1, 1, 4), (2, 2, 3), (8, 8, own 0), (16, 5, 7), (24, 8, 77),
  (32, 4, if op = 1 ∨ op = 2 ∨ op = 4 ∨ op = 7 then 16777216 else 0)]
theorem test_hyp_owner : ([0, 1, 2, 3, 4, 5, 6, 7].all fun op => met 0x806 (withByte (cmd 1 1 (ownerPs op)) 0 op) (st dev) (fun q t =>
    pNat q.cmd 0 1 == op && ownerCheck q.cmd == none && Memory.wf t.dev.mem && (tGet? t.dev.got q.id).isNone)) = true := by decide +kernel
theorem test_hyp_ownerRefused : met 0x806 (withByte (cmd 1 1 (pb 40 [(0, 1, 1), (1, 1, 31)])) 0 1) (st dev) (fun q _ =>
    ownerCheck q.cmd == some stBadField) = true := by decide +kernel
/-- The line of the record of REQ 77 in a table of 2^4 records is plain. -/
theorem test_hyp_ownerPlain : Plain dev (anchorAddr (cmd 1 1 (ownerPs 1))) (pNat (cmd 1 1 (ownerPs 1)) 16 5) := by
  refine ⟨by decide +kernel, by decide +kernel, ⟨{ crew := 1, key := 7 }, by decide +kernel, rfl, rfl, rfl, rfl, rfl, by decide⟩, by decide +kernel, by decide, ?_, ?_,
    by decide, by decide⟩ <;> intro x hx <;> cases hx
/-- The core words of a record of REQ 77: owned by pool 3 with an unexpired lease, offered to pool 3, and owned with an expired lease. -/
def anchorOf (a : Anchor) : Nat := { a with rtag := anchorCrc 77 / 2 ^ 34, owner := 3 : Anchor }.word
theorem test_hyp_anchor : ([1, 2, 3, 4, 5, 6, 7].map fun op => (anchorJudge (cmd 1 1 (ownerPs op)) 1000
    (anchorOf (if op = 1 then {} else { phase := if op = 4 ∨ op = 5 then 2 else 1, target := 3, lease := if op = 7 then 999 else 2000 }))).2.isSome)
    = [true, true, true, true, true, true, true] := by decide +kernel

/-! ### Requests, coherence, links -/

/-- Port 2 up, an agent with registration generation 4 on both dies. -/
def agent : Nat := 0x12345
def linked : Dev := { dev with ports := [(2, { up := true })], agents := [(agent, { regGen := 4, registered := true, dies := 3 })] }
/-- A request of that agent for the last line of region 0. -/
def req (kind size : Nat) : Req :=
  { port := 2, dest := unitId 5 0, source := agent, tag := 9, tagGen := 1, addr := own 1 - 128, key := 7, size, regGen := 4,
    length := 40 + reqTail kind size, data := if kind = 3 then [] else zeros (reqTail kind size), vc := if kind = 0x61 then 4 else 1 }
theorem test_hyp_requests : ([1, 2, 3].all fun k => takesTraffic linked 2 && (req k 16).dest == unitId (ownModule linked) 0 && reqFormed k (req k 16)
    && keptFor linked (req k 16) == none && !bufferFull linked (req k 16).addr && decide (entryUse linked agent < 512)
    && limitOf linked agent == none && linked.jobs == [] && lineOf ((req k 16).addr + 15) == lineOf (req k 16).addr) = true := by decide +kernel
theorem test_hyp_atom : atomCheck { req 3 8 with op := 1 } linked = none ∧ (atomCheck { req 3 8 with op := 11 } linked).isSome = true := by decide +kernel
theorem test_hyp_copyData : takesTraffic linked 2 = true ∧ reqFormed 0x61 (req 0x61 128) = true := by decide +kernel
def rsp (kind : Nat) : Rsp :=
  { port := 2, kind, length := if kind = 0x22 then 48 else if kind = 0x29 then 160 else 32, dest := unitId 5 3, source := agent, tag := 9, tagGen := 1,
    regGen := 4, grantGen := 3, requester := agent, data := zeros (if kind = 0x22 then 16 else if kind = 0x29 then 128 else 0) }
def awaiting (op : Nat) : Dev := { linked with jobs := [(1, { owner := .command { opcode := op }, parts := [{ len := 16, state := .waiting (.remote 9 1 6) }] })] }
theorem test_hyp_responses : takesTraffic linked 2 = true ∧ ownUnit linked (rsp 0x21).dest = true ∧ rspFormed (rsp 0x21) = true ∧ fromWitness linked (rsp 0x21) = false
    ∧ (rsp 0x21).status ≠ stTakeover ∧ rspFormed { rsp 0x21 with kind := 0x62 } = true ∧ rspFormed { rsp 0x21 with kind := 0x2A, length := 24 } = true := by decide +kernel
theorem test_hyp_awaits : ((awaiting 0x101).jobs.all fun j => !j.2.copies && j.2.parts.all (awaits 9 1)) = true
    ∧ ((awaiting 0x104).jobs.all fun j => j.2.copies && j.2.parts.all (awaits 9 1)) = true := by decide +kernel
def relayed : Dev := { linked with outstanding := [{ requester := agent, tag := 9, tagGen := 1, stamp := 100, relayedTo := some 6, kind := 1 }] }
theorem test_hyp_relayed : (relayed.outstanding.find? fun o => o.requester == agent && o.tag == 9 && o.tagGen == 1 && o.relayedTo.isSome)
      = some { requester := agent, tag := 9, tagGen := 1, stamp := 100, relayedTo := some 6, kind := 1 }
    ∧ (1000 : Nat) < 100 + parkTimeout relayed + 16 ∧ 100 + parkTimeout relayed + 16 ≤ 2 ^ 40 ∧ ({} : Req).vc = 1 := by decide +kernel
def overdueJob : Dev := { linked with stk := { linked.stk with number := 2 ^ 40 }, jobs := [(1, { parts := [{ state := .waiting (.remote 9 1 6) }] })] }
theorem test_hyp_deviceTimeout : (overdueJob.jobs.all fun j => j.2.owner == .device && j.2.parts.all fun p =>
    p.remote && decide (p.since + remoteLimit overdueJob p.addr ≤ overdueJob.stk.number)) = true := by decide +kernel

def lastLine : Nat := lineOf (own 1 - 128)
/-- The last line of region 0 as a directory entry has it. -/
def held (e : DirEntry) : Dev := { linked with dir := [(lastLine, e)] }
theorem test_hyp_caching : ([4, 5, 6].all fun k => takesTraffic linked 2 && reqFormed k (req k 128) && (req k 128).addr % 128 == 0
    && registeredAs linked agent 4 && decide ((linked.dir.filter fun e => e.2.state != 0 && sameSet linked e.1 lastLine).length < 16)) = true := by
  decide +kernel
theorem test_hyp_agentTable (die : Nat) : (agentsOn linked die).length < 4096 := by
  have h : (agentsOn linked die).length ≤ linked.agents.length := by
    simp only [agentsOn, List.length_map]
    exact List.length_filter_le ..
  exact Nat.lt_of_le_of_lt h (by decide)
theorem test_hyp_directory : (dirOf linked lastLine).state = 0 ∧ (dirOf (held { state := 2, holders := [unitId 7 5] }) lastLine).state = 2
    ∧ (dirOf (held { state := 1, holders := [agent] }) lastLine).holders = [agent] ∧ unitId 7 5 ≠ agent := by decide +kernel
theorem test_hyp_writeBack : let d := held { state := 2, gen := 3, holders := [agent] }
    reqFormed 7 { req 7 128 with grantGen := 3 } = true ∧ registeredAs d agent 4 = true ∧ 4 ∉ (agentOf d agent).crashed ∧ Memory.wf d.mem = true
    ∧ (dirOf d lastLine).holders = [agent] ∧ (dirOf d lastLine).gen = 3 := by decide +kernel
def snooped (state : Nat) : Dev := { held { state, gen := 3, unanswered := [agent] } with snoops := [{ line := lastLine, agent, tag := 9, tagGen := 1, sent := 744, regGen := 4 }] }
theorem test_hyp_snoopAnswer : (snooped 9).snoops.find? (fun x => x.tag == 9 && x.tagGen == 1 && x.agent == agent)
      = some { line := lastLine, agent, tag := 9, tagGen := 1, sent := 744, regGen := 4 }
    ∧ (dirOf (snooped 9) lastLine).unanswered = [agent] ∧ (dirOf (snooped 9) lastLine).gen = (rsp 0x28).grantGen
    ∧ rspFormed { rsp 0x28 with kind := 0x28 } = true ∧ rspFormed { rsp 0x29 with kind := 0x29 } = true := by decide +kernel
theorem test_hyp_pendingRetry : transient (dirOf (snooped 9) lastLine).state = true
    ∧ (let d := { held { state := 2, gen := 3, holders := [agent] } with pendingBuf := [{ line := lastLine, kind := 7, req := { req 7 128 with grantGen := 3 } }] }
      d.pendingBuf = [{ line := lastLine, kind := 7, req := { req 7 128 with grantGen := 3 } }] ∧ (dirOf d lastLine).state = 2) := by decide +kernel
def silent : Dev := { snooped 9 with stk := { dev.stk with number := 2 ^ 40 } }
theorem test_hyp_snoopLimit : 744 + cfgField silent 0x60000 7 0 ≤ silent.stk.number ∧ registeredAs silent agent 4 = true
    ∧ (743 : Nat) < 744 + cfgField silent 0x60000 7 0 := by decide +kernel
theorem test_hyp_agentWords : reqFormed 8 { req 8 0 with addr := 0, key := 0, regGen := 0 } = true ∧ reqFormed 9 { req 9 0 with addr := 0, key := 0, regGen := 0 } = true
    ∧ keptFor linked { req 8 0 with addr := 0 } = none ∧ bufferFull linked 0 = false := by decide +kernel

/-- Port 2 synchronised, followed, peer module 6. -/
def synced : Dev := { linked with
  regs := (0x10020, 4#64) :: dev.regs
  inForce := (0x80010, (0x8006 * 2 ^ 32 : Nat)) :: dev.inForce
  stk := { dev.stk with source := 2, hops := 1, master := 9 } }
theorem test_hyp_syncSend : 6 ≤ synced.power.phase ∧ syncPeer synced 2 = some 6 ∧ portTakes synced 2 = true ∧ bitAt (regRaw synced 0x10020) 2 = true := by decide +kernel
theorem test_hyp_syncLoss : synced.cfg.master = false ∧ synced.stk.locked = true ∧ synced.stk.lastSync + 256 ≤ synced.stk.number := by decide
def syncWord : SyncPkt := { port := 2, source := unitId 6 0, stroke := 1000, period := 425, master := 9, hops := 1, hall := 7, arrival := 6400 }
theorem test_hyp_sync : ownNumber synced syncWord.source = false ∧ ownNumber synced (unitId 5 3) = true ∧ syncValid synced syncWord = true
    ∧ syncFollowed synced syncWord = true ∧ (syncWord.stroke : Int) = synced.stk.number + nearestStroke synced (syncMoment synced syncWord)
    ∧ syncValid synced { syncWord with hops := 16 } = false ∧ syncFollowed synced { syncWord with master := 8 } = false := by decide +kernel
theorem test_hyp_redirect : (tGet? dev.redirects 4095).isNone = true ∧ 4 ≤ dev.power.phase
    ∧ tGet? { dev with redirects := [(6, { toModule := 7, epoch := 2, graceEnd := some 1000 })] }.redirects 6
      = some { toModule := 7, epoch := 2, graceEnd := some 1000 } := by decide
/-- 64 bytes of a flit: 56 of payload, the word with SEQ, ACK, VC and its bits, and their CRC. -/
def flit (payload : List Byte) (word : Nat) : List Byte := payload ++ toLe 4 word ++ toLe 4 (crc32 (payload ++ toLe 4 word)).toNat
theorem test_hyp_flit : (flit (zeros 56) 0).length = 64 ∧ fieldLe (flit (zeros 56) 0) 60 4 = (crc32 ((flit (zeros 56) 0).take 60)).toNat
    ∧ bitsOf (fieldLe (flit (zeros 56) 0) 56 4) 31 22 = (portOf linked 2).expect ∧ bitsOf (fieldLe (flit (zeros 56) 0) 56 4) 10 8 = 0
    ∧ bitAt (fieldLe (flit (zeros 56) 0) 56 4) 11 = false := by decide +kernel
theorem test_hyp_flitFirst : let l := flit (toLe 56 (100 * 2 ^ 16)) (2 * 2 ^ 8 + 2 ^ 7)
    l.length = 64 ∧ fieldLe l 60 4 = (crc32 (l.take 60)).toNat ∧ bitsOf (fieldLe l 56 4) 10 8 = 2 ∧ bitAt (fieldLe l 56 4) 7 = true
    ∧ 56 < fieldLe (l.take 56) 2 2 ∧ fieldLe (l.take 56) 2 2 ≤ 1064 ∧ (tGet? (portOf linked 2).partials 2).isNone = true := by decide +kernel
theorem test_hyp_flitBad : fieldLe (zeros 63 ++ [1#8]) 60 4 ≠ (crc32 ((zeros 63 ++ [1#8]).take 60)).toNat := by decide +kernel
def stalled (x : Port) : Dev := { linked with ports := [(2, x)] }
theorem test_hyp_stall : let d := stalled { up := true, retry := [(0, [])] }
    (portOf d 2).up = true ∧ (portOf d 2).retraining = false ∧ (portOf d 2).retry ≠ [] ∧ (portOf (stalled { retraining := true, nakSent := true }) 2).retraining = true
    ∧ (portOf (stalled { retraining := true, nakSent := true }) 2).nakSent = true ∧ (portOf dev 2).up = false ∧ 4 ≤ dev.power.phase := by decide

/-! ### Sessions, waits, strokes -/

theorem test_hyp_ethServes : ethServes dev = true ∧ helloServes dev = true ∧ (dev.sessions.filter fun x => x.2.isPending).length < 64 := by decide
theorem test_hyp_sessionOpen : helloCheck dev {} = none ∧ freeSession dev = some 2 ∧ sessionPcp dev ∉ dev.pausedPcp
    ∧ helloCheck dev { cred := 1 } = some stNoRights := by decide +kernel
def pendingSession : Dev := { dev with sessions := [(4095, { gen := 3, isPending := true, management := true })] }
theorem test_hyp_handshakeMsg3 : (sessOf pendingSession 4095).isPending = true ∧ 3 * 2 ^ 24 + 4095 = (sessOf pendingSession 4095).gen * 2 ^ 24 + 4095
    ∧ (3 * 2 ^ 24 + 4095) % 4096 = 4095 ∧ msg3Check pendingSession (sessOf pendingSession 4095) {} = none
    ∧ msg3Check pendingSession (sessOf pendingSession 4095) { sigOk := false } = some stAuthFailed := by decide +kernel
theorem test_hyp_ackTimer : let d := { dev with sessions := [(1, { sessOf dev 1 with sinceAck := 1 })] }
    (sessOf d 1).isOpen = true ∧ 0 < (sessOf d 1).sinceAck := by decide
theorem test_hyp_datagram : namedSession dev (2 ^ 24 + 1) = some 1 ∧ (sessOf dev 1).waiting = [] ∧ (sessOf dev 1).next = 1
    ∧ (sessOf dev 1).recOpen = false ∧ (sessOf dev 1).heldDg = [] ∧ ({ session := 2 ^ 24 + 1, seq := 1 } : Datagram).seq = (sessOf dev 1).next
    ∧ 0 < (sessOf dev 1).next ∧ namedSession dev 1 = none := by decide
theorem test_hyp_record : (zeros 64).length = 64 * entriesFor (fieldLe (zeros 64) 12 4) := by decide +kernel
def unacked (n : Nat) : Dev := { dev with sessions := [(1, { sessOf dev 1 with unacked := [{ seq := 5, resends := n }] })], inForce := (0x90050, 7#64) :: dev.inForce }
theorem test_hyp_resend : ((sessOf (unacked 6) 1).unacked.find? fun x => x.seq == 5) = some { seq := 5, resends := 6 }
    ∧ (6 : Nat) < cfgField (unacked 6) 0x90050 7 0 ∧ cfgField (unacked 7) 0x90050 7 0 ≤ 7 ∧ (sessOf (unacked 7) 1).isOpen = true := by decide +kernel
def addressedNet : Dev := { dev with inForce := [(0x90000, (2 ^ 23 : Nat)), (0x90010, (2 ^ 63 + 10 : Nat)), (0x90028, 11#64), (0x90030, (2 ^ 63 : Nat)), (0x90060, (5 * 2 ^ 8 + 1 : Nat))] }
theorem test_hyp_net : bitAt (cfgField addressedNet 0x90000 23 16) 7 = true ∧ ownIpv4 addressedNet 10 = true ∧ ownIpv6 addressedNet 11 = true
    ∧ ownIpv4 addressedNet 11 = false ∧ ownIpv6 addressedNet 10 = false ∧ bitAt (cfgField addressedNet 0x90060 0 0) 0 = true
    ∧ (5 : Nat) = cfgField addressedNet 0x90060 15 8 ∧ false = bitAt (cfgField addressedNet 0x90060 1 1) 0 := by decide +kernel
/-- A fabric write whose only part has waited for a snoop since stroke 0. -/
def late (w : Wait) : Dev := { dev with stk := { dev.stk with number := 2 ^ 40 }, jobs := [(1, { owner := .fabric {}, parts := [{ act := .write, state := .waiting w }] })] }
theorem test_hyp_waits : ((late (.snoop 0)).jobs.all fun j => j.2.slot == none && j.2.parts.all fun x => x.overdue (late (.snoop 0)) false) = true
    ∧ ((late (.fill 0)).jobs.all fun j => j.2.parts.all fun x => x.overdue (late (.fill 0)) true) = true
    ∧ ((late (.fill 0)).jobs.all fun j => j.2.parts.all fun x => !x.overdue (late (.fill 0)) false) = true ∧ ({} : Req).vc = 1 := by decide +kernel
theorem test_hyp_itemAbandon : ({ kind := .command { opcode := 0x401 }, cuts := 15 } : Item).kind = .command { opcode := 0x401 }
    ∧ ({ opcode := 0x401 } : QCmd).opcode ∉ [0x301, 0x302, 0x402, 0x501] ∧ ({ cuts := 14 } : Item).cuts < 15 := by decide
def resumePart : Part := { addr := own 1 - 128, len := 16, key := 7 }
def resumed : Dev := { dev with jobs := [(1, { owner := .fabric { req 1 16 with size := 16 }, parts := [resumePart], goal := .respond })] }
theorem test_hyp_parkedResume : ((tGet? resumed.jobs 1).map fun j => (j.slot.isNone, j.ready, j.parts)) = some (true, true, [resumePart]) ∧ resumePart.state = .todo
    ∧ resumePart.act = .read ∧ resumePart.off = 0 ∧ resumePart.len = (req 1 16).size ∧ lineOf (resumePart.addr + resumePart.len - 1) = lineOf resumePart.addr
    ∧ resumed.retry = [] := by decide +kernel
theorem test_hyp_clusterWake : let d := { dev with power := { dev.power with asleep := 0x8000 } }
    bitAt d.power.asleep 15 = true ∧ d.power.mode ≠ 1 ∧ bitAt d.power.asleep 14 = false := by decide
/-- A serving device with no work in hand. -/
def idle : Dev := { dev with crews := [], sessions := [], queues := [] }
theorem test_hyp_strokeBoundary : 6 ≤ idle.power.phase ∧ idle.power.on = true ∧ idle.flt.fatal = false ∧ idle.crews = [] ∧ idle.sessions = [] ∧ idle.queues = []
    ∧ idle.jobs = [] ∧ idle.items = [] ∧ idle.longops = [] ∧ idle.armed = [] ∧ idle.moves = [] ∧ idle.revokes = [] ∧ idle.retry = [] ∧ idle.sealedDone = []
    ∧ idle.indexes = [] ∧ idle.regQueue = [] ∧ idle.searches = [] ∧ idle.pendingBuf = [] ∧ idle.pair.state = 0 ∧ idle.attest = [] := by decide
theorem test_hyp_step : ∃ t, step (st dev) = .next t ∧ NvLe (st dev).nv (st dev).nv :=
  ⟨_, rfl, Nat.le_refl _, fun _ => Nat.le_refl _, fun _ => Nat.le_refl _, fun _ => Nat.le_refl _, Nat.le_refl _, Nat.le_refl _⟩

/-! Ill-formed operands: each width check of WellFormed refuses a term that breaks it and nothing else. -/

theorem test_smoke_cmd : ([
    { route := .session 4096 }, { route := .ring 32768 },
    { route := .session 0, flags := 256 }, { route := .session 0, crew := 256 }, { route := .session 0, tag := 65536 },
    { route := .session 0, tagGen := 256 }, { route := .session 0, rsv7 := 256 }, { route := .session 0, queue := 65536 },
    { route := .session 0, qgen := 256 }, { route := .session 0, rsv11 := 256 },
    { route := .session 0, length := 1 }, { route := .session 0, length := 2 ^ 32, params := List.replicate 48 0 },
    { route := .session 0, length := 8209 }, { route := .session 0, params := [0] }].all fun (c : Cmd) => !c.wf) = true
    ∧ (({ route := .session 4095 } : Cmd).wf && ({ route := .ring 32767, length := 1, params := [9] } : Cmd).wf) = true := by
  decide +kernel

theorem test_smoke_writer :
    ([.session 4096, .fabric 256 0, .fabric 0 (2 ^ 24), .service 2].all fun (w : Writer) => !w.wf) = true
    ∧ ([.session 4095, .fabric 255 0xFFFFFF, .service 1, .firmware].all Writer.wf) = true := by decide +kernel

theorem test_smoke_req : ([
    { port := 16 }, { vc := 8 }, { flags := 256 }, { length := 65536 }, { dest := 2 ^ 24 }, { source := 2 ^ 24 },
    { tag := 65536 }, { tagGen := 256 }, { addr := 2 ^ 64 }, { key := 2 ^ 40 }, { op := 256 }, { size := 65536 },
    { grantGen := 65536 }, { regGen := 65536 }, { entry := 65536 }, { poison := 65536 }, { operand := 2 ^ 128 },
    { compare := 2 ^ 128 }, { data := List.replicate 1025 0 }].all fun (p : Req) => !p.wf) = true
    ∧ (({} : Req).wf && ({ data := List.replicate 1024 0 } : Req).wf) = true := by decide +kernel

theorem test_smoke_rsp : ([
    { port := 16 }, { vc := 8 }, { kind := 256 }, { length := 65536 }, { dest := 2 ^ 24 }, { source := 2 ^ 24 },
    { tag := 65536 }, { tagGen := 256 }, { status := 256 }, { load := 256 }, { credit := 65536 }, { stroke := 2 ^ 32 },
    { grantGen := 65536 }, { regGen := 65536 }, { requester := 2 ^ 24 }, { old := 2 ^ 128 },
    { data := List.replicate 1025 0 }].all fun (p : Rsp) => !p.wf) = true ∧ ({} : Rsp).wf = true := by decide +kernel

theorem test_smoke_timing :
    ([{ port := 16 }, { source := 2 ^ 24 }, { stroke := 2 ^ 64 }, { txOffset := 2 ^ 32 }, { period := 8192 },
      { master := 4096 }, { hops := 256 }, { hall := 2 ^ 32 }].all fun (p : SyncPkt) => !p.wf) = true
    ∧ ([{ port := 16 }, { source := 2 ^ 24 }, { t1 := 2 ^ 64 }, { t2 := 2 ^ 64 }, { t3 := 2 ^ 64 },
      { arrival := 2 ^ 64 }].all fun (p : DelayPkt) => !p.wf) = true
    ∧ (({} : SyncPkt).wf && ({} : DelayPkt).wf) = true := by decide +kernel

theorem test_smoke_datagram :
    ([{ session := 2 ^ 32 }, { seq := 2 ^ 64 }, { ack := 2 ^ 64 }, { type := 256 }, { flags := 256 }, { count := 65536 },
      { dscp := 64 }, { payload := List.replicate 9001 0 }].all fun (d : Datagram) => !d.wf) = true
    ∧ ({} : Datagram).wf = true := by decide +kernel

theorem test_smoke_mirror :
    ([{ mseq := 2 ^ 64 }, { addr := 2 ^ 64 }, { requester := 2 ^ 24 }, { tag := 65536 }, { tagGen := 256 }, { kind := 256 },
      { old := 2 ^ 128 }].all fun (p : MirrorPkt) => !({ p with line := List.replicate 128 0 } : MirrorPkt).wf) = true
    ∧ (!({} : MirrorPkt).wf && ({ line := List.replicate 128 0 } : MirrorPkt).wf) = true := by decide +kernel

theorem test_smoke_region :
    ([{ mseq := 2 ^ 64 }, { first := 2 ^ 64 }, { count := 2 ^ 32 }, { key := 2 ^ 40 }, { crew := 256 }, { flags := 256 },
      { op := 256 }, { dgen := 2 ^ 32 }].all fun (p : RegionPkt) => !p.wf) = true ∧ ({} : RegionPkt).wf = true := by
  decide +kernel

theorem test_smoke_heartbeat :
    ([{ port := 16 }, { stroke := 2 ^ 64 }, { sent := 2 ^ 64 }, { applied := 2 ^ 64 }, { answered := 2 ^ 64 },
      { epoch := 2 ^ 32 }, { state := 256 }].all fun (h : Heartbeat) => !h.wf) = true ∧ ({} : Heartbeat).wf = true := by
  decide +kernel

theorem test_smoke_events : ([
    .sessionOpen { body := List.replicate 135 0 }, .sessionOpen { role := 256, body := List.replicate 136 0 },
    .sessionOpen { crew := 256, body := List.replicate 136 0 }, .sessionOpen { cred := 256, body := List.replicate 136 0 },
    .handshakeMsg3 { session := 2 ^ 32 }, .handshakeMsg3 { tag := 65536 }, .handshakeMsg3 { tagGen := 256 },
    .queueDeleteEnd 32768, .crewResetDrainEnd 256, .registerWrite .firmware (2 ^ 64) 0, .registerWrite (.service 2) 0 0,
    .windowDeleteEnd 64, .rowFenceEnd 1024, .indexFree 64, .importKeyExpiry 256, .sqTail .firmware 32768 0,
    .cqHead .firmware 32768 0, .engCrewSpad .firmware 256 0, .tirCrewCache .firmware 256 0, .wskProfPublish .firmware 64 0,
    .wskProfDisable .firmware 64 0, .profileRetire 64, .icuSoft .firmware 26, .icuTgtClaim 26, .icuTgtComplete 26 0,
    .icuTgtComplete 0 1024, .icuTgtMode .firmware 26 0, .icuRingConsumer .firmware 26 0,
    .icuRingConsumer .firmware 0 (2 ^ 32), .icuSrc .firmware 1024 0, .watchdogKick .firmware 26, .watchdogHalf 26,
    .watchdogMiss 26 true, .pwrResetDie .firmware 2, .clusterResetEnd 2 0, .clusterWake 16,
    .deferredCompletionWrite 32768].all fun (i : Instr) => !i.wf) = true := by decide +kernel

theorem test_smoke_packets : ([
    .portHello 16 0 0, .portHello 0 4096 0, .portHello 0 0 (2 ^ 32), .redirect (2 ^ 24) 0 0 0 0, .redirect 0 4096 0 0 0,
    .redirect 0 0 4096 0 0, .redirect 0 0 0 (2 ^ 32) 0, .redirect 0 0 0 0 (2 ^ 64), .redirectGraceEnd 4096,
    .flit 16 (List.replicate 64 0), .flit 0 [], .linkAckStall 16, .retrainFail 16, .portTrainEnd 16 true,
    .snoopLimitExpiry 0 (2 ^ 24), .relayedRequestTimeout (2 ^ 24) 0 0, .relayedRequestTimeout 0 65536 0,
    .relayedRequestTimeout 0 0 256, .windowFillEnd 64 0 true, .nvmeCompletion 8 0 true, .nvmeCmdTimeout 8 0,
    .namespaceReturn 8, .pcieAerEvent 8 true 0, .thermalTrip 2, .ackTimer 4096, .datagramResend 4096 0,
    .datagramResend 0 (2 ^ 64), .sessionIdle 4096, .pendingSessionExpiry 4096, .pfcFrame 8 true,
    .arpRequest (2 ^ 128) 0, .arpRequest 0 (2 ^ 128), .neighborSolicitation (2 ^ 128) 0, .neighborSolicitation 0 (2 ^ 128),
    .icmpEcho true (2 ^ 128) 0 [], .icmpEcho true 0 (2 ^ 128) []].all fun (i : Instr) => !i.wf) = true := by decide +kernel

theorem test_smoke_pair_and_pins : ([
    .mirrorAck (2 ^ 64), .lineReq (2 ^ 64), .lineData (2 ^ 64) (List.replicate 128 0), .lineData 0 [0],
    .sample (2 ^ 64) 0 0 0 [], .sample 0 0 0 0 (List.replicate 1025 0), .sampleVerdict (2 ^ 64) true,
    .faultNotice (2 ^ 64) 0, .faultNotice 0 256, .crewKey 256 0 (List.replicate 72 0),
    .crewKey 0 (2 ^ 32) (List.replicate 72 0), .crewKey 0 0 [], .switch (2 ^ 64) 0, .switch 0 (2 ^ 32),
    .inputOutOfRange 65536, .auxRise 32, .i3cPrivateWrite [], .setdasa 128, .entdaa 128, .provRead (2 ^ 18) 1,
    .program (2 ^ 18) [0], .program 0 [], .program 0 (List.replicate 257 0),
    .throttleThresholdCrossing 2 true].all fun (i : Instr) => !i.wf) = true := by decide +kernel

/-- A row checks the command, packet or datagram it carries. -/
theorem test_smoke_carried : ([
    .nop { route := .session 4096 }, .read { route := .ring 0, crew := 256 }, .ownerTake { route := .session 0, tag := 65536 },
    .rd { port := 16 }, .copyData { addr := 2 ^ 64 }, .ack { port := 16 }, .done { status := 256 }, .sync { port := 16 },
    .strokeLock { hops := 256 }, .delayReq { port := 16 } 0, .delayRsp { t1 := 2 ^ 64 }, .sessionDatagram { dscp := 64 },
    .ackOnlyDatagram { dscp := 64 }, .mirror {}, .region { op := 256 },
    .heartbeat { port := 16 }].all fun (i : Instr) => !i.wf) = true := by decide +kernel

theorem test_smoke_admits : ([
    .nop { route := .session 0 }, .sessionOpen { body := List.replicate 136 0 }, .flit 15 (List.replicate 64 0),
    .icuTgtComplete 25 1023, .auxRise 31, .program 0x3FFFF (List.replicate 256 0), .setdasa 127,
    .crewKey 255 1 (List.replicate 72 0), .strokeBoundary []].all Instr.wf) = true := by decide +kernel

theorem test_reset_queue_empty : State.reset.pending = [] := by decide +kernel

/-! ### Examples worked in the manual -/

/-- Chapter 0: module 37, home DRAM, offset 0x1_0000, and its bytes 0, 2 and 7 as stored. -/
theorem test_example_address : hallAddr 37 0 0x10000 = 0x0250000000010000
    ∧ ((toLe 8 0x0250000000010000).getD 0 9, (toLe 8 0x0250000000010000).getD 2 9, (toLe 8 0x0250000000010000).getD 7 9) = (0x00#8, 0x01#8, 0x02#8) := by
  decide
/-- Chapter 3: segment 5 of context 291, and a read of 128 bytes at segment offset 0x4812_3480 of it. -/
def seg5 : Seg := { hallBase := 0x0250001000000000, w := true, r := true, p := true, baseU := 0x200, lenU := 0x100, key := 7 }
def contexts291 : Dev := { dev with contexts := [(291, { en := true, crew := 1, segs := [(5, seg5)] })] }
theorem test_example_translate : translate contexts291 (some 1) 0 0x048C500048123480 128 0 = .ok 0x0250001008123480 7
    ∧ translate contexts291 (some 1) 0 0x048C50005FFFFF80 128 0 = .ok 0x025000101FFFFF80 7
    ∧ translate contexts291 (some 1) 0 0x048C50005FFFFF81 128 0 = .fail stNoRights
    ∧ translate contexts291 (some 1) 0 0x048C500048123480 16 2 = .fail stNoRights
    ∧ translate contexts291 (some 2) 0 0x048C500048123480 128 0 = .fail stNoRights := by decide
/-- The two CRCs, each on the check string of its standard. -/
theorem test_example_crc : let l := [49#8, 50#8, 51#8, 52#8, 53#8, 54#8, 55#8, 56#8, 57#8]
    crc32 l = 0xCBF43926#32 ∧ crc64 l = 0xAE8B14860A799888#64 := by decide +kernel
/-- Chapter 9: tile (30, 7) of U of the reference expert, 12 tiles wide, and the charge of a marked region at rank 16. -/
theorem test_example_slot : slotBytes 2 0 = 4112 ∧ markCharge (some (2, 0)) = 4
    ∧ expandSlotAddr (cmd 1 1 (pb 48 [(0, 8, 0x0250000200242400), (16, 2, 12), (18, 2, 30), (20, 2, 7)])) 4112 0 0 = 0x02500002003B2AF0 := by decide
/-- Chapter 10: element 0 of rows 7, 12 and 30, and their weighted sum in BF16. -/
theorem test_example_pool :
    let r7 := (bodyValues 3 256 (overlay (zeros 144) 0 (toLe 4 0x3E800000 ++ toLe 4 0xBF800000 ++ toLe 8 0 ++ [0x39#8]))).getD 0 0
    let r12 := (bodyValues 2 256 (overlay (zeros 272) 0 (toLe 4 0x3F000000 ++ toLe 12 0 ++ [0x44#8]))).getD 0 0
    let r30 := (bodyValues 1 256 (overlay (zeros 512) 0 (toLe 2 0xC000))).getD 0 0
    let sum := addF32 (addF32 (mulF32 0x3F000000#32 r7) (mulF32 0x40000000#32 r12)) (mulF32 0x3E800000#32 r30)
    (r7, r12, r30) = (0x3FA00000#32, 0x3FC00000#32, 0xC0000000#32) ∧ fmtBf16.encode false (f32Val sum) = 0x4048 := by decide +kernel
/-- Chapter 12: a counter of 1,234,567 as a crew session reads it. -/
theorem test_example_coarsen : coarsen 1234567 = 1228800 ∧ coarsen 63 = 63 := by decide +kernel
/-- Chapter 13: SNAPSHOT with AT = 1,002,048 is in time in stroke 1,002,046 and too late in 1,002,047. -/
theorem test_example_snapshotAt : ([1002046, 1002047].map fun n => match execSnapshotAt (cmd 0 0 (pb 16 [(0, 1, 1), (8, 8, 1002048)]))
      (st { dev with stk := { dev.stk with number := n } }) with
    | .next t => t.snap.armedAt
    | _ => none) = [some 1002048, none] := by decide +kernel

/-! The interrupt example of chapter 15: sources 843 and 265 of target 8. -/

def irqs (p q : Src) : Dev := { dev with icu := [(265, q), (843, p)] }
def portDown : Src := { en := true, prio := 3, sense := 2, target := 8 }
def faultUc : Src := { en := true, prio := 5, sense := 2, target := 8 }
def irq (i : Instr) (d : Dev) : Dev := match exec i (st d) with
  | .next t => t.dev
  | _ => d
/-- Cycle 0: the wire of 843 rises; cycle 30: the claim returns it, active, its latch cleared. -/
theorem test_example_irq_claim : selected (setWire 843 true (irqs portDown faultUc)) 8 = some 843
    ∧ (let t := irq (.icuTgtClaim 8) (irqs { portDown with wire := true, latched := true } faultUc)
      (srcOf t 843).active = true ∧ (srcOf t 843).latched = false ∧ selected t 8 = none) := by decide +kernel
/-- Cycle 54: 265, of higher PRIO, is selected while 843 is active; cycle 95: the latch of 843 is set while it is active. -/
theorem test_example_irq_nested : let d := irqs { portDown with wire := true, active := true } faultUc
    selected (pulse 265 d) 8 = some 265 ∧ (srcOf (setWire 843 true (setWire 843 false d)) 843).latched = true := by decide +kernel
/-- Cycle 140: completing 265 selects nothing; cycle 160: completing 843 selects it again. -/
theorem test_example_irq_complete : let p : Src := { portDown with wire := true, active := true, latched := true }
    selected (irq (.icuTgtComplete 8 265) (irqs p { faultUc with active := true })) 8 = none
    ∧ selected (irq (.icuTgtComplete 8 843) (irqs p faultUc)) 8 = some 843 := by decide +kernel

/-! Single commands and events, with what their rules state. -/

/-- A WRITE of 8 bytes stores them in order from its address (Table 7-9). -/
theorem test_write : memRead (irq (.write (cmd 1 1 (pb 24 [(0, 8, own 0), (8, 5, 7), (16, 8, 0x1122334455667788)]))) dev).mem (own 0) 9
    = [0x88#8, 0x77#8, 0x66#8, 0x55#8, 0x44#8, 0x33#8, 0x22#8, 0x11#8, 0x00#8] := by decide +kernel
/-- A WRITE under another key stores nothing (R96). -/
theorem test_write_key : (irq (.write (cmd 1 1 (pb 24 [(0, 8, own 0), (8, 5, 8), (16, 8, 0x1122334455667788)]))) dev).mem = [] := by decide +kernel
/-- POWER_EN falls: the module is off. -/
theorem test_powerEnFall : (irq .powerEnFall dev).power.on = false ∧ (irq .powerEnFall dev).pins.powerEn = false := by decide +kernel
/-- A cluster asleep wakes. -/
theorem test_clusterWake : (irq (.clusterWake 2) { dev with power := { dev.power with asleep := 4 } }).power.asleep = 0 := by decide +kernel
/-- A dynamic address given by SETDASA and taken away by RSTDAA. -/
theorem test_dynamic_address : (irq (.setdasa 9) dev).side.dynamic = some 9
    ∧ (irq .rstdaa { dev with side := { dev.side with dynamic := some 9 } }).side.dynamic = none := by decide +kernel

end Sys2Proof.Tests
end

section
/-! Registers: what a value written reads back as, and what the shared parts of a write leave (R11 to R17). -/

namespace Sys2Proof.Machine

/-! ### Register values -/

/-- A register of a device whose written values are those of another reads as it does there. -/
theorem regRaw_congr {d e : Dev} (h : e.regs = d.regs) (o : Nat) : regRaw e o = regRaw d o := by
  unfold regRaw
  rw [h]

/-- A register that was given a value holds its low 64 bits. -/
@[simp] theorem regRaw_setReg_self (o v : Nat) (d : Dev) : regRaw (setReg o v d) o = v % 2 ^ 64 := by
  simp [regRaw, setReg]

theorem regRaw_setReg_ne {o x : Nat} (v : Nat) (d : Dev) (h : x ≠ o) : regRaw (setReg o v d) x = regRaw d x := by
  simp [regRaw, setReg, tGet?_tSet_ne _ _ h]

/-- A register that nothing has written or counted holds its Reset column. -/
theorem regRaw_of_regs_nil {d : Dev} (h : d.regs = []) (o : Nat) : regRaw d o = regReset o := by
  unfold regRaw
  rw [h, tGet?_nil]

/-- A register whose value in force nothing has set has its Reset column in force. -/
theorem regInForce_of_inForce_nil {d : Dev} (h : d.inForce = []) (o : Nat) : regInForce d o = regReset o := by
  unfold regInForce
  rw [h, tGet?_nil]

/-- A port of a device that holds none is in its initial state. -/
theorem portOf_of_ports_nil {d : Dev} (h : d.ports = []) (p : Nat) : portOf d p = {} := by
  simp [portOf, h]

/-! ### The record of a change -/

/-- A change of a register is one more record of the change log and alters nothing else (R17). -/
theorem logReg_of_changed (who : Writer) (ow off : Nat) (sec : Bool) {a b : Nat} (d : Dev) (h : a ≠ b) :
    ∃ l, l.next = d.log.next + 1 ∧ logReg who ow off sec a b d = { d with log := l } :=
  ⟨_, rfl, if_neg h⟩

/-! ### Writers -/

/-- A writer that acts as management exists. -/
theorem writerActs_of_isManager {d : Dev} {who : Writer} (h : isManager d who = true) : writerActs d who = true := by
  cases who with
  | session i => exact (Bool.and_eq_true_iff.mp h).2
  | fabric c r => exact absurd h Bool.false_ne_true
  | service k => exact absurd h Bool.false_ne_true
  | firmware => rfl

theorem mayWrite_of_isManager {d : Dev} {who : Writer} (h : isManager d who = true) (b n : Nat) : mayWrite d who b n = true := by
  simp [mayWrite, h]

/-! ### Writes that do not reach a register -/

section Refused
variable {who : Writer} {off v mask : Nat} {q : Option QCmd} {job : Option Nat} {s : State}

theorem regWrite_of_misaligned (h : off % 8 ≠ 0) : regWrite who off v mask q job s = (some stBadAlign, s) := if_pos h

theorem regWrite_of_past_blocks (ha : off % 8 = 0) (hp : 0x01200000 ≤ off) :
    regWrite who off v mask q job s = (some stNoRights, s) := by
  simp only [regWrite, ha, hp, ne_eq, not_true_eq_false, if_false, if_true]

theorem regWrite_of_mask_zero (ha : off % 8 = 0) (hp : off < 0x01200000) :
    regWrite who off v 0 q job s = (some stOk, s) := by
  simp only [regWrite, ha, Nat.not_le.mpr hp, ne_eq, not_true_eq_false, if_false, if_true]

theorem regWrite_of_absent_writer (ha : off % 8 = 0) (hp : off < 0x01200000) (hm : mask ≠ 0) (hw : writerActs s.dev who = false) :
    regWrite who off v mask q job s = (some stOkPartial, s) := by
  simp only [regWrite, ha, Nat.not_le.mpr hp, hm, hw, ne_eq, not_true_eq_false, if_false, Bool.not_false, if_true]

end Refused

/-! ### Registers of the plain kind -/

/-- The registers whose writes need nothing but their fields' rules and limits: no doorbell, no register of the controller, and none
of those with a write of their own. -/
def PlainReg (r : RegSpec) : Prop :=
  r.base < 0x1000000 ∧ r.base / 65536 ≠ 0xF
    ∧ r.base ∉ [0x30008, 0x30010, 0x50008, 0x120030, 0x120050, 0xC0000, 0x60050, 0xB1000, 0xC1000, 0xC1008]

/-- What a write leaves in a register of the plain kind, and whether something was refused: its fields' rules, then its limits. -/
def plainLeaves (who : Writer) (r : RegSpec) (n off v mask : Nat) (d : Dev) : Nat × Bool :=
  let old := regValue d (readerId who) off
  let w := writeFields d.locked r.fields old v mask
  let a := adjust d r.base n old w.1
  (a.1, w.2 || a.2)

section Plain
variable {who : Writer} {r : RegSpec} {n off v mask : Nat} {d : Dev}

theorem plainWrite_status : (plainWrite who r n off v mask d).1 = stPartial (plainLeaves who r n off v mask d).2 := rfl

theorem plainWrite_of_same (h : (plainLeaves who r n off v mask d).1 = regValue d (readerId who) off) :
    (plainWrite who r n off v mask d).2 = d := if_pos h

/-- A write that changes a register of no quota stores the value x and logs the change and, unless the register acts as it is
written, waits for step 4. -/
theorem plainWrite_of_changed {x : Nat} (hx : (plainLeaves who r n off v mask d).1 = x) (hq : r.base ≠ 0x71000)
    (h : x ≠ regValue d (readerId who) off) :
    (plainWrite who r n off v mask d).2 =
      let e := logReg who (regOwner r.base n) off (regSecurity r) (regValue d (readerId who) off) x (setReg off x d)
      if actsAtOnce r.base then e else queueWrite { offset := off, value := BitVec.ofNat 64 x, who } e := by
  subst hx
  exact (if_neg h).trans (congrArg (fun e => if actsAtOnce r.base then e else queueWrite _ e) (if_neg hq))

/-- The same device by its parts: but for the register, the log and the writes that wait for step 4 it is as before. -/
theorem plainWrite_changes {x : Nat} (hx : (plainLeaves who r n off v mask d).1 = x) (hq : r.base ≠ 0x71000)
    (h : x ≠ regValue d (readerId who) off) :
    ∃ l, l.next = d.log.next + 1 ∧ (plainWrite who r n off v mask d).2 =
      { setReg off x d with
        log := l
        regQueue := d.regQueue ++ if actsAtOnce r.base then [] else
          [{ offset := off, value := BitVec.ofNat 64 x, who, stroke := d.stk.number }] } := by
  obtain ⟨l, hl, he⟩ := logReg_of_changed who (regOwner r.base n) off (regSecurity r) (setReg off x d) h.symm
  refine ⟨l, hl, ?_⟩
  rw [plainWrite_of_changed hx hq h, he]
  cases actsAtOnce r.base with
  | true =>
    simp only [if_true, List.append_nil]
    rfl
  | false => rfl

/-- A write of a register of the plain kind by a writer that may reaches `plainWrite`: the base is none of those of the earlier arms. -/
theorem devRegWrite_of_plain {q : Option QCmd} {job : Option Nat} (hf : regFind off = some (r, n)) (hr : PlainReg r)
    (hw : mayWrite d who r.base n = true) :
    devRegWrite who off v mask q job d = (some (plainWrite who r n off v mask d).1, (plainWrite who r n off v mask d).2) := by
  obtain ⟨hdoor, hicu, hown⟩ := hr
  simp only [List.mem_cons, List.not_mem_nil, or_false, not_or] at hown
  simp only [devRegWrite, hf, Nat.not_le.mpr hdoor, hicu, hown, hw, imp_self, if_false, Bool.not_true, Bool.false_eq_true]

/-- A write by management of a register of the plain kind, outside SNP and PWR_RESET. -/
theorem regWrite_of_plain {q : Option QCmd} {job : Option Nat} {s : State} (ha : off % 8 = 0) (hp : off < 0x01200000) (hm : mask ≠ 0)
    (hw : isManager s.dev who = true) (hreset : off ≠ 0x140010) (hsnp : off / 65536 ≠ 0x13) (hf : regFind off = some (r, n))
    (hr : PlainReg r) :
    regWrite who off v mask q job s =
      (some (plainWrite who r n off v mask s.dev).1, { s with dev := (plainWrite who r n off v mask s.dev).2 }) := by
  simp only [regWrite, ha, Nat.not_le.mpr hp, hm, writerActs_of_isManager hw, hreset, hsnp,
    devRegWrite_of_plain hf hr (mayWrite_of_isManager hw r.base n), ne_eq, not_true_eq_false, if_false, Bool.not_true,
    Bool.false_eq_true]

end Plain

/-! ### The rows -/

/-- A REG_WRITE whose write is answered at once completes with the status and, on success, the value read back. -/
theorem execRegWrite_of_answered {c : Cmd} {s t u : State} {q : QCmd} {st : Nat} (hb : begins 0x000A c s = some (q, t))
    (ho : pNat q.cmd 0 8 < 2 ^ 50)
    (hw : regWrite (cmdWriter t.dev q.cmd) (pNat q.cmd 0 8) (pNat q.cmd 8 8) (pNat q.cmd 16 8) (some q) none t = (some st, u)) :
    exec (.regWrite c) s =
      .next (replied q st (if stSuccess st then readBack (cmdWriter t.dev q.cmd) (pNat q.cmd 0 8) u else []) [] u.dev u) := by
  have hbody : regWriteBody q t = { u with
      dev := complete q st (if stSuccess st then readBack (cmdWriter t.dev q.cmd) (pNat q.cmd 0 8) u else []) [] u.dev } := by
    simp only [regWriteBody, Nat.not_le.mpr ho, if_false, hw]
  have hrow := runRow_begins regWriteBody hb
  rw [hbody] at hrow
  exact congrArg Host.Outcome.next hrow

/-- A REGISTER_WRITE ends with the device that its write leaves, where the write changes the device alone. -/
theorem execRegisterWrite_of_regWrite {who : Writer} {off st : Nat} {v : Word} {s : State} {d : Dev}
    (h : regWrite who off v.toNat allBits none none s = (some st, { s with dev := d })) :
    exec (.registerWrite who off v) s = .next (ends d s) := by
  have hstore : storeReg who off v.toNat allBits s = ends d s := congrArg (fun x : Option Nat × State => settle x.2) h
  exact congrArg Host.Outcome.next hstore

end Sys2Proof.Machine
end

section
/-! Register writes (O37). -/

namespace Sys2Proof.Machine

/-- What a write leaves in a field of each access type (Table 0-4, R11, R15). -/
theorem writeField_by_access (locked : Bool) (old v mask : Nat) (f : RField) :
    let o := bitsOf old f.hi f.lo
    let n := bitsOf (masked old v mask) f.hi f.lo
    let plain := if f.okay n then (n, false) else (o, n != o)
    (f.acc = .ro → writeField locked old v mask f = (o, n != o)) ∧ (f.acc = .rw → writeField locked old v mask f = plain)
    ∧ (f.acc = .rwl → writeField locked old v mask f = if locked then (o, n != o) else plain)
    ∧ (f.acc = .w1c → writeField locked old v mask f = (o - (o &&& bitsOf (v &&& mask) f.hi f.lo), false)) := by
  refine ⟨?_, ?_, ?_, ?_⟩ <;>
  · intro h
    simp only [writeField, h]

/-- A REGISTER_WRITE by management of a register of the plain kind and no quota (R11, R12, R17, Table 2-2 step 4). -/
theorem registerWrite_of_plain {who : Writer} {off n : Nat} {v : Word} {s : State} {r : RegSpec} (hw : isManager s.dev who = true)
    (ha : off % 8 = 0) (hp : off < 0x01200000) (hf : regFind off = some (r, n)) (hr : PlainReg r) (hsnp : off / 65536 ≠ 0x13)
    (hreset : off ≠ 0x140010) (hq : r.base ≠ 0x71000) :
    let x := plainLeaves who r n off v.toNat allBits s.dev
    let old := regValue s.dev (readerId who) off
    ∃ d, exec (.registerWrite who off v) s = .next (ends d s)
      ∧ (regWrite who off v.toNat allBits none none s).1 = some (stPartial x.2)
      ∧ (x.1 = old → d = s.dev)
      ∧ (x.1 ≠ old → regRaw d off = x.1 % 2 ^ 64 ∧ (∀ o, o ≠ off → regRaw d o = regRaw s.dev o)
          ∧ d.log.next = s.dev.log.next + 1
          ∧ d.regQueue = s.dev.regQueue ++ (if actsAtOnce r.base then []
              else [{ offset := off, value := BitVec.ofNat 64 x.1, who, stroke := s.dev.stk.number }])
          ∧ { d with regs := s.dev.regs, log := s.dev.log, regQueue := s.dev.regQueue } = s.dev) := by
  intro x old
  have hwrite := regWrite_of_plain (v := v.toNat) (mask := allBits) (q := none) (job := none) ha hp (by decide) hw hreset hsnp hf hr
  refine ⟨_, execRegisterWrite_of_regWrite hwrite, (congrArg Prod.fst hwrite).trans (congrArg some plainWrite_status),
    plainWrite_of_same, fun hne => ?_⟩
  obtain ⟨l, hl, hd⟩ := plainWrite_changes rfl hq hne
  have hregs : (plainWrite who r n off v.toNat allBits s.dev).2.regs = (setReg off x.1 s.dev).regs := by rw [hd]
  refine ⟨?_, fun o ho => ?_, ?_, ?_, ?_⟩
  · rw [regRaw_congr hregs, regRaw_setReg_self]
  · rw [regRaw_congr hregs, regRaw_setReg_ne _ _ ho]
  · rw [hd]
    exact hl
  · rw [hd]
  · rw [hd]
    rfl

/-- Settles O37: a field by its access type, a write that reaches no register by its status, REG_WRITE by its row, and a write of a
register of the plain kind by what it leaves. -/
theorem registerWrites : Obligations.RegisterWrites := by
  unfold Obligations.RegisterWrites
  refine ⟨writeField_by_access, fun who off v mask q j s => ⟨?_, ?_, ?_, ?_⟩, ?_, ?_⟩
  · exact regWrite_of_misaligned
  · exact regWrite_of_past_blocks
  · rintro ha hp rfl
    exact regWrite_of_mask_zero ha hp
  · exact regWrite_of_absent_writer
  · intro c s q t st u hb ho who hw
    exact execRegWrite_of_answered hb ho hw
  · intro who off v s r n hw ha hp hf hdoor hicu hsnp hreset hq hown
    exact registerWrite_of_plain hw ha hp hf ⟨hdoor, hicu, hown⟩ hsnp hreset hq

end Sys2Proof.Machine
end

section
/-! The state after reset (O59). -/

namespace Sys2Proof.Machine

/-- Settles O59: the state holds its defaults, and with no value written or in force every register reads its Reset column. -/
theorem resetState : Obligations.ResetState := by
  have hraw (off : Nat) : regRaw State.reset.dev off = regReset off := regRaw_of_regs_nil rfl off
  have hforce (off : Nat) : regInForce State.reset.dev off = regReset off := regInForce_of_inForce_nil rfl off
  have hport (p : Nat) : (portOf State.reset.dev p).up = false := by rw [portOf_of_ports_nil rfl]
  have hfields : cfgField State.reset.dev 0x10028 7 0 = 64 ∧ cfgField State.reset.dev 0x10028 31 16 = 2048
      ∧ cfgField State.reset.dev 0x60000 7 0 = 8 ∧ cfgField State.reset.dev 0x60008 7 0 = 8
      ∧ cfgField State.reset.dev 0x10020 15 0 = 0xFFFF := by
    simp only [cfgField, hforce]
    decide
  unfold Obligations.ResetState
  refine ⟨rfl, rfl, rfl, rfl, rfl, rfl, rfl, rfl, rfl, rfl, rfl, rfl, rfl, rfl, rfl, rfl, rfl, rfl, rfl, rfl, rfl, rfl, rfl, rfl, rfl,
    rfl, rfl, hport, rfl, rfl, fun off => ⟨hraw off, hforce off⟩, hfields⟩

end Sys2Proof.Machine
end

section
/-! Creating a crew (O17). -/

namespace Sys2Proof.Machine

/-! ### The steps of a creation -/

/-- The record of a crew created from parameters (Table 1-7). -/
def newCrew (gen key : Nat) (l : List Byte) : Crew :=
  { state := 1, gen, sealedCrew := bitAt (fieldLe l 18 1) 0, cores := fieldLe l 0 16, stackMask := fieldLe l 16 2,
    ethWeight := fieldLe l 19 1, portWeights := (List.range 16).map (paramWeight l), qFirst := fieldLe l 36 2,
    qCount := fieldLe l 38 2, dramQuota := fieldLe l 40 4, denseQuota := fieldLe l 44 4, ctlKey := key, params := slice l 0 48 }

/-- The crew areas scrubbed of the given cores that come to serve a second crew (R240). -/
def scrubSecond (cores : Nat) (d : Dev) : Dev :=
  ((List.range 128).filter fun k => bitAt cores k && ((liveCrews d).filter fun x => x.2.hasCore k).length == 1).foldl
    (fun d k => scrubCrewArea k d) d

/-- The counters of a crew number back at zero. -/
def resetCounters (n : Nat) (d : Dev) : Dev :=
  (crewCounters n).foldl (fun (d : Dev) o => { d with regs := tDel d.regs o, latched := tDel d.latched o }) d

/-- A crew's record entered, with no faults of its number and one more creation of it this boot. -/
def enterCrew (n : Nat) (c : Crew) (d : Dev) : Dev :=
  { d with
    crews := tSet d.crews n c
    flt := { d.flt with crews := tDel d.flt.crews n }
    log := { d.log with created := tSet d.log.created n (tGet d.log.created n + 1) } }

/-- The memory key of a crew's epoch, made and sent to the partner by the serving member of a pair (R351, R393). -/
def shareKey (n epoch : Nat) (d : Dev) : Dev :=
  if d.cfg.role ≠ 0 ∧ pairServes d = true then
    sendCrewKey n epoch { d with pair := { d.pair with
      keys := tSet d.pair.keys n (Config.memoryKey d.cfg.hall (ownModule d) n epoch) } }
  else d

/-- The device without what the creation of a crew may change: the scratchpads and their flags, the registers, the crews, the fault unit,
the change log, the pair's keys and what leaves on the fabric. -/
def Dev.offCreate (d : Dev) : Dev :=
  { d with scratch := [], flagged := [], spadBad := [], regs := [], latched := [], inForce := [], crews := [], flt := {}, log := {}
           pair := {}, fabTx := [] }

/-- A view of the device that each step of a fold keeps is the same after the fold. -/
theorem view_foldl {α β : Type} (g : Dev → β) {f : Dev → α → Dev} (h : ∀ d a, g (f d a) = g d) (l : List α) (d : Dev) :
    g (l.foldl f d) = g d := by
  induction l generalizing d with
  | nil => rfl
  | cons a l ih => rw [List.foldl_cons, ih, h]

@[simp] theorem scrubSecond_crews (k : Nat) (d : Dev) : (scrubSecond k d).crews = d.crews := view_foldl Dev.crews (by intros; rfl) _ d
@[simp] theorem resetCounters_crews (n : Nat) (d : Dev) : (resetCounters n d).crews = d.crews := view_foldl Dev.crews (by intros; rfl) _ d
@[simp] theorem clearField_crews (o h l : Nat) (d : Dev) : (clearField o h l d).crews = d.crews := rfl
@[simp] theorem enterCrew_crews (n : Nat) (c : Crew) (d : Dev) : (enterCrew n c d).crews = tSet d.crews n c := rfl

@[simp] theorem offCreate_scrubSecond (k : Nat) (d : Dev) : (scrubSecond k d).offCreate = d.offCreate :=
  view_foldl Dev.offCreate (by intros; rfl) _ d
@[simp] theorem offCreate_resetCounters (n : Nat) (d : Dev) : (resetCounters n d).offCreate = d.offCreate :=
  view_foldl Dev.offCreate (by intros; rfl) _ d
@[simp] theorem offCreate_clearField (o h l : Nat) (d : Dev) : (clearField o h l d).offCreate = d.offCreate := rfl
@[simp] theorem offCreate_enterCrew (n : Nat) (c : Crew) (d : Dev) : (enterCrew n c d).offCreate = d.offCreate := rfl

/-- The message with a crew's key changes nothing but the fabric. -/
theorem sendCrewKey_eq (n epoch : Nat) (d : Dev) : sendCrewKey n epoch d = { d with fabTx := (sendCrewKey n epoch d).fabTx } :=
  sendPkt_eq _ d

@[simp] theorem shareKey_crews (n epoch : Nat) (d : Dev) : (shareKey n epoch d).crews = d.crews := by
  unfold shareKey
  split
  · rw [sendCrewKey_eq]
  · rfl

@[simp] theorem offCreate_shareKey (n epoch : Nat) (d : Dev) : (shareKey n epoch d).offCreate = d.offCreate := by
  unfold shareKey
  split
  · rw [sendCrewKey_eq]
    rfl
  · rfl

/-! ### CREW_CREATE -/

section Make
variable (n : Nat) (l : List Byte) (t : State)

theorem makeCrew_gen : (makeCrew n l t).1 = genOfCount (tGet t.nv.crewCount n + 1) :=
  congrArg genOfCount (tGet_tSet_self t.nv.crewCount n (tGet t.nv.crewCount n + 1))

theorem makeCrew_key : (makeCrew n l t).2.1 = newKeyWord (drawKey t).1 := rfl

theorem makeCrew_nv :
    (makeCrew n l t).2.2.nv = { (drawKey t).2.nv with crewCount := tSet t.nv.crewCount n (tGet t.nv.crewCount n + 1) } := rfl

/-- The device of a creation, step by step. -/
theorem makeCrew_dev : (makeCrew n l t).2.2.dev =
    shareKey n (tGet t.nv.epochs n) (enterCrew n (newCrew (makeCrew n l t).1 (makeCrew n l t).2.1 l)
      (clearField (0x71000 + 0x20 * n) 31 0 (resetCounters n (scrubSecond (fieldLe l 0 16) t.dev)))) := rfl

theorem makeCrew_crews :
    (makeCrew n l t).2.2.dev.crews = tSet t.dev.crews n (newCrew (makeCrew n l t).1 (makeCrew n l t).2.1 l) := by
  simp [makeCrew_dev]

theorem offCreate_makeCrew : (makeCrew n l t).2.2.dev.offCreate = t.dev.offCreate := by
  simp [makeCrew_dev]

end Make

/-- A CREW_CREATE whose parameters pass every check makes the crew and answers its generation and its control key word. -/
theorem crewCreateBody_of_passes {q : QCmd} {t : State} (hr : crewReserved q.cmd.params = false) (hp : t.dev.power.mode ≠ 1)
    (hc : crewCheck t.dev q.cmd.crew q.cmd.params = none) :
    let m := makeCrew q.cmd.crew q.cmd.params t
    let d := logCmd q q.cmd.crew 4 (q.cmd.crew + m.1 * 256) (crewOf t.dev q.cmd.crew).gen m.1 m.2.2.dev
    crewCreateBody q t = { m.2.2 with dev := complete q stOk [m.1, m.2.1 % 2 ^ 32, m.2.1 / 2 ^ 32] [] d } := by
  simp only [crewCreateBody, hr, hp, hc, if_false, Bool.false_eq_true]

/-- Settles O17: what a creation counts, draws and enters, and what it leaves of the other crews, the counters and the device. -/
theorem crewCreated : Obligations.CrewCreated := by
  unfold Obligations.CrewCreated
  refine ⟨fun c s q t hb hr hp hc => ?_, fun n l t => ⟨?_, ?_, ?_, ?_, fun k hk => ?_, ?_, ?_, ?_⟩⟩
  · have hrow := runRow_begins crewCreateBody hb
    rw [crewCreateBody_of_passes hr hp hc] at hrow
    exact congrArg Host.Outcome.next hrow
  · exact (makeCrew_gen n l t).trans (if_neg (Nat.succ_ne_zero _))
  · exact makeCrew_key n l t
  · exact makeCrew_nv n l t
  · rw [makeCrew_crews, tGet?_tSet_self]
    rfl
  · rw [makeCrew_crews, tGet?_tSet_ne _ _ hk]
  · exact (congrArg Dev.regions (offCreate_makeCrew n l t) :)
  · exact (congrArg Dev.queues (offCreate_makeCrew n l t) :)
  · exact (congrArg Dev.mem (offCreate_makeCrew n l t) :)

end Sys2Proof.Machine
end

section
/-! Signed images (R335, R341, R342). -/

namespace Sys2Proof.Machine

/-- A command row whose command begins steps to what its body leaves. -/
theorem next_settle_of_begins {op : Nat} {c : Cmd} {s t u : State} {q : QCmd} {body : QCmd → State → State}
    (hb : begins op c s = some (q, t)) (hu : body q t = u) :
    Host.Outcome.next (φ := Fault) (ρ := Refusal) (runRow op c body s) = .next (settle u) := by
  rw [runRow_begins body hb, hu]

/-- A command row whose body changes only the device. -/
theorem next_ends_of_begins {op : Nat} {c : Cmd} {s t : State} {d : Dev} {q : QCmd} {body : QCmd → Dev → Dev}
    (hb : begins op c s = some (q, t)) (hd : body q t.dev = d) :
    Host.Outcome.next (φ := Fault) (ρ := Refusal) (runRow op c (devBody body) s) = .next (ends d t) :=
  next_settle_of_begins hb (congrArg (fun d => { t with dev := d }) hd)

/-! ### Banks -/

section Put
variable (b k : Nat) (x : Image) (d : Dev)

/-- An image put into a bank is that bank's of its type. -/
theorem bankImages_putImage_self : bankImages (putImage b k x d) b = tSet (bankImages d b) k x := by
  by_cases hb : b = 0 <;> simp only [putImage, bankImages, hb, if_true, if_false]

/-- The images of the other bank stay. -/
theorem bankImages_putImage_other {a : Nat} (ha : a = 0 ↔ b ≠ 0) : bankImages (putImage b k x d) a = bankImages d a := by
  by_cases hb : b = 0
  · have ha : a ≠ 0 := fun h => ha.mp h hb
    simp only [putImage, bankImages, hb, ha, if_true, if_false]
  · have ha : a = 0 := ha.mpr hb
    simp only [putImage, bankImages, hb, ha, if_true, if_false]

theorem putImage_active : (putImage b k x d).banks.active = d.banks.active := by
  by_cases hb : b = 0 <;> simp only [putImage, hb, if_true, if_false]

theorem putImage_trial : (putImage b k x d).banks.trial = d.banks.trial := by
  by_cases hb : b = 0 <;> simp only [putImage, hb, if_true, if_false]

end Put

/-- The device that a staged image leaves: the image in its bank, its measurement, and the record of the change. -/
def staged (q : QCmd) (b : Nat) (bytes : List Byte) (d : Dev) : Dev :=
  let h := bytes.take 4096
  let m := Config.sha384 (h.take 128)
  let t := fieldLe h 8 1
  let old := ((tGet? (bankImages d b) t).map fun x => digest (x.header.take 128)).getD (zeros 48)
  let d := putImage b t { svn := fieldLe h 12 2, header := h, body := bytes.drop 4096 } d
  let o := routeOrigin q.cmd.crew q.cmd.route
  logChange o.1 o.2 0x8000 7 (b * 256 + t) true old (beBytes 48 m.toNat) { d with banks := { d.banks with lastStage := m } }

theorem bankImages_staged (q : QCmd) (b a : Nat) (bytes : List Byte) (d : Dev) :
    bankImages (staged q b bytes d) a = bankImages (putImage b (fieldLe (bytes.take 4096) 8 1)
      { svn := fieldLe (bytes.take 4096) 12 2, header := bytes.take 4096, body := bytes.drop 4096 } d) a := rfl

/-! ### FW_STAGE -/

/-- An FW_STAGE whose image has been read completes with the refusal of the image, or stages it. -/
theorem fwStageBody_of_read {q : QCmd} {t : State} {l : List (List Part)} {e : Dev} (hn : 4097 ≤ pNat q.cmd 16 4)
    (hn' : pNat q.cmd 16 4 ≤ 67112960) (hh : homeDram t.dev (pNat q.cmd 0 8) 4096 = true)
    (hr : rangeCheck t.dev q.cmd.crew (pNat q.cmd 0 8) (pNat q.cmd 16 4) (pNat q.cmd 8 5) = none)
    (ht : t.dev.banks.trial ≠ some (1 - t.dev.banks.active))
    (hf : fetch q [(pNat q.cmd 0 8, pNat q.cmd 16 4, pNat q.cmd 8 5)] t.dev = (some l, e)) (hs : spansBad l = stOk) :
    let bytes := spanBytes l.flatten
    let h := bytes.take 4096
    (∀ st, imageRefused { t with dev := e } h (bytes.drop 4096) = some st → fwStageBody q t = { t with dev := completeSt q st e })
    ∧ (imageRefused { t with dev := e } h (bytes.drop 4096) = none →
        fwStageBody q t = { t with dev := completeSt q stOk (staged q (1 - t.dev.banks.active) bytes e) }) := by
  have h0 : pNat q.cmd 16 4 ≠ 0 := by omega
  have h1 : ¬(pNat q.cmd 16 4 < 4097 ∨ 67112960 < pNat q.cmd 16 4) := by omega
  refine ⟨fun st hst => ?_, fun hst => ?_⟩
  · simp only [fwStageBody, h0, h1, hh, hr, ht, hf, hs, hst, if_false, Bool.not_true, Bool.false_eq_true, ne_eq, not_true_eq_false]
  · simp only [fwStageBody, h0, h1, hh, hr, ht, hf, hs, hst, if_false, Bool.not_true, Bool.false_eq_true, ne_eq, not_true_eq_false]
    rfl

/-! ### FW_ACTIVATE -/

theorem fwActivateBody_of_fails {q : QCmd} {t : State} (hb : pNat q.cmd 0 1 < 2) (hp : bankPasses t (pNat q.cmd 0 1) = false) :
    fwActivateBody q t = { t with dev := completeSt q stAuthFailed t.dev } := by
  simp only [fwActivateBody, ge_iff_le, Nat.not_le.mpr hb, hp, if_false, Bool.not_false, if_true]

/-- An FW_ACTIVATE of a bank that passes marks it for trial; its change-log record is all else that it changes. -/
theorem fwActivateBody_of_passes {q : QCmd} {t : State} (hb : pNat q.cmd 0 1 < 2) (hp : bankPasses t (pNat q.cmd 0 1) = true) :
    ∃ d : Dev, fwActivateBody q t = { t with dev := completeSt q stOk d }
      ∧ d = { t.dev with banks := { t.dev.banks with trial := some (pNat q.cmd 0 1) }, log := d.log } := by
  simp only [fwActivateBody, ge_iff_le, Nat.not_le.mpr hb, hp, if_false, Bool.not_true, Bool.false_eq_true]
  exact ⟨_, rfl, logCmd_eq ..⟩

end Sys2Proof.Machine
end

section
/-! The change log and the usage ledger (R40, R359 to R362). -/

namespace Sys2Proof.Machine

/-- The last of a list whose oldest elements are dropped while one at least stays. -/
theorem getLast?_drop_append {α : Type} (l : List α) (x : α) {n : Nat} (h : n ≤ l.length) :
    ((l ++ [x]).drop n).getLast? = some x := by
  rw [List.drop_append_of_le_length h, List.getLast?_append]
  rfl

/-! ### Batches of the change log -/

/-- The batch entry with which the open records of the change log are closed (R360). -/
def nextBatch (d : Dev) : LogBatch :=
  let l := d.log
  let last := min (l.next - 1) (l.batchFrom + max 1 (cfgField d 0x150000 20 8) - 1)
  let rs := l.recs.filter fun r => decide (l.batchFrom ≤ r.seq) && decide (r.seq ≤ last)
  let b : LogBatch := { number := l.batchNext, first := l.batchFrom, last, stroke := d.stk.number
                        chain := Config.sha384 (beBytes 48 l.chain.toNat ++ rs.flatMap logBytes) }
  { b with signature := Config.deviceSign (batchHead b) }

/-- A batch entry added to those held, of which the oldest beyond 4,096 is forgotten. -/
def addBatch (b : LogBatch) (l : Log) : Log :=
  { l with chain := b.chain, batches := (l.batches ++ [b]).drop (l.batches.length + 1 - 4096), batchNext := l.batchNext + 1
           batchFrom := b.last + 1 }

theorem logBatchClose_of_none {d : Dev} (h : d.log.next ≤ d.log.batchFrom) : logBatchClose d = d := if_pos h

theorem logBatchClose_of_open {d : Dev} (h : d.log.batchFrom < d.log.next) :
    logBatchClose d = pulse (9 * 32 + 12) (pulse (8 * 32 + 12) { d with log := addBatch (nextBatch d) d.log }) :=
  if_neg (Nat.not_le.mpr h)

theorem addBatch_getLast (b : LogBatch) (l : Log) : (addBatch b l).batches.getLast? = some b := by
  simp only [addBatch]
  exact getLast?_drop_append l.batches b (by omega)

/-! ### The ledger -/

/-- The entries of the crews that exist, each with the salt that the device draws for it. -/
theorem liveEntries_spec (l : List (Nat × Crew)) (d : Dev) :
    (liveEntries l d).2 = { d with draws := (liveEntries l d).2.draws }
    ∧ ∀ n x, (n, x) ∈ l → ∃ y ∈ (liveEntries l d).1, y.crew = n ∧ y.gen = x.gen ∧ y.finish = d.stk.number
        ∧ y.start = d.log.ledgerStart ∧ y.coreNs = x.cycCore * 20 / 17 := by
  induction l generalizing d with
  | nil => exact ⟨rfl, fun _ _ h => absurd h List.not_mem_nil⟩
  | cons a l ih =>
    obtain ⟨k, c⟩ := a
    obtain ⟨hd, he⟩ := ih (ledgerEntry d k c d).2
    refine ⟨hd, fun n x hx => ?_⟩
    rcases List.mem_cons.mp hx with hx | hx
    · obtain ⟨rfl, rfl⟩ := Prod.mk.inj hx
      exact ⟨(ledgerEntry d n x d).1, List.mem_cons_self, rfl, rfl, rfl, rfl, rfl⟩
    · obtain ⟨y, hy, hf⟩ := he n x hx
      exact ⟨y, List.mem_cons_of_mem _ hy, hf⟩

/-- Each entry of an interval is placed, with its leaf and nothing else changed. -/
theorem mem_placeEntries {e : LedgerEntry} {es done : List LedgerEntry} (h : e ∈ done ∨ e ∈ es) :
    ∃ k, { e with leaf := k } ∈ placeEntries done es := by
  induction es generalizing done e with
  | nil => exact ⟨e.leaf, h.resolve_right List.not_mem_nil⟩
  | cons a es ih =>
    rcases h with hd | hes
    · exact ih (Or.inl (List.mem_append_left _ hd))
    · rcases List.mem_cons.mp hes with rfl | hes
      · exact ih (e := { e with leaf := e.crew + 256 * (done.filter fun x => x.crew == e.crew).length })
          (Or.inl (List.mem_append_right done List.mem_cons_self))
      · exact ih (Or.inr hes)

/-- The meters of a crew back at zero. -/
def Crew.unmetered (c : Crew) : Crew :=
  { c with meterCore := 0, meterStack := 0, meterLink := 0, cycCore := 0, cycStack := 0, cycLink := 0 }

/-- The entries of the interval that ends, placed: those of crews that ended in it, and those of the crews that exist. -/
def intervalEntries (es : List LedgerEntry) (d : Dev) : List LedgerEntry :=
  placeEntries [] ((d.log.ended.map fun e => { e with finish := d.stk.number }) ++ es)

/-- The ledger of an interval whose entries' salts have been drawn, signed (R361). -/
def signedLedger (all : List LedgerEntry) (d : Dev) : Ledger :=
  { finish := d.stk.number, entries := all, draw := d.draws
    signature := Config.deviceSign (3 :: (toLe 8 d.stk.number ++ (merklePath 12 0 (ledgerLeaves d.draws all)).2)) }

/-- A ledger entered: the next interval begins, its meters are at zero and a new SHIFT is in force. -/
def enterLedger (g : Ledger) (d : Dev) : Dev :=
  { d with
    draws := d.draws + 4096 * 48
    log := { d.log with ledgers := (d.log.ledgers ++ [g]).drop (d.log.ledgers.length + 1 - 1024), ended := [],
                        ledgerStart := d.stk.number, created := [] }
    crews := tMap d.crews fun _ c => c.unmetered
    inForce := tSet d.inForce 0x20008 (BitVec.ofNat 64 (regRaw d 0x20008)) }

theorem ledgerEnd_of_off_grid {d : Dev}
    (h : aligned d.stk.number (2 ^ cfgField d 0x20008 4 0) = false ∨ d.stk.number ≤ d.log.ledgerStart) : ledgerEnd d = d := by
  refine if_pos (h.imp_left fun h => ?_)
  simp only [h, Bool.not_false]

theorem ledgerEnd_of_stroke {d : Dev} (h : aligned d.stk.number (2 ^ cfgField d 0x20008 4 0) = true)
    (hn : d.log.ledgerStart < d.stk.number) :
    let e := liveEntries (d.crews.filter fun c => c.2.state != 0) d
    ledgerEnd d = enterLedger (signedLedger (intervalEntries e.1 e.2) e.2) e.2 := by
  intro e
  have hc : ¬(!aligned d.stk.number (2 ^ cfgField d 0x20008 4 0) ∨ d.stk.number ≤ d.log.ledgerStart) := by
    simp only [h, Bool.not_true, Bool.false_eq_true, false_or, Nat.not_le.mpr hn, not_false_eq_true]
  exact (if_neg hc).trans rfl

theorem enterLedger_getLast (g : Ledger) (d : Dev) : (enterLedger g d).log.ledgers.getLast? = some g := by
  simp only [enterLedger]
  exact getLast?_drop_append d.log.ledgers g (by omega)

/-- With a ledger the SHIFT last written is in force. -/
theorem enterLedger_shift (g : Ledger) (d : Dev) : cfgField (enterLedger g d) 0x20008 4 0 = bitsOf (regRaw d 0x20008) 4 0 := by
  simp only [cfgField, regInForce, enterLedger, tGet?_tSet_self, bitsOf, BitVec.toNat_ofNat]
  omega

theorem mem_enterLedger_crews {g : Ledger} {d : Dev} {n : Nat} {x : Crew} (h : (n, x) ∈ (enterLedger g d).crews) :
    ∃ c : Crew, x = c.unmetered := by
  obtain ⟨p, -, hp⟩ := List.mem_map.mp h
  exact ⟨p.2, (congrArg Prod.snd hp).symm⟩

/-! ### LOG_READ -/

/-- The words and the bytes of a LOG_READ of change-log records (R362, R363). -/
theorem logReadBody_of_records {q : QCmd} {d : Dev} (hc : logReadCheck d q = none) (hw : pNat q.cmd 0 1 < 2) :
    logReadBody q d = logReadRecs q (if pNat q.cmd 0 1 = 0 then d.log.recs else d.log.secure) d := by
  simp only [logReadBody, hc]
  rcases Nat.lt_succ_iff_lt_or_eq.mp hw with h | h
  · simp only [Nat.lt_one_iff.mp h, if_true]
  · simp only [h, if_true, if_false, Nat.one_ne_zero]

/-- The words and the bytes of a LOG_READ of batches (R360, R362). -/
theorem logReadBody_of_batches {q : QCmd} {d : Dev} (hc : logReadCheck d q = none) (hw : pNat q.cmd 0 1 = 2) :
    let sel := (d.log.batches.filter fun b => decide (pNat q.cmd 8 8 ≤ b.number)).take (pNat q.cmd 16 4)
    let next := if sel.length < pNat q.cmd 16 4 then d.log.batchNext else ((sel.getLast?.map (·.number)).getD 0) + 1
    logReadBody q d = complete q stOk
      [sel.length, next % 2 ^ 32, ((d.log.batches.head?.map (·.number)).getD d.log.batchNext) % 2 ^ 32] (sel.flatMap batchBytes) d := by
  simp only [logReadBody, hc, hw, if_true, if_false, OfNat.ofNat_ne_zero, OfNat.ofNat_ne_one]

/-- The entry of a ledger that a LOG_READ names, with its ledger (R361, R362). -/
def namedEntry (q : QCmd) (d : Dev) : Option (Ledger × LedgerEntry) :=
  (d.log.ledgers.find? fun g => g.finish == pNat q.cmd 8 8).bind fun g =>
    (g.entries.find? fun e => e.crew == pNat q.cmd 1 1 && e.gen == pNat q.cmd 2 1).map fun e => (g, e)

section Ledger
variable {q : QCmd} {d : Dev} (hc : logReadCheck d q = none) (hw : pNat q.cmd 0 1 = 3)
include hc hw

theorem logReadBody_of_no_entry (h : namedEntry q d = none) : logReadBody q d = completeSt q stBadField d := by
  unfold namedEntry at h
  simp only [logReadBody, hc, hw, h, if_false, OfNat.ofNat_ne_zero, OfNat.ofNat_ne_one, Nat.reduceEqDiff]

theorem logReadBody_of_entry {g : Ledger} {e : LedgerEntry} (h : namedEntry q d = some (g, e)) :
    ∃ w1 w2 n, logReadBody q d = complete q stOk [1, w1, w2]
      (entryBytes e ++ ((merklePath 12 e.leaf (ledgerLeaves g.draw g.entries)).1).flatten ++ beBytes 96 g.signature.toNat)
      { d with draws := n } := by
  unfold namedEntry at h
  simp only [logReadBody, hc, hw, h, if_false, OfNat.ofNat_ne_zero, OfNat.ofNat_ne_one, Nat.reduceEqDiff]
  exact ⟨_, _, _, rfl⟩

end Ledger

end Sys2Proof.Machine
end

section
/-! Images, logs and ledgers (O48). -/

namespace Sys2Proof.Machine

section Rows
variable {c : Cmd} {s t : State} {q : QCmd}

/-- FW_STAGE of an image that was read (R335, R341). -/
theorem fwStage_of_read {l : List (List Part)} {e : Dev} (hb : begins 0x0704 c s = some (q, t)) (hn : 4097 ≤ pNat q.cmd 16 4)
    (hn' : pNat q.cmd 16 4 ≤ 67112960) (hh : homeDram t.dev (pNat q.cmd 0 8) 4096 = true)
    (hr : rangeCheck t.dev q.cmd.crew (pNat q.cmd 0 8) (pNat q.cmd 16 4) (pNat q.cmd 8 5) = none)
    (ht : t.dev.banks.trial ≠ some (1 - t.dev.banks.active))
    (hf : fetch q [(pNat q.cmd 0 8, pNat q.cmd 16 4, pNat q.cmd 8 5)] t.dev = (some l, e)) (hs : spansBad l = stOk) :
    let b := 1 - t.dev.banks.active
    let bytes := spanBytes l.flatten
    let h := bytes.take 4096
    (∀ st, imageRefused { t with dev := e } h (bytes.drop 4096) = some st →
      exec (.fwStage c) s = .next (replied q st [] [] e t))
    ∧ (imageRefused { t with dev := e } h (bytes.drop 4096) = none → t.dev.banks.active < 2 →
        ∃ d, exec (.fwStage c) s = .next (replied q stOk [] [] d t)
          ∧ tGet? (bankImages d b) (fieldLe h 8 1) = some { svn := fieldLe h 12 2, header := h, body := bytes.drop 4096 }
          ∧ (∀ k, k ≠ fieldLe h 8 1 → tGet? (bankImages d b) k = tGet? (bankImages e b) k)
          ∧ bankImages d t.dev.banks.active = bankImages e t.dev.banks.active ∧ d.banks.active = e.banks.active
          ∧ d.banks.trial = e.banks.trial ∧ d.banks.lastStage = Config.sha384 (h.take 128)) := by
  intro b bytes h
  obtain ⟨hrefused, hstaged⟩ := fwStageBody_of_read hn hn' hh hr ht hf hs
  refine ⟨fun st hst => next_settle_of_begins hb (hrefused st hst), fun hok ha => ?_⟩
  refine ⟨staged q b bytes e, next_settle_of_begins hb (hstaged hok), ?_, fun k hk => ?_, ?_, ?_, ?_, rfl⟩
  · rw [bankImages_staged, bankImages_putImage_self, tGet?_tSet_self]
  · rw [bankImages_staged, bankImages_putImage_self, tGet?_tSet_ne _ _ hk]
  · exact bankImages_putImage_other b _ _ e (by omega)
  · exact putImage_active ..
  · exact putImage_trial ..

/-- FW_ACTIVATE of a bank whose images pass (R342). -/
theorem fwActivate_of_passes (hb : begins 0x0705 c s = some (q, t)) (hn : pNat q.cmd 0 1 < 2)
    (hp : bankPasses t (pNat q.cmd 0 1) = true) :
    ∃ d, exec (.fwActivate c) s = .next (replied q stOk [] [] d t)
      ∧ d.banks = { t.dev.banks with trial := some (pNat q.cmd 0 1) } ∧ { d with banks := t.dev.banks, log := t.dev.log } = t.dev := by
  obtain ⟨d, hbody, hd⟩ := fwActivateBody_of_passes hn hp
  refine ⟨d, next_settle_of_begins hb hbody, ?_, ?_⟩
  · rw [hd]
  · rw [hd]

end Rows

/-- LOG_BATCH_CLOSE with open records (R360). -/
theorem logBatchClose_step {s : State} (h : s.dev.log.batchFrom < s.dev.log.next) :
    ∃ d, exec .logBatchClose s = .next (ends d s) ∧ d.log = addBatch (nextBatch s.dev) s.dev.log ∧ d.mem = s.dev.mem := by
  refine ⟨_, rfl, ?_⟩
  rw [logBatchClose_of_open h]
  exact ⟨(congrArg Dev.log ((offIcu_pulse ..).trans (offIcu_pulse ..)) :),
    (congrArg Dev.mem ((offIcu_pulse ..).trans (offIcu_pulse ..)) :)⟩

/-- LEDGER_INTERVAL_END at a stroke of its grid (R40, R361). -/
theorem ledgerIntervalEnd_step {s : State} (h : aligned s.dev.stk.number (2 ^ cfgField s.dev 0x20008 4 0) = true)
    (hn : s.dev.log.ledgerStart < s.dev.stk.number) :
    ∃ d g, exec .ledgerIntervalEnd s = .next (ends d s) ∧ d.log.ledgers.getLast? = some g ∧ g.finish = s.dev.stk.number
      ∧ d.log.ledgerStart = s.dev.stk.number ∧ d.log.ended = []
      ∧ (∀ n x, (n, x) ∈ s.dev.crews → x.state ≠ 0 → ∃ y ∈ g.entries, y.crew = n ∧ y.gen = x.gen ∧ y.finish = s.dev.stk.number
          ∧ y.start = s.dev.log.ledgerStart ∧ y.coreNs = x.cycCore * 20 / 17)
      ∧ (∀ n x, (n, x) ∈ d.crews → x.meterCore = 0 ∧ x.meterStack = 0 ∧ x.meterLink = 0 ∧ x.cycCore = 0)
      ∧ cfgField d 0x20008 4 0 = bitsOf (regRaw s.dev 0x20008) 4 0 ∧ d.mem = s.dev.mem := by
  obtain ⟨hdev, hentries⟩ := liveEntries_spec (s.dev.crews.filter fun c => c.2.state != 0) s.dev
  have hend := ledgerEnd_of_stroke h hn
  generalize liveEntries (s.dev.crews.filter fun c => c.2.state != 0) s.dev = e at hdev hentries hend
  obtain ⟨es, d⟩ := e
  dsimp only at hdev hentries hend
  have hstk : d.stk = s.dev.stk := by rw [hdev]
  have hregs : d.regs = s.dev.regs := by rw [hdev]
  have hmem : d.mem = s.dev.mem := by rw [hdev]
  refine ⟨enterLedger (signedLedger (intervalEntries es d) d) d, _, congrArg (fun x => Host.Outcome.next (ends x s)) hend,
    enterLedger_getLast .., congrArg (·.number) hstk, congrArg (·.number) hstk, rfl, fun n x hx hl => ?_, fun n x hx => ?_, ?_, hmem⟩
  · obtain ⟨y, hy, hf⟩ := hentries n x (List.mem_filter.mpr ⟨hx, bne_iff_ne.mpr hl⟩)
    obtain ⟨k, hk⟩ := mem_placeEntries (done := []) (Or.inr (List.mem_append_right (d.log.ended.map _) hy))
    exact ⟨_, hk, hf⟩
  · obtain ⟨c, rfl⟩ := mem_enterLedger_crews hx
    exact ⟨rfl, rfl, rfl, rfl⟩
  · rw [enterLedger_shift, regRaw_congr hregs]

/-- Settles O48: images staged and marked for trial, batches and ledgers closed, and what LOG_READ returns. -/
theorem imagesLogsAndLedgers : Obligations.ImagesLogsAndLedgers := by
  unfold Obligations.ImagesLogsAndLedgers
  refine ⟨fun c s q t l e hb => ?_, fun c s q t hb hn => ⟨fun hp => ?_, fwActivate_of_passes hb hn⟩,
    fun s => ⟨fun h => ?_, fun h => ?_⟩, fun s => ⟨fun h => ?_, ledgerIntervalEnd_step⟩, fun c s q t hb hc hw => ?_,
    fun c s q t hb hc => ⟨fun hw => ?_, fun hw => ⟨fun h => ?_, fun g e h => ?_⟩⟩⟩
  · exact fwStage_of_read hb
  · exact next_settle_of_begins hb (fwActivateBody_of_fails hn hp)
  · exact congrArg (fun x => Host.Outcome.next (ends x s)) (logBatchClose_of_none h)
  · obtain ⟨d, hstep, hlog, hmem⟩ := logBatchClose_step h
    intro last rs chain
    refine ⟨d, nextBatch s.dev, hstep, ?_⟩
    rw [hlog]
    exact ⟨rfl, addBatch_getLast .., rfl, rfl, rfl, rfl, rfl, rfl, rfl, rfl, rfl, rfl, hmem⟩
  · exact congrArg (fun x => Host.Outcome.next (ends x s)) (ledgerEnd_of_off_grid h)
  · exact next_ends_of_begins hb (logReadBody_of_records hc hw)
  · exact next_ends_of_begins hb (logReadBody_of_batches hc hw)
  · exact next_ends_of_begins hb (logReadBody_of_no_entry hc hw h)
  · obtain ⟨w1, w2, n, hbody⟩ := logReadBody_of_entry hc hw h
    exact ⟨w1, w2, { t.dev with draws := n }, rfl, next_ends_of_begins hb hbody⟩

end Sys2Proof.Machine
end

section
/-! What a corrected fault, a wire and a packet leave of the device. -/

namespace Sys2Proof.Machine

/-- The device without what a fault record of no crew may change: the free values drawn, the controller's sources, the triggers and all
of the fault unit but the fatal state. -/
def Dev.offNote (d : Dev) : Dev :=
  { d with draws := 0, icu := [], tgts := [], serviceMem := [], trig := [], flt := { fatal := d.flt.fatal } }

theorem Dev.offNote_of_offIcu {d e : Dev} (h : e.offIcu = d.offIcu) : e.offNote = d.offNote := by
  have : e.offIcu.offNote = d.offIcu.offNote := by rw [h]
  exact this

@[simp] theorem offNote_pulse (n : Nat) (d : Dev) : (pulse n d).offNote = d.offNote := Dev.offNote_of_offIcu (offIcu_pulse ..)
@[simp] theorem offNote_setWire (n : Nat) (b : Bool) (d : Dev) : (setWire n b d).offNote = d.offNote :=
  Dev.offNote_of_offIcu (offIcu_setWire ..)

@[simp] theorem offNote_pinPulse (c : Nat) (d : Dev) : (pinPulse c d).offNote = d.offNote := by
  unfold pinPulse
  split <;> rfl

@[simp] theorem offNote_deviceRing (r : FaultRec) (d : Dev) : (deviceRing r d).offNote = d.offNote := by
  unfold deviceRing
  dsimp only
  split
  · rfl
  · split <;> rfl

/-- The counts of a fault record by its class, without those of a crew. -/
def countFault (c : Nat) (d : Dev) : Dev :=
  if c = 1 then { d with flt := { d.flt with ceCount := d.flt.ceCount + 1 } }
  else if c = 2 then { d with flt := { d.flt with ucCount := d.flt.ucCount + 1 } } else d

@[simp] theorem offNote_countFault (c : Nat) (d : Dev) : (countFault c d).offNote = d.offNote := by
  unfold countFault
  split
  · rfl
  · split <;> rfl

/-- The snapshot trigger that a UC record arms (R383). -/
def armFault (c : Nat) (d : Dev) : Dev := if c = 2 ∧ bitAt (regRaw d 0x130000) 2 then { d with trig := d.trig ++ [5] } else d

@[simp] theorem offNote_armFault (c : Nat) (d : Dev) : (armFault c d).offNote = d.offNote := by
  unfold armFault
  split <;> rfl

/-- A CE or FT record of no crew, step by step. -/
theorem recordFault_none {r : FaultRec} (h : r.cls = 1 ∨ r.cls = 3) (d : Dev) :
    let x := stampFault { r with flags := r.flags ||| 4 } d
    recordFault r none d = armFault r.cls (pinPulse r.cls (pulse (8 * 32 + 7 + r.cls) (pulse (9 * 32 + 7 + r.cls)
      (countFault r.cls (deviceRing x.1 x.2))))) := by
  cases r
  rcases h with h | h <;>
  · dsimp only at h
    subst h
    rfl

/-- A CE or FT record of no crew keeps the fatal state, and changes nothing beyond what `Dev.offNote` leaves out. -/
theorem offNote_recordFault {r : FaultRec} (h : r.cls = 1 ∨ r.cls = 3) (d : Dev) : (recordFault r none d).offNote = d.offNote := by
  simp only [recordFault_none h, offNote_armFault, offNote_pinPulse, offNote_pulse, offNote_countFault, offNote_deviceRing]
  rfl

@[simp] theorem offNote_faultCE (s u x : Nat) (d : Dev) : (faultCE s u x d).offNote = d.offNote := offNote_recordFault (Or.inl rfl) d

/-- The device without the free values drawn and what leaves on the fabric. -/
def Dev.offTx (d : Dev) : Dev := { d with draws := 0, fabTx := [] }

theorem Dev.eq_of_offTx {d e : Dev} (h : e.offTx = d.offTx) : e = { d with draws := e.draws, fabTx := e.fabTx } := by
  have hd : { e.offTx with draws := e.draws, fabTx := e.fabTx } = { d.offTx with draws := e.draws, fabTx := e.fabTx } := by rw [h]
  exact hd

/-- A device with the ports of another has its port records. -/
theorem portOf_congr {d e : Dev} (h : e.ports = d.ports) (p : Nat) : portOf e p = portOf d p := by
  unfold portOf
  rw [h]

section Note
variable {d e : Dev} (h : e.offNote = d.offNote)
include h

theorem ports_of_offNote : e.ports = d.ports := (congrArg Dev.ports h :)
theorem mem_of_offNote : e.mem = d.mem := (congrArg Dev.mem h :)
theorem stk_of_offNote : e.stk = d.stk := (congrArg Dev.stk h :)
theorem fatal_of_offNote : e.flt.fatal = d.flt.fatal := (congrArg (fun x : Dev => x.flt.fatal) h :)

theorem portOf_of_offNote (p : Nat) : portOf e p = portOf d p := portOf_congr (ports_of_offNote h) p

end Note
end Sys2Proof.Machine
end

section
/-! Sync words, path delay and announcements (R24, R48 to R51, R194, R195). -/

namespace Sys2Proof.Machine

/-! ### Packets to every sync peer -/

/-- What one port sends to its sync peer, where it has one. -/
def toPeer (send : Nat → Nat → Dev → Dev) (d : Dev) (p : Nat) : Dev := match syncPeer d p with
  | none => d
  | some m => send p m d

theorem toPeer_of_none {send : Nat → Nat → Dev → Dev} {d : Dev} {p : Nat} (h : syncPeer d p = none) : toPeer send d p = d := by
  simp only [toPeer, h]

theorem toPeer_of_some {send : Nat → Nat → Dev → Dev} {d : Dev} {p m : Nat} (h : syncPeer d p = some m) :
    toPeer send d p = send p m d := by
  simp only [toPeer, h]

/-- Where what is sent to a peer is one packet that depends on nothing sent before it, each sync peer is sent one. -/
theorem toPeer_foldl {send : Nat → Nat → Dev → Dev} {ok : Nat → Nat → OutPkt → Prop} {d0 : Dev}
    (hsend : ∀ p m d, d.offTx = d0.offTx → (send p m d).offTx = d0.offTx ∧ ∃ k, (send p m d).fabTx = d.fabTx ++ [k] ∧ ok p m k)
    (ps : List Nat) (d : Dev) (hd : d.offTx = d0.offTx) :
    ∃ l, (ps.foldl (toPeer send) d).offTx = d0.offTx ∧ (ps.foldl (toPeer send) d).fabTx = d.fabTx ++ l
      ∧ l.length = (ps.filter fun p => (syncPeer d0 p).isSome).length
      ∧ ∀ p m, p ∈ ps → syncPeer d0 p = some m → ∃ k ∈ l, ok p m k := by
  induction ps generalizing d with
  | nil => exact ⟨[], hd, (List.append_nil _).symm, rfl, fun _ _ h => absurd h List.not_mem_nil⟩
  | cons a ps ih =>
    have hpeer : syncPeer d a = syncPeer d0 a := (congrArg (syncPeer · a) hd :)
    rw [List.foldl_cons]
    cases h : syncPeer d0 a with
    | none =>
      rw [toPeer_of_none (hpeer.trans h)]
      obtain ⟨l, hoff, htx, hlen, hok⟩ := ih d hd
      refine ⟨l, hoff, htx, by simp only [List.filter_cons, h, Option.isSome_none, Bool.false_eq_true, if_false, hlen], ?_⟩
      intro p m hp hm
      rcases List.mem_cons.mp hp with rfl | hp
      · exact absurd (h.symm.trans hm) (by simp)
      · exact hok p m hp hm
    | some m0 =>
      rw [toPeer_of_some (hpeer.trans h)]
      obtain ⟨hd', k, hk, hok0⟩ := hsend a m0 d hd
      obtain ⟨l, hoff, htx, hlen, hok⟩ := ih _ hd'
      refine ⟨k :: l, hoff, ?_, ?_, ?_⟩
      · rw [htx, hk, List.append_assoc, List.singleton_append]
      · simp only [List.filter_cons, h, Option.isSome_some, if_true, List.length_cons, hlen]
      · intro p m hp hm
        rcases List.mem_cons.mp hp with rfl | hp
        · obtain rfl := Option.some.inj (h.symm.trans hm)
          exact ⟨k, List.mem_cons_self, hok0⟩
        · obtain ⟨k', hk', hok'⟩ := hok p m hp hm
          exact ⟨k', List.mem_cons_of_mem _ hk', hok'⟩

/-- A packet of the CTL types is sent in every state (R380). -/
theorem sendPkt_of_ctl {k : OutPkt} (h : 0x81 ≤ k.kind) (d : Dev) : sendPkt k d = { d with fabTx := d.fabTx ++ [k] } := by
  have hk : ¬(d.flt.fatal ∧ k.kind < 0x81) := fun hf => absurd hf.2 (Nat.not_lt.mpr h)
  exact if_neg hk

theorem periodPs_pos (c : Nat) : 0 < periodPs c := Nat.lt_of_lt_of_le Nat.one_pos (Nat.le_max_left ..)

/-- One SYNC to a peer, at a free moment of the stroke. -/
def sendSync (p m : Nat) (d : Dev) : Dev :=
  sendCtl p 0x81 m (syncBody (drawNat d).2 ((drawNat d).1 % periodPs d.stk.current)) (drawNat d).2

theorem syncSend_of_early {d : Dev} (h : d.power.phase < 6) : syncSend d = d := if_pos h

theorem syncSend_of_late {d : Dev} (h : 6 ≤ d.power.phase) : syncSend d = (List.range 16).foldl (toPeer sendSync) d :=
  (if_neg (Nat.not_lt.mpr h)).trans rfl

/-- SYNC_SEND sends one SYNC to each sync peer, and changes nothing else but the draws (R194). -/
theorem syncSend_spec {d : Dev} (h : 6 ≤ d.power.phase) :
    ∃ l, (syncSend d).offTx = d.offTx ∧ (syncSend d).fabTx = d.fabTx ++ l
      ∧ l.length = ((List.range 16).filter fun p => (syncPeer d p).isSome).length
      ∧ ∀ p m, p ∈ List.range 16 → syncPeer d p = some m → ∃ k ∈ l, ∃ offset, k.kind = 0x81 ∧ k.port = some p ∧ k.dest = unitId m 0
          ∧ offset < periodPs d.stk.current ∧ k.body = syncBody d offset := by
  rw [syncSend_of_late h]
  refine toPeer_foldl (fun p m e he => ?_) _ d rfl
  have hstk : e.stk = d.stk := (congrArg Dev.stk he :)
  have hbody (o : Nat) : syncBody (drawNat e).2 o = syncBody d o := (congrArg (syncBody · o) he :)
  have hlt : (drawNat e).1 % periodPs e.stk.current < periodPs d.stk.current := by
    rw [hstk]
    exact Nat.mod_lt _ (periodPs_pos _)
  rw [sendSync, sendCtl, sendPkt_of_ctl (le_refl _)]
  exact ⟨he, _, rfl, _, rfl, rfl, rfl, hlt, hbody _⟩

/-- One DELAY_REQ to a peer. -/
def sendDelayReq (now p m : Nat) (d : Dev) : Dev := sendCtl p 0x82 m (toLe 8 now) d

theorem delayReqSend_of_late {d : Dev} (now : Nat) (h : 5 ≤ d.power.phase) :
    delayReqSend now d = (List.range 16).foldl (toPeer (sendDelayReq now)) d := (if_neg (Nat.not_lt.mpr h)).trans rfl

theorem toPeer_sendDelayReq_draws (now : Nat) (d : Dev) (p : Nat) : (toPeer (sendDelayReq now) d p).draws = d.draws := by
  cases h : syncPeer d p with
  | none => rw [toPeer_of_none h]
  | some m =>
    rw [toPeer_of_some h, sendDelayReq, sendCtl, sendPkt_eq]

/-- DELAY_REQ_SEND sends one DELAY_REQ to each sync peer, and changes nothing else (R195). -/
theorem delayReqSend_spec {d : Dev} (now : Nat) (h : 5 ≤ d.power.phase) :
    delayReqSend now d = { d with fabTx := (delayReqSend now d).fabTx }
    ∧ ∀ p m, p ∈ List.range 16 → syncPeer d p = some m → ∃ k ∈ (delayReqSend now d).fabTx, k.kind = 0x82 ∧ k.port = some p
        ∧ k.dest = unitId m 0 ∧ k.body = toLe 8 now := by
  rw [delayReqSend_of_late now h]
  obtain ⟨l, hoff, htx, -, hok⟩ := toPeer_foldl (send := sendDelayReq now)
    (ok := fun p m k => k.kind = 0x82 ∧ k.port = some p ∧ k.dest = unitId m 0 ∧ k.body = toLe 8 now) (fun p m e he => by
      rw [sendDelayReq, sendCtl, sendPkt_of_ctl (show 0x81 ≤ 0x82 by decide)]
      exact ⟨he, _, rfl, rfl, rfl, rfl, rfl⟩) (List.range 16) d rfl
  have hdraws := view_foldl Dev.draws (toPeer_sendDelayReq_draws now) (List.range 16) d
  generalize (List.range 16).foldl (toPeer (sendDelayReq now)) d = e at *
  refine ⟨?_, fun p m hp hm => ?_⟩
  · rw [← hdraws]
    exact Dev.eq_of_offTx hoff
  · obtain ⟨k, hk, hf⟩ := hok p m hp hm
    exact ⟨k, htx ▸ List.mem_append_right _ hk, hf⟩

/-! ### The lock and the fatal state -/

/-- The lock on the master lost: beside the stroke unit's record of it, only what a corrected fault changes. -/
theorem offNote_loseLock (d : Dev) :
    (loseLock d).offNote = ({ d with stk := { d.stk with locked := false, goodSyncs := 0 } } : Dev).offNote :=
  (offNote_faultCE ..).trans (offNote_setWire ..)

theorem loseLock_stk (d : Dev) : (loseLock d).stk = { d.stk with locked := false, goodSyncs := 0 } := stk_of_offNote (offNote_loseLock d)

/-- Without a valid SYNC for 256 strokes a module that follows one loses its lock (R51). -/
theorem syncLoss_of_silence {d : Dev} (hm : d.cfg.master = false) (hl : d.stk.locked = true) (hp : 6 ≤ d.power.phase)
    (hn : d.stk.lastSync + 256 ≤ d.stk.number) : syncLoss d = loseLock d := by
  simp only [syncLoss, hm, hl, Nat.not_lt.mpr hp, Nat.not_lt.mpr hn, Bool.not_true, Bool.false_eq_true, or_self, if_false]

theorem syncLoss_of_heard {d : Dev} (h : d.cfg.master = true ∨ d.stk.number < d.stk.lastSync + 256) : syncLoss d = d :=
  if_pos (h.imp_right fun h => Or.inr (Or.inr h))

theorem raiseIbi_flt (b : Nat) (d : Dev) : (raiseIbi b d).flt = d.flt := by
  unfold raiseIbi
  split <;> rfl

theorem closeSession_flt (i : Nat) (d : Dev) : (closeSession i d).flt = d.flt := by
  unfold closeSession
  dsimp only
  split
  · rw [logDev_eq]
    rfl
  · rfl

theorem closeOther_flt (d : Dev) (x : Nat × Session) : (if x.2.management then d else closeSession x.1 d).flt = d.flt := by
  split
  · rfl
  · exact closeSession_flt ..

/-- After a fatal event the fatal state holds (R380). -/
theorem enterFatal_fatal (n : Nat) (d : Dev) : (enterFatal n d).flt.fatal = true := by
  unfold enterFatal
  split
  · assumption
  · lift_lets
    intro e1 f1 e2
    have h2 : e2.flt.fatal = true := rfl
    clear_value e2
    intro e3
    have h3 : e3.flt.fatal = true := (congrArg Flt.fatal (view_foldl Dev.flt closeOther_flt _ e2)).trans h2
    clear_value e3
    intro e4
    have h4 : e4.flt.fatal = true := (fatal_of_offNote (offNote_recordFault (Or.inr rfl) e3)).trans h3
    clear_value e4
    intro l f2 e5
    have h5 : e5.flt.fatal = true := h4
    clear_value e5
    intro r e6
    have h6 : e6.flt.fatal = true := h5
    clear_value e6
    refine (congrArg Flt.fatal (raiseIbi_flt ..)).trans ?_
    split <;> exact h6

/-! ### SYNC -/

theorem refusePort_ports (p : Nat) (d : Dev) : (refusePort p d).ports = tSet d.ports p { portOf d p with refused := true } :=
  ports_of_offNote (offNote_faultCE ..)

theorem refusePort_stk (p : Nat) (d : Dev) : (refusePort p d).stk = d.stk :=
  stk_of_offNote (d := setPort p { portOf d p with refused := true } d) (offNote_faultCE ..)

/-- A valid SYNC noted: its port and the module have heard one in this stroke. -/
def noteSync (p : Nat) (d : Dev) : Dev :=
  { d with ports := tSet d.ports p { portOf d p with lastSync := some d.stk.number }
           stk := { d.stk with lastSync := d.stk.number } }

section Sync
variable {p : SyncPkt} {d : Dev} (ht : portTakes d p.port = true) (hb : bitAt (regRaw d 0x10020) p.port = true)
include ht hb

theorem syncIn_of_reserved (hr : p.rsvZero = false) : syncIn p d = dropBad d := by
  simp only [syncIn, ht, hb, hr, Bool.not_true, Bool.or_self, Bool.false_eq_true, if_false, Bool.not_false, if_true]

theorem syncIn_of_own (hr : p.rsvZero = true) (ho : ownNumber d p.source = true) : syncIn p d = refusePort p.port d := by
  simp only [syncIn, ht, hb, hr, ho, Bool.not_true, Bool.or_self, Bool.false_eq_true, if_false, if_true]

variable (hr : p.rsvZero = true) (ho : ownNumber d p.source = false) (hp : 6 ≤ d.power.phase)
include hr ho hp

theorem syncIn_of_invalid (hv : syncValid d p = false) : syncIn p d = dropBad d := by
  simp only [syncIn, ht, hb, hr, ho, hv, Nat.not_lt.mpr hp, Bool.not_true, Bool.or_self, Bool.false_eq_true, if_false, Bool.not_false,
    if_true]

theorem syncIn_of_valid (hv : syncValid d p = true) :
    syncIn p d = if !d.cfg.master && !d.flt.fatal && syncFollowed d p then followSync p (noteSync p.port d) else noteSync p.port d := by
  simp only [syncIn, ht, hb, hr, ho, hv, Nat.not_lt.mpr hp, Bool.not_true, Bool.or_self, Bool.false_eq_true, if_false]
  rfl

end Sync

/-! ### Steering -/

theorem steerFor_bounds (o : Int) : -6400 ≤ steerFor o ∧ steerFor o ≤ 6400 ∧ (o.natAbs ≤ 6400 → steerFor o = -o) := by
  unfold steerFor
  omega

/-- Steering sets the offset and the correction, and moves of the stroke unit only the lock and the count of good words (R49, R51). -/
theorem steerBy_stk (o : Int) (d : Dev) :
    (steerBy o d).stk = { d.stk with offset := o, steer := steerFor o, locked := (steerBy o d).stk.locked
                                     goodSyncs := (steerBy o d).stk.goodSyncs } := by
  unfold steerBy
  dsimp only
  split
  · split
    · rw [loseLock_stk]
    · rfl
  · split
    · rfl
    · split
      · rfl
      · rw [stk_of_offNote (offNote_setWire ..)]

theorem steerBy_locked_of_locked {d : Dev} (o : Int) (h : d.stk.locked = true) :
    (steerBy o d).stk.locked = true ↔ o.natAbs ≤ 20000 := by
  by_cases hf : 20000 < o.natAbs
  · simp only [steerBy, h, hf, if_true, loseLock_stk, Nat.not_le.mpr hf, Bool.false_eq_true]
  · simp only [steerBy, h, hf, if_true, if_false, Nat.not_lt.mp hf]

/-- The lock is found again with the sixteenth consecutive word within 10 ns (R51). -/
theorem steerBy_locked_of_unlocked {d : Dev} (o : Int) (h : d.stk.locked = false) :
    (steerBy o d).stk.locked = true ↔ o.natAbs ≤ 10000 ∧ 15 ≤ d.stk.goodSyncs := by
  by_cases hf : 10000 < o.natAbs
  · simp only [steerBy, h, hf, if_true, if_false, Nat.not_le.mpr hf, Bool.false_eq_true, false_and]
  · by_cases hg : d.stk.goodSyncs + 1 < 16
    · have hn : ¬15 ≤ d.stk.goodSyncs := by omega
      simp only [steerBy, h, hf, hg, hn, if_true, if_false, Bool.false_eq_true, and_false]
    · have hn : 15 ≤ d.stk.goodSyncs := by omega
      simp only [steerBy, h, hf, hg, hn, if_false, Bool.false_eq_true, stk_of_offNote (offNote_setWire ..), Nat.not_lt.mp hf, and_self]

/-! ### A SYNC followed -/

/-- A port heard from keeps its path delay. -/
theorem syncMoment_noteSync (p : SyncPkt) (d : Dev) : syncMoment (noteSync p.port d) p = syncMoment d p := by
  have hport : portOf (noteSync p.port d) p.port = { portOf d p.port with lastSync := some d.stk.number } := portOf_setPort_self ..
  unfold syncMoment
  rw [hport]

/-- The port of a SYNC taken as the one followed. -/
def followPort (p : SyncPkt) (d : Dev) : Dev := { d with stk := { d.stk with source := p.port, hops := p.hops } }

/-- Another stroke number on the port followed is fatal (R51). -/
theorem followSync_of_other_stroke {p : SyncPkt} {d : Dev} (hl : d.stk.locked = true) (hp : p.port = d.stk.source)
    (hn : (p.stroke : Int) ≠ d.stk.number + nearestStroke d (syncMoment d p)) :
    followSync p (noteSync p.port d) = enterFatal 0x0B (noteSync p.port d) := by
  rw [← syncMoment_noteSync] at hn
  exact if_pos ⟨hl, hp, hn⟩

theorem followSync_of_stroke {p : SyncPkt} {d : Dev}
    (h : d.stk.locked = false ∨ p.port ≠ d.stk.source ∨ (p.stroke : Int) = d.stk.number + nearestStroke d (syncMoment d p)) :
    followSync p (noteSync p.port d) = steerBy (syncOffset d (syncMoment d p)) (followPort p (noteSync p.port d)) := by
  rw [← syncMoment_noteSync] at h ⊢
  refine if_neg fun ⟨hl, hp, hn⟩ => ?_
  rcases h with h | h | h
  · exact absurd (h.symm.trans hl) Bool.false_ne_true
  · exact h hp
  · exact hn h

section Followed
variable {p : SyncPkt} {s : State} (ht : portTakes s.dev p.port = true) (hb : bitAt (regRaw s.dev 0x10020) p.port = true)
  (hr : p.rsvZero = true) (ho : ownNumber s.dev p.source = false) (hp : 6 ≤ s.dev.power.phase) (hv : syncValid s.dev p = true)
include ht hb hr ho hp hv

/-- A valid SYNC that the module does not follow is noted (R194). -/
theorem sync_of_unfollowed (h : s.dev.cfg.master = true ∨ s.dev.flt.fatal = true ∨ syncFollowed s.dev p = false) :
    exec (.sync p) s = .next (ends (noteSync p.port s.dev) s) := by
  have hf : (!s.dev.cfg.master && !s.dev.flt.fatal && syncFollowed s.dev p) = false := by
    rcases h with h | h | h <;> simp [h]
  have hin := syncIn_of_valid ht hb hr ho hp hv
  rw [hf] at hin
  exact congrArg (fun d => Host.Outcome.next (ends d s)) hin

variable (hm : s.dev.cfg.master = false) (hn : s.dev.flt.fatal = false) (hf : syncFollowed s.dev p = true)
include hm hn hf

theorem sync_of_followed : exec (.sync p) s = .next (ends (followSync p (noteSync p.port s.dev)) s) := by
  have hin := syncIn_of_valid ht hb hr ho hp hv
  simp only [hm, hn, hf, Bool.not_false, Bool.and_self, if_true] at hin
  exact congrArg (fun d => Host.Outcome.next (ends d s)) hin

theorem sync_of_other_stroke (hl : s.dev.stk.locked = true) (hq : p.port = s.dev.stk.source)
    (hs : (p.stroke : Int) ≠ s.dev.stk.number + nearestStroke s.dev (syncMoment s.dev p)) :
    ∃ d, exec (.sync p) s = .next (ends d s) ∧ d.flt.fatal = true := by
  refine ⟨_, sync_of_followed ht hb hr ho hp hv hm hn hf, ?_⟩
  rw [followSync_of_other_stroke hl hq hs]
  exact enterFatal_fatal ..

/-- A SYNC followed steers against its offset, and the lock goes by the offset's size (R49, R51). -/
theorem sync_of_stroke (h : s.dev.stk.locked = false ∨ p.port ≠ s.dev.stk.source
      ∨ (p.stroke : Int) = s.dev.stk.number + nearestStroke s.dev (syncMoment s.dev p)) :
    let offset := syncOffset s.dev (syncMoment s.dev p)
    ∃ d, exec (.sync p) s = .next (ends d s) ∧ d.stk.number = s.dev.stk.number ∧ d.stk.source = p.port ∧ d.stk.hops = p.hops
      ∧ d.stk.offset = offset ∧ -6400 ≤ d.stk.steer ∧ d.stk.steer ≤ 6400 ∧ (offset.natAbs ≤ 6400 → d.stk.steer = -offset)
      ∧ (s.dev.stk.locked = true → (d.stk.locked = true ↔ offset.natAbs ≤ 20000))
      ∧ (s.dev.stk.locked = false → (d.stk.locked = true ↔ offset.natAbs ≤ 10000 ∧ 15 ≤ s.dev.stk.goodSyncs)) := by
  intro offset
  have hexec := sync_of_followed ht hb hr ho hp hv hm hn hf
  rw [followSync_of_stroke h] at hexec
  obtain ⟨hlow, hhigh, hsmall⟩ := steerFor_bounds offset
  have hstk := steerBy_stk offset (followPort p (noteSync p.port s.dev))
  have hlocked := steerBy_locked_of_locked (d := followPort p (noteSync p.port s.dev)) offset
  have hunlocked := steerBy_locked_of_unlocked (d := followPort p (noteSync p.port s.dev)) offset
  generalize steerBy offset (followPort p (noteSync p.port s.dev)) = e at hexec hstk hlocked hunlocked
  have hsteer : e.stk.steer = steerFor offset := by rw [hstk]
  exact ⟨e, hexec, congrArg (·.number) hstk, congrArg (·.source) hstk, congrArg (·.hops) hstk, congrArg (·.offset) hstk,
    hlow.trans_eq hsteer.symm, hsteer.trans_le hhigh, fun h => hsteer.trans (hsmall h), hlocked, hunlocked⟩

end Followed

end Sys2Proof.Machine
end

section
/-! Delays, announcements and redirects (R24, R192, R195, R402). -/

namespace Sys2Proof.Machine

/-! ### Redirects -/

theorem redirectIn_of_newer {fromM toM epoch : Nat} {d : Dev} (hf : fromM < 4096) (ht : toM < 4096) (hp : 4 ≤ d.power.phase)
    (hn : ∀ r, tGet? d.redirects fromM = some r → r.epoch < epoch) :
    let r : Redirect := { toModule := toM, epoch, graceEnd := if fromM = toM then none else some (d.stk.number + 16) }
    redirectIn fromM toM epoch d = bumpReg 0x80048 63 32 1 { d with redirects := tSet d.redirects fromM r } := by
  have hc : ¬(4096 ≤ fromM ∨ 4096 ≤ toM ∨ d.power.phase < 4) := by omega
  cases h : tGet? d.redirects fromM with
  | none => simp only [redirectIn, h, Bool.not_true, Bool.false_eq_true, false_or, hc, if_false]
  | some r => simp only [redirectIn, h, hn r h, decide_true, Bool.not_true, Bool.false_eq_true, false_or, hc, if_false]

theorem redirectIn_of_older {fromM toM epoch : Nat} {r : Redirect} {d : Dev} (h : tGet? d.redirects fromM = some r)
    (he : epoch ≤ r.epoch) : redirectIn fromM toM epoch d = d := by
  simp only [redirectIn, h, Nat.not_lt.mpr he, decide_false, Bool.not_false, true_or, if_true]

/-! ### The end of a redirect's grace -/

/-- The device without its own jobs and what leaves on the fabric. -/
def Dev.offJobs (d : Dev) : Dev := { d with jobs := [], fabTx := [] }

theorem offJobs_sendPkt (k : OutPkt) (d : Dev) : (sendPkt k d).offJobs = d.offJobs := by rw [sendPkt_eq]; rfl

theorem offJobs_resendPart (o : Owner) (r : Nat) (p : Part) (d : Dev) : (resendPart o r p d).2.offJobs = d.offJobs := by
  unfold resendPart
  split
  · exact offJobs_sendPkt ..
  · rfl

theorem offJobs_resendParts (f : Part → Bool) (o : Owner) (r : Nat) (ps : List Part) (d : Dev) :
    (resendParts f o r ps d).2.offJobs = d.offJobs := by
  induction ps generalizing d with
  | nil => rfl
  | cons p ps ih =>
    unfold resendParts
    dsimp only
    rw [ih]
    split
    · exact offJobs_resendPart ..
    · rfl

/-- Sending the device's own requests again changes only its jobs and what leaves on the fabric. -/
theorem offJobs_resendJobs (f : Part → Bool) (d : Dev) : (resendJobs f d).offJobs = d.offJobs := by
  unfold resendJobs
  refine view_foldl Dev.offJobs ?_ _ d
  intro d j
  exact offJobs_resendParts f j.2.owner j.2.requester j.2.parts d

/-- The packet with which a request is passed on to the module that serves an address (R187). -/
def relayPkt (p : Req) (kind a key : Nat) (d : Dev) : OutPkt :=
  { kind, flags := p.flags / 2 * 2, dest := unitId (routeModule d a) 0, source := p.source, tag := p.tag, tagGen := p.tagGen
    body := reqBody a key p.op p.size 0 0 (0x8000 + ownModule d) 0
      ++ if kind = 2 then p.data else if kind = 3 then toLe 16 p.operand ++ toLe 16 p.compare else [] }

/-- Outside the fatal state a request passed on changes the table of outstanding requests and what leaves on the fabric. -/
theorem relay_spec (p : Req) (kind a key : Nat) {d : Dev} (h : d.flt.fatal = false) :
    ∃ os, relay p kind a key d = { d with outstanding := os, fabTx := d.fabTx ++ [relayPkt p kind a key d] } := by
  refine ⟨_, if_neg fun hf => ?_⟩
  exact absurd (h.symm.trans hf.1) Bool.false_ne_true

/-- An outstanding request passed on again as it was. -/
def passOn (d : Dev) (o : Outstanding) : Dev := relay o.req o.kind o.req.addr o.req.key d

/-- Requests passed on one after another: each leaves for the module that serves its address. -/
theorem relay_foldl (os : List Outstanding) {d : Dev} (h : d.flt.fatal = false) :
    let e := os.foldl passOn d
    e.redirects = d.redirects ∧ e.mem = d.mem ∧ (∀ k ∈ d.fabTx, k ∈ e.fabTx)
    ∧ ∀ o ∈ os, ∃ k ∈ e.fabTx, k.kind = o.kind ∧ k.source = o.req.source ∧ k.tag = o.req.tag ∧ k.tagGen = o.req.tagGen
        ∧ k.dest = unitId (routeModule d o.req.addr) 0 := by
  induction os generalizing d with
  | nil => exact ⟨rfl, rfl, fun _ hk => hk, fun _ ho => absurd ho List.not_mem_nil⟩
  | cons a os ih =>
    obtain ⟨t, ht⟩ := relay_spec a.req a.kind a.req.addr a.req.key h
    let e : Dev := { d with outstanding := t, fabTx := d.fabTx ++ [relayPkt a.req a.kind a.req.addr a.req.key d] }
    rw [List.foldl_cons, passOn, ht]
    obtain ⟨hred, hmem, hkeep, hsent⟩ := ih (d := e) h
    refine ⟨hred, hmem, fun k hk => hkeep k (List.mem_append_left _ hk), fun o ho => ?_⟩
    rcases List.mem_cons.mp ho with rfl | ho
    · exact ⟨_, hkeep _ (List.mem_append_right _ List.mem_cons_self), rfl, rfl, rfl, rfl, rfl⟩
    · exact hsent o ho

/-- The end of a grace does not change which module serves an address. -/
theorem routeModule_of_redirects {d e : Dev} {m : Nat} {r : Redirect} {g : Option Nat} (hm : tGet? d.redirects m = some r)
    (h : e.redirects = tSet d.redirects m { r with graceEnd := g }) (a : Nat) : routeModule e a = routeModule d a := by
  unfold routeModule
  rw [h]
  by_cases ha : addrModule a = m
  · rw [ha, tGet?_tSet_self, hm]
  · rw [tGet?_tSet_ne _ _ ha]

theorem graceEnd_of_early {m n : Nat} {r : Redirect} {d : Dev} (hm : tGet? d.redirects m = some r) (hg : r.graceEnd = some n)
    (hn : d.stk.number < n) : graceEnd m d = d := by
  simp only [graceEnd, hm, hg, hn, if_true]

theorem graceEnd_of_late {m n : Nat} {r : Redirect} {d : Dev} (hm : tGet? d.redirects m = some r) (hg : r.graceEnd = some n)
    (hn : n ≤ d.stk.number) :
    let e := resendJobs (Part.sentTo m) { d with redirects := tSet d.redirects m { r with graceEnd := none } }
    graceEnd m d = (e.outstanding.filter fun o => o.relayedTo == some m).foldl passOn e := by
  simp only [graceEnd, hm, hg, Nat.not_lt.mpr hn, if_false]
  rfl

/-- At the end of the grace of a redirect what was passed on to its module is sent again, to the module that the entry names (R402). -/
theorem graceEnd_spec {m n : Nat} {r : Redirect} {d : Dev} (hm : tGet? d.redirects m = some r) (hg : r.graceEnd = some n)
    (hn : n ≤ d.stk.number) (hf : d.flt.fatal = false) :
    tGet? (graceEnd m d).redirects m = some { r with graceEnd := none } ∧ (graceEnd m d).mem = d.mem
    ∧ ∀ o ∈ d.outstanding, o.relayedTo = some m → ∃ k ∈ (graceEnd m d).fabTx, k.kind = o.kind ∧ k.source = o.req.source
        ∧ k.tag = o.req.tag ∧ k.tagGen = o.req.tagGen ∧ k.dest = unitId (routeModule d o.req.addr) 0 := by
  rw [graceEnd_of_late hm hg hn]
  have hoff := offJobs_resendJobs (Part.sentTo m) { d with redirects := tSet d.redirects m { r with graceEnd := none } }
  generalize resendJobs (Part.sentTo m) { d with redirects := tSet d.redirects m { r with graceEnd := none } } = e at hoff ⊢
  have hred : e.redirects = tSet d.redirects m { r with graceEnd := none } := (congrArg Dev.redirects hoff :)
  have hout : e.outstanding = d.outstanding := (congrArg Dev.outstanding hoff :)
  have hmem : e.mem = d.mem := (congrArg Dev.mem hoff :)
  have hfatal : e.flt.fatal = false := (congrArg (fun x : Dev => x.flt.fatal) hoff :).trans hf
  obtain ⟨hred', hmem', -, hsent⟩ := relay_foldl (e.outstanding.filter fun o => o.relayedTo == some m) hfatal
  refine ⟨?_, hmem'.trans hmem, fun o ho hr => ?_⟩
  · rw [hred', hred, tGet?_tSet_self]
  · obtain ⟨k, hk, hkind, hsrc, htag, hgen, hdest⟩ := hsent o (List.mem_filter.mpr ⟨hout ▸ ho, beq_iff_eq.mpr hr⟩)
    exact ⟨k, hk, hkind, hsrc, htag, hgen, hdest.trans (by rw [routeModule_of_redirects hm hred])⟩

end Sys2Proof.Machine
end

section
/-! What sending leaves of the link layer's receiving side (R173 to R177). -/

namespace Sys2Proof.Machine

/-- The receiving side of a port: the SEQ expected, whether a NAK is out, the SEQ acknowledged to it, and its unfinished packets. -/
def Port.rxSide (x : Port) : Nat × Bool × Nat × Tbl (List Byte) := (x.expect, x.nakSent, x.acked, x.partials)

/-- What sending leaves as it is: the receiving side of every port, and memory. -/
def linkView (d : Dev) : (Nat → Nat × Bool × Nat × Tbl (List Byte)) × List Host.Cell := (fun p => (portOf d p).rxSide, d.mem)

/-- A port replaced by one with the same receiving side. -/
theorem linkView_setPort {p : Nat} {x : Port} {d : Dev} (h : x.rxSide = (portOf d p).rxSide) : linkView (setPort p x d) = linkView d := by
  refine Prod.ext (funext fun q => ?_) rfl
  by_cases hq : q = p
  · subst hq
    exact (congrArg Port.rxSide (portOf_setPort_self ..)).trans h
  · exact congrArg Port.rxSide (portOf_setPort_ne _ _ _ _ hq)

/-! ### Sending -/

theorem linkView_takeCredits (p : Nat) (c : Nat × Nat) (d : Dev) : linkView (takeCredits p c d) = linkView d := by
  unfold takeCredits
  split
  · rfl
  · exact linkView_setPort rfl

theorem linkView_sendIdle (p : Nat) (nak : Bool) (d : Dev) : linkView (sendIdle p nak d) = linkView d := linkView_takeCredits ..

theorem linkView_sendFlit (p vc : Nat) (sop : Bool) (l : List Byte) (d : Dev) : linkView (sendFlit p vc sop l d) = linkView d := by
  unfold sendFlit
  refine (linkView_takeCredits ..).trans ?_
  exact linkView_setPort (d := d) rfl

theorem linkView_sendFlits (p vc n : Nat) (sop : Bool) (l : List Byte) (d : Dev) : linkView (sendFlits p vc n sop l d) = linkView d := by
  induction n generalizing sop l d with
  | zero => rfl
  | succ n ih => exact (ih ..).trans (linkView_sendFlit ..)

theorem linkView_sendIdles (p n : Nat) (d : Dev) : linkView (sendIdles p n d) = linkView d := by
  induction n generalizing d with
  | zero => rfl
  | succ n ih =>
    unfold sendIdles
    split
    · rfl
    · exact (ih _).trans (linkView_sendIdle ..)

theorem linkView_pumpPkt (x : Dev × List OutPkt × List Nat) (k : OutPkt) : linkView (pumpPkt x k).1 = linkView x.1 := by
  unfold pumpPkt
  dsimp only
  split
  · rfl
  · split
    · rfl
    · exact linkView_sendFlits ..

theorem linkView_pumpPkts (ks : List OutPkt) (x : Dev × List OutPkt × List Nat) : linkView (ks.foldl pumpPkt x).1 = linkView x.1 := by
  induction ks generalizing x with
  | nil => rfl
  | cons k ks ih => rw [List.foldl_cons, ih, linkView_pumpPkt]

/-- The link layer at work leaves the receiving side of every port, and memory, as they were. -/
theorem linkView_linkPump (d : Dev) : linkView (linkPump d) = linkView d := by
  unfold linkPump
  refine (view_foldl linkView ?_ _ _).trans (linkView_pumpPkts _ ({ d with fabTx := [] }, [], []))
  intro d p
  split
  · exact linkView_sendIdles ..
  · rfl

section View
variable {d e : Dev} (h : linkView e = linkView d)
include h

theorem mem_of_linkView : e.mem = d.mem := congrArg Prod.snd h

theorem rxSide_of_linkView (p : Nat) : (portOf e p).rxSide = (portOf d p).rxSide := congrFun (congrArg Prod.fst h) p

theorem expect_of_linkView (p : Nat) : (portOf e p).expect = (portOf d p).expect := congrArg Prod.fst (rxSide_of_linkView h p)
theorem nakSent_of_linkView (p : Nat) : (portOf e p).nakSent = (portOf d p).nakSent := congrArg (·.2.1) (rxSide_of_linkView h p)
theorem acked_of_linkView (p : Nat) : (portOf e p).acked = (portOf d p).acked := congrArg (·.2.2.1) (rxSide_of_linkView h p)
theorem partials_of_linkView (p : Nat) : (portOf e p).partials = (portOf d p).partials := congrArg (·.2.2.2) (rxSide_of_linkView h p)

end View

/-! ### Retransmission -/

/-- A kept flit sent again is one more flit on the fibre; the port counts it. -/
theorem resendFlit_spec (p : Nat) (f : Nat × List Byte) (d : Dev) :
    ∃ n l, portOf (resendFlit p f d) p = { portOf d p with resent := n } ∧ (resendFlit p f d).flitTx = d.flitTx ++ [(p, l)]
      ∧ (resendFlit p f d).mem = d.mem :=
  ⟨_, _, portOf_setPort_self .., rfl, rfl⟩

theorem resendFlits_spec (p : Nat) (fs : List (Nat × List Byte)) (d : Dev) :
    let e := fs.foldl (fun d f => resendFlit p f d) d
    (∃ n, portOf e p = { portOf d p with resent := n }) ∧ e.flitTx.length = d.flitTx.length + fs.length ∧ e.mem = d.mem := by
  induction fs generalizing d with
  | nil => exact ⟨⟨_, rfl⟩, rfl, rfl⟩
  | cons f fs ih =>
    obtain ⟨n, l, hport, htx, hmem⟩ := resendFlit_spec p f d
    obtain ⟨⟨n', hport'⟩, hlen, hmem'⟩ := ih (resendFlit p f d)
    rw [hport] at hport'
    refine ⟨⟨n', hport'⟩, ?_, hmem'.trans hmem⟩
    rw [List.foldl_cons, hlen, htx, List.length_append, List.length_cons, List.length_cons, List.length_nil]
    omega

end Sys2Proof.Machine
end

section
/-! The link layer: flits in order, retraining and training (R170 to R177). -/

namespace Sys2Proof.Machine

/-! ### Flits that are discarded -/

theorem sendNak_of_sent {p : Nat} {d : Dev} (h : (portOf d p).nakSent = true) : sendNak p d = d := if_pos h

theorem flitIn_of_closed {p : Nat} {l : List Byte} {s : State}
    (h : l.length ≠ 64 ∨ (portOf s.dev p).up = false ∨ (portOf s.dev p).retraining = true) : flitIn p l s = s :=
  if_pos (h.imp_right (Or.imp_left fun h => by simp only [h, Bool.not_false]))

section Flit
variable {p : Nat} {l : List Byte} {s : State} (hl : l.length = 64) (hu : (portOf s.dev p).up = true)
  (hr : (portOf s.dev p).retraining = false)
include hl hu hr

theorem flitIn_of_bad_crc (hc : fieldLe l 60 4 ≠ (crc32 (l.take 60)).toNat) :
    flitIn p l s = { s with dev := sendNak p (bumpReg (0x81010 + 32 * p) 63 32 1 s.dev) } := by
  simp only [flitIn, hl, hu, hr, hc, ne_eq, not_true_eq_false, Bool.not_true, Bool.false_eq_true, or_self, if_false, not_false_eq_true,
    if_true]

variable (hc : fieldLe l 60 4 = (crc32 (l.take 60)).toNat)
include hc

theorem flitIn_of_bad_seq (hs : bitsOf (fieldLe l 56 4) 31 22 ≠ (portOf s.dev p).expect) :
    flitIn p l s = { s with dev := sendNak p s.dev } := by
  simp only [flitIn, hl, hu, hr, hc, hs, ne_eq, not_true_eq_false, Bool.not_true, Bool.false_eq_true, or_self, if_false,
    not_false_eq_true, if_true]

theorem flitIn_of_expected (hs : bitsOf (fieldLe l 56 4) 31 22 = (portOf s.dev p).expect) : flitIn p l s = acceptFlit p l s := by
  simp only [flitIn, hl, hu, hr, hc, hs, ne_eq, not_true_eq_false, Bool.not_true, Bool.false_eq_true, or_self, if_false]

end Flit

/-! ### Flits that are taken -/

/-- A port with what a flit's ACK covers freed from its retry buffer (R174). -/
def Port.takeAck (w : Nat) (x : Port) : Port :=
  let ack := bitsOf w 21 12
  let far := (ack + 1024 - x.acked) % 1024
  if far ≤ x.retry.length then { x with acked := ack, retry := x.retry.drop far } else x

/-- A port with a flit's credits counted (R175). -/
def Port.addCredits (w : Nat) (x : Port) : Port :=
  let cvc := bitsOf w 6 4
  if realVc cvc then { x with credits := tSet x.credits cvc (tGet x.credits cvc + w % 16) } else x

theorem Port.takeAck_acked {w : Nat} {x : Port} (h : (bitsOf w 21 12 + 1024 - x.acked) % 1024 ≤ x.retry.length) :
    (x.takeAck w).acked = bitsOf w 21 12 := congrArg Port.acked (if_pos h)

theorem Port.takeAck_keeps (w : Nat) (x : Port) :
    (x.takeAck w).expect = x.expect ∧ (x.takeAck w).nakSent = x.nakSent ∧ (x.takeAck w).partials = x.partials := by
  unfold takeAck
  dsimp only
  split <;> exact ⟨rfl, rfl, rfl⟩

theorem Port.addCredits_rxSide (w : Nat) (x : Port) : (x.addCredits w).rxSide = x.rxSide := by
  unfold addCredits
  dsimp only
  split <;> rfl

theorem linkBack_of_no_nak {p w : Nat} {d : Dev} (h : bitAt w 11 = false) :
    linkBack p w d = setPort p (((portOf d p).takeAck w).addCredits w) d :=
  if_pos (by simp only [h, Bool.not_false])

/-- The device after what a flit taken in order on a port says of those sent. -/
def flitBack (p : Nat) (l : List Byte) (d : Dev) : Dev := linkBack p (fieldLe l 56 4) (setPort p { portOf d p with nakSent := false } d)

/-- After a flit in order that is no NAK no NAK of the port is out, and what its ACK covers is freed. -/
theorem flitBack_of_no_nak {p : Nat} {l : List Byte} {d : Dev} (h : bitAt (fieldLe l 56 4) 11 = false) :
    let x := portOf (flitBack p l d) p
    x.expect = (portOf d p).expect ∧ x.nakSent = false ∧ x.partials = (portOf d p).partials ∧ (flitBack p l d).mem = d.mem
    ∧ ((bitsOf (fieldLe l 56 4) 21 12 + 1024 - (portOf d p).acked) % 1024 ≤ (portOf d p).retry.length →
        x.acked = bitsOf (fieldLe l 56 4) 21 12) := by
  rw [flitBack, linkBack_of_no_nak h]
  simp only [portOf_setPort_self]
  have hside := Port.addCredits_rxSide (fieldLe l 56 4) (Port.takeAck (fieldLe l 56 4) { portOf d p with nakSent := false })
  obtain ⟨hexp, hnak, hpart⟩ := Port.takeAck_keeps (fieldLe l 56 4) { portOf d p with nakSent := false }
  exact ⟨(congrArg Prod.fst hside).trans hexp, (congrArg (·.2.1) hside).trans hnak, (congrArg (·.2.2.2) hside).trans hpart, rfl,
    fun hf => (congrArg (·.2.2.1) hside).trans (Port.takeAck_acked (x := { portOf d p with nakSent := false }) hf)⟩

theorem acceptFlit_of_idle {p : Nat} {l : List Byte} {s : State} (h : bitsOf (fieldLe l 56 4) 10 8 = 0) :
    acceptFlit p l s = { s with dev := linkPump (flitBack p l s.dev) } := if_pos h

/-- The port as the packet of a flit taken in order on a channel finds it. -/
def flitNext (p vc : Nat) (d : Dev) : Dev :=
  let x := portOf d p
  bumpReg (0x81008 + 32 * p) 63 0 1 (setPort p { x with
    expect := (x.expect + 1) % 1024, freed := if realVc vc then tSet x.freed vc (tGet x.freed vc + 1) else x.freed } d)

theorem flitNext_spec (p vc : Nat) (d : Dev) :
    (portOf (flitNext p vc d) p).expect = ((portOf d p).expect + 1) % 1024
    ∧ (portOf (flitNext p vc d) p).partials = (portOf d p).partials ∧ (flitNext p vc d).mem = d.mem := by
  let x := portOf d p
  have hport : portOf (flitNext p vc d) p = _ := portOf_setPort_self p { x with
    expect := (x.expect + 1) % 1024, freed := if realVc vc then tSet x.freed vc (tGet x.freed vc + 1) else x.freed } d
  rw [hport]
  exact ⟨rfl, rfl, rfl⟩

/-- The link layer after a flit was taken: an ACK goes back with the next flit, which is an idle one where no other leaves. -/
def flitAnswer (p : Nat) (d : Dev) : Dev :=
  let e := linkPump d
  if e.flitTx.length = d.flitTx.length && portSends e p then sendIdle p false e else e

theorem linkView_flitAnswer (p : Nat) (d : Dev) : linkView (flitAnswer p d) = linkView d := by
  unfold flitAnswer
  dsimp only
  split
  · exact (linkView_sendIdle ..).trans (linkView_linkPump d)
  · exact linkView_linkPump d

theorem acceptFlit_of_payload {p : Nat} {l : List Byte} {s : State} (h : bitsOf (fieldLe l 56 4) 10 8 ≠ 0) :
    let t := takePayload p (bitsOf (fieldLe l 56 4) 10 8) (bitAt (fieldLe l 56 4) 7) (l.take 56)
      { s with dev := flitNext p (bitsOf (fieldLe l 56 4) 10 8) (flitBack p l s.dev) }
    acceptFlit p l s = { t with dev := flitAnswer p t.dev } := if_neg h

/-- The bytes of an unfinished packet kept on a channel of a port. -/
def keepPartial (p vc : Nat) (l : List Byte) (d : Dev) : Dev :=
  setPort p { portOf d p with partials := tSet (portOf d p).partials vc l } d

theorem portOf_keepPartial (p vc : Nat) (l : List Byte) (d : Dev) :
    portOf (keepPartial p vc l d) p = { portOf d p with partials := tSet (portOf d p).partials vc l } := portOf_setPort_self ..

theorem keepPartial_mem (p vc : Nat) (l : List Byte) (d : Dev) : (keepPartial p vc l d).mem = d.mem := rfl

/-- The first flit of a packet that takes more than one is kept for the rest (R177). -/
theorem takePayload_of_first {p vc : Nat} {l : List Byte} {s : State} (hn : tGet? (portOf s.dev p).partials vc = none)
    (hlo : 56 < fieldLe l 2 2) (hhi : fieldLe l 2 2 ≤ 1064) (hl : l.length = 56) :
    takePayload p vc true l s = { s with dev := keepPartial p vc l s.dev } := by
  have hc : ¬(fieldLe l 2 2 < 16 ∨ 1064 < fieldLe l 2 2) := by omega
  simp only [takePayload, hn, hl, hlo, hc, Option.isSome_none, Bool.and_false, Bool.false_eq_true, if_false, if_true]
  rfl

end Sys2Proof.Machine
end

section
/-! Retraining and training of a port (R170, R174, R444). -/

namespace Sys2Proof.Machine

theorem startRetrain_spec (p : Nat) (d : Dev) :
    portOf (startRetrain p d) p = { portOf d p with retraining := true, naks := 0 } ∧ (startRetrain p d).mem = d.mem := by
  have hnote : (startRetrain p d).offNote = _ := offNote_faultCE 0x03 (0x3000 + p) 0
    (bumpSat (0x81010 + 32 * p) 31 16 1 (setPort p { portOf d p with retraining := true, naks := 0 } d))
  exact ⟨(portOf_of_offNote hnote p).trans (portOf_setPort_self ..), (mem_of_offNote hnote :)⟩

theorem portUp_spec (p : Nat) (up : Bool) (d : Dev) :
    portOf (portUp p up d) p = { portOf d p with up } ∧ (portUp p up d).mem = d.mem := by
  have hnote : (portUp p up d).offNote = _ := offNote_setWire (840 + p) (!up) (setPort p { portOf d p with up } d)
  exact ⟨(portOf_of_offNote hnote p).trans (portOf_setPort_self ..), (mem_of_offNote hnote :)⟩

/-- A port that goes down loses its retry buffer and its unfinished packets. -/
theorem portDown_spec (p : Nat) (d : Dev) :
    portOf (portDown p d) p = { portOf d p with up := false, retraining := false, retry := [], partials := [] }
    ∧ (portDown p d).mem = d.mem := by
  let e := setPort p { portOf d p with retraining := false, retry := [], partials := [] } d
  have hnote : (portDown p d).offNote = (portUp p false e).offNote := offNote_faultCE ..
  obtain ⟨hport, hmem⟩ := portUp_spec p false e
  refine ⟨(portOf_of_offNote hnote p).trans (hport.trans ?_), (mem_of_offNote hnote).trans hmem⟩
  rw [portOf_setPort_self]

/-- The record of a port whose link comes up: every receive buffer is to be returned as credit (R175). -/
def Port.fresh (x : Port) : Port :=
  { delay := x.delay, lastSync := x.lastSync, refused := x.refused, freed := [(1, 256), (2, 256), (3, 64), (4, 512), (5, 32)] }

/-- The announcement of the module's number on a port (PORT_HELLO, R24). -/
def helloPkt (p : Nat) (d : Dev) : OutPkt :=
  { kind := 0x85, dest := 0xFFFFFE, source := unitId (ownModule d) 0, port := some p
    body := toLe 2 (ownModule d) ++ toLe 4 d.cfg.hall ++ zeros 2 }

theorem linkUp_eq (p : Nat) (d : Dev) :
    let e := portUp p true (setPort p (portOf d p).fresh d)
    linkUp p d = { e with fabTx := e.fabTx ++ [helloPkt p d] } := by
  intro e
  have hup : linkUp p d = sendPkt (helloPkt p d) e := rfl
  rw [hup, sendPkt_of_ctl (show 0x81 ≤ 0x85 by decide)]

theorem portOf_linkUp (p : Nat) (d : Dev) : portOf (linkUp p d) p = { (portOf d p).fresh with up := true } := by
  have hport := (portUp_spec p true (setPort p (portOf d p).fresh d)).1
  rw [portOf_setPort_self] at hport
  rw [linkUp_eq]
  exact hport

theorem helloPkt_mem_linkUp (p : Nat) (d : Dev) : helloPkt p d ∈ (linkUp p d).fabTx := by
  rw [linkUp_eq]
  exact List.mem_append_right _ List.mem_cons_self

theorem standbyDone_eq (d : Dev) : standbyDone d = { d with power := (standbyDone d).power } := by
  unfold standbyDone
  split <;> rfl

theorem standbyDone_ports (d : Dev) : (standbyDone d).ports = d.ports := by rw [standbyDone_eq]
theorem standbyDone_fabTx (d : Dev) : (standbyDone d).fabTx = d.fabTx := by rw [standbyDone_eq]

section Train
variable {p : Nat} {d : Dev} (hph : 4 ≤ d.power.phase) (hp : p < 16) (hi : (portOf d p).idled = false ∨ d.power.mode = 2)
include hph hp hi

theorem portTrainEnd_of_retraining (hr : (portOf d p).retraining = true) (up : Bool) :
    portTrainEnd p up d = if up then resendAll p (setPort p { portOf d p with retraining := false } d) else portDown p d := by
  have h1 : ¬d.power.phase < 4 := by omega
  have h2 : ¬16 ≤ p := by omega
  have h3 : ¬((portOf d p).idled = true ∧ d.power.mode ≠ 2) := fun h => hi.elim (by simp [h.1]) h.2
  simp only [portTrainEnd, h1, h2, h3, hr, Bool.not_true, Bool.false_eq_true, and_false, or_self, if_false, if_true]

theorem portTrainEnd_of_down (hr : (portOf d p).retraining = false) (hu : (portOf d p).up = false) (up : Bool) :
    let e := setPort p { portOf d p with idled := false } d
    portTrainEnd p up d = standbyDone (if up then linkUp p e else portDown p e) := by
  have h1 : ¬d.power.phase < 4 := by omega
  have h2 : ¬16 ≤ p := by omega
  have h3 : ¬((portOf d p).idled = true ∧ d.power.mode ≠ 2) := fun h => hi.elim (by simp [h.1]) h.2
  simp only [portTrainEnd, h1, h2, h3, hr, hu, Bool.false_eq_true, false_and, or_self, if_false]

/-- A port that has retrained sends its retry buffer again (R174). -/
theorem portTrainEnd_resends (hr : (portOf d p).retraining = true) :
    let e := portTrainEnd p true d
    (portOf e p).retraining = false ∧ (portOf e p).retry = (portOf d p).retry
    ∧ e.flitTx.length = d.flitTx.length + (portOf d p).retry.length ∧ e.mem = d.mem := by
  intro e
  have he : e = resendAll p (setPort p { portOf d p with retraining := false } d) := portTrainEnd_of_retraining hph hp hi hr true
  obtain ⟨⟨n, hport⟩, hlen, hmem⟩ := resendFlits_spec p (portOf d p).retry (setPort p { portOf d p with retraining := false } d)
  rw [he, resendAll, portOf_setPort_self]
  rw [portOf_setPort_self] at hport
  rw [hport]
  exact ⟨rfl, rfl, hlen, hmem⟩

/-- A port that was down comes up afresh and announces the module's number (R24, R170). -/
theorem portTrainEnd_comes_up (hr : (portOf d p).retraining = false) (hu : (portOf d p).up = false) :
    let e := portTrainEnd p true d
    (portOf e p).up = true ∧ (portOf e p).txSeq = 0 ∧ (portOf e p).expect = 0 ∧ (portOf e p).idled = false
    ∧ ∃ k ∈ e.fabTx, k.kind = 0x85 ∧ k.port = some p ∧ k.body.take 2 = toLe 2 (ownModule d) := by
  intro e
  have he : e = standbyDone (linkUp p (setPort p { portOf d p with idled := false } d)) :=
    portTrainEnd_of_down hph hp hi hr hu true
  rw [he, portOf_congr (standbyDone_ports _), standbyDone_fabTx, portOf_linkUp]
  exact ⟨rfl, rfl, rfl, rfl, _, helloPkt_mem_linkUp .., rfl, rfl, rfl⟩

/-- A port that does not train stays down (R170, R174). -/
theorem portTrainEnd_stays_down (h : (portOf d p).retraining = true ∨ (portOf d p).up = false) :
    (portOf (portTrainEnd p false d) p).up = false ∧ (portOf (portTrainEnd p false d) p).retry = [] := by
  cases hr : (portOf d p).retraining with
  | true =>
    have he : portTrainEnd p false d = portDown p d := portTrainEnd_of_retraining hph hp hi hr false
    rw [he, (portDown_spec p d).1]
    exact ⟨rfl, rfl⟩
  | false =>
    have hu : (portOf d p).up = false := h.resolve_left (by simp [hr])
    have he : portTrainEnd p false d = standbyDone (portDown p (setPort p { portOf d p with idled := false } d)) :=
      (portTrainEnd_of_down hph hp hi hr hu false).trans (congrArg standbyDone (if_neg Bool.false_ne_true))
    rw [he, portOf_congr (standbyDone_ports _), (portDown_spec p _).1]
    exact ⟨rfl, rfl⟩

end Train

end Sys2Proof.Machine
end

section
/-! The link layer and the sync words (O55). -/

namespace Sys2Proof.Machine

/-- An event that changes only the device ends with what it makes of it. -/
theorem next_onDev {f : Dev → Dev} {s : State} {d : Dev} (h : f s.dev = d) :
    Host.Outcome.next (φ := Fault) (ρ := Refusal) (onDev f s) = .next (ends d s) := by
  subst h
  rfl

/-- A flit ends with what it makes of the device. -/
theorem flit_next {p : Nat} {l : List Byte} {s : State} {d : Dev} (h : flitIn p l s = { s with dev := d }) :
    exec (.flit p l) s = .next (ends d s) := congrArg (fun t => Host.Outcome.next (settle t)) h

/-- SYNC_SEND from phase 6 on (R194). -/
theorem syncSend_sends {s : State} (h : 6 ≤ s.dev.power.phase) :
    ∃ d, exec .syncSend s = .next (ends d s) ∧ d.mem = s.dev.mem ∧ d.stk = s.dev.stk
      ∧ d.fabTx.length = s.dev.fabTx.length + ((List.range 16).filter fun p => (syncPeer s.dev p).isSome).length
      ∧ ∀ p m, p < 16 → syncPeer s.dev p = some m → ∃ k ∈ d.fabTx, ∃ offset, k.kind = 0x81 ∧ k.port = some p
          ∧ k.dest = unitId m 0 ∧ offset < periodPs s.dev.stk.current ∧ k.body = syncBody s.dev offset := by
  obtain ⟨l, hoff, htx, hlen, hsent⟩ := syncSend_spec h
  refine ⟨_, next_onDev rfl, (congrArg Dev.mem hoff :), (congrArg Dev.stk hoff :), ?_, fun p m hp hm => ?_⟩
  · rw [htx, List.length_append, hlen]
  · obtain ⟨k, hk, hf⟩ := hsent p m (List.mem_range.mpr hp) hm
    exact ⟨k, htx ▸ List.mem_append_right _ hk, hf⟩

/-- DELAY_REQ_SEND from phase 5 on (R195). -/
theorem delayReqSend_sends {s : State} (now : Nat) (h : 5 ≤ s.dev.power.phase) :
    ∃ d, exec (.delayReqSend now) s = .next (ends d s) ∧ d = { s.dev with fabTx := d.fabTx }
      ∧ ∀ p m, p < 16 → syncPeer s.dev p = some m → ∃ k ∈ d.fabTx, k.kind = 0x82 ∧ k.port = some p ∧ k.dest = unitId m 0
          ∧ k.body = toLe 8 now := by
  obtain ⟨heq, hsent⟩ := delayReqSend_spec now h
  exact ⟨_, next_onDev rfl, heq, fun p m hp hm => hsent p m (List.mem_range.mpr hp) hm⟩

/-- SYNC_LOSS of a module that has lost its master (R51). -/
theorem syncLoss_unlocks {s : State} (hm : s.dev.cfg.master = false) (hl : s.dev.stk.locked = true) (hp : 6 ≤ s.dev.power.phase)
    (hn : s.dev.stk.lastSync + 256 ≤ s.dev.stk.number) :
    ∃ d, exec .syncLoss s = .next (ends d s) ∧ d.stk.locked = false ∧ d.stk.number = s.dev.stk.number ∧ d.mem = s.dev.mem := by
  refine ⟨_, next_onDev (syncLoss_of_silence hm hl hp hn), ?_, ?_, (mem_of_offNote (offNote_loseLock s.dev) :)⟩
  · rw [loseLock_stk]
  · rw [loseLock_stk]

/-- SYNC on a port that takes sync words (R24, R49, R51, R194). -/
theorem sync_cases (p : SyncPkt) (s : State) (ht : portTakes s.dev p.port = true) (hb : bitAt (regRaw s.dev 0x10020) p.port = true) :
    (p.rsvZero = false → exec (.sync p) s = .next (ends (dropBad s.dev) s))
    ∧ (p.rsvZero = true → ownNumber s.dev p.source = true →
        ∃ d, exec (.sync p) s = .next (ends d s) ∧ (portOf d p.port).refused = true ∧ d.stk = s.dev.stk)
    ∧ (p.rsvZero = true → ownNumber s.dev p.source = false → 6 ≤ s.dev.power.phase → syncValid s.dev p = false →
        exec (.sync p) s = .next (ends (dropBad s.dev) s)) := by
  refine ⟨fun hr => ?_, fun hr ho => ?_, fun hr ho hp hv => ?_⟩
  · exact next_onDev (syncIn_of_reserved ht hb hr)
  · refine ⟨_, next_onDev (syncIn_of_own ht hb hr ho), ?_, refusePort_stk ..⟩
    rw [portOf, refusePort_ports, tGet?_tSet_self]
    rfl
  · exact next_onDev (syncIn_of_invalid ht hb hr ho hp hv)

/-- DELAY_REQ and DELAY_RSP of a peer on a port that takes packets (R195). -/
theorem delayReq_delayRsp (p : DelayPkt) (leave : Nat) (s : State) (ht : portTakes s.dev p.port = true)
    (ho : ownNumber s.dev p.source = false) :
    exec (.delayReq p leave) s = .next (ends (sendPkt {
      kind := 0x83, dest := p.source, source := unitId (ownModule s.dev) 0, port := some p.port
      body := toLe 8 p.t1 ++ toLe 8 p.arrival ++ toLe 8 leave } s.dev) s)
    ∧ exec (.delayRsp p) s = .next (ends (setPort p.port { portOf s.dev p.port with delay := pathDelay p } s.dev) s) := by
  have hc : (!portTakes s.dev p.port || ownNumber s.dev p.source) = false := by simp only [ht, ho, Bool.not_true, Bool.or_self]
  constructor
  · exact next_onDev (if_neg (by simp only [hc, Bool.false_eq_true, not_false_eq_true]))
  · exact next_onDev (if_neg (by simp only [hc, Bool.false_eq_true, not_false_eq_true]))

/-- PORT_HELLO on a port that takes packets (R24). -/
theorem portHello_cases (port number hall : Nat) (s : State) (hh : hall < 2 ^ 32) (ht : portTakes s.dev port = true) :
    (number = ownModule s.dev → s.dev.cfg.loaded = true →
      ∃ d, exec (.portHello port number hall) s = .next (ends d s) ∧ (portOf d port).refused = true
        ∧ ∀ k, k ≠ port → portOf d k = portOf s.dev k)
    ∧ (number ≠ ownModule s.dev → exec (.portHello port number hall) s = .next (ends s.dev s)) := by
  refine ⟨fun hn hl => ?_, fun hn => ?_⟩
  · have hin : helloIn port number s.dev = refusePort port s.dev := by
      simp only [helloIn, ht, hn, hl, BEq.rfl, Bool.and_self, if_true]
    refine ⟨_, next_onDev ((if_pos hh).trans hin), ?_, fun k hk => ?_⟩
    · rw [portOf, refusePort_ports, tGet?_tSet_self]
      rfl
    · rw [portOf, refusePort_ports, tGet?_tSet_ne _ _ hk]
      rfl
  · have hin : helloIn port number s.dev = s.dev := by
      simp only [helloIn, beq_eq_false_iff_ne.mpr hn, Bool.and_false, Bool.false_and, Bool.false_eq_true, if_false]
    exact next_onDev ((if_pos hh).trans hin)

/-- REDIRECT (R192, R402). -/
theorem redirect_cases (source fromM toM epoch stroke : Nat) (s : State) (hs : source < 2 ^ 24) (hk : stroke < 2 ^ 64)
    (hf : fromM < 4096) (ht : toM < 4096) (hp : 4 ≤ s.dev.power.phase) :
    ((∀ r, tGet? s.dev.redirects fromM = some r → r.epoch < epoch) →
      ∃ d, exec (.redirect source fromM toM epoch stroke) s = .next (ends d s)
        ∧ tGet? d.redirects fromM = some { toModule := toM, epoch, graceEnd := if fromM = toM then none else some (s.dev.stk.number + 16) }
        ∧ (∀ m, m ≠ fromM → tGet? d.redirects m = tGet? s.dev.redirects m) ∧ d.mem = s.dev.mem)
    ∧ (∀ r, tGet? s.dev.redirects fromM = some r → epoch ≤ r.epoch →
      exec (.redirect source fromM toM epoch stroke) s = .next (ends s.dev s)) := by
  refine ⟨fun hn => ?_, fun r hr he => ?_⟩
  · exact ⟨_, next_onDev ((if_pos ⟨hs, hk⟩).trans (redirectIn_of_newer hf ht hp hn)), tGet?_tSet_self ..,
      fun m hm => tGet?_tSet_ne _ _ hm, rfl⟩
  · exact next_onDev ((if_pos ⟨hs, hk⟩).trans (redirectIn_of_older hr he))

/-- FLIT on a port that is UP and does not retrain (R173 to R177). -/
theorem flit_cases (p : Nat) (l : List Byte) (s : State) (hl : l.length = 64) (hu : (portOf s.dev p).up = true)
    (hr : (portOf s.dev p).retraining = false) (hc : fieldLe l 60 4 = (crc32 (l.take 60)).toNat)
    (hs : bitsOf (fieldLe l 56 4) 31 22 = (portOf s.dev p).expect) (hk : bitAt (fieldLe l 56 4) 11 = false) :
    let x := portOf s.dev p
    (bitsOf (fieldLe l 56 4) 10 8 = 0 →
      ∃ d, exec (.flit p l) s = .next (ends d s) ∧ (portOf d p).expect = x.expect ∧ (portOf d p).nakSent = false ∧ d.mem = s.dev.mem
        ∧ ((bitsOf (fieldLe l 56 4) 21 12 + 1024 - x.acked) % 1024 ≤ x.retry.length →
            (portOf d p).acked = bitsOf (fieldLe l 56 4) 21 12))
    ∧ (∀ vc, bitsOf (fieldLe l 56 4) 10 8 = vc → vc ≠ 0 → bitAt (fieldLe l 56 4) 7 = true → 56 < fieldLe (l.take 56) 2 2 →
      fieldLe (l.take 56) 2 2 ≤ 1064 → tGet? x.partials vc = none →
      ∃ d, exec (.flit p l) s = .next (ends d s) ∧ (portOf d p).expect = (x.expect + 1) % 1024
        ∧ tGet? (portOf d p).partials vc = some (l.take 56) ∧ d.mem = s.dev.mem) := by
  intro x
  have hin := flitIn_of_expected hl hu hr hc hs
  obtain ⟨hexp, hnak, hpart, hmem, hack⟩ := flitBack_of_no_nak (p := p) (d := s.dev) hk
  refine ⟨fun hv => ?_, fun vc hv hv0 hsop hlo hhi hnone => ?_⟩
  · rw [acceptFlit_of_idle hv] at hin
    have hview := linkView_linkPump (flitBack p l s.dev)
    exact ⟨_, flit_next hin, (expect_of_linkView hview p).trans hexp, (nakSent_of_linkView hview p).trans hnak,
      (mem_of_linkView hview).trans hmem, fun hfar => (acked_of_linkView hview p).trans (hack hfar)⟩
  · subst hv
    obtain ⟨hexp', hpart', hmem'⟩ := flitNext_spec p (bitsOf (fieldLe l 56 4) 10 8) (flitBack p l s.dev)
    rw [acceptFlit_of_payload hv0, hsop] at hin
    generalize flitNext p (bitsOf (fieldLe l 56 4) 10 8) (flitBack p l s.dev) = e at hin hexp' hpart' hmem'
    have hlen : (l.take 56).length = 56 := by rw [List.length_take, hl]; rfl
    have hfree : tGet? (portOf e p).partials (bitsOf (fieldLe l 56 4) 10 8) = none := by rw [hpart', hpart]; exact hnone
    rw [takePayload_of_first (s := { s with dev := e }) hfree hlo hhi hlen] at hin
    have hview := linkView_flitAnswer p (keepPartial p (bitsOf (fieldLe l 56 4) 10 8) (l.take 56) e)
    refine ⟨_, flit_next hin, ?_, ?_, ?_⟩
    · rw [expect_of_linkView hview, portOf_keepPartial, hexp', hexp]
    · rw [partials_of_linkView hview, portOf_keepPartial, tGet?_tSet_self]
    · rw [mem_of_linkView hview, keepPartial_mem, hmem', hmem]

/-- LINK_ACK_STALL and RETRAIN_FAIL (R174). -/
theorem linkAckStall_retrainFail (p : Nat) (s : State) :
    let x := portOf s.dev p
    (x.up = true → x.retraining = false → x.retry ≠ [] →
      ∃ d, exec (.linkAckStall p) s = .next (ends d s) ∧ portOf d p = { x with retraining := true, naks := 0 } ∧ d.mem = s.dev.mem)
    ∧ ((x.up = false ∨ x.retraining = true ∨ x.retry = []) → exec (.linkAckStall p) s = .next (ends s.dev s))
    ∧ (x.retraining = true → ∃ d, exec (.retrainFail p) s = .next (ends d s) ∧ d.mem = s.dev.mem
        ∧ portOf d p = { x with up := false, retraining := false, retry := [], partials := [] })
    ∧ (x.retraining = false → exec (.retrainFail p) s = .next (ends s.dev s)) := by
  dsimp only
  refine ⟨fun hu hr hq => ?_, fun h => ?_, fun hr => ?_, fun hr => ?_⟩
  · have hstall : ackStall p s.dev = startRetrain p s.dev := by
      simp only [ackStall, hu, hr, List.isEmpty_eq_false_iff.mpr hq, Bool.not_false, Bool.and_self, if_true]
    exact ⟨_, next_onDev hstall, startRetrain_spec p s.dev⟩
  · have hstall : ackStall p s.dev = s.dev := by
      refine if_neg ?_
      rcases h with h | h | h <;> simp [h]
    exact next_onDev hstall
  · obtain ⟨hport, hmem⟩ := portDown_spec p s.dev
    exact ⟨_, next_onDev (if_pos hr), hmem, hport⟩
  · exact next_onDev (if_neg (Bool.eq_false_iff.mp hr))

/-- Settles O55: each row of the sync words, the redirects and the link layer, by what it sends and what it leaves. -/
theorem linkLayerAndSync : Obligations.LinkLayerAndSync := by
  unfold Obligations.LinkLayerAndSync
  refine ⟨fun s => ⟨fun h => next_onDev (syncSend_of_early h), syncSend_sends, fun now h => next_onDev (if_pos h),
      fun now => delayReqSend_sends now, syncLoss_unlocks, fun h => next_onDev (syncLoss_of_heard h)⟩,
    fun p s ht hb => ?_, delayReq_delayRsp, portHello_cases, redirect_cases, fun m r n s hm hg => ⟨fun hn => ?_, fun hn hf => ?_⟩,
    fun p l s => ⟨fun h => ?_, fun hl hu hr => ⟨fun hc => ?_, fun hc hs => ?_, ?_, ?_⟩⟩, fun p d => sendNak_of_sent, fun p s => ?_⟩
  · obtain ⟨hreserved, hown, hinvalid⟩ := sync_cases p s ht hb
    exact ⟨hreserved, hown, fun hr ho hp => ⟨hinvalid hr ho hp, sync_of_unfollowed ht hb hr ho hp,
      fun hv hm hn hf => ⟨sync_of_other_stroke ht hb hr ho hp hv hm hn hf, sync_of_stroke ht hb hr ho hp hv hm hn hf⟩⟩⟩
  · exact next_onDev (graceEnd_of_early hm hg hn)
  · exact ⟨_, next_onDev rfl, graceEnd_spec hm hg hn hf⟩
  · exact flit_next (flitIn_of_closed h)
  · exact flit_next (flitIn_of_bad_crc hl hu hr hc)
  · exact flit_next (flitIn_of_bad_seq hl hu hr hc hs)
  · exact fun hc hs hv hk => (flit_cases p l s hl hu hr hc hs hk).1 hv
  · exact fun vc hc hs hv hv0 hk => (flit_cases p l s hl hu hr hc hs hk).2 vc hv hv0
  · obtain ⟨hstall, hidle, hfail, hkept⟩ := linkAckStall_retrainFail p s
    refine ⟨hstall, hidle, hfail, hkept, fun hph hp hi => ⟨fun hr => ?_, fun hr hu => ?_, fun h => ?_⟩⟩
    · exact ⟨_, next_onDev rfl, portTrainEnd_resends hph hp hi hr⟩
    · exact ⟨_, next_onDev rfl, portTrainEnd_comes_up hph hp hi hr hu⟩
    · exact ⟨_, next_onDev rfl, portTrainEnd_stays_down hph hp hi h⟩

end Sys2Proof.Machine
end

section
/-! Long operations (R58 to R64). -/

namespace Sys2Proof.Machine

/-! ### The free index -/

theorem leastBy_eq_none {α : Type} {key : α → Nat} {l : List α} (h : leastBy key l = none) : l = [] := by
  cases l with
  | nil => rfl
  | cons a l =>
    unfold leastBy at h
    split at h
    · cases h
    · split at h <;> cases h

/-- The least of a list by a key is one of the list, and none of the list has a smaller key. -/
theorem leastBy_spec {α : Type} {key : α → Nat} {l : List α} {x : α} (h : leastBy key l = some x) :
    x ∈ l ∧ ∀ y ∈ l, key x ≤ key y := by
  induction l generalizing x with
  | nil => cases h
  | cons a l ih =>
    cases hl : leastBy key l with
    | none =>
      simp only [leastBy, hl, Option.some.injEq] at h
      subst h
      rw [leastBy_eq_none hl]
      exact ⟨List.mem_cons_self, fun y hy => (congrArg key (List.mem_singleton.mp hy)).ge⟩
    | some y =>
      obtain ⟨hy, hmin⟩ := ih hl
      simp only [leastBy, hl] at h
      split at h <;> cases h
      · exact ⟨List.mem_cons_of_mem _ hy, List.forall_mem_cons.mpr ⟨by omega, hmin⟩⟩
      · exact ⟨List.mem_cons_self, List.forall_mem_cons.mpr ⟨le_rfl, fun z hz => by have := hmin z hz; omega⟩⟩

/-- The index that a new operation takes has ENDED, and none that has ENDED has been free longer (R59). -/
theorem freeOp_spec {d : Dev} {i : Nat} (h : freeOp d = some i) :
    i < 4096 ∧ (opOf d i).state = 5 ∧ ∀ k < 4096, (opOf d k).state = 5 → (opOf d i).freedAt ≤ (opOf d k).freedAt := by
  have hmem (k : Nat) : k ∈ (List.range 4096).filter (fun i => (opOf d i).state == 5) ↔ k < 4096 ∧ (opOf d k).state = 5 := by
    simp only [List.mem_filter, List.mem_range, beq_iff_eq]
  obtain ⟨hi, hmin⟩ := leastBy_spec h
  obtain ⟨hlt, hended⟩ := (hmem i).mp hi
  refine ⟨hlt, hended, fun k hk he => ?_⟩
  have hkey : (opOf d i).freedAt * 4096 + i ≤ (opOf d k).freedAt * 4096 + k := hmin k ((hmem k).mpr ⟨hk, he⟩)
  omega

/-! ### The start, the end and the control of an operation -/

theorem startOp_of_free {q : QCmd} {l : LongOp} {d : Dev} {i : Nat} (h : freeOp d = some i) :
    let g := nextGen8 (opOf d i).gen
    startOp q l d = complete { q with reserved := q.reserved - (q.reserved - 1) } stOk [g * 2 ^ 24 + i] []
      (setOp i { l with gen := g, state := 1, crew := q.cmd.crew, opcode := q.opcode, since := d.stk.number,
                        q := { q with reserved := q.reserved - 1 } } d) := by
  intro g
  unfold startOp
  rw [h]
  rfl

theorem longopQueryBody_of_passes {q : QCmd} {d : Dev} (h : opCheck d q = none) :
    longopQueryBody q d = complete q stOk (opWords (opOf d (pNat q.cmd 0 4 % 4096))) [] d := by
  simp only [longopQueryBody, h]

theorem controlAct_of_passes {q : QCmd} {d : Dev} (hl : lengthCheck q.opcode q.cmd = none) (ho : opCheck d q = none) :
    let e := controlOp q.opcode (pNat q.cmd 0 4 % 4096) d
    controlAct q d = complete q stOk (opWords (opOf e (pNat q.cmd 0 4 % 4096))) [] e := by
  simp only [controlAct, hl, ho, Option.orElse_none]

/-- Step 7 with one command in hand, whose completion has room (Table 2-2). -/
theorem controlStep_of_one {q : QCmd} {d : Dev} (h : (heldCmds d).filter (fun q => isControl q.opcode && q.admitted) = [q])
    (hr : cqRoom d q = true) :
    controlStep d = controlAct (reserveCq q (takeHeld q d)).1 (reserveCq q (takeHeld q d)).2 := by
  simp only [controlStep, h, List.foldl_cons, List.foldl_nil, hr, if_true]

theorem opOf_of_some {d : Dev} {i : Nat} {l : LongOp} (h : tGet? d.longops i = some l) : opOf d i = l := by
  simp only [opOf, h, Option.getD_some]

theorem tGet?_modOp_self {d : Dev} {i : Nat} {l : LongOp} (h : tGet? d.longops i = some l) (f : LongOp → LongOp) :
    tGet? (modOp i f d).longops i = some (f l) := by
  simp only [modOp, tGet?_tMod, h, if_true, Option.map_some]

/-- What SUSPEND, RESUME and CANCEL do to an operation (Table 2-4). -/
theorem controlOp_spec {d : Dev} {i : Nat} {l : LongOp} (h : tGet? d.longops i = some l) :
    ((l.state = 2 ∨ l.state = 4) → tGet? (controlOp 0x602 i d).longops i = some { l with state := 3 })
    ∧ (l.state = 3 → tGet? (controlOp 0x603 i d).longops i = some { l with state := if l.committed then 4 else 2 })
    ∧ (l.state ≠ 5 → l.committed = false → controlOp 0x604 i d = endOp i stCancelled [] (undoOp i d)) := by
  refine ⟨fun hs => ?_, fun hs => ?_, fun hs hc => ?_⟩
  · have hop : controlOp 0x602 i d = modOp i (fun l => { l with state := 3 }) d := by
      simp only [controlOp, opOf_of_some h, if_true, hs]
    rw [hop, tGet?_modOp_self h]
  · have hop : controlOp 0x603 i d = modOp i (fun l => { l with state := if l.committed then 4 else 2 }) d := by
      simp [controlOp, opOf_of_some h, hs]
    rw [hop, tGet?_modOp_self h]
  · simp [controlOp, opOf_of_some h, hs, hc]

/-- Settles O19: the start and the end of a long operation, its query, and what step 7 does of its control. -/
theorem longOperations : Obligations.LongOperations := by
  unfold Obligations.LongOperations
  refine ⟨⟨fun q l i d h => ⟨startOp_of_free h, freeOp_spec h⟩, fun i st words d h => if_neg h, fun i st words d h => if_pos h⟩,
    fun c s q t hb hc => ?_, fun c s q t hb => ?_, fun c s q t hb => ?_, fun c s q t hb => ?_, fun q d h hr => ?_,
    fun q d hl ho => ?_, fun i l d h => controlOp_spec h⟩
  · exact next_ends_of_begins hb (longopQueryBody_of_passes hc)
  · exact next_ends_of_begins hb (body := controlBody) rfl
  · exact next_ends_of_begins hb (body := controlBody) rfl
  · exact next_ends_of_begins hb (body := controlBody) rfl
  · exact controlStep_of_one h hr
  · exact controlAct_of_passes hl ho

end Sys2Proof.Machine
end

section
/-! What the home answers a fabric request (R181, R182), and a read that nothing stands in the way of. -/

namespace Sys2Proof.Machine

/-- A view of the device that both branches give is the view of the choice. -/
theorem view_ite {β : Type} (g : Dev → β) {c : Prop} [Decidable c] {x y : Dev} {b : β} (hx : g x = b) (hy : g y = b) :
    g (if c then x else y) = b := by
  split <;> assumption

/-! ### Answers to fabric requests -/

/-- The device without what an answer to a fabric request changes: the free values drawn, what leaves on the fabric, and the table of
outstanding requests. -/
def Dev.offAnswer (d : Dev) : Dev := { d with draws := 0, fabTx := [], outstanding := [] }

@[simp] theorem offAnswer_sendPkt (k : OutPkt) (d : Dev) : (sendPkt k d).offAnswer = d.offAnswer := by
  rw [sendPkt_eq]
  rfl

@[simp] theorem offAnswer_sendRsp (kind dest tag tagGen st g r : Nat) (data : List Byte) (d : Dev) :
    (sendRsp kind dest tag tagGen st g r data d).offAnswer = d.offAnswer := offAnswer_sendPkt ..

theorem mem_fabTx_sendPkt {x : OutPkt} {d : Dev} (k : OutPkt) (h : x ∈ d.fabTx) : x ∈ (sendPkt k d).fabTx := by
  unfold sendPkt
  split
  · exact h
  · exact List.mem_append_left _ h

/-- A response sent outside the fatal state answers its request. -/
theorem answered_sendRsp {d : Dev} (hf : d.flt.fatal = false) (p : Req) (kind st : Nat) (data : List Byte) :
    Answered d (sendRsp kind p.source p.tag p.tagGen st 0 0 data d) p kind st data := by
  have hsend (k : OutPkt) : k ∈ (sendPkt k (fabLoad d).2).fabTx := by
    have hf' : ¬((fabLoad d).2.flt.fatal = true ∧ k.kind < 0x81) := fun h => Bool.false_ne_true (hf.symm.trans h.1)
    unfold sendPkt
    rw [if_neg hf']
    exact List.mem_append_right _ List.mem_cons_self
  exact ⟨_, hsend _, rfl, rfl, rfl, rfl, rfl, rfl, rfl⟩

/-- A request's entry in the table of outstanding requests closed. -/
def closeOutstanding (p : Req) (d : Dev) : Dev :=
  { d with outstanding := d.outstanding.filter fun o => !(o.requester == p.source && o.tag == p.tag && o.tagGen == p.tagGen) }

/-- DONE sent to the entry module that relayed a request. -/
def sendDone (p : Req) (d : Dev) : Dev :=
  if bitAt p.entry 15 then
    sendPkt { kind := 0x2A, dest := unitId (p.entry % 4096) 0, source := unitId (ownModule d) 0, tag := p.tag,
              tagGen := p.tagGen, body := toLe 3 p.source ++ zeros 5 } d
  else d

@[simp] theorem offAnswer_sendDone (p : Req) (d : Dev) : (sendDone p d).offAnswer = d.offAnswer := by
  unfold sendDone
  split
  · exact offAnswer_sendPkt ..
  · rfl

theorem Answered.sendDone {d e : Dev} {p : Req} {kind st : Nat} {data : List Byte} (h : Answered d e p kind st data) (q : Req) :
    Answered d (sendDone q e) p kind st data := by
  obtain ⟨k, hk, hs⟩ := h
  refine ⟨k, ?_, hs⟩
  unfold Machine.sendDone
  split
  · exact mem_fabTx_sendPkt _ hk
  · exact hk

/-- The status of an answer: OK_THROTTLED for one that a byte limit delayed and that is otherwise OK (R184). -/
def answerStatus (ps : List Part) (throttled : Bool) : Nat :=
  if partsStatus ps = stOk ∧ throttled then stOkThrottled else partsStatus ps

/-- An answer changes nothing beyond what `Dev.offAnswer` leaves out. -/
theorem offAnswer_answerFabric (p : Req) (ps : List Part) (throttled : Bool) (d : Dev) :
    (answerFabric p ps throttled d).offAnswer = d.offAnswer := by
  unfold answerFabric
  refine (offAnswer_sendDone p _).trans ?_
  refine view_ite _ ?_ (view_ite _ ?_ (view_ite _ ?_ ?_)) <;> exact offAnswer_sendRsp ..

theorem slice_whole {l : List Byte} {n : Nat} (h : l.length = n) : slice l 0 n = l := by
  subst h
  refine List.ext_getElem (by simp [slice]) fun i _ hi => ?_
  simp [slice, List.getD_eq_getElem?_getD, hi]

theorem overlay_whole {old new : List Byte} (h : old.length = new.length) : overlay old 0 new = new := by
  refine List.ext_getElem (by simp [overlay, h]) fun i _ hi => ?_
  simp [overlay, List.getD_eq_getElem?_getD, hi]

/-- The bytes of an access of one part are those of the part. -/
theorem gatherBytes_of_one {x : Part} {n : Nat} (h : (x.done && stSuccess x.status) = true) (hoff : x.off = 0)
    (hdata : x.data.length = n) (hlen : x.len = n) : gatherBytes n [x] = x.data := by
  simp only [gatherBytes, List.foldl_cons, List.foldl_nil, h, if_true, hoff, hlen, slice_whole hdata]
  exact overlay_whole (List.length_replicate.trans hdata.symm)

/-- A read of one part that has been performed is answered with its bytes. -/
theorem answered_read {p : Req} {x : Part} {d : Dev} (hv : p.vc = 1) (hf : d.flt.fatal = false) (hx : x.state = .ended stOk)
    (ha : x.act = .read) (hoff : x.off = 0) (hlen : x.len = p.size) (hdata : x.data.length = x.len) (throttled : Bool) :
    Answered d (answerFabric p [x] throttled d) p 0x22 (if throttled then stOkThrottled else stOk) x.data := by
  have hany : ([x].any fun x => x.done && stSuccess x.status) = true := by
    simp [Part.done, Part.status, hx, stSuccess, stOk]
  have hread : ([x].any fun x => x.act == .read) = true := by simp [ha]
  have hst : answerStatus [x] throttled = if throttled then stOkThrottled else stOk := by
    simp [answerStatus, partsStatus, firstBad, Part.done, Part.status, hx, stSuccess, stOk, stOkPartial, stOkThrottled]
  have hbytes : gatherBytes p.size [x] = x.data := gatherBytes_of_one (by simp [Part.done, Part.status, hx, stSuccess, stOk]) hoff
    (hdata.trans hlen) hlen
  have hans : answerFabric p [x] throttled d = sendDone p (sendRsp 0x22 p.source p.tag p.tagGen
      (answerStatus [x] throttled) 0 0 (gatherBytes p.size [x]) (closeOutstanding p d)) :=
    congrArg (sendDone p) ((if_neg (by omega)).trans (if_pos ⟨hread, hany⟩))
  rw [hans, hst, hbytes]
  exact Answered.sendDone (answered_sendRsp (d := closeOutstanding p d) hf p 0x22 _ _) p

/-- A write of one part that has failed is answered with its status. -/
theorem answered_write {p : Req} {x : Part} {st : Nat} {d : Dev} (hv : p.vc = 1) (hf : d.flt.fatal = false)
    (hx : x.state = .ended st) (ha : x.act = .write) (hst : stSuccess st = false) (throttled : Bool) :
    Answered d (answerFabric p [x] throttled d) p 0x21 st [] := by
  have hread : ¬(([x].any fun x => x.act == .read) = true ∧ ([x].any fun x => x.done && stSuccess x.status) = true) := by simp [ha]
  have hatom : ¬(x.act.right == 2) = true := by simp [ha, Act.right]
  have hok : st ≠ stOk := by
    rintro rfl
    exact Bool.false_ne_true (hst.symm.trans rfl)
  have hs : answerStatus [x] throttled = st := by
    simp [answerStatus, partsStatus, firstBad, Part.status, hx, hst, hok]
  have hans : answerFabric p [x] throttled d = sendDone p (sendRsp 0x21 p.source p.tag p.tagGen
      (answerStatus [x] throttled) 0 0 [] (closeOutstanding p d)) :=
    congrArg (sendDone p) ((if_neg (by omega)).trans ((if_neg hread).trans (if_neg hatom)))
  rw [hans, hs]
  exact Answered.sendDone (answered_sendRsp (d := closeOutstanding p d) hf p 0x21 _ _) p

end Sys2Proof.Machine
end

section
/-! Waits that end, and a parked read resumed (R54 to R57). -/

namespace Sys2Proof.Machine

/-! ### A read that nothing stands in the way of -/

theorem countAccess_eq (a : Nat) (d : Dev) : countAccess a d = { d with counters := (countAccess a d).counters } := by
  unfold countAccess
  split
  · rfl
  · split <;> rfl

section Plain
variable {d : Dev} {p : Part} (h : Plain d p.addr p.key)
include h

theorem keyCheck_of_plain : keyCheck p d = (none, d) := by
  obtain ⟨-, hsp, ⟨r, hr, hkey, hstate, hlost, -⟩, -⟩ := h
  simp [keyCheck, hsp, hr, hkey, hstate, hlost]

theorem dirCheck_of_plain (jid : Nat) : dirCheck jid p d = (none, d) := by
  obtain ⟨-, -, -, -, hdir, hsweep, hpend, -⟩ := h
  have hs : sweepLine (lineOf p.addr) d = d := by
    have hfind : (d.agents.find? fun a => a.2.sweep.contains (lineOf p.addr)) = none :=
      List.find?_eq_none.mpr fun a ha => by simpa using hsweep a ha
    unfold sweepLine
    rw [hfind]
  have hd : dirOf d (lineOf p.addr) = {} := by simp only [dirOf, hdir, Option.getD_none]
  have hy (me : Option Nat) : yields d (lineOf p.addr) me = false :=
    List.any_eq_false.mpr fun w hw => by simp [hpend w hw]
  simp [dirCheck, hs, hd, hy, transient]

theorem performPart_of_plain (jid : Nat) (r : Req) (last : Bool) (ha : p.act = .read) :
    performPart jid (.fabric r) last p d = ({ p.fin stOk with data := memRead d.mem p.addr p.len }, countAccess p.addr d) := by
  obtain ⟨-, -, -, -, -, -, -, hpoison, hmirror⟩ := h
  have heq := countAccess_eq p.addr d
  have hp : isPoisoned (countAccess p.addr d) (lineOf p.addr) = false := by rw [heq]; exact hpoison
  have hm : mirrorOf (countAccess p.addr d) (lineOf p.addr) = none := by rw [heq]; exact hmirror
  have hmem : (countAccess p.addr d).mem = d.mem := by rw [heq]
  simp [performPart, hp, hm, ha, hmem]

/-- A plain read is performed at its home: its bytes are those of memory, its access is counted, and its line is waited for no
longer. -/
theorem homeTry_of_plain (jid : Nat) (r : Req) (last : Bool) (ha : p.act = .read) :
    homeTry jid (.fabric r) last p d = ({ p.fin stOk with admitted := true, data := memRead d.mem p.addr p.len },
      countAccess p.addr (leaveLine jid (lineOf p.addr) d)) := by
  have hk : (if p.admitted then ((none : Option Nat), d) else keyCheck p d) = (none, d) := by
    rw [keyCheck_of_plain h, ite_self]
  have hplain : Plain (leaveLine jid (lineOf p.addr) d) p.addr p.key := by
    obtain ⟨hhome, hsp, hreg, hrow, hdir, hsweep, hpend, hpoison, hmirror⟩ := h
    exact ⟨hhome, hsp, hreg, hrow, hdir, hsweep, fun w hw => hpend w (List.mem_of_mem_filter hw), hpoison, hmirror⟩
  have hdirc : dirCheck jid { p with admitted := true } d = (none, d) := dirCheck_of_plain (p := { p with admitted := true }) h jid
  have hperf := performPart_of_plain (p := { p with admitted := true }) hplain jid r last ha
  obtain ⟨-, hsp, ⟨g, hg, -, -, -, hpaired, hprot, hsealed⟩, -⟩ := h
  have hact : (p.act ≠ .read) = False := by simp [ha]
  have hgo : homeTry jid (.fabric r) last p d = performPart jid (.fabric r) last { p with admitted := true }
      (leaveLine jid (lineOf p.addr) d) := by
    simp [homeTry, hk, hsp, hg, hpaired, hprot, hsealed, hact, hdirc]
  exact hgo.trans hperf

end Plain

/-- An answer is the same one counted from any device with the same module number. -/
theorem Answered.of_cfg {d d' e : Dev} {p : Req} {kind st : Nat} {data : List Byte} (h : Answered d e p kind st data)
    (hc : d.cfg = d'.cfg) : Answered d' e p kind st data := by
  obtain ⟨k, hk, hkind, hdest, hsource, hrest⟩ := h
  exact ⟨k, hk, hkind, hdest, hsource.trans (congrArg (fun c : Cfg => unitId c.module 0) hc), hrest⟩

/-! ### Jobs of one part -/

theorem runControl_of_no_jobs {d : Dev} (h : d.jobs = []) : runControl d = d := by
  simp only [runControl, h, List.filter_nil, List.foldl_nil]

theorem tryParts_of_ended {jid : Nat} {o : Owner} {r n k : Nat} {p : Part} {d : Dev} {st : Nat} (h : p.state = .ended st) :
    tryParts jid o r n k [p] d = ([p], d) := by
  simp [tryParts, h]

/-- A read part that its home has performed, with the bytes of memory. -/
def Part.readFrom (d : Dev) (p : Part) : Part :=
  { p.fin stOk with since := if p.since = 0 then d.stk.number else p.since, admitted := true, data := memRead d.mem p.addr p.len }

theorem tryParts_of_plain {jid : Nat} {q : Req} {r n k : Nat} {p : Part} {d : Dev} (h : Plain d p.addr p.key) (hs : p.state = .todo)
    (ha : p.act = .read) :
    tryParts jid (.fabric q) r n k [p] d = ([p.readFrom d], countAccess p.addr (leaveLine jid (lineOf p.addr) d)) := by
  have htry := homeTry_of_plain (p := { p with since := if p.since = 0 then d.stk.number else p.since }) h jid q (k + 1 == n) ha
  cases p
  cases hs
  simp only [tryParts, h.1, if_true]
  rw [htry]
  rfl

/-- A fabric request all of whose parts end when they are tried is answered, and its job is gone. -/
theorem runJob_of_done {jid : Nat} {j : Job} {q : Req} {ps : List Part} {d e : Dev} (hj : tGet? d.jobs jid = some j)
    (ho : j.owner = .fabric q)
    (ht : tryParts jid (if j.goal = .retry then .device else j.owner) j.requester j.parts.length 0 j.parts d = (ps, e))
    (hd : ps.all Part.done = true) : runJob jid d = answerFabric q ps j.throttled (dropJob jid e) := by
  unfold runJob runJobFuel
  rw [hj]
  dsimp only
  rw [ht]
  simp only [hd, if_true, finishJob, ho]

theorem jobs_answerFabric (p : Req) (ps : List Part) (throttled : Bool) (d : Dev) : (answerFabric p ps throttled d).jobs = d.jobs :=
  (congrArg Dev.jobs (offAnswer_answerFabric p ps throttled d) :)

theorem mem_answerFabric (p : Req) (ps : List Part) (throttled : Bool) (d : Dev) : (answerFabric p ps throttled d).mem = d.mem :=
  (congrArg Dev.mem (offAnswer_answerFabric p ps throttled d) :)

theorem retry_answerFabric (p : Req) (ps : List Part) (throttled : Bool) (d : Dev) : (answerFabric p ps throttled d).retry = d.retry :=
  (congrArg Dev.retry (offAnswer_answerFabric p ps throttled d) :)

/-- The only job of a device dropped leaves none. -/
theorem jobs_dropJob_only {jid : Nat} {j : Job} {d : Dev} (h : d.jobs = [(jid, j)]) : (dropJob jid d).jobs = [] := by
  simp [dropJob, tDel, h]

theorem jobs_setJob_only {jid : Nat} {j k : Job} {d : Dev} (h : d.jobs = [(jid, j)]) : (setJob jid k d).jobs = [(jid, k)] := by
  simp [setJob, tSet, h]

/-! ### Deadlines -/

theorem endOverdue_of_none {dense : Bool} {jid : Nat} {d : Dev} (h : tGet? d.jobs jid = none) : endOverdue dense jid d = d := by
  simp only [endOverdue, h]

theorem endOverdue_of_not_due {dense : Bool} {jid : Nat} {j : Job} {d : Dev} (hj : tGet? d.jobs jid = some j)
    (h : ∀ x ∈ j.parts, x.overdue d dense = false) : endOverdue dense jid d = d := by
  have hdue : j.parts.filter (·.overdue d dense) = [] := List.filter_eq_nil_iff.mpr fun x hx => by simp [h x hx]
  simp only [endOverdue, hj, hdue, List.isEmpty_nil, if_true]

/-- A fabric write that is the only job and is overdue is answered with TIMEOUT (R55, R57). -/
theorem endOverdue_of_write {dense : Bool} {jid : Nat} {j : Job} {p : Req} {x : Part} {d : Dev} (hjobs : d.jobs = [(jid, j)])
    (ho : j.owner = .fabric p) (hparts : j.parts = [x]) (ha : x.act = .write) (hdue : x.overdue d dense = true) (hv : p.vc = 1)
    (hf : d.flt.fatal = false) :
    Answered d (endOverdue dense jid d) p 0x21 stTimeout [] ∧ (endOverdue dense jid d).jobs = []
      ∧ (endOverdue dense jid d).mem = d.mem := by
  have hj : tGet? d.jobs jid = some j := by simp [hjobs, tGet?]
  have hend : endOverdue dense jid d = runControl (runJob jid (setJob jid { j with parts := [x.fin stTimeout] }
      (leaveLine jid (lineOf x.addr) d))) := by
    simp [endOverdue, hj, hparts, hdue]
  have hjobs' := jobs_setJob_only (k := { j with parts := [x.fin stTimeout] }) (d := leaveLine jid (lineOf x.addr) d) hjobs
  have hrun := runJob_of_done (jid := jid) (j := { j with parts := [x.fin stTimeout] })
    (by rw [hjobs']; simp [tGet?]) ho (tryParts_of_ended rfl) rfl
  have hgone := jobs_dropJob_only hjobs'
  rw [hend, hrun, runControl_of_no_jobs ((jobs_answerFabric ..).trans hgone)]
  generalize he : setJob jid { j with parts := [x.fin stTimeout] } (leaveLine jid (lineOf x.addr) d) = e at hgone ⊢
  have hcfg : e.cfg = d.cfg := by subst he; rfl
  have hfatal : (dropJob jid e).flt.fatal = false := by subst he; exact hf
  have hmem : e.mem = d.mem := by subst he; rfl
  have hans := answered_write (x := x.fin stTimeout) (d := dropJob jid e) hv hfatal rfl ha rfl j.throttled
  exact ⟨Answered.of_cfg hans hcfg, (jobs_answerFabric ..).trans hgone,
    (mem_answerFabric ..).trans hmem⟩

/-- A job that no fault slot holds and that is not the device's own meets only the deadlines of its parts (R57). -/
theorem waitDeadline_of_parts {jid : Nat} {j : Job} {d : Dev} (hj : tGet? d.jobs jid = some j) (hs : j.slot = none)
    (ho : j.owner ≠ .device) : waitDeadline jid d = endOverdue false jid d := by
  have hr : repairOverdue d j = none := by
    refine List.findSome?_eq_none_iff.mpr fun p _ => ?_
    split
    · exact if_neg fun h => ho h.1
    · rfl
  simp only [waitDeadline, hj, hr, hs, Option.isSome_none, Bool.false_eq_true, if_false]

/-- WAIT_DEADLINE and PARK_TIMEOUT of a job that no fault slot holds: one row by the deadline that it judges (R55, R57). -/
theorem exec_deadline {i : Instr} {dense : Bool} {job : Nat}
    (h : i = .waitDeadline job ∧ dense = false ∨ i = .parkTimeout job ∧ dense = true)
    (s : State) : (tGet? s.dev.jobs job = none ∨ ∃ j, tGet? s.dev.jobs job = some j ∧ j.slot = none ∧ j.owner ≠ .device) →
      exec i s = .next (ends (endOverdue dense job s.dev) s) := by
  intro hjob
  rcases h with ⟨rfl, rfl⟩ | ⟨rfl, rfl⟩
  · refine next_onDev ?_
    rcases hjob with hn | ⟨j, hj, hs, ho⟩
    · simp only [waitDeadline, endOverdue, hn]
    · exact waitDeadline_of_parts hj hs ho
  · exact next_onDev rfl

/-! ### A parked read resumed -/

/-- A job that waits for nothing is not changed by what has become stable. -/
theorem wakeStable_of_todo {jid : Nat} {j : Job} {x : Part} {d : Dev} (hjobs : d.jobs = [(jid, j)]) (hparts : j.parts = [x])
    (hx : x.state = .todo) : wakeStable d = d := by
  have hw : x.wakes d = false := by simp [Part.wakes, Part.waitsFor, hx]
  have hmap : (tMap d.jobs fun _ j => if j.parts.any (·.wakes d) then
      { j with ready := true, parts := j.parts.map fun p => if p.wakes d then { p with state := .todo } else p } else j) = d.jobs := by
    simp [hjobs, tMap, hparts, hw]
  unfold wakeStable
  rw [hmap]

theorem resumeJob_of_ready {jid : Nat} {j : Job} {d : Dev} (hj : tGet? d.jobs jid = some j) (hs : j.slot = none)
    (hr : j.ready = true) : resumeJob jid d = runControl (runJob jid d) := by
  simp only [resumeJob, hj, hr, hs, Option.isNone_none, Bool.and_self, if_true]

/-- A parked read whose data has arrived is performed and answered with the bytes (R54). -/
theorem parkedResume_of_plain {jid : Nat} {j : Job} {p : Req} {x : Part} {s : State} (hjobs : s.dev.jobs = [(jid, j)])
    (ho : j.owner = .fabric p) (hs : j.slot = none) (hr : j.ready = true) (hparts : j.parts = [x]) (hx : x.state = .todo)
    (ha : x.act = .read) (hoff : x.off = 0) (hlen : x.len = p.size) (hplain : Plain s.dev x.addr x.key) (hv : p.vc = 1)
    (hf : s.dev.flt.fatal = false) (hretry : s.dev.retry = []) (hgoal : j.goal = .respond) :
    ∃ d, parkedResume jid s = { s with dev := d } ∧ d.jobs = [] ∧ d.mem = s.dev.mem
      ∧ Answered s.dev d p 0x22 (if j.throttled then stOkThrottled else stOk) (memRead s.dev.mem x.addr x.len) := by
  have hj : tGet? s.dev.jobs jid = some j := by simp [hjobs, tGet?]
  have htry : tryParts jid (if j.goal = .retry then .device else j.owner) j.requester j.parts.length 0 j.parts s.dev
      = ([x.readFrom s.dev], countAccess x.addr (leaveLine jid (lineOf x.addr) s.dev)) := by
    rw [hgoal, if_neg (by simp), ho, hparts]
    exact tryParts_of_plain hplain hx ha
  have hrun := runJob_of_done hj ho htry rfl
  have hcount := countAccess_eq x.addr (leaveLine jid (lineOf x.addr) s.dev)
  generalize countAccess x.addr (leaveLine jid (lineOf x.addr) s.dev) = d at hrun hcount
  have hjobs' : d.jobs = [(jid, j)] := by rw [hcount]; exact hjobs
  have hmem : d.mem = s.dev.mem := by rw [hcount]; rfl
  have hcfg : d.cfg = s.dev.cfg := by rw [hcount]; rfl
  have hfatal : d.flt.fatal = false := by rw [hcount]; exact hf
  have hretry' : (answerFabric p [x.readFrom s.dev] j.throttled (dropJob jid d)).retry = [] := by
    rw [retry_answerFabric]
    exact (by rw [hcount]; exact hretry : d.retry = [])
  have hgone := (jobs_answerFabric p [x.readFrom s.dev] j.throttled _).trans (jobs_dropJob_only hjobs')
  have hans := answered_read (p := p) (x := x.readFrom s.dev) (d := dropJob jid d) hv hfatal rfl ha hoff hlen
    (by simp [Part.readFrom, Part.fin, memRead]) j.throttled
  have hres : resumeJob jid (wakeStable s.dev) = answerFabric p [x.readFrom s.dev] j.throttled (dropJob jid d) := by
    rw [wakeStable_of_todo hjobs hparts hx, resumeJob_of_ready hj hs hr, hrun, runControl_of_no_jobs hgone]
  refine ⟨tidy (answerFabric p [x.readFrom s.dev] j.throttled (dropJob jid d)), ?_, hgone, (mem_answerFabric ..).trans hmem,
    Answered.of_cfg hans hcfg⟩
  simp only [parkedResume, hres, hretry', List.find?_nil]

end Sys2Proof.Machine
end

section
/-! Items abandoned and clusters woken (R56, R430). -/

namespace Sys2Proof.Machine

/-! ### Items -/

theorem itemAbandon_of_early {id : Nat} {x : Item} {d : Dev} (h : tGet? d.items id = some x) (hc : x.cuts < 15) :
    itemAbandon id d = d := by
  simp only [itemAbandon, h, hc, if_true]

/-- The work of a command that has no slot, row move or search of its own fails with its completion alone. -/
theorem failWork_of_plain {st n : Nat} {q : QCmd} {d : Dev} (h : q.opcode ∉ [0x301, 0x302, 0x402, 0x501]) :
    failWork st n q d = completeSt q st d := by
  simp only [List.mem_cons, List.not_mem_nil, or_false, not_or] at h
  obtain ⟨hexpert, hattn, hpublish, hsearch⟩ := h
  unfold failWork
  split
  · exact absurd ‹_› hexpert
  · exact absurd ‹_› hattn
  · exact absurd ‹_› hpublish
  · exact absurd ‹_› hsearch
  · rfl

/-- The device of an item cut for the sixteenth time: the cut is counted, and the item is gone. -/
def itemGone (id : Nat) (x : Item) (d : Dev) : Dev :=
  let d := bumpReg (0x31008 + 0x40 * x.crew) 63 0 1 (bumpReg 0x10038 63 0 1 d)
  { d with items := tDel d.items id }

/-- The sixteenth cut of a command's item ends the command with TIMEOUT and a corrected fault (R56). -/
theorem itemAbandon_of_late {id : Nat} {x : Item} {q : QCmd} {d : Dev} (h : tGet? d.items id = some x) (hc : 15 ≤ x.cuts)
    (hk : x.kind = .command q) (hop : q.opcode ∉ [0x301, 0x302, 0x402, 0x501]) :
    itemAbandon id d = faultCE 0x0C 0 x.crew (complete q stTimeout [] [] (itemGone id x d)) := by
  have hcmds : x.cmds = [q] := by simp only [Item.cmds, hk]
  simp only [itemAbandon, h, Nat.not_lt.mpr hc, if_false, cutItem, ge_iff_le, Nat.succ_le_succ hc, if_true, abandonItem, hcmds,
    List.foldl_cons, List.foldl_nil, failWork_of_plain hop]
  rfl

/-! ### Clusters -/

theorem bitAt_eq_testBit (n i : Nat) : bitAt n i = n.testBit i := by
  rw [Nat.testBit_eq_decide_div_mod_eq]
  rfl

/-- A bit that is set taken from a number clears that bit alone. -/
theorem bitAt_sub_two_pow {n k : Nat} (h : bitAt n k = true) (i : Nat) : bitAt (n - 2 ^ k) i = (bitAt n i && i != k) := by
  have hodd : n / 2 ^ k % 2 = 1 := beq_iff_eq.mp h
  obtain ⟨m, hm⟩ : ∃ m, n / 2 ^ k = 2 * m + 1 := ⟨n / 2 ^ k / 2, by omega⟩
  have hr := Nat.mod_lt n (Nat.two_pow_pos k)
  have hn : n = 2 ^ k * (2 * m + 1) + n % 2 ^ k := by rw [← hm, Nat.div_add_mod]
  have hs : n - 2 ^ k = 2 ^ k * (2 * m) + n % 2 ^ k := by
    rw [Nat.mul_add, Nat.mul_one] at hn
    omega
  rw [bitAt_eq_testBit, bitAt_eq_testBit, hs]
  conv_rhs => rw [hn]
  rw [Nat.testBit_two_pow_mul_add _ hr, Nat.testBit_two_pow_mul_add _ hr]
  split
  next hlt => rw [bne_iff_ne.mpr hlt.ne, Bool.and_true]
  next hge =>
    obtain ⟨j, rfl⟩ := Nat.exists_eq_add_of_le (Nat.le_of_not_lt hge)
    cases j with
    | zero => simp
    | succ j => simp [Nat.testBit_succ, show (2 * m + 1) / 2 = m by omega]

/-- A sleeping cluster outside standby wakes: its bit is cleared, the wake is counted, and its WAKE source pulses (R430). -/
theorem clusterWake_of_asleep {k : Nat} {d : Dev} (hk : k < 16) (ha : bitAt d.power.asleep k = true) (hm : d.power.mode ≠ 1) :
    clusterWake k d = pulse (32 * (10 + k) + 21)
      { d with power := { d.power with asleep := d.power.asleep - 2 ^ k, wakes := (d.power.wakes + 1) % 2 ^ 32 } } :=
  if_neg (by simp [isAsleep, ha, hm, Nat.not_le.mpr hk])

theorem clusterWake_of_awake {k : Nat} {d : Dev} (h : bitAt d.power.asleep k = false ∨ d.power.mode = 1) : clusterWake k d = d :=
  if_pos (h.elim (fun ha => by simp [isAsleep, ha]) fun hm => by simp [hm])

theorem power_pulse (n : Nat) (d : Dev) : (pulse n d).power = d.power := (congrArg Dev.power (offIcu_pulse n d) :)
theorem mem_pulse (n : Nat) (d : Dev) : (pulse n d).mem = d.mem := (congrArg Dev.mem (offIcu_pulse n d) :)

end Sys2Proof.Machine
end

section
/-! What the work of a stroke leaves of the stroke counter and the time of day. -/

namespace Sys2Proof.Machine

/-- What no work of a stroke changes where no crew exists: the stroke's number and time of day, the crews, the long operations and the
pair's state. -/
def Dev.clock (d : Dev) : Dev :=
  { stk := { number := d.stk.number, tod := d.stk.tod }, crews := d.crews, longops := d.longops, pair := { state := d.pair.state } }

theorem Dev.clock_of_offFault {d e : Dev} (h : e.offFault = d.offFault) : e.clock = d.clock := by
  have hc : e.offFault.clock = d.offFault.clock := by rw [h]
  exact hc

theorem Dev.clock_of_offDone {d e : Dev} (h : e.offDone = d.offDone) : e.clock = d.clock :=
  clock_of_offFault (offFault_of_offDone h)

theorem Dev.clock_of_offHome {d e : Dev} (h : e.offHome = d.offHome) : e.clock = d.clock :=
  clock_of_offDone (offDone_of_offHome h)

theorem Dev.clock_of_offIcu {d e : Dev} (h : e.offIcu = d.offIcu) : e.clock = d.clock :=
  clock_of_offFault (offFault_of_offIcu h)

theorem Dev.clock_of_offAnswer {d e : Dev} (h : e.offAnswer = d.offAnswer) : e.clock = d.clock := by
  have hc : e.offAnswer.clock = d.offAnswer.clock := by rw [h]
  exact hc

section Clock
variable {d e : Dev} (h : e.clock = d.clock)
include h

theorem number_of_clock : e.stk.number = d.stk.number := (congrArg (fun x : Dev => x.stk.number) h :)
theorem tod_of_clock : e.stk.tod = d.stk.tod := (congrArg (fun x : Dev => x.stk.tod) h :)
theorem crews_of_clock : e.crews = d.crews := (congrArg Dev.crews h :)
theorem longops_of_clock : e.longops = d.longops := (congrArg Dev.longops h :)
theorem pair_state_of_clock : e.pair.state = d.pair.state := (congrArg (fun x : Dev => x.pair.state) h :)

end Clock

@[simp] theorem clock_sendPkt (k : OutPkt) (d : Dev) : (sendPkt k d).clock = d.clock := Dev.clock_of_offHome (offHome_sendPkt ..)
@[simp] theorem clock_pulse (n : Nat) (d : Dev) : (pulse n d).clock = d.clock := Dev.clock_of_offIcu (offIcu_pulse ..)
@[simp] theorem clock_complete (q : QCmd) (st : Nat) (w : List Nat) (b : List Byte) (d : Dev) : (complete q st w b d).clock = d.clock :=
  Dev.clock_of_offDone (offDone_complete ..)

/-! ### Jobs -/

theorem offDone_looseData (ps : List Part) (d : Dev) : (looseData ps d).2.offDone = d.offDone := by
  induction ps generalizing d with
  | nil => rfl
  | cons p ps ih => exact ih (drawBytes p.len d).2

/-- What follows the end of a job's parts changes none of the clock. -/
theorem clock_finishJob (jid : Nat) (j : Job) (d : Dev) : (finishJob jid j d).2.clock = d.clock := by
  have hdrop : (dropJob jid d).clock = d.clock := rfl
  unfold finishJob
  split
  · exact (Dev.clock_of_offAnswer (offAnswer_answerFabric ..)).trans hdrop
  · exact hdrop
  · exact (clock_complete ..).trans hdrop
  · dsimp only
    split
    · exact (Dev.clock_of_offDone (offDone_looseData ..)).trans hdrop
    · exact hdrop
  · exact (clock_complete ..).trans hdrop
  · exact (clock_complete ..).trans hdrop
  · exact (clock_complete ..).trans hdrop
  · exact hdrop
  · exact hdrop
  · exact (clock_complete ..).trans hdrop

theorem clock_runJobFuel (fuel jid : Nat) (d : Dev) : (runJobFuel fuel jid d).clock = d.clock := by
  induction fuel generalizing d with
  | zero => rfl
  | succ fuel ih =>
    unfold runJobFuel
    split
    · rfl
    · rename_i j hj
      generalize (if j.goal = .retry then Owner.device else j.owner) = o
      have htry := Dev.clock_of_offHome (offHome_tryParts jid o j.requester j.parts.length 0 j.parts d)
      generalize tryParts jid o j.requester j.parts.length 0 j.parts d = x at htry ⊢
      obtain ⟨ps, e⟩ := x
      dsimp only at htry ⊢
      split
      · have hfin := (clock_finishJob jid { j with parts := ps, ready := false } e).trans htry
        split <;> rename_i heq <;> rw [heq] at hfin
        · exact hfin
        · exact (ih _).trans hfin
      · exact htry

theorem clock_runJob (jid : Nat) (d : Dev) : (runJob jid d).clock = d.clock := clock_runJobFuel ..

/-- Where no crew exists, no control key word opens a register, and the parts that reach for one fail. -/
theorem controlParts_of_no_crews {jid r : Nat} {ps : List Part} {d : Dev} (h : d.crews = []) : (controlParts jid r ps d).2 = d := by
  induction ps with
  | nil => rfl
  | cons p ps ih =>
    have hp : (if p.waitsFor (fun w => w == Wait.control) then controlPart jid r p d else (p, d)).2 = d := by
      split
      · simp [controlPart, h]
      · rfl
    unfold controlParts
    dsimp only
    rw [hp]
    exact ih

theorem clock_runControl {d : Dev} (h : d.crews = []) : (runControl d).clock = d.clock := by
  unfold runControl
  refine List.foldlRecOn (motive := fun e : Dev => e.clock = d.clock) _ _ rfl fun e he j _ => ?_
  have hcrews : e.crews = [] := (crews_of_clock he).trans h
  split
  · exact he
  · rename_i x _
    have hparts : (controlParts j.1 x.requester x.parts e).2.clock = d.clock := by rw [controlParts_of_no_crews hcrews, he]
    exact (clock_runJob ..).trans hparts

/-! ### What drains -/

theorem clock_windowDeleteEnd (w : Nat) (d : Dev) : (windowDeleteEnd w d).clock = d.clock := by
  unfold windowDeleteEnd
  dsimp only
  split
  · rfl
  · have hslots := view_foldl Dev.clock (f := fun e k => slotStatus (winOf d w) k slotEmpty e)
      (fun e k => Dev.clock_of_offDone (offDone_deviceWrite ..)) (List.range (winOf d w).slots) d
    split
    · exact (clock_complete ..).trans hslots
    · exact hslots

theorem clock_queueDeleteEnd (n : Nat) (d : Dev) : (queueDeleteEnd n d).clock = d.clock := by
  unfold queueDeleteEnd
  dsimp only
  split
  · rfl
  · exact view_ite _ rfl ((clock_complete ..).trans rfl)

theorem revokeOps_of_no_longops {d : Dev} (h : d.longops = []) : revokeOps d = d := by
  simp only [revokeOps, liveOps, h, List.filter_nil, List.foldl_nil]

theorem clock_dropDoomed (d : Dev) : (dropDoomed d).clock = d.clock :=
  view_foldl Dev.clock (f := fun (d : Dev) (p : Nat × Page) => dropPage p.1 d) (fun _ _ => rfl) _ d

theorem clock_pruneAgent (a : Nat) (d : Dev) : (pruneAgent a d).clock = d.clock := view_ite _ rfl rfl

theorem clock_sweepSlice (d : Dev) : (sweepSlice d).clock = d.clock := by
  unfold sweepSlice
  refine (view_foldl Dev.clock (fun d a => clock_pruneAgent a d) _ _).trans ?_
  exact view_foldl Dev.clock (fun d l => Dev.clock_of_offHome (offHome_sweepLine l d)) _ d

theorem clock_deferredWrite (n : Nat) (d : Dev) : (deferredWrite n d).clock = d.clock := by
  unfold deferredWrite
  dsimp only
  split
  · rfl
  · exact view_ite _ rfl (Dev.clock_of_offDone ((offDone_writeCq ..).trans rfl))

/-! ### What a count of strokes brings about -/

theorem clock_witnessCas (c o : Nat) (d : Dev) : (witnessCas c o d).clock = d.clock := clock_sendPkt ..

theorem clock_witnessRetry (d : Dev) : (witnessRetry d).clock = d.clock :=
  view_ite _ rfl (view_ite _ (clock_witnessCas ..) (clock_witnessCas ..))

theorem clock_redirectRepeat (d : Dev) : (redirectRepeat d).clock = d.clock := view_ite _ rfl (clock_sendPkt ..)

theorem clock_takeoverExpiry (d : Dev) : (takeoverExpiry d).clock = d.clock := by
  unfold takeoverExpiry
  split
  · exact view_ite _ rfl rfl
  · rfl

theorem clock_syncLoss (d : Dev) : (syncLoss d).clock = d.clock := by
  refine view_ite _ rfl ?_
  exact Dev.clock_of_offFault (d := { d with stk := { d.stk with locked := false, goodSyncs := 0 } })
    ((offFault_faultCE ..).trans (Dev.offFault_of_offIcu (offIcu_setWire ..)))

theorem clock_relay (p : Req) (kind a key : Nat) (d : Dev) : (relay p kind a key d).clock = d.clock := clock_sendPkt ..

theorem clock_graceEnd (m : Nat) (d : Dev) : (graceEnd m d).clock = d.clock := by
  unfold graceEnd
  split
  · rfl
  · split
    · rfl
    · have hjobs (e : Dev) : (resendJobs (Part.sentTo m) e).clock = e.clock := (congrArg Dev.clock (offJobs_resendJobs _ e) :)
      refine view_ite _ rfl ?_
      exact (view_foldl Dev.clock (f := passOn) (fun d o => clock_relay ..) _ _).trans (hjobs _)

theorem resyncSlice_of_unpaired {d : Dev} (h : d.pair.state = 0) : resyncSlice d = d := by
  unfold resyncSlice
  split
  · rename_i hs _
    exact absurd (h.symm.trans hs) (by decide)
  · rfl

theorem expelWaitEnd_of_unpaired {d : Dev} (h : d.pair.state = 0) : expelWaitEnd d = d := by
  unfold expelWaitEnd
  split
  · exact if_pos (Or.inr (by omega))
  · rfl

theorem clock_pairStep {d : Dev} (h : d.pair.state = 0) : (pairStep d).clock = d.clock := by
  have hw : (witnessRetry d).pair.state = 0 := (pair_state_of_clock (clock_witnessRetry d)).trans h
  unfold pairStep
  refine (view_foldl Dev.clock (fun d m => clock_graceEnd m d) _ _).trans ?_
  rw [clock_syncLoss, clock_takeoverExpiry, clock_redirectRepeat, resyncSlice_of_unpaired h, expelWaitEnd_of_unpaired hw,
    clock_witnessRetry]

/-! ### Cores and clusters -/

theorem clock_retireCore (core : Nat) (d : Dev) : (retireCore core d).clock = d.clock := view_ite _ rfl rfl

theorem clock_sentinelRun (core : Nat) (ok : Bool) (d : Dev) : (sentinelRun core ok d).clock = d.clock := by
  refine view_ite _ rfl ((clock_retireCore ..).trans ?_)
  exact Dev.clock_of_offFault (offFault_recordFault ..)

theorem clock_sentinelStep (d : Dev) : (sentinelStep d).clock = d.clock := view_ite _ rfl (clock_sentinelRun ..)

theorem clock_clusterWake (k : Nat) (d : Dev) : (clusterWake k d).clock = d.clock := view_ite _ rfl (clock_pulse ..)

theorem clock_sleepStep (d : Dev) : (sleepStep d).clock = d.clock := by
  refine view_ite _ rfl (view_foldl Dev.clock (fun d k => ?_) _ d)
  exact view_ite _ (view_ite _ (clock_clusterWake ..) rfl) (view_ite _ rfl rfl)

theorem clock_icuBoundary (d : Dev) : (icuBoundary d).clock = d.clock := by
  unfold icuBoundary
  refine (view_foldl Dev.clock (fun d t => clock_pulse ..) _ _).trans ?_
  refine view_foldl Dev.clock (fun d t => ?_) _ d
  exact view_ite _ rfl rfl

/-! ### The link layer -/

theorem clock_takeCredits (p : Nat) (c : Nat × Nat) (d : Dev) : (takeCredits p c d).clock = d.clock := view_ite _ rfl rfl

theorem clock_sendFlits (p vc n : Nat) (sop : Bool) (l : List Byte) (d : Dev) : (sendFlits p vc n sop l d).clock = d.clock := by
  induction n generalizing sop l d with
  | zero => rfl
  | succ n ih => exact (ih ..).trans (clock_takeCredits ..)

theorem clock_sendIdles (p n : Nat) (d : Dev) : (sendIdles p n d).clock = d.clock := by
  induction n generalizing d with
  | zero => rfl
  | succ n ih => exact view_ite _ rfl ((ih _).trans (clock_takeCredits ..))

theorem clock_pumpPkt (x : Dev × List OutPkt × List Nat) (k : OutPkt) : (pumpPkt x k).1.clock = x.1.clock := by
  unfold pumpPkt
  dsimp only
  split
  · rfl
  · split
    · rfl
    · exact clock_sendFlits ..

theorem clock_linkPump (d : Dev) : (linkPump d).clock = d.clock := by
  have hpkts (ks : List OutPkt) (x : Dev × List OutPkt × List Nat) : (ks.foldl pumpPkt x).1.clock = x.1.clock :=
    List.foldlRecOn (motive := fun y => y.1.clock = x.1.clock) ks _ rfl fun y hy k _ => (clock_pumpPkt y k).trans hy
  unfold linkPump
  refine (view_foldl Dev.clock (fun d p => view_ite _ (clock_sendIdles ..) rfl) _ _).trans ?_
  exact hpkts _ ({ d with fabTx := [] }, [], [])

end Sys2Proof.Machine
end

section
/-! A device with no work in hand, and what the operations of a boundary leave of it (R50, R52). -/

namespace Sys2Proof.Machine

/-! ### A device with no work in hand -/

/-- The stroke unit and the work in hand: what steps 1 to 9 of the boundary act on. -/
def Dev.inHand (d : Dev) : Dev :=
  { stk := d.stk, crews := d.crews, sessions := d.sessions, queues := d.queues, jobs := d.jobs, items := d.items, longops := d.longops
    armed := d.armed, moves := d.moves, revokes := d.revokes, retry := d.retry, sealedDone := d.sealedDone, indexes := d.indexes
    regQueue := d.regQueue, pendingBuf := d.pendingBuf, pair := { state := d.pair.state }, flt := { fatal := d.flt.fatal } }

/-- No work is in hand, nor the fatal state entered, and the stroke unit stands as given. -/
structure Idle (k : Stroke) (d : Dev) : Prop where
  /-- What the boundary acts on stands as at reset, but for the stroke unit. -/
  inHand : d.inHand = { stk := k }

theorem Idle.congr {k : Stroke} {d e : Dev} (h : Idle k d) (he : e.inHand = d.inHand) : Idle k e := ⟨he.trans h.inHand⟩

theorem Dev.inHand_of_offNote {d e : Dev} (h : e.offNote = d.offNote) : e.inHand = d.inHand := by
  have hc : e.offNote.inHand = d.offNote.inHand := by rw [h]
  exact hc

theorem Dev.inHand_of_offAnswer {d e : Dev} (h : e.offAnswer = d.offAnswer) : e.inHand = d.inHand := by
  have hc : e.offAnswer.inHand = d.offAnswer.inHand := by rw [h]
  exact hc

/-- With no queue the notice of a UC record goes nowhere. -/
theorem ucNotice_of_no_queues {c : Nat} {r : FaultRec} {d : Dev} (h : d.queues = []) : ucNotice c r d = d := by
  have hq (n : Nat) : (queueOf d n).present = false := by
    simp only [queueOf, h]
    rfl
  unfold ucNotice deviceCompletion
  simp [hq]

section Idle
variable {k : Stroke} {d : Dev} (h : Idle k d)
include h

theorem Idle.stk : d.stk = k := (congrArg Dev.stk h.inHand :)
theorem Idle.crews : d.crews = [] := (congrArg Dev.crews h.inHand :)
theorem Idle.sessions : d.sessions = [] := (congrArg Dev.sessions h.inHand :)
theorem Idle.queues : d.queues = [] := (congrArg Dev.queues h.inHand :)
theorem Idle.jobs : d.jobs = [] := (congrArg Dev.jobs h.inHand :)
theorem Idle.items : d.items = [] := (congrArg Dev.items h.inHand :)
theorem Idle.longops : d.longops = [] := (congrArg Dev.longops h.inHand :)
theorem Idle.armed : d.armed = [] := (congrArg Dev.armed h.inHand :)
theorem Idle.moves : d.moves = [] := (congrArg Dev.moves h.inHand :)
theorem Idle.revokes : d.revokes = [] := (congrArg Dev.revokes h.inHand :)
theorem Idle.retry : d.retry = [] := (congrArg Dev.retry h.inHand :)
theorem Idle.sealedDone : d.sealedDone = [] := (congrArg Dev.sealedDone h.inHand :)
theorem Idle.indexes : d.indexes = [] := (congrArg Dev.indexes h.inHand :)
theorem Idle.regQueue : d.regQueue = [] := (congrArg Dev.regQueue h.inHand :)
theorem Idle.pendingBuf : d.pendingBuf = [] := (congrArg Dev.pendingBuf h.inHand :)
theorem Idle.pair_state : d.pair.state = 0 := (congrArg (fun e : Dev => e.pair.state) h.inHand :)
theorem Idle.fatal : d.flt.fatal = false := (congrArg (fun e : Dev => e.flt.fatal) h.inHand :)

/-! ### Fault records -/

theorem Idle.offNote_crewFault (c : Nat) (r : FaultRec) : (crewFault c r d).offNote = d.offNote := by
  unfold crewFault
  dsimp only
  exact (congrArg Dev.offNote (ucNotice_of_no_queues (by exact h.queues))).trans rfl

end Idle

/-- What every UC record adds after the rings: its count, the service cores' sources, the pin and the snapshot trigger. -/
def signalUc (d : Dev) : Dev := armFault 2 (pinPulse 2 (pulse (8 * 32 + 7 + 2) (pulse (9 * 32 + 7 + 2) (countFault 2 d))))

theorem offNote_signalUc (d : Dev) : (signalUc d).offNote = d.offNote := by
  simp only [signalUc, offNote_armFault, offNote_pinPulse, offNote_pulse, offNote_countFault]

theorem recordFault_uc_some {r : FaultRec} (hr : r.cls = 2) (c : Nat) (d : Dev) :
    let x := stampFault { r with crew := c, crewGen := (crewOf d c).gen } d
    recordFault r (some c) d = signalUc (crewFault c x.1 (deviceRing x.1 x.2)) := by
  cases r
  dsimp only at hr
  subst hr
  rfl

theorem recordFault_uc_none {r : FaultRec} (hr : r.cls = 2) (d : Dev) :
    let x := stampFault { r with flags := r.flags ||| 4 } d
    recordFault r none d = signalUc (deviceRing x.1 x.2) := by
  cases r
  dsimp only at hr
  subst hr
  rfl

/-- A UC record leaves a device with no work in hand so. -/
theorem Idle.recordFault {k : Stroke} {d : Dev} (h : Idle k d) {r : FaultRec} (hr : r.cls = 2) (o : Option Nat) :
    Idle k (recordFault r o d) := by
  have hring (r : FaultRec) : Idle k (deviceRing (stampFault r d).1 (stampFault r d).2) :=
    h.congr (Dev.inHand_of_offNote ((offNote_deviceRing ..).trans rfl))
  cases o with
  | none =>
    rw [recordFault_uc_none hr]
    exact (hring _).congr (Dev.inHand_of_offNote (offNote_signalUc _))
  | some c =>
    rw [recordFault_uc_some hr]
    exact (hring _).congr (Dev.inHand_of_offNote ((offNote_signalUc _).trans ((hring _).offNote_crewFault ..)))

/-! ### Agents that have not answered -/

section Idle
variable {k : Stroke} {d : Dev} (h : Idle k d)
include h

/-- Work done for each of a list leaves a device with no work in hand so where each piece does. -/
theorem Idle.foldl {α : Type} {f : Dev → α → Dev} (hf : ∀ e a, Idle k e → Idle k (f e a)) (l : List α) : Idle k (l.foldl f d) :=
  List.foldlRecOn (motive := fun e => Idle k e) l f h fun e he a _ => hf e a he

theorem Idle.reply (w : Pending) (kind st gen : Nat) (data : List Byte) : Idle k (reply w kind st gen data d) :=
  h.congr (Dev.inHand_of_offAnswer ((offAnswer_sendRsp ..).trans rfl))

theorem Idle.wakeJobs (f : Wait → Bool) : Idle k (wakeJobs f d) := by
  have hj : (Machine.wakeJobs f d).jobs = [] := by simp [Machine.wakeJobs, h.jobs, tMap]
  exact h.congr (by unfold Dev.inHand; rw [hj, h.jobs]; rfl)

theorem Idle.stayCoarse (line : Nat) : Idle k (stayCoarse line d) := h.congr (view_ite _ rfl rfl)

theorem Idle.pruneAgent (a : Nat) : Idle k (pruneAgent a d) := h.congr (view_ite _ rfl rfl)

theorem Idle.settleLine (line : Nat) : Idle k (settleLine line d) := by
  unfold Machine.settleLine
  dsimp only
  split
  · exact h
  · generalize hw : Machine.wakeJobs (fun w => w == .snoop line) _ = e
    have he : Idle k e := by
      subst hw
      refine Idle.wakeJobs ?_ _
      split
      · exact Idle.reply (by exact h.congr rfl) ..
      · exact h.congr rfl
    have hstay (b : Bool) : Idle k (if b then Machine.stayCoarse line e else e) := by
      split
      · exact he.stayCoarse line
      · exact he
    simp only [he.pendingBuf, List.find?_nil]
    exact hstay _

theorem Idle.answered (line a : Nat) : Idle k (answered line a d) := by
  unfold Machine.answered
  exact Idle.pruneAgent (Idle.settleLine (by exact h.congr rfl) line) a

theorem Idle.loseLine (a line : Nat) : Idle k (loseLine a line d) := by
  have hlost : (loseChanges line d).inHand = d.inHand := view_ite _ rfl rfl
  have hdev : Idle k (if (dirOf d line).ownedBy a then loseChanges line d else d) := h.congr (view_ite _ hlost rfl)
  unfold Machine.loseLine
  exact Idle.answered (by exact hdev.congr rfl) line a

theorem Idle.declareCrashed (a : Nat) : Idle k (declareCrashed a d) := by
  unfold Machine.declareCrashed
  dsimp only
  generalize hr : List.foldl (crashRecord a _) _ _ = e
  have he : Idle k e := by
    subst hr
    exact Idle.foldl (by exact h.congr rfl) (fun e r he => he.recordFault rfl _) _
  generalize hl : List.foldl (fun d l => Machine.loseLine a l d) e _ = e'
  have he' : Idle k e' := by
    subst hl
    exact he.foldl (fun e l he => he.loseLine a l) _
  split
  · exact he'
  · exact he'.congr rfl

theorem Idle.snoopExpiry (line a : Nat) : Idle k (snoopExpiry line a d) := by
  unfold Machine.snoopExpiry
  split
  · exact h
  · split
    · exact h.declareCrashed a
    · exact h.loseLine a line

end Idle

end Sys2Proof.Machine
end

section
/-! A boundary with no work in hand, step by step (R50, R52, Table 2-2). -/

namespace Sys2Proof.Machine

/-! ### Steps 1 to 8 -/

section Idle
variable {k : Stroke} {d : Dev} (h : Idle k d)
include h

theorem Idle.countParked : Idle k (countParked d) := by
  refine h.congr ?_
  unfold Machine.countParked Dev.inHand
  simp [h.jobs, tMap]

theorem Idle.meterStep : meterStep d = d := by
  simp only [Machine.meterStep, liveCrews, h.crews, List.filter_nil, List.foldl_nil]

/-- With no pair no HEARTBEAT is sent. -/
theorem Idle.heartbeatOut : heartbeatOut d = d := by
  have hs : heartbeatSend { d with stk := { d.stk with number := d.stk.number + 1 } }
      = { d with stk := { d.stk with number := d.stk.number + 1 } } := if_pos (Or.inr (Or.inl h.pair_state))
  exact congrArg (fun e : Dev => { e with stk := d.stk }) hs

theorem Idle.relayTimeout (r t g : Nat) : Idle k (relayTimeout r t g d) := by
  unfold Machine.relayTimeout
  split
  · exact h
  · split
    · exact h
    · exact h.congr (Dev.inHand_of_offAnswer (offAnswer_answerFabric ..))

theorem Idle.deadlineStep : Idle k (deadlineStep d) := by
  refine h.congr ?_
  unfold Machine.deadlineStep endPending Dev.inHand
  simp [h.jobs, h.pendingBuf]

theorem Idle.judgeStep : Idle k (judgeStep d) := by
  have hsnoop : Idle k (snoopStep d) := h.foldl (fun e s he => he.snoopExpiry ..) _
  have hrelay : Idle k (relayStep (snoopStep d)) := hsnoop.foldl (fun e o he => he.relayTimeout ..) _
  have hdead := hrelay.deadlineStep
  have hbeat : heartbeatStep (Machine.deadlineStep (relayStep (snoopStep d))) = Machine.deadlineStep (relayStep (snoopStep d)) :=
    if_pos (by rw [hdead.pair_state]; decide)
  unfold Machine.judgeStep
  simp only [hbeat, hdead.armed, hdead.moves, hdead.longops, hdead.revokes, List.map_nil, List.foldl_nil]
  exact hdead

theorem Idle.refillPolicer (p : Nat) : Idle k (refillPolicer p d) := h.congr (view_ite _ rfl rfl)

theorem Idle.profileRetire (p : Nat) : Idle k (profileRetire p d) := h.congr (view_ite _ rfl rfl)

theorem Idle.writeStep : Idle k (writeStep d) := by
  have hret : Idle k ((d.profiles.map (·.1)).foldl (fun d p => Machine.profileRetire p d) d) :=
    h.foldl (fun e p he => he.profileRetire p) _
  unfold Machine.writeStep step4
  rw [hret.regQueue]
  refine hret.congr ?_
  unfold Dev.inHand
  rw [hret.regQueue]
  rfl

theorem Idle.refillStep : Idle k (refillStep d) := by
  have hq : Idle k { d with queues := tMap d.queues fun _ q => refillShaper q } := h.congr (by unfold Dev.inHand; simp [h.queues, tMap])
  exact hq.foldl (fun e p he => he.refillPolicer p) _

theorem Idle.heldCmds : heldCmds d = [] := by
  simp only [Machine.heldCmds, h.queues, h.sessions, List.flatMap_nil, List.append_nil]
  rfl

theorem Idle.colourStep : colourStep d = d := by
  simp only [Machine.colourStep, h.heldCmds, List.filter_nil, List.foldl_nil]

theorem Idle.controlStep : controlStep d = d := by
  simp only [Machine.controlStep, h.heldCmds, List.filter_nil, List.foldl_nil]

end Idle

/-- Step 1 finds no item to end or cut, and no long operation to finish. -/
theorem itemStep_of_idle {k : Stroke} {s : State} (h : Idle k s.dev) (finished : List Nat) : itemStep finished s = s := by
  have hop (s' : State) (hs : s' = s) (i : Nat) : finishOp i s' = s := by
    subst hs
    have hended : (opOf s'.dev i).state = 5 := by simp only [opOf, h.longops]; rfl
    exact if_pos (by rw [hended]; decide)
  unfold itemStep
  simp only [h.items, List.filter_nil, List.foldl_nil]
  exact List.foldlRecOn (motive := fun t => t = s) _ _ rfl fun t ht i _ => hop t ht i

/-- Steps 1 to 8 of a boundary with no work in hand (Table 2-2). -/
theorem closeStroke_of_idle {k : Stroke} {s : State} (h : Idle k s.dev) (finished : List Nat) :
    ∃ d, closeStroke finished s = { s with dev := d } ∧ Idle k d := by
  have hj := h.countParked.judgeStep
  have hr := hj.writeStep.refillStep
  refine ⟨_, ?_, hr⟩
  unfold closeStroke
  dsimp only
  rw [itemStep_of_idle (s := { s with dev := countParked s.dev }) h.countParked]
  simp only [h.countParked.meterStep, h.countParked.heartbeatOut, hr.colourStep, hr.controlStep]

/-! ### Step 9 -/

theorem Idle.setStk {k : Stroke} {d : Dev} (h : Idle k d) (k' : Stroke) : Idle k' { d with stk := k' } :=
  ⟨congrArg (fun e : Dev => { e with stk := k' }) h.inHand⟩

theorem Idle.periodChange {k : Stroke} {d : Dev} (h : Idle k d) : ∃ c, Idle { k with current := c } (periodChange d) := by
  have hk := h.stk
  subst hk
  unfold Machine.periodChange
  dsimp only
  split
  · exact ⟨_, (h.setStk { d.stk with current := bitsOf (regRaw d 0x10008) 28 16 }).congr rfl⟩
  · exact ⟨d.stk.current, h⟩

theorem Idle.ledgerEnd {k : Stroke} {d : Dev} (h : Idle k d) : Idle k (ledgerEnd d) := by
  by_cases hg : aligned d.stk.number (2 ^ cfgField d 0x20008 4 0) = false ∨ d.stk.number ≤ d.log.ledgerStart
  · rw [ledgerEnd_of_off_grid hg]
    exact h
  · obtain ⟨ha, hn⟩ := not_or.mp hg
    rw [ledgerEnd_of_stroke (Bool.eq_true_of_not_eq_false ha) (Nat.lt_of_not_le hn), h.crews]
    refine h.congr ?_
    unfold enterLedger Dev.inHand
    simp [liveEntries, h.crews, tMap]

/-- The stroke unit that the boundary of a stroke leaves, but for the period (R50, Table 2-16). -/
def Stroke.next (k : Stroke) : Stroke := { k with tod := tickTod k, number := k.number + 1, steer := 0 }

theorem Idle.advance {k : Stroke} {d : Dev} (h : Idle k d) : ∃ c, Idle { k.next with current := c } (advance d) := by
  have hk := h.stk
  subst hk
  obtain ⟨c, hc⟩ := (h.setStk d.stk.next).periodChange
  exact ⟨c, hc.ledgerEnd⟩

section Idle
variable {k : Stroke} {d : Dev} (h : Idle k d)
include h

theorem Idle.releaseSealed : Idle k (releaseSealed d) := by
  refine h.congr ?_
  unfold Machine.releaseSealed Dev.inHand
  simp [h.sealedDone]

theorem Idle.resumeItems : Idle k (resumeItems d) := by
  refine h.congr ?_
  unfold Machine.resumeItems Dev.inHand
  simp [h.items, tMap]

theorem Idle.resumeParked : Idle k (resumeParked d) := by
  refine h.congr ?_
  unfold Machine.resumeParked wakeStable Dev.inHand
  simp [h.jobs, tMap]

theorem Idle.readOn : readOn d = d := by
  simp only [Machine.readOn, h.queues, List.foldl_nil]

theorem Idle.releaseDelayed : Idle k (releaseDelayed d) := by
  have hl : delayedList d = [] := by
    simp only [delayedList, h.jobs, h.pendingBuf, List.filterMap_nil, List.filter_nil, List.map_nil, List.append_nil]
    rfl
  refine h.congr ?_
  unfold Machine.releaseDelayed
  rw [hl]
  rfl

theorem Idle.releaseOrdered : releaseOrdered d = d := by
  simp only [Machine.releaseOrdered, h.jobs, List.foldl_nil]

theorem Idle.retryLines : retryLines d = d := by
  simp only [Machine.retryLines, h.pendingBuf, List.filter_nil, List.map_nil, List.foldl_nil]

theorem Idle.sliceStep : sliceStep d = d := by
  simp only [Machine.sliceStep, liveOps, h.longops, List.filter_nil, List.foldl_nil]

end Idle

section Idle
variable {k : Stroke} {s : State} (h : Idle k s.dev)
include h

theorem retryAll_of_idle : retryAll s = s := by
  simp only [retryAll, h.retry, List.foldl_nil]

theorem allManagement_of_idle : allManagement s = s := by
  simp only [allManagement, openSessions, h.sessions, List.filter_nil, List.foldl_nil]

theorem liveCrews_of_idle : liveCrews s.dev = [] := by
  simp only [liveCrews, h.crews, List.filter_nil]

end Idle

/-- The work of a stroke with none in hand (step 9). -/
theorem workStep_of_idle {k : Stroke} {s : State} (h : Idle k s.dev) : ∃ d, workStep s = { s with dev := d } ∧ Idle k d := by
  have hp := h.releaseSealed.resumeItems.resumeParked
  have hd := hp.releaseDelayed
  refine ⟨_, ?_, hd⟩
  unfold workStep
  dsimp only
  rw [hp.readOn, hd.releaseOrdered, hd.retryLines]
  generalize releaseDelayed (resumeParked (resumeItems (releaseSealed s.dev))) = d at hd
  rw [retryAll_of_idle (s := { s with dev := d }) hd, allManagement_of_idle (s := { s with dev := d }) hd,
    liveCrews_of_idle (s := { s with dev := d }) hd]
  simp only [List.foldl_nil, hd.sliceStep]

/-! ### After the work -/

theorem clock_deferredAll (n : Nat) (d : Dev) : (deferredAll n d).clock = d.clock :=
  view_foldl Dev.clock (fun d _ => clock_deferredWrite n d) _ d

/-- With no crew none is reset or deleted. -/
theorem crewStep_of_no_crews {s : State} (h : s.dev.crews = []) : crewStep s = s := by
  simp only [crewStep, h, List.filter_nil, List.map_nil, List.foldl_nil]

theorem Idle.slotsOverdue {k : Stroke} {d : Dev} (h : Idle k d) : slotsOverdue d = d := by
  simp only [Machine.slotsOverdue, h.jobs, List.foldl_nil]

theorem Idle.clock_drainStep {k : Stroke} {d : Dev} (h : Idle k d) : (drainStep d).clock = d.clock := by
  have hwins (e : Dev) : ((e.wins.map (·.1)).foldl (fun d i => windowDeleteEnd i d) e).clock = e.clock :=
    view_foldl Dev.clock (fun d i => clock_windowDeleteEnd i d) _ e
  have hqueues (e : Dev) : ((e.queues.map (·.1)).foldl (fun d i => queueDeleteEnd i d) e).clock = e.clock :=
    view_foldl Dev.clock (fun d i => clock_queueDeleteEnd i d) _ e
  have hall := (hqueues ((d.wins.map (·.1)).foldl (fun d i => windowDeleteEnd i d) d)).trans (hwins d)
  unfold drainStep
  simp only [h.longops, h.indexes, List.map_nil, List.foldl_nil]
  rw [clock_dropDoomed, revokeOps_of_no_longops ((longops_of_clock hall).trans h.longops), hall]

/-- The device after the drains, the sweeps, the waits of the pair, the sentinels and the sleep of clusters. -/
theorem Idle.clock_sleepStep {k : Stroke} {d : Dev} (h : Idle k d) :
    (sleepStep (sentinelStep (pairStep (sweepSlice (drainStep d))))).clock = d.clock := by
  have hs : (sweepSlice (drainStep d)).clock = d.clock := (clock_sweepSlice _).trans h.clock_drainStep
  have hp : (sweepSlice (drainStep d)).pair.state = 0 := (pair_state_of_clock hs).trans h.pair_state
  rw [Machine.clock_sleepStep, clock_sentinelStep, clock_pairStep hp, hs]

/-- What follows the choice of work leaves the clock of a device with no work in hand. -/
theorem afterWork_of_idle {k : Stroke} {s : State} (h : Idle k s.dev) :
    ∃ d, afterWork s = { s with dev := d } ∧ d.clock = s.dev.clock := by
  have hsleep := h.clock_sleepStep
  unfold afterWork
  simp only [h.slotsOverdue, h.indexes, List.map_nil, List.foldl_nil]
  generalize sleepStep (sentinelStep (pairStep (sweepSlice (drainStep s.dev)))) = d at hsleep
  have hcrews : d.crews = [] := (crews_of_clock hsleep).trans h.crews
  rw [crewStep_of_no_crews (s := { s with dev := d }) hcrews]
  dsimp only
  refine ⟨_, rfl, ?_⟩
  have hdef := view_foldl Dev.clock (fun d i => clock_deferredAll i d) (d.queues.map (·.1)) d
  generalize (d.queues.map (·.1)).foldl (fun d i => deferredAll i d) d = e at hdef
  have hicu : (icuBoundary (tidy e)).clock = d.clock := (clock_icuBoundary _).trans hdef
  rw [clock_linkPump, clock_runControl ((crews_of_clock hicu).trans hcrews), hicu, hsleep]

/-! ### The boundary -/

/-- The device without what a snapshot changes: the free values drawn, the change log and the controller. -/
def Dev.offSnap (d : Dev) : Dev := { d with draws := 0, log := {}, icu := [], tgts := [], serviceMem := [] }

theorem Dev.offSnap_of_offIcu {d e : Dev} (h : e.offIcu = d.offIcu) : e.offSnap = d.offSnap := by
  have hc : e.offIcu.offSnap = d.offIcu.offSnap := by rw [h]
  exact hc

theorem Dev.clock_of_offSnap {d e : Dev} (h : e.offSnap = d.offSnap) : e.clock = d.clock := by
  have hc : e.offSnap.clock = d.offSnap.clock := by rw [h]
  exact hc

theorem Dev.inHand_of_offSnap {d e : Dev} (h : e.offSnap = d.offSnap) : e.inHand = d.inHand := by
  have hc : e.offSnap.inHand = d.offSnap.inHand := by rw [h]
  exact hc

theorem offSnap_pulse (n : Nat) (d : Dev) : (pulse n d).offSnap = d.offSnap := Dev.offSnap_of_offIcu (offIcu_pulse ..)

theorem offSnap_latchSnap (source : Nat) (origin : Nat × Nat) (cycle : Option Nat) (s : State) :
    (latchSnap source origin cycle s).dev.offSnap = s.dev.offSnap := by
  unfold latchSnap
  split
  · rfl
  · cases cycle with
    | none => exact (offSnap_pulse ..).trans ((offSnap_pulse ..).trans rfl)
    | some c => exact (offSnap_pulse ..).trans ((offSnap_pulse ..).trans rfl)

/-- The named trigger changes of the state only the snapshot and what `Dev.offSnap` leaves out (R384). -/
theorem snapTrigger_spec (s : State) : (snapTrigger s).nv = s.nv ∧ (snapTrigger s).pending = s.pending
    ∧ (snapTrigger s).dev.offSnap = s.dev.offSnap := by
  unfold snapTrigger
  split
  · split
    · exact ⟨latchSnap_nv 2 s.snap.armedBy (some 0) s, latchSnap_pending 2 s.snap.armedBy (some 0) s,
        offSnap_latchSnap 2 s.snap.armedBy (some 0) s⟩
    · exact ⟨rfl, rfl, rfl⟩
  · exact ⟨rfl, rfl, rfl⟩

theorem clock_settle (s : State) : (settle s).dev.clock = s.dev.clock := by
  unfold settle
  split
  · rfl
  · exact (Dev.clock_of_offSnap (offSnap_latchSnap ..)).trans rfl

theorem strokeBoundary_of_early {s : State} (h : s.dev.power.phase < 6 ∨ s.dev.power.on = false) (finished : List Nat) :
    strokeBoundary finished s = s :=
  if_pos (h.imp_right fun h => by rw [h]; rfl)

/-- The boundary of a device with no work in hand opens the next stroke (R50, R52). -/
theorem strokeBoundary_of_idle {k : Stroke} {s : State} (h : Idle k s.dev) (hp : 6 ≤ s.dev.power.phase) (ho : s.dev.power.on = true)
    (finished : List Nat) :
    let t := strokeBoundary finished s
    t.dev.stk.number = k.number + 1 ∧ t.dev.stk.tod = tickTod k ∧ t.nv = s.nv ∧ t.pending = s.pending := by
  obtain ⟨hnv, hpending, hsnap⟩ := snapTrigger_spec s
  have hs : Idle k (snapTrigger s).dev := h.congr (Dev.inHand_of_offSnap hsnap)
  obtain ⟨d₁, hclose, h₁⟩ := closeStroke_of_idle hs finished
  obtain ⟨c, hadv⟩ := h₁.advance
  obtain ⟨d₂, hwork, h₂⟩ := workStep_of_idle (s := { snapTrigger s with dev := advance d₁ }) hadv
  obtain ⟨d₃, hafter, h₃⟩ := afterWork_of_idle (s := { snapTrigger s with dev := d₂ }) h₂
  have ht : strokeBoundary finished s = settle { snapTrigger s with dev := d₃ } := by
    have hlocked : ¬(s.dev.power.phase < 6 ∨ (!s.dev.power.on) = true) := by simp [ho, hp]
    unfold strokeBoundary
    rw [if_neg hlocked]
    dsimp only
    rw [if_neg (by rw [hs.fatal]; exact Bool.false_ne_true), hclose]
    dsimp only
    rw [hwork]
    exact congrArg settle hafter
  have hclock := (clock_settle { snapTrigger s with dev := d₃ }).trans h₃
  rw [ht]
  refine ⟨(number_of_clock hclock).trans ?_, (tod_of_clock hclock).trans ?_, (settle_nv _).trans hnv, (settle_pending _).trans hpending⟩
  · rw [h₂.stk]
    rfl
  · rw [h₂.stk]
    rfl

end Sys2Proof.Machine
end

section
/-! Waits and strokes (O57). -/

namespace Sys2Proof.Machine

/-- WAIT_DEADLINE and PARK_TIMEOUT (R55, R57). -/
theorem deadline_cases {i : Instr} {dense : Bool} {job : Nat}
    (hi : i = .waitDeadline job ∧ dense = false ∨ i = .parkTimeout job ∧ dense = true) (s : State) :
    (tGet? s.dev.jobs job = none → exec i s = .next (ends s.dev s))
    ∧ (∀ j, tGet? s.dev.jobs job = some j → j.slot = none → j.owner ≠ .device → (∀ x ∈ j.parts, x.overdue s.dev dense = false) →
        exec i s = .next (ends s.dev s))
    ∧ (∀ j p x, s.dev.jobs = [(job, j)] → j.slot = none → j.owner = .fabric p → j.parts = [x] → x.act = .write →
        x.overdue s.dev dense = true → p.vc = 1 → s.dev.flt.fatal = false →
        ∃ d, exec i s = .next (ends d s) ∧ Answered s.dev d p 0x21 stTimeout [] ∧ d.jobs = [] ∧ d.mem = s.dev.mem) := by
  refine ⟨fun hn => ?_, fun j hj hs ho hx => ?_, fun j p x hjobs hs ho hparts ha hdue hv hf => ?_⟩
  · rw [exec_deadline hi s (Or.inl hn), endOverdue_of_none hn]
  · rw [exec_deadline hi s (Or.inr ⟨j, hj, hs, ho⟩), endOverdue_of_not_due hj hx]
  · have hj : tGet? s.dev.jobs job = some j := by simp [hjobs, tGet?]
    exact ⟨_, exec_deadline hi s (Or.inr ⟨j, hj, hs, by simp [ho]⟩), endOverdue_of_write hjobs ho hparts ha hdue hv hf⟩

/-- ITEM_ABANDON (R56). -/
theorem itemAbandon_cases {id : Nat} {x : Item} {s : State} (h : tGet? s.dev.items id = some x) :
    (x.cuts < 15 → exec (.itemAbandon id) s = .next (ends s.dev s))
    ∧ (∀ q, 15 ≤ x.cuts → x.kind = .command q → q.opcode ∉ [0x301, 0x302, 0x402, 0x501] → ∃ d, exec (.itemAbandon id) s =
          .next (ends (faultCE 0x0C 0 x.crew (complete q stTimeout [] [] d)) s)
        ∧ tGet? d.items id = none ∧ (∀ k, k ≠ id → tGet? d.items k = tGet? s.dev.items k) ∧ d.mem = s.dev.mem
        ∧ d = { s.dev with regs := d.regs, items := d.items }) := by
  refine ⟨fun hc => next_onDev (itemAbandon_of_early h hc), fun q hc hk hop => ?_⟩
  exact ⟨itemGone id x s.dev, next_onDev (itemAbandon_of_late h hc hk hop), tGet?_tDel_self .., fun k hk => tGet?_tDel_ne _ hk, rfl, rfl⟩

/-- CLUSTER_WAKE (R430, R444). -/
theorem clusterWake_cases (k : Nat) (s : State) :
    (k < 16 → bitAt s.dev.power.asleep k = true → s.dev.power.mode ≠ 1 → ∃ d, exec (.clusterWake k) s = .next (ends d s)
      ∧ (∀ i, bitAt d.power.asleep i = (bitAt s.dev.power.asleep i && i != k)) ∧ d.power.wakes = (s.dev.power.wakes + 1) % 2 ^ 32
      ∧ d.mem = s.dev.mem)
    ∧ ((bitAt s.dev.power.asleep k = false ∨ s.dev.power.mode = 1) → exec (.clusterWake k) s = .next (ends s.dev s)) := by
  refine ⟨fun hk ha hm => ⟨_, next_onDev (clusterWake_of_asleep hk ha hm), fun i => ?_, ?_, mem_pulse ..⟩,
    fun h => next_onDev (clusterWake_of_awake h)⟩
  · rw [power_pulse]
    exact bitAt_sub_two_pow ha i
  · rw [power_pulse]

/-- Settles O57: each row by what it ends, resumes or opens, and the boundary of a device with no work in hand step by step. -/
theorem waitsAndStrokes : Obligations.WaitsAndStrokes := by
  unfold Obligations.WaitsAndStrokes
  refine ⟨fun i dense job s hi => deadline_cases hi s, fun id x s h => itemAbandon_cases h, ?_, clusterWake_cases, fun finished s => ⟨?_, ?_⟩⟩
  · intro job j p x s hjobs ho hs hr hparts hx ha hoff hlen _ _ hplain hv hf hretry hgoal
    obtain ⟨d, hd, hnone, hmem, hans⟩ := parkedResume_of_plain hjobs ho hs hr hparts hx ha hoff hlen hplain hv hf hretry hgoal
    exact ⟨d, congrArg (fun t => Host.Outcome.next (settle t)) hd, hnone, hmem, hans⟩
  · exact fun h => congrArg Host.Outcome.next (strokeBoundary_of_early h finished)
  · intro hp ho hf hcrews hsessions hqueues hjobs hitems hlongops harmed hmoves hrevokes hretry hsealed hindexes hreg _ hpending hpair _
    have hidle : Idle s.dev.stk s.dev := ⟨by
      simp only [Dev.inHand, hf, hcrews, hsessions, hqueues, hjobs, hitems, hlongops, harmed, hmoves, hrevokes, hretry, hsealed,
        hindexes, hreg, hpending, hpair]⟩
    exact ⟨_, rfl, strokeBoundary_of_idle hidle hp ho finished⟩

end Sys2Proof.Machine
end

section
/-! The replay-protected counters never go back (R96, R225, R338, R339, R351, R407). -/

namespace Sys2Proof.Machine

/-! ### The order of the counters -/

theorem nvLe_refl (a : Nv) : NvLe a a := ⟨le_rfl, fun _ => le_rfl, fun _ => le_rfl, fun _ => le_rfl, le_rfl, le_rfl⟩

theorem nvLe_trans {a b c : Nv} (h : NvLe a b) (k : NvLe b c) : NvLe a c := by
  obtain ⟨hkey, hcrew, hepoch, hback, hleaf, hexpel⟩ := h
  obtain ⟨kkey, kcrew, kepoch, kback, kleaf, kexpel⟩ := k
  exact ⟨hkey.trans kkey, fun n => (hcrew n).trans (kcrew n), fun n => (hepoch n).trans (kepoch n),
    fun n => (hback n).trans (kback n), hleaf.trans kleaf, hexpel.trans kexpel⟩

/-- A counter of a table set to no less than it holds: no counter of the table stands lower. -/
theorem tGet_le_tGet_tSet {t : Tbl Nat} {k v : Nat} (h : tGet t k ≤ v) (n : Nat) : tGet t n ≤ tGet (tSet t k v) n := by
  by_cases hn : n = k
  · subst hn
    rwa [tGet_tSet_self]
  · exact (congrArg (Option.getD · default) (tGet?_tSet_ne t v hn)).ge

/-- From s to t no replay-protected counter goes back, and the waiting commands stay. -/
structure Raises (s t : State) : Prop where
  nv : NvLe s.nv t.nv
  pending : t.pending = s.pending

namespace Raises

variable {s t u : State}

theorem refl (s : State) : Raises s s := ⟨nvLe_refl s.nv, rfl⟩

theorem trans (h : Raises s t) (k : Raises t u) : Raises s u := ⟨nvLe_trans h.nv k.nv, k.pending.trans h.pending⟩

/-- What has the counters and the queue of t is reached as t is. -/
theorem of_same (h : Raises s t) (hn : u.nv = t.nv) (hp : u.pending = t.pending) : Raises s u :=
  ⟨hn ▸ h.nv, hp.trans h.pending⟩

/-- A change of the device and the snapshot alone. -/
theorem of_dev (s : State) (d : Dev) (x : Snap) : Raises s { s with dev := d, snap := x } := (refl s).of_same rfl rfl

/-- The device of a state so reached may be another. -/
theorem set_dev (h : Raises s t) (d : Dev) : Raises s { t with dev := d } := h.of_same rfl rfl

theorem ite {c : Prop} [Decidable c] (ht : Raises s t) (hu : Raises s u) : Raises s (if c then t else u) := by
  split <;> assumption

theorem foldl {α : Type} {f : State → α → State} (h : ∀ s a, Raises s (f s a)) (l : List α) (s : State) :
    Raises s (l.foldl f s) := by
  induction l generalizing s with
  | nil => exact refl s
  | cons a l ih => exact (h s a).trans (ih (f s a))

end Raises

/-! ### The operations that move a counter -/

theorem drawKey_raises (s : State) : Raises s (drawKey s).2 :=
  ⟨⟨Nat.le_succ _, fun _ => le_rfl, fun _ => le_rfl, fun _ => le_rfl, le_rfl, le_rfl⟩, rfl⟩

/-- A data generation is drawn for a protected region only (R352). -/
theorem drawKey_if_raises (b : Bool) (s : State) : Raises s (if b then drawKey s else (0, s)).2 := by
  cases b
  · exact .refl s
  · exact drawKey_raises s

theorem bumpKey_raises (k : Nat) (s : State) : Raises s (bumpKey k s).2 := by
  unfold bumpKey
  split
  · exact .refl s
  · exact drawKey_raises s

theorem bumpKeys_raises (ks : List Nat) (s : State) : Raises s (bumpKeys ks s).2 := by
  induction ks generalizing s with
  | nil => exact .refl s
  | cons k ks ih => exact (bumpKey_raises k s).trans (ih (bumpKey k s).2)

theorem countCrew_raises (n : Nat) (s : State) : Raises s (countCrew n s) :=
  ⟨⟨le_rfl, tGet_le_tGet_tSet (Nat.le_succ _), fun _ => le_rfl, fun _ => le_rfl, le_rfl, le_rfl⟩, rfl⟩

theorem raiseEpoch_raises (n : Nat) (s : State) : Raises s (raiseEpoch n s) :=
  ⟨⟨le_rfl, fun _ => le_rfl, tGet_le_tGet_tSet (Nat.le_succ _), fun _ => le_rfl, le_rfl, le_rfl⟩, rfl⟩

theorem raiseEpochs_raises (ns : List Nat) (s : State) : Raises s (raiseEpochs ns s) := by
  induction ns generalizing s with
  | nil => exact .refl s
  | cons n ns ih => exact (raiseEpoch_raises n s).trans (ih (raiseEpoch n s))

theorem spendLeaf_raises (s : State) : Raises s (spendLeaf s).2 :=
  ⟨⟨le_rfl, fun _ => le_rfl, fun _ => le_rfl, fun _ => le_rfl, Nat.le_max_left .., le_rfl⟩, rfl⟩

theorem expelBody_raises (q : QCmd) (s : State) : Raises s (expelBody q s) := by
  unfold expelBody
  split
  · exact .of_dev ..
  · exact ⟨⟨le_rfl, fun _ => le_rfl, fun _ => le_rfl, fun _ => le_rfl, le_rfl, Nat.le_succ _⟩, rfl⟩

/-- Counters of a table raised one after another, each to no less than it holds. -/
theorem tGet_le_foldl_max {α : Type} (k v : α → Nat) (l : List α) (t : Tbl Nat) (n : Nat) :
    tGet t n ≤ tGet (l.foldl (fun t a => tSet t (k a) (max (tGet t (k a)) (v a))) t) n := by
  induction l generalizing t with
  | nil => exact le_rfl
  | cons a l ih => exact (tGet_le_tGet_tSet (Nat.le_max_left ..) n).trans (ih _)

theorem trialServes_raises (s : State) : Raises s (trialServes s) := by
  unfold trialServes
  split
  · exact .refl s
  · exact ⟨⟨le_rfl, fun _ => le_rfl, fun _ => le_rfl, tGet_le_foldl_max (· + 1) _ _ _, le_rfl, le_rfl⟩, rfl⟩

/-! ### Rows and snapshots -/

theorem settle_raises (s : State) : Raises s (settle s) := (Raises.refl s).of_same (settle_nv s) (settle_pending s)

theorem latchSnap_raises (k : Nat) (o : Nat × Nat) (c : Option Nat) (s : State) : Raises s (latchSnap k o c s) :=
  (Raises.refl s).of_same (latchSnap_nv ..) (latchSnap_pending ..)

theorem onDev_raises (f : Dev → Dev) (s : State) : Raises s (onDev f s) := (Raises.refl s).of_same (onDev_nv f s) (onDev_pending f s)

/-- A command row raises what its body does: all that comes before the body changes the device alone. -/
theorem runRow_raises (op : Nat) (c : Cmd) {body : QCmd → State → State} (h : ∀ q s, Raises s (body q s)) (s : State) :
    Raises s (runRow op c body s) := by
  refine Raises.trans ?_ (settle_raises _)
  refine .ite (.refl s) ?_
  split
  · exact .of_dev ..
  refine .ite (.of_dev ..) ?_
  split
  · exact .of_dev ..
  split
  · exact .of_dev ..
  exact .ite (.of_dev ..) (.ite (.of_dev ..) ((Raises.of_dev ..).trans (h ..)))

theorem devBody_raises (f : QCmd → Dev → Dev) (q : QCmd) (s : State) : Raises s (devBody f q s) := .of_dev ..

theorem runRow_devBody_raises (op : Nat) (c : Cmd) (f : QCmd → Dev → Dev) (s : State) : Raises s (runRow op c (devBody f) s) :=
  runRow_raises op c (devBody_raises f) s

end Sys2Proof.Machine
end

section
/-! The commands and events that move a replay-protected counter, or change more than the device. -/

namespace Sys2Proof.Machine

/-! ### Regions and sealed extents -/

theorem regionRegisterBody_raises (q : QCmd) (s : State) : Raises s (regionRegisterBody q s) := by
  unfold regionRegisterBody
  split
  · exact .of_dev ..
  · exact ((drawKey_raises s).trans (drawKey_if_raises (bitAt (pNat q.cmd 12 1) 1) _)).of_same rfl rfl

theorem beginRevoke_raises (q : Option QCmd) (first n : Nat) (b : Bool) (s : State) : Raises s (beginRevoke q first n b s) :=
  (bumpKeys_raises (runKeys s.dev first n) s).of_same rfl rfl

theorem regionRevokeBody_raises (q : QCmd) (s : State) : Raises s (regionRevokeBody q s) := by
  unfold regionRevokeBody
  split
  · exact .of_dev ..
  · exact (beginRevoke_raises ..).trans (onDev_raises ..)

theorem commitSealed_raises (first src n : Nat) (b : Bool) (s : State) : Raises s (commitSealed first src n b s).2.2 :=
  ((drawKey_raises s).trans (drawKey_if_raises ((tGet? (drawKey s).2.dev.regions first).getD {}).prot _)).of_same rfl rfl

theorem placeFinish_raises (i : Nat) (s : State) : Raises s (placeFinish i s) := by
  unfold placeFinish
  dsimp only
  refine .ite (.refl s) (.ite (.of_dev ..) ?_)
  split
  · have hmoved (d : Dev) (a b n : Nat) (z : Bool) : Raises s (commitSealed a b n z { s with dev := d }).2.2 :=
      (Raises.of_dev s d s.snap).trans (commitSealed_raises ..)
    exact .ite (.of_dev ..) (.ite (.set_dev (.trans (.set_dev (hmoved ..) _) (beginRevoke_raises ..)) _) (.set_dev (hmoved ..) _))
  · exact .ite (.of_dev ..) (.ite (.set_dev (.trans (.of_dev ..) (beginRevoke_raises ..)) _) (.of_dev ..))

theorem sealFinish_raises (i : Nat) (s : State) : Raises s (sealFinish i s) := by
  unfold sealFinish
  dsimp only
  exact .ite (.of_dev ..) (.ite (.of_dev ..) (.set_dev (.trans (.of_dev ..) (commitSealed_raises ..)) _))

theorem logCreateBody_raises (q : QCmd) (s : State) : Raises s (logCreateBody q s) := by
  unfold logCreateBody
  dsimp only
  split
  · exact .of_dev ..
  · exact ((drawKey_raises s).trans (drawKey_if_raises (bitAt (pNat q.cmd 14 1) 2) _)).of_same rfl rfl

theorem sealBody_raises (q : QCmd) (s : State) : Raises s (sealBody q s) := by
  unfold sealBody
  split
  · exact .of_dev ..
  · exact logCreateBody_raises q s
  · exact .of_dev ..
  · exact .of_dev ..

/-! ### Attestation and signed images -/

theorem attestClose_raises (s : State) : Raises s (attestClose s) := by
  unfold attestClose
  refine .ite (.refl s) (.ite (.of_dev ..) ?_)
  exact ((Raises.of_dev ..).trans (spendLeaf_raises _)).of_same rfl rfl

theorem attestBody_raises (q : QCmd) (s : State) : Raises s (attestBody q s) := by
  unfold attestBody
  refine .ite (.of_dev ..) (.ite ?_ (.of_dev ..))
  exact (Raises.of_dev ..).trans (attestClose_raises _)

theorem fwStageBody_raises (q : QCmd) (s : State) : Raises s (fwStageBody q s) := by
  unfold fwStageBody
  refine .ite (.of_dev ..) (.ite (.of_dev ..) (.ite (.of_dev ..) ?_))
  split
  · exact .of_dev ..
  refine .ite (.of_dev ..) ?_
  split
  · exact .of_dev ..
  refine .ite (.of_dev ..) ?_
  split <;> exact .of_dev ..

theorem fwActivateBody_raises (q : QCmd) (s : State) : Raises s (fwActivateBody q s) :=
  .ite (.of_dev ..) (.ite (.of_dev ..) (.of_dev ..))

/-! ### Snapshots -/

theorem snapshotBody_raises (q : QCmd) (s : State) : Raises s (snapshotBody q s) := by
  unfold snapshotBody
  refine .ite (.of_dev ..) (.ite (.ite (.of_dev ..) ?_) (.ite (.ite (.of_dev ..) (.ite (.of_dev ..) (.of_dev ..))) (.of_dev ..)))
  exact (latchSnap_raises ..).trans (.of_dev ..)

theorem snapTrigger_raises (s : State) : Raises s (snapTrigger s) :=
  (Raises.refl s).of_same (snapTrigger_spec s).1 (snapTrigger_spec s).2.1

theorem snapPin_raises (cycle : Nat) (s : State) : Raises s (snapPin cycle s) :=
  .ite (.refl s) (.ite (.of_dev ..) ((Raises.of_dev ..).trans (latchSnap_raises ..)))

/-! ### Pairs and responses -/

theorem joinAs_raises (record : Nat) (s : State) : Raises s (joinAs record s) := by
  unfold joinAs
  exact .ite (.of_dev ..) (.of_dev ..)

theorem witnessAnswer_raises (returned : Nat) (s : State) : Raises s (witnessAnswer returned s) :=
  .ite (.refl s) (.ite (joinAs_raises ..) (.of_dev ..))

theorem rspIn_raises (p : Rsp) (s : State) : Raises s (rspIn p s) := .ite (witnessAnswer_raises ..) (.of_dev ..)

/-! ### Crews -/

theorem makeCrew_raises (n : Nat) (l : List Byte) (s : State) : Raises s (makeCrew n l s).2.2 :=
  ((countCrew_raises n s).trans (drawKey_raises _)).of_same rfl rfl

theorem crewCreateBody_raises (q : QCmd) (s : State) : Raises s (crewCreateBody q s) := by
  unfold crewCreateBody
  dsimp only
  split
  · exact .of_dev ..
  · exact .set_dev (makeCrew_raises ..) _

theorem dropCrew_raises (n : Nat) (s : State) : Raises s (dropCrew n s) := (Raises.of_dev ..).trans (raiseEpoch_raises n _)

theorem crewDrainEnd_raises (n : Nat) (s : State) : Raises s (crewDrainEnd n s) := by
  unfold crewDrainEnd
  refine .ite (.refl s) ?_
  have hend : Raises s (if (crewOf s.dev n).state = 3 then dropCrew n { s with dev := scrubCrew n s.dev }
      else { s with dev := modCrew n (fun c => { c with state := 1, resetBy := none }) (scrubCrew n s.dev) }) :=
    .ite ((Raises.of_dev ..).trans (dropCrew_raises ..)) (.of_dev ..)
  dsimp only
  split
  · exact hend
  · exact hend.trans (.of_dev ..)

/-! ### Resets and start-up -/

theorem powerDown_raises (s : State) : Raises s (powerDown s) := .of_dev ..

theorem powerFall_raises (s : State) : Raises s (powerFall s) := .ite (.of_dev ..) ((Raises.of_dev ..).trans (powerDown_raises _))

theorem inputFails_raises (vin : Nat) (s : State) : Raises s (inputFails vin s) :=
  .ite (.of_dev ..) ((Raises.of_dev ..).trans (powerDown_raises _))

theorem moduleReset_raises (origin : Nat × Nat) (s : State) : Raises s (moduleReset origin s) :=
  .ite (.refl s) (.ite (.of_dev ..) (.of_dev ..))

theorem warmReset_raises (s : State) : Raises s (warmReset s) := .ite (.refl s) ((Raises.of_dev ..).trans (moduleReset_raises ..))

theorem resetByWrite_raises (who : Writer) (s : State) : Raises s (resetByWrite who s) := .ite (moduleReset_raises ..) (.refl s)

theorem bootRom_raises (ok : Bool) (serial : Nat) (v : BankVerdict) (s : State) : Raises s (bootRom ok serial v s) := by
  unfold bootRom noBank
  dsimp only
  exact .ite (.refl s) (.ite (.of_dev ..) (.ite (.of_dev ..) (.ite (.of_dev ..) (.of_dev ..))))

theorem bootLoader_raises (v : BankVerdict) (s : State) : Raises s (bootLoader v s) := by
  unfold bootLoader loadBank noBank
  dsimp only
  exact .ite (.refl s) (.ite (.of_dev ..) (.ite (.of_dev ..) (.of_dev ..)))

theorem restoreEntry_raises (e : Nat × List Byte) (acc : List Nat × State) : Raises acc.2 (restoreEntry e acc).2 := by
  unfold restoreEntry
  dsimp only
  split
  · exact .of_dev ..
  · exact .set_dev (makeCrew_raises ..) _

theorem restoreAll_raises (es : List (Nat × List Byte)) (acc : List Nat × State) : Raises acc.2 (restoreAll es acc).2 := by
  induction es generalizing acc with
  | nil => exact .refl acc.2
  | cons e es ih => exact (restoreEntry_raises e acc).trans (ih _)

theorem crewRestore_raises (s : State) : Raises s (crewRestore s) := by
  unfold crewRestore
  dsimp only
  have hcrews (es : List (Nat × List Byte)) (ns : List Nat) : Raises s (raiseEpochs ns (restoreAll es ([], s)).2) :=
    (restoreAll_raises es ([], s)).trans (raiseEpochs_raises ns _)
  exact .ite (.refl s) (.set_dev (.trans (.set_dev (hcrews ..) _) (trialServes_raises _)) _)

end Sys2Proof.Machine
end

section
/-! Registers, flits, the work of a stroke and its boundary: what they leave of the replay-protected counters and the waiting commands. -/

namespace Sys2Proof.Machine

/-! ### Registers -/

theorem regReadBody_raises (q : QCmd) (s : State) : Raises s (regReadBody q s) := .of_dev ..

theorem snpWrite_raises (who : Writer) (off v mask : Nat) (s : State) : Raises s (snpWrite who off v mask s).2 := by
  unfold snpWrite
  dsimp only
  split
  · exact .refl s
  split
  · exact .refl s
  split
  · exact .of_dev ..
  · exact .of_dev ..
  · exact .of_dev ..
  · exact .refl s

theorem pwrResetWrite_raises (who : Writer) (v mask : Nat) (s : State) : Raises s (pwrResetWrite who v mask s).2 := by
  unfold pwrResetWrite
  dsimp only
  split
  · exact .refl s
  split
  · split <;> exact resetByWrite_raises who s
  · exact .of_dev ..

theorem regWrite_raises (who : Writer) (off v mask : Nat) (q : Option QCmd) (job : Option Nat) (s : State) :
    Raises s (regWrite who off v mask q job s).2 := by
  unfold regWrite
  split
  · exact .refl s
  split
  · exact .refl s
  split
  · exact .refl s
  split
  · exact .refl s
  split
  · exact pwrResetWrite_raises ..
  split
  · exact snpWrite_raises ..
  · exact .of_dev ..

theorem storeReg_raises (who : Writer) (off v mask : Nat) (s : State) : Raises s (storeReg who off v mask s) :=
  (regWrite_raises ..).trans (settle_raises _)

theorem regWriteBody_raises (q : QCmd) (s : State) : Raises s (regWriteBody q s) := by
  unfold regWriteBody
  dsimp only
  have hwrite := regWrite_raises (cmdWriter s.dev q.cmd) (pNat q.cmd 0 8) (pNat q.cmd 8 8) (pNat q.cmd 16 8) (some q) none s
  refine .ite (.of_dev ..) ?_
  split
  · exact hwrite
  · exact .set_dev hwrite _

/-! ### Flits -/

/-- A packet that arrives is a response, or changes the device alone: after the types with a row of their own come the two
snoops, which are the agents' and not a home's, and then the responses and the CTL packets. -/
theorem packetIn_cases (p vc : Nat) (l : List Byte) (s : State) :
    packetIn p vc l s = rspIn (parseRsp p vc l) s ∨ ∃ d, packetIn p vc l s = { s with dev := d } := by
  unfold packetIn
  dsimp only
  split
  · exact .inr ⟨s.dev, rfl⟩
  split
  any_goals exact .inr ⟨_, rfl⟩
  · split <;> exact .inr ⟨_, rfl⟩
  · split <;> exact .inr ⟨_, rfl⟩
  split
  · exact .inl rfl
  split
  · exact .inr ⟨_, rfl⟩
  split
  · exact .inr ⟨s.dev, rfl⟩
  split
  · split <;> exact .inr ⟨_, rfl⟩
  · exact .inr ⟨_, rfl⟩

theorem packetIn_raises (p vc : Nat) (l : List Byte) (s : State) : Raises s (packetIn p vc l s) := by
  obtain h | ⟨d, h⟩ := packetIn_cases p vc l s
  · exact h ▸ rspIn_raises ..
  · exact h ▸ .of_dev ..

theorem takePayload_raises (p vc : Nat) (sop : Bool) (payload : List Byte) (s : State) : Raises s (takePayload p vc sop payload s) := by
  unfold takePayload
  dsimp only
  split
  · exact .of_dev ..
  · exact .ite (.of_dev ..) (.ite (.of_dev ..) (.trans (.of_dev ..) (packetIn_raises ..)))

theorem acceptFlit_raises (p : Nat) (l : List Byte) (s : State) : Raises s (acceptFlit p l s) := by
  unfold acceptFlit
  dsimp only
  exact .ite (.of_dev ..) (.set_dev (.trans (.of_dev ..) (takePayload_raises ..)) _)

theorem flitIn_raises (p : Nat) (l : List Byte) (s : State) : Raises s (flitIn p l s) := by
  unfold flitIn
  exact .ite (.refl s) (.ite (.of_dev ..) (.ite (.of_dev ..) (acceptFlit_raises ..)))

/-! ### Items and operations -/

/-- A command's body by its opcode: the rows that change the device alone are left to the last case. -/
theorem runBody_raises (q : QCmd) (s : State) : Raises s (runBody q s) := by
  unfold runBody
  dsimp only
  split
  any_goals exact devBody_raises _ q s
  · exact crewCreateBody_raises q s
  · exact regReadBody_raises q s
  · exact regWriteBody_raises q s
  · exact snapshotBody_raises q s
  · exact regionRegisterBody_raises q s
  · exact regionRevokeBody_raises q s
  · exact sealBody_raises q s
  · exact attestBody_raises q s
  · exact fwStageBody_raises q s
  · exact fwActivateBody_raises q s
  · exact .ite (devBody_raises _ q s) (devBody_raises _ q s)
  · exact expelBody_raises q s
  · exact .refl s

theorem finishItem_raises (id : Nat) (x : Item) (s : State) : Raises s (finishItem id x s) := by
  unfold finishItem
  dsimp only
  split
  · exact .of_dev ..
  split
  · exact .trans (.of_dev ..) (runBody_raises ..)
  · split <;> exact .of_dev ..

theorem finishOp_raises (i : Nat) (s : State) : Raises s (finishOp i s) := by
  unfold finishOp
  dsimp only
  refine .ite (.refl s) ?_
  split
  · exact placeFinish_raises i s
  · exact sealFinish_raises i s
  · exact .of_dev ..
  · exact .of_dev ..
  · exact .of_dev ..
  · exact .of_dev ..
  · exact .refl s

theorem itemStep_raises (finished : List Nat) (s : State) : Raises s (itemStep finished s) := by
  unfold itemStep
  refine .trans (.foldl (fun s x => ?_) _ s) (.foldl (fun s i => finishOp_raises i s) _ _)
  split
  · exact .refl s
  · exact .ite (finishItem_raises ..) (.of_dev ..)

/-! ### The work of a stroke -/

theorem startCmd_raises (q : QCmd) (s : State) : Raises s (startCmd q s) := by
  unfold startCmd
  dsimp only
  split
  · exact .of_dev ..
  · exact .ite (.of_dev ..) (.trans (.of_dev ..) (runBody_raises ..))

theorem dispatch_raises (n : Nat) (h : Nat × Nat) (q : QCmd) (s : State) : Raises s (dispatch n h q s) := by
  unfold dispatch
  dsimp only
  refine .ite ?_ (.trans (.of_dev ..) (startCmd_raises ..))
  split <;> exact .of_dev ..

theorem arbitrate_raises (n fuel : Nat) (first : Bool) (passed : List (Nat × Nat)) (s : State) :
    Raises s (arbitrate n fuel first passed s) := by
  induction fuel generalizing first passed s with
  | zero => exact .refl s
  | succ fuel ih =>
    unfold arbitrate
    dsimp only
    split
    · exact .of_dev ..
    · exact .ite (.trans (.of_dev ..) (ih ..)) (.trans (.of_dev ..) (.trans (dispatch_raises ..) (ih ..)))

theorem crewWork_raises (n : Nat) (s : State) : Raises s (crewWork n s) := .ite (.refl s) (arbitrate_raises ..)

theorem managementWork_raises (i fuel : Nat) (s : State) : Raises s (managementWork i fuel s) := by
  induction fuel generalizing s with
  | zero => exact .refl s
  | succ fuel ih =>
    unfold managementWork
    split
    · exact .refl s
    · exact .ite (.trans (startCmd_raises ..) (ih _)) (.refl s)

theorem allManagement_raises (s : State) : Raises s (allManagement s) := by
  unfold allManagement
  refine .foldl (fun s x => ?_) _ s
  exact managementWork_raises x.1 4 s

theorem retryOne_raises (e : QCmd × Nat) (s : State) : Raises s (retryOne e s) := by
  unfold retryOne
  dsimp only
  exact .ite (.of_dev ..) (.trans (.of_dev ..) (runBody_raises ..))

theorem retryAll_raises (s : State) : Raises s (retryAll s) := .foldl (fun s e => retryOne_raises e s) _ s

theorem parkedResume_raises (job : Nat) (s : State) : Raises s (parkedResume job s) := by
  unfold parkedResume
  dsimp only
  refine .set_dev ?_ _
  split
  · exact .of_dev ..
  · exact .trans (.of_dev ..) (retryOne_raises ..)

theorem crewStep_raises (s : State) : Raises s (crewStep s) := .foldl (fun s n => crewDrainEnd_raises n s) _ s

theorem workStep_raises (s : State) : Raises s (workStep s) := by
  unfold workStep
  dsimp only
  refine .set_dev (.trans (.trans (.trans (.of_dev ..) (retryAll_raises _)) (allManagement_raises _)) (.foldl (fun s c => ?_) _ _)) _
  exact crewWork_raises c.1 s

/-! ### The boundary -/

theorem closeStroke_raises (finished : List Nat) (s : State) : Raises s (closeStroke finished s) :=
  .set_dev (.trans (.of_dev ..) (itemStep_raises ..)) _

theorem afterWork_raises (s : State) : Raises s (afterWork s) := .set_dev (.trans (.of_dev ..) (crewStep_raises _)) _

theorem strokeBoundary_raises (finished : List Nat) (s : State) : Raises s (strokeBoundary finished s) := by
  unfold strokeBoundary
  dsimp only
  refine .ite (.refl s) (.trans (snapTrigger_raises s) (.ite ?_ ?_))
  · exact .trans (.set_dev (.trans (.of_dev ..) (allManagement_raises _)) _) (settle_raises _)
  · have hwork := (closeStroke_raises finished (snapTrigger s)).set_dev (advance (closeStroke finished (snapTrigger s)).dev)
    exact ((hwork.trans (workStep_raises _)).trans (afterWork_raises _)).trans (settle_raises _)

end Sys2Proof.Machine
end

section
/-! No step lowers a replay-protected counter (O60). -/

namespace Sys2Proof.Machine

/-- Every command and event goes on, lowers no counter and leaves the waiting commands: first the rows that change the device alone, then
the other rows, the register writes, and the events that change more than the device; every other event changes the device alone. -/
theorem exec_raises (i : Instr) (s : State) : ∃ t, exec i s = .next t ∧ Raises s t := by
  cases i with
  | nop | sessionClose | queueCreate | queueAttach | queueDelete | segmentSet | faultResolveReplay | faultResolveFail | placeToDense |
    placeToDram | tierEvict | countersRead | windowCreate | windowAdvance | windowDelete | expand | factor | imageLoad | scratchLoad |
    scratchStore | expert | attnPartial | combine | insert | delete | search | filterSet | filterClear | mergeAttach | mergeFold |
    mergeDetach | keyImport | keyRetire | logRead | faultRead | faultAck | pairJoinSync | pairJoinSwitch | pairLeave | ownerQuery |
    ownerClaim | ownerRenew | ownerOffer | ownerAccept | ownerAbort | ownerRelease | ownerTake | pool | hotsetLoad | hotsetDrop |
    rowReplicateSet | rowReplicateClear | rowPublish | rowMove | rowConvert | tableCreate | tableSwitch | tableDelete | longopQuery |
    suspend | resume | cancel | crewReset | crewDelete | read | write | fill | copy | atomic | fence =>
    exact ⟨_, rfl, runRow_devBody_raises ..⟩
  | crewCreate => exact ⟨_, rfl, runRow_raises _ _ crewCreateBody_raises s⟩
  | regRead => exact ⟨_, rfl, runRow_raises _ _ regReadBody_raises s⟩
  | regWrite => exact ⟨_, rfl, runRow_raises _ _ regWriteBody_raises s⟩
  | regionRegister => exact ⟨_, rfl, runRow_raises _ _ regionRegisterBody_raises s⟩
  | expel => exact ⟨_, rfl, runRow_raises _ _ expelBody_raises s⟩
  | attest => exact ⟨_, rfl, runRow_raises _ _ attestBody_raises s⟩
  | fwStage => exact ⟨_, rfl, runRow_raises _ _ fwStageBody_raises s⟩
  | fwActivate => exact ⟨_, rfl, runRow_raises _ _ fwActivateBody_raises s⟩
  | snapshotNow | snapshotAt | snapshotDisarm =>
    exact ⟨_, rfl, runRow_raises _ _ snapshotBody_raises s⟩
  | regionRevokeRekey | regionRevokeRelease =>
    exact ⟨_, rfl, runRow_raises _ _ regionRevokeBody_raises s⟩
  | sealExtent | sealLogCreate | sealKvAppend =>
    exact ⟨_, rfl, runRow_raises _ _ sealBody_raises s⟩
  | registerWrite | schQconfApply | schQconfSelect | schQshapeApply | schQshapeSelect | stkPeriodAt | wskMark | wskUnmark |
    wskMarkSelect | snpFrozenRelease | pwrStandbyEnter | pwrStandbyLeave =>
    exact ⟨_, rfl, storeReg_raises ..⟩
  | engCrewSpad | tirCrewCache | wskProfPublish | wskProfDisable =>
    exact ⟨_, rfl, .ite (storeReg_raises ..) (.refl s)⟩
  | crewResetDrainEnd => exact ⟨_, rfl, .trans (crewDrainEnd_raises ..) (settle_raises _)⟩
  | bootRom => exact ⟨_, rfl, .trans (bootRom_raises ..) (settle_raises _)⟩
  | bootLoader => exact ⟨_, rfl, .trans (bootLoader_raises ..) (settle_raises _)⟩
  | crewRestore => exact ⟨_, rfl, .trans (crewRestore_raises ..) (settle_raises _)⟩
  | attestBatchClose => exact ⟨_, rfl, .trans (attestClose_raises ..) (settle_raises _)⟩
  | rsp => exact ⟨_, rfl, .trans (rspIn_raises ..) (settle_raises _)⟩
  | flit => exact ⟨_, rfl, .trans (flitIn_raises ..) (settle_raises _)⟩
  | parkedResume => exact ⟨_, rfl, .trans (parkedResume_raises ..) (settle_raises _)⟩
  | witnessAnswer => exact ⟨_, rfl, .trans (.ite (witnessAnswer_raises ..) (.of_dev ..)) (settle_raises _)⟩
  | snapshotAtTrigger => exact ⟨_, rfl, snapTrigger_raises ..⟩
  | snapIn => exact ⟨_, rfl, snapPin_raises ..⟩
  | powerEnFall => exact ⟨_, rfl, powerFall_raises ..⟩
  | inputOutOfRange => exact ⟨_, rfl, inputFails_raises ..⟩
  | warmReset => exact ⟨_, rfl, warmReset_raises ..⟩
  | pwrResetModule => exact ⟨_, rfl, resetByWrite_raises ..⟩
  | strokeBoundary => exact ⟨_, rfl, strokeBoundary_raises ..⟩
  | _ => exact ⟨_, rfl, onDev_raises ..⟩

/-- Settles O60: every command and event only raises the counters, so a bound below them stays below; an idle step changes nothing. -/
theorem replayProtectedCountersNeverGoBack : Obligations.ReplayProtectedCountersNeverGoBack := by
  unfold Obligations.ReplayProtectedCountersNeverGoBack
  intro bound s t hstep hbound
  suffices h : NvLe s.nv t.nv ∧ t.pending = s.pending.tail from ⟨nvLe_trans hbound h.1, h.2⟩
  unfold step at hstep
  split at hstep
  next hq =>
    obtain rfl := Host.Outcome.next.inj hstep
    exact ⟨nvLe_refl s.nv, by rw [hq, List.tail_nil]⟩
  next c rest hq =>
    obtain ⟨u, hu, hraises⟩ := exec_raises c { s with pending := rest }
    obtain rfl := Host.Outcome.next.inj (hu.symm.trans hstep)
    exact ⟨hraises.nv, hraises.pending.trans (by rw [hq, List.tail_cons])⟩

end Sys2Proof.Machine
end

section
/-! FAULT_RESOLVE: the accesses parked on a fault released (R93, R103). -/

namespace Sys2Proof.Machine

section Resolve
variable {q : QCmd} {d : Dev}

/-- A FAULT_RESOLVE whose fault is in use under its current generation, by a command with the right to resolve it, is answered, and the
accesses parked on the slot are replayed or fail in turn before it is freed. -/
theorem faultResolveBody_of_current {h : Nat} (hh : pNat q.cmd 0 4 = h) (ha : pNat q.cmd 4 1 < 2) (hr : bitsOf h 23 10 = 0)
    (hu : (slotOf d (h % 1024)).used = true) (hg : (slotOf d (h % 1024)).gen = h / 2 ^ 24)
    (hc : (ctxOf d (slotOf d (h % 1024)).context).crew = q.cmd.crew ∨ fromManagement d q = true) :
    faultResolveBody q d =
      let e := complete q stOk [] [] d
      freeFault (h % 1024) ((slotJobs e (h % 1024)).foldl (fun e j => if pNat q.cmd 4 1 = 0 then replayJob j.1 j.2 e
        else failJob j.2 stSegmentFault { e with jobs := tDel e.jobs j.1 }) e) := by
  subst hh
  have hright : ¬((ctxOf d (slotOf d (pNat q.cmd 0 4 % 1024)).context).crew ≠ q.cmd.crew ∧ (!fromManagement d q) = true) := by
    rintro ⟨hne, hno⟩
    exact hc.elim hne fun hm => by simp [hm] at hno
  unfold faultResolveBody
  simp only [hr, hu, hg, hright, Nat.not_le.mpr ha, ne_eq, not_true_eq_false, Bool.not_true, Bool.false_eq_true, or_self,
    if_false, completeSt]

theorem faultResolveBody_of_replay {h : Nat} (hh : pNat q.cmd 0 4 = h) (ha : pNat q.cmd 4 1 = 0) (hr : bitsOf h 23 10 = 0)
    (hu : (slotOf d (h % 1024)).used = true) (hg : (slotOf d (h % 1024)).gen = h / 2 ^ 24)
    (hc : (ctxOf d (slotOf d (h % 1024)).context).crew = q.cmd.crew ∨ fromManagement d q = true) :
    faultResolveBody q d =
      let e := complete q stOk [] [] d
      freeFault (h % 1024) ((slotJobs e (h % 1024)).foldl (fun e j => replayJob j.1 j.2 e) e) := by
  rw [faultResolveBody_of_current hh (by omega) hr hu hg hc]
  simp only [ha, if_true]

theorem faultResolveBody_of_fail {h : Nat} (hh : pNat q.cmd 0 4 = h) (ha : pNat q.cmd 4 1 = 1) (hr : bitsOf h 23 10 = 0)
    (hu : (slotOf d (h % 1024)).used = true) (hg : (slotOf d (h % 1024)).gen = h / 2 ^ 24)
    (hc : (ctxOf d (slotOf d (h % 1024)).context).crew = q.cmd.crew ∨ fromManagement d q = true) :
    faultResolveBody q d =
      let e := complete q stOk [] [] d
      freeFault (h % 1024) ((slotJobs e (h % 1024)).foldl
        (fun e j => failJob j.2 stSegmentFault { e with jobs := tDel e.jobs j.1 }) e) := by
  rw [faultResolveBody_of_current hh (by omega) hr hu hg hc]
  simp only [ha, one_ne_zero, if_false]

end Resolve

/-- Settles O6: a fault that passes the checks is resolved by replaying its accesses, or by failing them. -/
theorem faultResolveReleasesAccesses : Obligations.FaultResolveReleasesAccesses := by
  unfold Obligations.FaultResolveReleasesAccesses
  constructor <;> intro c s q t hb ha h f hr hu hg hc
  · exact next_ends_of_begins hb (faultResolveBody_of_replay rfl ha hr hu hg hc)
  · exact next_ends_of_begins hb (faultResolveBody_of_fail rfl ha hr hu hg hc)

end Sys2Proof.Machine
end

section
/-! SEGMENT_SET: descriptors and headers (R85, R92, R102). -/

namespace Sys2Proof.Machine

@[simp] theorem ctxOf_setCtx_self (k : Nat) (x : Context) (d : Dev) : ctxOf (setCtx k x d) k = x := by simp [ctxOf, setCtx]
theorem ctxOf_setCtx_ne (k j : Nat) (x : Context) (d : Dev) (h : j ≠ k) : ctxOf (setCtx k x d) j = ctxOf d j := by
  simp [ctxOf, setCtx, tGet?_tSet_ne _ _ h]

/-- The device without what a SEGMENT_SET may change before its completion: the contexts, the cached descriptors and the change log. -/
def Dev.offSegment (d : Dev) : Dev := { d with contexts := [], dcache := [], log := {} }

/-- What a SEGMENT_SET of a context makes of it, from the 32 bytes given: a descriptor stored, a header claimed or written again, or
the context released (R85, R102). -/
def contextSet (crew sg : Nat) (data : List Byte) (k : Context) : Context :=
  let w0 := fieldLe data 0 8
  let w1 := fieldLe data 8 8
  if sg < 64 then { k with segs := tSet k.segs sg (parseSeg data) }
  else if bitAt w0 63 then
    { k with en := true, crew := if k.en then k.crew else crew, reqMask := bitsOf w0 47 24, reqId := bitsOf w0 23 0
             gen := if k.en then k.gen else nextGen8 k.gen, faultEn := bitAt w1 15, faultQueue := bitsOf w1 14 0
             lost := if k.en then k.lost else false }
  else { gen := k.gen }

section Set
variable (crew : Nat) {sg : Nat} {data : List Byte} (k : Context)

theorem contextSet_of_descriptor (h : sg < 64) : contextSet crew sg data k = { k with segs := tSet k.segs sg (parseSeg data) } := if_pos h

theorem contextSet_of_header (h : sg = 64) (hen : bitAt (fieldLe data 0 8) 63 = true) :
    contextSet crew sg data k =
      { k with en := true, crew := if k.en then k.crew else crew, reqMask := bitsOf (fieldLe data 0 8) 47 24
               reqId := bitsOf (fieldLe data 0 8) 23 0, gen := if k.en then k.gen else nextGen8 k.gen
               faultEn := bitAt (fieldLe data 8 8) 15, faultQueue := bitsOf (fieldLe data 8 8) 14 0
               lost := if k.en then k.lost else false } := by
  subst h
  exact if_pos hen

theorem contextSet_of_release (h : sg = 64) (hen : bitAt (fieldLe data 0 8) 63 = false) : contextSet crew sg data k = { gen := k.gen } := by
  subst h
  exact if_neg (Bool.eq_false_iff.mp hen)

end Set

/-- The device with the cached entries dropped that a SEGMENT_SET makes stale (R92): those of the segment, or of the context released. -/
def dropEntries (n sg : Nat) (data : List Byte) (d : Dev) : Dev :=
  if sg < 64 then dropCache n (some sg) d else if bitAt (fieldLe data 0 8) 63 then d else dropCache n none d

/-- The device that a SEGMENT_SET leaves before its completion. -/
def segmentStored (q : QCmd) (d : Dev) : Dev :=
  let n := pNat q.cmd 0 2
  let sg := pNat q.cmd 2 1
  let data := slice q.cmd.params 8 32
  let k := ctxOf d n
  dropEntries n sg data (setCtx n (contextSet q.cmd.crew sg data k)
    (logCmd q (if k.en then k.crew else q.cmd.crew) 5 (n + k.gen * 2 ^ 16) 0 (leNat data + 1) d))

theorem segmentSetBody_of_passes {q : QCmd} {d : Dev} (h : segmentCheck d q = none) :
    segmentSetBody q d = complete q stOk [] [] (segmentStored q d) := by
  unfold segmentSetBody segmentStored dropEntries contextSet
  simp only [h, completeSt]
  split
  · rfl
  · split <;> rfl

/-- Of the entries cached of a segment whose descriptor was stored none is left. -/
theorem dropEntries_of_descriptor {n sg : Nat} {data : List Byte} {d : Dev} (h : sg < 64) :
    ∀ e ∈ (dropEntries n sg data d).dcache, ¬(e.2.1 = n ∧ e.2.2.1 = sg) := by
  rintro e he ⟨hn, hsg⟩
  rw [dropEntries, if_pos h] at he
  have hkept := (List.mem_filter.mp he).2
  simp [hn, hsg] at hkept

/-- Of the entries cached of a context that was released none is left. -/
theorem dropEntries_of_release {n sg : Nat} {data : List Byte} {d : Dev} (h : sg = 64) (hen : bitAt (fieldLe data 0 8) 63 = false) :
    ∀ e ∈ (dropEntries n sg data d).dcache, e.2.1 ≠ n := by
  subst h
  rintro e he hn
  rw [dropEntries, if_neg (Nat.lt_irrefl 64), if_neg (Bool.eq_false_iff.mp hen)] at he
  have hkept := (List.mem_filter.mp he).2
  simp [hn] at hkept

@[simp] theorem ctxOf_dropEntries (n sg j : Nat) (data : List Byte) (d : Dev) : ctxOf (dropEntries n sg data d) j = ctxOf d j := by
  unfold dropEntries
  split
  · rfl
  · split <;> rfl

@[simp] theorem offSegment_dropEntries (n sg : Nat) (data : List Byte) (d : Dev) : (dropEntries n sg data d).offSegment = d.offSegment := by
  unfold dropEntries
  split
  · rfl
  · split <;> rfl

@[simp] theorem ctxOf_logCmd (q : QCmd) (o k b x y j : Nat) (d : Dev) : ctxOf (logCmd q o k b x y d) j = ctxOf d j := by
  rw [logCmd_eq]
  rfl

section Stored
variable (q : QCmd) (d : Dev)

theorem ctxOf_segmentStored_self : ctxOf (segmentStored q d) (pNat q.cmd 0 2) =
    contextSet q.cmd.crew (pNat q.cmd 2 1) (slice q.cmd.params 8 32) (ctxOf d (pNat q.cmd 0 2)) := by
  simp [segmentStored]

theorem ctxOf_segmentStored_ne {x : Nat} (h : x ≠ pNat q.cmd 0 2) : ctxOf (segmentStored q d) x = ctxOf d x := by
  simp [segmentStored, ctxOf_setCtx_ne _ _ _ _ h]

theorem offSegment_segmentStored : (segmentStored q d).offSegment = d.offSegment := by
  unfold segmentStored
  dsimp only
  rw [offSegment_dropEntries, logCmd_eq]
  rfl

end Stored

/-- Settles O5: a descriptor, a header with EN = 1 and one with EN = 0, by what each makes of its context and of the cached entries. -/
theorem segmentSetStoresWhole : Obligations.SegmentSetStoresWhole := by
  unfold Obligations.SegmentSetStoresWhole
  intro c s q t hb hpass n sg data k w0 w1
  have hself : ctxOf (segmentStored q t.dev) n = contextSet q.cmd.crew sg data k := ctxOf_segmentStored_self q t.dev
  have hoff := offSegment_segmentStored q t.dev
  refine ⟨segmentStored q t.dev, next_ends_of_begins hb (segmentSetBody_of_passes hpass), fun hsg => ?_, fun hsg hen => ?_,
    fun hsg hen => ?_, fun x hx => ctxOf_segmentStored_ne q t.dev hx, (congrArg Dev.regions hoff :), (congrArg Dev.mem hoff :),
    (congrArg Dev.crews hoff :)⟩
  · rw [hself, contextSet_of_descriptor _ _ hsg]
    exact ⟨tGet?_tSet_self .., fun x hx => tGet?_tSet_ne _ _ hx, dropEntries_of_descriptor hsg⟩
  · rw [hself, contextSet_of_header _ _ hsg hen]
    exact ⟨rfl, rfl, rfl, rfl, rfl, rfl, rfl, rfl⟩
  · exact ⟨hself.trans (contextSet_of_release _ _ hsg hen), dropEntries_of_release hsg hen⟩

end Sys2Proof.Machine
end

section
/-! REGION_REGISTER (R98, R352, R389). -/

namespace Sys2Proof.Machine

/-! ### The run entered -/

theorem mem_regionRun {first n r : Nat} : r ∈ regionRun first n ↔ first ≤ r ∧ r < first + n := by
  simp only [regionRun, List.mem_map, List.mem_range]
  constructor
  · rintro ⟨i, hi, rfl⟩
    omega
  · rintro ⟨hlow, hhigh⟩
    exact ⟨r - first, by omega, by omega⟩

/-- A table of regions in which each region of a list is given the same entry. -/
theorem tGet?_enter_foldl (r : Region) (l : List Nat) (d : Dev) (x : Nat) :
    tGet? (l.foldl (fun d i => { d with regions := tSet d.regions i r }) d).regions x =
      if x ∈ l then some r else tGet? d.regions x := by
  induction l generalizing d with
  | nil => rfl
  | cons i l ih =>
    rw [List.foldl_cons, ih, tGet?_tSet]
    by_cases hl : x ∈ l <;> by_cases hi : x = i <;> simp [hl, hi]

theorem tGet?_enterRegions (first n : Nat) (r : Region) (d : Dev) (x : Nat) :
    tGet? (enterRegions first n r d).regions x = if first ≤ x ∧ x < first + n then some r else tGet? d.regions x := by
  simp only [enterRegions, tGet?_enter_foldl, mem_regionRun]

@[simp] theorem enterRegions_crews (first n : Nat) (r : Region) (d : Dev) : (enterRegions first n r d).crews = d.crews :=
  view_foldl Dev.crews (by intros; rfl) _ d

/-- Every byte of the regions entered reads as zero. -/
theorem memByte_enterRegions {first n a : Nat} (r : Region) (d : Dev) (hlow : first * 2 ^ 21 ≤ a) (hhigh : a < (first + n) * 2 ^ 21) :
    memByte (enterRegions first n r d).mem a = 0 := by
  unfold enterRegions
  dsimp only
  exact memByte_memClear_in _ hlow (by rwa [← Nat.add_mul])

/-! ### The quota -/

theorem crewOf_modCrew_self {n : Nat} {d : Dev} {c : Crew} (f : Crew → Crew) (h : tGet? d.crews n = some c) :
    crewOf (modCrew n f d) n = f c := by
  simp [crewOf, modCrew, tGet?_tMod, h]

@[simp] theorem crewOf_logCmd (q : QCmd) (o k b x y n : Nat) (d : Dev) : crewOf (logCmd q o k b x y d) n = crewOf d n := by
  rw [logCmd_eq]
  rfl

/-- A REGION_REGISTER that passes its checks has regions to register and its crew's quota has room for them: the crew exists. -/
theorem crew_of_registerCheck {q : QCmd} {d : Dev} (h : registerCheck d q = none) : ∃ c, tGet? d.crews q.cmd.crew = some c := by
  cases hc : tGet? d.crews q.cmd.crew with
  | some c => exact ⟨c, rfl⟩
  | none =>
    have hleft : dramLeft d q.cmd.crew = 0 := by simp [dramLeft, crewOf, hc]
    unfold registerCheck at h
    simp only [hleft] at h
    split_ifs at h
    omega

/-! ### The row -/

/-- The keys drawn by a registration change nothing of the device. -/
theorem drawKey_if_dev (b : Bool) (s : State) : (if b then drawKey s else (0, s)).2.dev = s.dev := by
  cases b <;> rfl

/-- The device of a registration before its completion: the regions entered, the quota charged and the change logged. -/
def runEntered (q : QCmd) (r : Region) (d : Dev) : Dev :=
  let n := pNat q.cmd 8 4
  logCmd q q.cmd.crew 2 (pNat q.cmd 0 8) 0 r.key
    (modCrew q.cmd.crew (fun x => { x with dramUsed := x.dramUsed + n }) (enterRegions (regionNo (pNat q.cmd 0 8)) n r d))

section Entered
variable (q : QCmd) (r : Region) (d : Dev)

theorem runEntered_regions : (runEntered q r d).regions = (enterRegions (regionNo (pNat q.cmd 0 8)) (pNat q.cmd 8 4) r d).regions := by
  rw [runEntered, logCmd_eq, modCrew_regions]

theorem runEntered_mem : (runEntered q r d).mem = (enterRegions (regionNo (pNat q.cmd 0 8)) (pNat q.cmd 8 4) r d).mem := by
  rw [runEntered, logCmd_eq, modCrew_mem]

theorem crewOf_runEntered {c : Crew} (h : tGet? d.crews q.cmd.crew = some c) :
    crewOf (runEntered q r d) q.cmd.crew = { c with dramUsed := c.dramUsed + pNat q.cmd 8 4 } := by
  have hcrew : tGet? (enterRegions (regionNo (pNat q.cmd 0 8)) (pNat q.cmd 8 4) r d).crews q.cmd.crew = some c := by
    rw [enterRegions_crews, h]
  rw [runEntered, crewOf_logCmd, crewOf_modCrew_self _ hcrew]

end Entered

theorem regionRegisterBody_of_passes {q : QCmd} {t : State} (h : registerCheck t.dev q = none) :
    let first := regionNo (pNat q.cmd 0 8)
    let n := pNat q.cmd 8 4
    let flags := pNat q.cmd 12 1
    let k := drawKey t
    let g := if bitAt flags 1 then drawKey k.2 else (0, k.2)
    let r : Region := { crew := q.cmd.crew, key := newKeyWord k.1, paired := bitAt flags 0, prot := bitAt flags 1
                        revert := bitAt flags 2, dgen := g.1 }
    let d := runEntered q r g.2.dev
    regionRegisterBody q t = { g.2 with dev := if bitAt flags 0 then waitMirrored q [k.1, 1] (sendRegion first n 1 r d)
                                               else complete q stOk [k.1, 1] [] d } := by
  simp only [regionRegisterBody, h]
  rfl

/-- Settles O3: the unpaired form by what its run, its other regions, its bytes and its quota become; the paired form as it stands. -/
theorem regionRegisterEntersRegions : Obligations.RegionRegisterEntersRegions := by
  unfold Obligations.RegionRegisterEntersRegions
  constructor <;> intro c s q t hb hpass hpaired first n flags k g
  · have hrow := next_settle_of_begins hb (regionRegisterBody_of_passes hpass)
    obtain ⟨x, hx⟩ := crew_of_registerCheck hpass
    simp only [hpaired, Bool.false_eq_true, if_false] at hrow
    refine ⟨_, hrow, fun r hlow hhigh => ?_, fun r hout => ?_, fun a hlow hhigh => ?_, ?_⟩
    · rw [runEntered_regions, tGet?_enterRegions, if_pos ⟨hlow, hhigh⟩]
    · rw [runEntered_regions, tGet?_enterRegions, if_neg (by omega), drawKey_if_dev]
      rfl
    · rw [runEntered_mem]
      exact memByte_enterRegions _ _ hlow hhigh
    · rw [crewOf_runEntered _ _ _ (by rw [drawKey_if_dev]; exact hx), crewOf, hx]
      rfl
  · intro r
    have hrow := next_settle_of_begins hb (regionRegisterBody_of_passes hpass)
    simp only [hpaired, if_true] at hrow
    exact hrow

end Sys2Proof.Machine
end

section
/-! A write or an atomic of one line that nothing stands in the way of (R106, R119, R120, Table 4-4). -/

namespace Sys2Proof.Machine

/-! ### Bytes -/

@[simp] theorem length_toLe (n v : Nat) : (toLe n v).length = n := by
  induction n generalizing v with
  | zero => rfl
  | succ n ih => simp [toLe, ih]

@[simp] theorem length_memRead (m : List Host.Cell) (a n : Nat) : (memRead m a n).length = n := by simp [memRead]

@[simp] theorem length_lineData (d : Dev) (l : Nat) : (lineData d l).length = 128 := length_memRead ..

theorem leNat_lt (l : List Byte) : leNat l < 256 ^ l.length := by
  induction l with
  | nil => simp [leNat]
  | cons b l ih =>
    have hb := b.isLt
    simp only [leNat, List.length_cons, pow_succ]
    omega

/-- The little-endian bytes of a number that they can hold spell it. -/
theorem leNat_toLe (n : Nat) {v : Nat} (h : v < 256 ^ n) : leNat (toLe n v) = v := by
  induction n generalizing v with
  | zero => simp only [pow_zero, Nat.lt_one_iff] at h; simp [toLe, leNat, h]
  | succ n ih =>
    have hd : v / 256 < 256 ^ n := Nat.div_lt_of_lt_mul (by rw [pow_succ] at h; omega)
    simp only [toLe, leNat, ih hd, BitVec.toNat_ofNat]
    omega

/-- A run of a line's bytes is what memory holds there. -/
theorem lineData_drop_take {d : Dev} {a n : Nat} (h : a % 128 + n ≤ 128) :
    ((lineData d (lineOf a)).drop (a % 128)).take n = memRead d.mem a n := by
  refine List.ext_getElem (by simp; omega) fun i _ _ => ?_
  simp only [lineData, memRead, lineOf, List.getElem_take, List.getElem_drop, List.getElem_map, List.getElem_range]
  congr 1
  omega

theorem mem_setLine (l : Nat) (b : List Byte) (d : Dev) : (setLine l b d).mem = memWrite d.mem (l * 128) (slice b 0 128) := by
  simp only [setLine]

/-- A line whose home value is replaced: its own bytes are the new ones, and every other byte is as before. -/
theorem memByte_setLine {d : Dev} (hm : Memory.wf d.mem = true) {l : Nat} {b : List Byte} (hb : b.length = 128) (x : Nat) :
    memByte (setLine l b d).mem x = if lineOf x = l then b.getD (x % 128) 0 else memByte d.mem x := by
  rw [mem_setLine, slice_whole hb]
  by_cases hx : lineOf x = l
  · have hwrite := memByte_memWrite b d.mem (l * 128) (x % 128) hm (by omega)
    rw [lineOf] at hx
    rw [show l * 128 + x % 128 = x by omega] at hwrite
    rw [hwrite, lineOf, if_pos hx, List.getD_eq_getElem?_getD, List.getElem?_eq_getElem (by omega), Option.getD_some]
  · rw [if_neg hx]
    rw [lineOf] at hx
    exact memByte_memWrite_ne b _ _ _ hm (by omega)

theorem wf_setLine {d : Dev} (hm : Memory.wf d.mem = true) (l : Nat) (b : List Byte) : Memory.wf (setLine l b d).mem = true := by
  rw [mem_setLine]
  exact memWrite_wf _ _ _ hm

/-! ### Parts of one line -/

theorem mod_add_le_of_line {a n : Nat} (hl : lineOf (a + n - 1) = lineOf a) : a % 128 + n ≤ 128 := by
  simp only [lineOf] at hl
  omega

/-- An access within one line is one part (R107). -/
theorem splitParts_of_line {a n : Nat} (hn : 0 < n) (hl : lineOf (a + n - 1) = lineOf a) (key : Nat) (act : Act) (data : List Byte) :
    splitParts a n key act data = [{ addr := a, len := n, key, act, data := data.take n }] := by
  have hlo : max a ((lineOf a + 0) * 128) = a := by simp only [lineOf]; omega
  have hhi : min (a + n) ((lineOf a + 0 + 1) * 128) = a + n := by
    have := mod_add_le_of_line hl
    simp only [lineOf]
    omega
  have hcount : (if n = 0 then 0 else lineOf (a + n - 1) - lineOf a + 1) = 1 := by simp [hl, Nat.ne_of_gt hn]
  simp only [splitParts, hcount, List.range_one, List.map_cons, List.map_nil, hlo, hhi, Nat.sub_self, List.drop_zero,
    Nat.add_sub_cancel_left]

theorem cutRanges_of_line {x : Part} (hn : 0 < x.len) (hl : lineOf (x.addr + x.len - 1) = lineOf x.addr) :
    cutRanges [x] = [{ addr := x.addr, len := x.len, off := x.off, key := x.key, act := x.act, data := x.data.take x.len,
                       clear := x.clear, poisoned := x.poisoned, flags := x.flags }] := by
  simp [cutRanges, splitParts_of_line hn hl]

/-- The bytes that a part puts at its address, from what memory holds. -/
def Part.stores (d : Dev) (p : Part) : List Byte := match p.act with
  | .read => []
  | .write => p.data
  | .atomic op size operand compare => toLe size (atomicResult op size (leNat (memRead d.mem p.addr size)) operand compare)

/-- The data that a part has once it has acted: a write's own, an atomic's old value. -/
def Part.keeps (d : Dev) (p : Part) : List Byte := match p.act with
  | .atomic _ size _ _ => toLe 16 (leNat (memRead d.mem p.addr size))
  | _ => p.data

/-- A write or an atomic fills its place in one line. -/
structure Part.Fits (d : Dev) (p : Part) : Prop where
  pos : 0 < p.len
  line : p.addr % 128 + p.len ≤ 128
  change : p.act ≠ .read
  stores : (p.stores d).length = p.len

theorem Part.Fits.of_mem {d e : Dev} {p : Part} (hp : p.Fits d) (hm : e.mem = d.mem) : p.Fits e :=
  ⟨hp.pos, hp.line, hp.change, by
    unfold Part.stores
    rw [hm]
    exact hp.stores⟩

/-- A part that has acted at its home. -/
def Part.storedIn (d : Dev) (p : Part) : Part :=
  { p.fin (if p.poisoned then stPoisoned else stOk) with data := p.keeps d }

/-- The device once a write or an atomic has acted at its home: the access is counted, the line changed, and its mark set, or cleared by
a whole line (R126). -/
def storePart (p : Part) (d : Dev) : Dev :=
  let line := lineOf p.addr
  let d := setLine line (overlay (lineData d line) (p.addr % 128) (p.stores d)) (countAccess p.addr d)
  if p.poisoned then poisonLine line d else if p.whole then unpoison line d else d

theorem mem_storePart (p : Part) (d : Dev) :
    (storePart p d).mem = (setLine (lineOf p.addr) (overlay (lineData d (lineOf p.addr)) (p.addr % 128) (p.stores d)) d).mem := by
  have hcount : (countAccess p.addr d).mem = d.mem := by rw [countAccess_eq]
  have hline (b : List Byte) : (setLine (lineOf p.addr) b (countAccess p.addr d)).mem = (setLine (lineOf p.addr) b d).mem := by
    rw [mem_setLine, mem_setLine, hcount]
  unfold storePart
  exact view_ite Dev.mem ((poisonLine_mem ..).trans (hline _))
    (view_ite Dev.mem ((unpoison_mem ..).trans (hline _)) (hline _))

/-- A write or an atomic changes of the device its line, that line's mark and the counters. -/
theorem storePart_eq (p : Part) (d : Dev) : ∃ m c, storePart p d = { d with
    mem := m, counters := c
    poison := if p.poisoned then addTo d.poison (lineOf p.addr)
      else if p.whole then d.poison.filter (· != lineOf p.addr) else d.poison } := by
  have hline (l : Nat) (b : List Byte) : ∃ m c, setLine l b (countAccess p.addr d) = { d with mem := m, counters := c } := by
    rw [countAccess_eq, setLine]
    exact ⟨_, _, by dsimp only⟩
  obtain ⟨m, c, h⟩ := hline (lineOf p.addr) (overlay (lineData d (lineOf p.addr)) (p.addr % 128) (p.stores d))
  refine ⟨m, c, ?_⟩
  simp only [storePart, h]
  split
  · rfl
  · split <;> rfl

section Fits
variable {d : Dev} {p : Part} (hp : p.Fits d)
include hp

/-- After a write or an atomic its place holds what it stores, and every other byte is as before. -/
theorem memByte_storePart (hm : Memory.wf d.mem = true) (x : Nat) : memByte (storePart p d).mem x =
    if p.addr ≤ x ∧ x < p.addr + p.len then (p.stores d).getD (x - p.addr) 0 else memByte d.mem x := by
  have hline := hp.line
  have hlen := hp.stores
  rw [mem_storePart, memByte_setLine hm (by simp [overlay]), lineOf, lineOf]
  by_cases hx : x / 128 = p.addr / 128
  · have hover : (overlay (lineData d (p.addr / 128)) (p.addr % 128) (p.stores d)).getD (x % 128) 0
        = if p.addr % 128 ≤ x % 128 ∧ x % 128 < p.addr % 128 + p.len then (p.stores d).getD (x % 128 - p.addr % 128) 0
          else memByte d.mem x := by
      have hl : x % 128 < 128 := Nat.mod_lt _ (by decide)
      have haddr : p.addr / 128 * 128 + x % 128 = x := by omega
      simp only [overlay, length_lineData, hlen, List.getD_eq_getElem?_getD]
      simp [hl, lineData, memRead, haddr]
    rw [if_pos hx, hover]
    by_cases hin : p.addr % 128 ≤ x % 128 ∧ x % 128 < p.addr % 128 + p.len
    · rw [if_pos hin, if_pos (by omega), show x % 128 - p.addr % 128 = x - p.addr by omega]
    · rw [if_neg hin, if_neg (by omega)]
  · rw [if_neg hx, if_neg (by omega)]

theorem memRead_storePart (hm : Memory.wf d.mem = true) : memRead (storePart p d).mem p.addr p.len = p.stores d := by
  have hlen := hp.stores
  refine List.ext_getElem (by simp [hlen]) fun i hi _ => ?_
  have hi' : i < p.len := by simpa using hi
  simp only [memRead, List.getElem_map, List.getElem_range, memByte_storePart hp hm]
  rw [if_pos (by omega), Nat.add_sub_cancel_left, List.getD_eq_getElem?_getD, List.getElem?_eq_getElem (by omega), Option.getD_some]

theorem memByte_storePart_out (hm : Memory.wf d.mem = true) {x : Nat} (hx : x < p.addr ∨ p.addr + p.len ≤ x) :
    memByte (storePart p d).mem x = memByte d.mem x := by
  rw [memByte_storePart hp hm, if_neg (by omega)]

/-- What the model's `Part.apply` makes of a line. -/
theorem apply_of_fits : p.apply (lineData d (lineOf p.addr)) = (overlay (lineData d (lineOf p.addr)) (p.addr % 128) (p.stores d),
    match p.act with
    | .write => []
    | _ => p.keeps d) := by
  obtain ⟨-, hline, hact, hlen⟩ := hp
  cases ha : p.act with
  | read => exact absurd ha hact
  | write => simp only [Part.apply, Part.stores, ha]
  | atomic op size operand compare =>
    simp only [Part.stores, ha, length_toLe] at hlen
    simp only [Part.apply, Part.stores, Part.keeps, ha, fieldLe, lineData_drop_take (hlen ▸ hline : p.addr % 128 + size ≤ 128)]

end Fits

/-! ### Plain lines -/

theorem leaveLine_of_plain {d : Dev} {a key : Nat} (h : Plain d a key) (jid : Nat) : leaveLine jid (lineOf a) d = d := by
  obtain ⟨-, -, -, -, -, -, hpend, -⟩ := h
  have hkeep : (d.pendingBuf.filter fun w => !w.isJob jid (lineOf a)) = d.pendingBuf :=
    List.filter_eq_self.mpr fun w hw => by simp [Pending.isJob, hpend w hw]
  unfold leaveLine
  rw [hkeep]

/-- A part of a plain line acts at once. -/
theorem homeTry_performs {d : Dev} {p : Part} (h : Plain d p.addr p.key) (jid : Nat) (o : Owner) (last : Bool) :
    homeTry jid o last p d = performPart jid o last { p with admitted := true } d := by
  have hk : (if p.admitted then ((none : Option Nat), d) else keyCheck p d) = (none, d) := by
    rw [keyCheck_of_plain h, ite_self]
  have hdirc : dirCheck jid { p with admitted := true } d = (none, d) := dirCheck_of_plain (p := { p with admitted := true }) h jid
  have hleave := leaveLine_of_plain h jid
  obtain ⟨-, hsp, ⟨g, hg, -, -, -, hpaired, hprot, hsealed⟩, hrow, -⟩ := h
  simp [homeTry, hk, hsp, hg, hpaired, hprot, hsealed, hrow, hdirc, hleave]

theorem performPart_of_store {d : Dev} {p : Part} (h : Plain d p.addr p.key) (hp : p.Fits d) (jid : Nat) {o : Owner}
    (ho : o ≠ .device) (last : Bool) : performPart jid o last p d = (p.storedIn d, storePart p d) := by
  obtain ⟨-, -, ⟨r, hr, -, -, -, hpaired, -⟩, -, -, -, -, hpoison, hmirror⟩ := h
  have heq := countAccess_eq p.addr d
  have hbad : isPoisoned (countAccess p.addr d) (lineOf p.addr) = false := by rw [heq]; exact hpoison
  have hmir : mirrorOf (countAccess p.addr d) (lineOf p.addr) = none := by rw [heq]; exact hmirror
  have hreg : ((regionAt (countAccess p.addr d) p.addr).getD {}).paired = false := by
    rw [heq]
    exact (congrArg (fun o : Option Region => (o.getD {}).paired) hr).trans hpaired
  have hline : lineData (countAccess p.addr d) (lineOf p.addr) = lineData d (lineOf p.addr) := by rw [heq]; rfl
  have happ := apply_of_fits hp
  have hact := hp.change
  cases ha : p.act with
  | read => exact absurd ha hact
  | write =>
    simp only [ha] at happ
    simp [performPart, hbad, hmir, hreg, hline, happ, storePart, Part.storedIn, Part.keeps, Part.whole, ha, Part.fin]
  | atomic op size operand compare =>
    simp only [ha] at happ
    simp [performPart, hbad, hmir, hreg, hline, happ, storePart, Part.storedIn, Part.whole, ha, Part.fin]

/-- A part that is still to do, as it is first tried (R55). -/
def Part.begun (d : Dev) (p : Part) : Part := { p with since := if p.since = 0 then d.stk.number else p.since, admitted := true }

/-- A write or an atomic of a plain line that is tried has acted. -/
theorem tryParts_of_store {jid : Nat} {o : Owner} {r n k : Nat} {p : Part} {d : Dev} (h : Plain d p.addr p.key) (hp : p.Fits d)
    (hs : p.state = .todo) (ho : o ≠ .device) :
    tryParts jid o r n k [p] d = ([(p.begun d).storedIn d], storePart p d) := by
  have htry := (homeTry_performs (p := { p with since := if p.since = 0 then d.stk.number else p.since }) h jid o (k + 1 == n)).trans
    (performPart_of_store (p := p.begun d) h ⟨hp.pos, hp.line, hp.change, hp.stores⟩ jid ho (k + 1 == n))
  cases p
  cases hs
  simp only [tryParts, h.1, if_true]
  rw [htry]
  rfl

/-! ### Jobs that end -/

/-- A job all of whose parts end when they are tried leaves what follows their end. -/
theorem runJob_of_finished {jid : Nat} {j : Job} {ps : List Part} {d e e' : Dev} (hj : tGet? d.jobs jid = some j)
    (ht : tryParts jid (if j.goal = .retry then .device else j.owner) j.requester j.parts.length 0 j.parts d = (ps, e))
    (hd : ps.all Part.done = true) (hf : finishJob jid { j with parts := ps, ready := false } e = (none, e')) : runJob jid d = e' := by
  unfold runJob runJobFuel
  rw [hj]
  dsimp only
  rw [ht]
  simp only [hd, if_true, hf]

/-- A job set and run whose one part is a write or an atomic of a plain line. -/
theorem runJob_of_store {jid : Nat} {j : Job} {p : Part} {d e : Dev} (h : Plain d p.addr p.key) (hp : p.Fits d) (hs : p.state = .todo)
    (ho : j.owner ≠ .device) (hg : j.goal ≠ .retry) (hparts : j.parts = [p])
    (hf : finishJob jid { j with parts := [(p.begun d).storedIn d], ready := false } (storePart p (setJob jid j d)) = (none, e)) :
    runJob jid (setJob jid j d) = e := by
  refine runJob_of_finished (j := j) (tGet?_tSet_self ..) ?_ ?_ hf
  · rw [if_neg hg, hparts]
    exact tryParts_of_store (d := setJob jid j d) h (hp.of_mem rfl) hs ho
  · rfl

/-- The status of an access of one part that has ended OK or failed. -/
theorem partsStatus_of_one {x : Part} {st : Nat} (hx : x.state = .ended st) (hst : st = stOk ∨ stSuccess st = false) :
    partsStatus [x] = st := by
  rcases hst with rfl | hst
  · simp [partsStatus, firstBad, Part.done, Part.status, hx, stSuccess, stOk, stOkPartial, stOkThrottled]
  · have hok : st ≠ stOk := by
      rintro rfl
      exact Bool.false_ne_true (hst.symm.trans rfl)
    simp [partsStatus, firstBad, Part.status, hx, hst, hok]

end Sys2Proof.Machine
end

section
/-! ATOMIC (O15). -/

namespace Sys2Proof.Machine

/-- An access of one line part begun for a command whose addresses are hall addresses: its job runs at once. -/
theorem cmdAccess_of_line {q : QCmd} {goal : Goal} {x : Part} {d : Dev} (hn : 0 < x.len)
    (hl : lineOf (x.addr + x.len - 1) = lineOf x.addr) : cmdAccess q false goal [x] d =
      runControl (runJob d.nextId (setJob d.nextId
        { owner := .command q, crew := q.cmd.crew, requester := coxUnit d, stamp := d.stk.number, goal,
          parts := [{ addr := x.addr, len := x.len, off := x.off, key := x.key, act := x.act, data := x.data.take x.len,
                      clear := x.clear, poisoned := x.poisoned, flags := x.flags }] } (freshId d).2)) := by
  rw [← cutRanges_of_line hn hl]
  rfl

section Atomic
variable {d : Dev} {a key op size operand compare : Nat}

theorem line_of_aligned (hsize : size = 4 ∨ size = 8 ∨ size = 16) (ha : a % size = 0) : lineOf (a + size - 1) = lineOf a := by
  simp only [lineOf]
  rcases hsize with rfl | rfl | rfl <;> omega

/-- An atomic on an aligned location fits one line. -/
theorem fits_of_atomic (hsize : size = 4 ∨ size = 8 ∨ size = 16) (ha : a % size = 0) {p : Part} (hp : p.addr = a) (hlen : p.len = size)
    (hact : p.act = .atomic op size operand compare) : p.Fits d where
  pos := by omega
  line := by
    rw [hp, hlen]
    exact mod_add_le_of_line (line_of_aligned hsize ha)
  change := by simp [hact]
  stores := by simp [Part.stores, hact, hlen]

end Atomic

/-- An ATOMIC whose one part has been performed completes with OK and the old value in words 0 to 3 (R121). -/
theorem finishJob_of_atomic {jid : Nat} {j : Job} {q : QCmd} {x : Part} {v : Nat} {d : Dev} (ho : j.owner = .command q)
    (hg : j.goal = .oldValue) (hparts : j.parts = [x]) (hx : x.state = .ended stOk) (hdata : x.data = toLe 16 v) (hv : v < 256 ^ 16) :
    finishJob jid j d =
      (none, complete q stOk ((List.range 4).map fun i => v / 2 ^ (32 * i) % 2 ^ 32) [] (dropJob jid d)) := by
  have hst := partsStatus_of_one hx (Or.inl rfl)
  have hbad : stSuccess (firstBad [x]) = true := by simp [firstBad, Part.status, hx, stSuccess, stOk]
  simp only [finishJob, ho, hg, hparts, hst, hbad, if_true, List.head?_cons, Option.map_some, Option.getD_some, hdata, leNat_toLe 16 hv]

/-- Settles O15: the access that it begins is the row's; its one part acts at once on a plain line. -/
theorem atomicActsAndReturnsOld : Obligations.AtomicActsAndReturnsOld := by
  unfold Obligations.AtomicActsAndReturnsOld
  constructor
  · intro c s q t hb hc size
    refine next_ends_of_begins hb ?_
    simp only [atomicBody, hc]
    rfl
  · intro q a key op size operand compare d hsize ha hplain hm old new
    let p : Part := { addr := a, len := size, key, act := .atomic op size operand compare }
    have hfits (e : Dev) : p.Fits e := fits_of_atomic hsize ha rfl rfl rfl
    have hold : old < 256 ^ 16 := (leNat_lt _).trans_le (Nat.pow_le_pow_right (by decide) (by rw [length_memRead]; omega))
    have hstart := cmdAccess_of_line (q := q) (goal := .oldValue) (d := d) (hfits d).pos (line_of_aligned hsize ha)
    rw [List.take_nil] at hstart
    have hrun := runJob_of_store (jid := d.nextId) (p := p)
      (j := { owner := .command q, crew := q.cmd.crew, requester := coxUnit d, stamp := d.stk.number, goal := .oldValue, parts := [p] })
      (d := (freshId d).2) hplain (hfits _) rfl (by simp) (by simp) rfl (finishJob_of_atomic rfl rfl rfl rfl rfl hold)
    refine ⟨_, (hstart.trans (congrArg runControl hrun) :), fun x => ?_, ?_⟩
    · exact memByte_storePart (hfits _) (d := setJob d.nextId _ (freshId d).2) hm x
    · obtain ⟨m, c, hstore⟩ := storePart_eq p (setJob d.nextId _ (freshId d).2)
      have hwhole : p.whole = false := by simp [Part.whole, p]; omega
      rw [hstore, hwhole]
      exact ⟨rfl, rfl, rfl, rfl, rfl⟩

end Sys2Proof.Machine
end

section
/-! Requests at their home: taken by the entry, served on a plain line, and answered (R119, R181, R182, R187, R193). -/

namespace Sys2Proof.Machine

/-! ### Entry -/

/-- The device once a request is outstanding at its entry module; a relayed one is outstanding elsewhere (R187). -/
def entered (kind : Nat) (p : Req) (d : Dev) : Dev :=
  if bitAt p.entry 15 then d
  else { d with outstanding := d.outstanding ++
    [{ requester := p.source, tag := p.tag, tagGen := p.tagGen, stamp := d.stk.number, kind, req := p }] }

theorem entered_eq (kind : Nat) (p : Req) (d : Dev) : ∃ o, entered kind p d = { d with outstanding := o } := by
  unfold entered
  split
  · exact ⟨d.outstanding, rfl⟩
  · exact ⟨_, rfl⟩

theorem fatal_of_takesTraffic {d : Dev} {n : Nat} (h : takesTraffic d n = true) : d.flt.fatal = false := by
  simp only [takesTraffic, Bool.and_eq_true, Bool.not_eq_true'] at h
  exact h.2

theorem vc_of_reqFormed {kind : Nat} {p : Req} (h : reqFormed kind p = true) : p.vc = if kind = 0x61 then 4 else 1 := by
  simp only [reqFormed, Bool.and_eq_true, beq_iff_eq] at h
  tauto

theorem data_of_reqFormed {kind : Nat} {p : Req} (h : reqFormed kind p = true) (hk : kind ≠ 0x03) :
    p.data.length = reqTail kind p.size := by
  simp only [reqFormed, Bool.and_eq_true, Bool.or_eq_true, beq_iff_eq] at h
  tauto

theorem onRequest_of_formed {kind : Nat} {p : Req} {d : Dev} (ht : takesTraffic d p.port = true) (hd : p.dest = unitId (ownModule d) 0)
    (hf : reqFormed kind p = true) (f : Dev → Dev) : onRequest kind p f d = f d := by
  simp [onRequest, ht, hd, hf]

section Taken
variable {kind : Nat} {p : Req} {d : Dev} (h : Taken kind p d)
include h

theorem fatal_of_taken : d.flt.fatal = false := fatal_of_takesTraffic h.1

theorem vc_of_taken (hk : kind ≠ 0x61) : p.vc = 1 := by
  obtain ⟨-, -, hf, -⟩ := h
  rw [vc_of_reqFormed hf, if_neg hk]

theorem data_of_taken (hk : kind ≠ 0x03) : p.data.length = reqTail kind p.size := by
  obtain ⟨-, -, hf, -⟩ := h
  exact data_of_reqFormed hf hk

theorem onRequest_of_taken (f : Dev → Dev) : onRequest kind p f d = f d := by
  obtain ⟨ht, hd, hf, -⟩ := h
  exact onRequest_of_formed ht hd hf f

theorem enterRequest_of_taken (busy go : Dev → Dev) : enterRequest kind p busy go d = go (entered kind p d) := by
  obtain ⟨-, -, -, -, hfull, hroom⟩ := h
  rcases hroom with he | ⟨huse, hlen⟩
  · simp [enterRequest, entered, hfull, he]
  · by_cases he : bitAt p.entry 15 = true
    · simp [enterRequest, entered, hfull, he]
    · simp [enterRequest, entered, hfull, he, Nat.not_le.mpr huse, Nat.not_le.mpr hlen]

/-- A cacheless request of some bytes that its checks refuse. -/
theorem accessRow_of_refused {act : Act} {refusal : Dev → Option Nat} {st : Nat} (hs : 0 < p.size)
    (hr : refusal (entered kind p d) = some st) : accessRow kind act p refusal d = refuseFabric p act st (entered kind p d) := by
  unfold accessRow
  rw [onRequest_of_taken h, h.2.2.2.1]
  dsimp only
  rw [enterRequest_of_taken h, if_neg (Nat.ne_of_gt hs), hr]

/-- A cacheless request of some bytes that passes its checks. -/
theorem accessRow_of_served {act : Act} {refusal : Dev → Option Nat} (hs : 0 < p.size)
    (hr : refusal (entered kind p d) = none) : accessRow kind act p refusal d = serveAccess act p (entered kind p d) := by
  unfold accessRow
  rw [onRequest_of_taken h, h.2.2.2.1]
  dsimp only
  rw [enterRequest_of_taken h, if_neg (Nat.ne_of_gt hs), hr]

end Taken

/-! ### Answers -/

section Answers
variable {p : Req} {x : Part} {st : Nat} {d : Dev}

theorem answerStatus_of_one (hx : x.state = .ended st) (hst : st = stOk ∨ stSuccess st = false) : answerStatus [x] false = st := by
  simp [answerStatus, partsStatus_of_one hx hst]

/-- A write of one part that has ended is answered with its status alone. -/
theorem answered_ended_write (hv : p.vc = 1) (hf : d.flt.fatal = false) (hx : x.state = .ended st)
    (hst : st = stOk ∨ stSuccess st = false) (ha : x.act = .write) : Answered d (answerFabric p [x] false d) p 0x21 st [] := by
  have hread : ¬(([x].any fun x => x.act == .read) = true ∧ ([x].any fun x => x.done && stSuccess x.status) = true) := by simp [ha]
  have hatom : ¬(x.act.right == 2) = true := by simp [ha, Act.right]
  have hans : answerFabric p [x] false d = sendDone p (sendRsp 0x21 p.source p.tag p.tagGen
      (answerStatus [x] false) 0 0 [] (closeOutstanding p d)) :=
    congrArg (sendDone p) ((if_neg (by omega)).trans ((if_neg hread).trans (if_neg hatom)))
  rw [hans, answerStatus_of_one hx hst]
  exact Answered.sendDone (answered_sendRsp (d := closeOutstanding p d) hf p 0x21 _ _) p

/-- An atomic of one part that has ended is answered with its status and sixteen bytes of its old value. -/
theorem answered_ended_atomic {op size operand compare : Nat} (hv : p.vc = 1) (hf : d.flt.fatal = false) (hx : x.state = .ended st)
    (hst : st = stOk ∨ stSuccess st = false) (ha : x.act = .atomic op size operand compare) :
    Answered d (answerFabric p [x] false d) p 0x21 st (slice x.data 0 16) := by
  have hread : ¬(([x].any fun x => x.act == .read) = true ∧ ([x].any fun x => x.done && stSuccess x.status) = true) := by simp [ha]
  have hatom : (x.act.right == 2) = true := by simp [ha, Act.right]
  have hans : answerFabric p [x] false d = sendDone p (sendRsp 0x21 p.source p.tag p.tagGen
      (answerStatus [x] false) 0 0 (slice x.data 0 16) (closeOutstanding p d)) :=
    congrArg (sendDone p) ((if_neg (by omega)).trans ((if_neg hread).trans (if_pos hatom)))
  rw [hans, answerStatus_of_one hx hst]
  exact Answered.sendDone (answered_sendRsp (d := closeOutstanding p d) hf p 0x21 _ _) p

/-- COPY_DATA of one part that has ended is answered by COPY_ACK with its status. -/
theorem answered_ended_copy (hv : p.vc = 4) (hf : d.flt.fatal = false) (hx : x.state = .ended st)
    (hst : st = stOk ∨ stSuccess st = false) : Answered d (answerFabric p [x] false d) p 0x62 st [] := by
  have hans : answerFabric p [x] false d = sendDone p (sendRsp 0x62 p.source p.tag p.tagGen
      (answerStatus [x] false) 0 0 [] (closeOutstanding p d)) := congrArg (sendDone p) (if_pos hv)
  rw [hans, answerStatus_of_one hx hst]
  exact Answered.sendDone (answered_sendRsp (d := closeOutstanding p d) hf p 0x62 _ _) p

theorem answered_refused_write (hv : p.vc = 1) (hf : d.flt.fatal = false) (hst : stSuccess st = false) :
    Answered d (refuseFabric p .write st d) p 0x21 st [] := answered_ended_write hv hf rfl (Or.inr hst) rfl

/-- A refused atomic is answered with sixteen zero bytes (log entry 56). -/
theorem answered_refused_atomic (op size operand compare : Nat) (hv : p.vc = 1) (hf : d.flt.fatal = false)
    (hst : stSuccess st = false) : Answered d (refuseFabric p (.atomic op size operand compare) st d) p 0x21 st (zeros 16) :=
  answered_ended_atomic hv hf rfl (Or.inr hst) rfl

end Answers

/-! ### Served on a plain line -/

/-- A request for an address of this home that neither a byte limit nor an earlier request holds runs at once. -/
theorem launch_of_home {jid : Nat} {j : Job} {p : Req} {x : Part} {d : Dev} (ho : j.owner = .fabric p)
    (hhome : homedHere d x.addr = true) (hover : overBudget d p.source (reqCost p x.act.kind) = false)
    (horder : orderHolds d jid p = false) (hcharge : charge p.source (reqCost p x.act.kind) d = d) :
    launch jid j [x] d = runJob jid (setJob jid { j with slot := none, parts := cutRanges [x] } d) := by
  cases j
  dsimp only at ho
  subst ho
  refine (if_neg (by simp [hhome])).trans ((if_neg (by simp [hover])).trans ((if_neg (by simp [horder])).trans ?_))
  rw [hcharge]

theorem finishJob_of_fabric {jid : Nat} {j : Job} {p : Req} {d : Dev} (ho : j.owner = .fabric p) :
    finishJob jid j d = (none, answerFabric p j.parts j.throttled (dropJob jid d)) := by
  simp only [finishJob, ho]

/-- The one part of a request within a line. -/
def reqPart (p : Req) (act : Act) (clear : Bool) : Part :=
  { addr := p.addr, len := p.size, key := p.key, act, data := p.data.take p.size, clear }

/-- The job of a request within a line. -/
def reqJob (p : Req) (stamp : Nat) (x : Part) : Job :=
  { owner := .fabric p, requester := p.source, stamp, parts := [x], goal := .respond }

section Served
variable {p : Req} {d : Dev} (hplain : Plain d p.addr p.key)
include hplain

theorem strayStatus_of_plain : strayStatus d p = none := by
  obtain ⟨hhome, hsp, -⟩ := hplain
  simp [strayStatus, hhome, hsp]

variable (hs : 0 < p.size) (hl : lineOf (p.addr + p.size - 1) = lineOf p.addr)
include hs hl

/-- A request for a plain line from a requester with no byte limit, with no other request in hand, runs at once. -/
theorem serveAccess_of_plain (act : Act) (hflag : bitAt p.flags 0 = false) (hlim : limitOf d p.source = none) (hjobs : d.jobs = []) :
    ∃ clear, serveAccess act p d = runControl (runJob d.nextId
      (setJob d.nextId (reqJob p d.stk.number (reqPart p act clear)) (freshId d).2)) := by
  let clear := !ownUnit d p.source && act.right != 1
  refine ⟨clear, ?_⟩
  let x : Part := { addr := p.addr, len := p.size, key := p.key, act, data := p.data, clear }
  have hcut := cutRanges_of_line (x := x) hs hl
  have hlim' : limitOf (freshId d).2 p.source = none := hlim
  have hover (c : Nat) : overBudget (freshId d).2 p.source c = false := by simp [overBudget, hlim']
  have hcharge (c : Nat) : charge p.source c (freshId d).2 = (freshId d).2 := if_pos (by rw [hlim']; rfl)
  have horder : orderHolds (freshId d).2 d.nextId p = false := by
    have hj : (freshId d).2.jobs = [] := hjobs
    simp [orderHolds, hj]
  have hlaunch := launch_of_home (jid := d.nextId) (d := (freshId d).2) (x := x) (j := reqJob p d.stk.number x) rfl hplain.1
    (hover _) horder (hcharge _)
  rw [hcut] at hlaunch
  unfold serveAccess
  rw [strayStatus_of_plain hplain]
  simp only [startAccess, hflag, Bool.not_false, if_true]
  exact congrArg runControl hlaunch

end Served

/-- A job set on a device with none, and dropped, leaves none. -/
theorem jobs_dropJob_of_set {jid : Nat} {j : Job} {d e : Dev} (hjobs : d.jobs = []) (he : e.jobs = (setJob jid j d).jobs) :
    (dropJob jid e).jobs = [] := by
  simp [dropJob, tDel, he, setJob, hjobs, tSet]

section Run
variable {p : Req} {d : Dev} {jid stamp : Nat} {x : Part} (hplain : Plain d x.addr x.key) (htodo : x.state = .todo)
include hplain htodo

/-- A read of a plain line that is run is answered. -/
theorem runJob_of_read (ha : x.act = .read) : runJob jid (setJob jid (reqJob p stamp x) d) =
    answerFabric p [x.readFrom d] false (dropJob jid (countAccess x.addr (setJob jid (reqJob p stamp x) d))) := by
  have htry := tryParts_of_plain (d := setJob jid (reqJob p stamp x) d) (jid := jid) (q := p) (r := p.source) (n := 1) (k := 0)
    hplain htodo ha
  rw [leaveLine_of_plain (d := setJob jid (reqJob p stamp x) d) hplain] at htry
  exact runJob_of_done (j := reqJob p stamp x) (tGet?_tSet_self ..) rfl htry rfl

/-- A write or an atomic of a plain line that is run is answered. -/
theorem runJob_of_change (hfits : x.Fits d) : runJob jid (setJob jid (reqJob p stamp x) d) =
    answerFabric p [(x.begun d).storedIn d] false (dropJob jid (storePart x (setJob jid (reqJob p stamp x) d))) :=
  runJob_of_store (j := reqJob p stamp x) hplain hfits htodo (by simp [reqJob]) (by simp [reqJob]) rfl
    (finishJob_of_fabric (p := p) (j := { reqJob p stamp x with parts := [(x.begun d).storedIn d], ready := false }) rfl)

end Run

end Sys2Proof.Machine
end

section
/-! RD, WR, ATOM and COPY_DATA on a plain line of this home, and the requests that are refused (R119, R120, R181, R193). -/

namespace Sys2Proof.Machine

/-- A request for bytes of one plain line of this home, from a requester with no byte limit, with no other request in hand. -/
structure ServedHere (p : Req) (d : Dev) : Prop where
  hall : bitAt p.flags 0 = false
  pos : 0 < p.size
  line : lineOf (p.addr + p.size - 1) = lineOf p.addr
  plain : Plain d p.addr p.key
  wf : Memory.wf d.mem = true
  alone : d.jobs = []
  unlimited : limitOf d p.source = none

theorem ServedHere.entered {p : Req} {d : Dev} (h : ServedHere p d) (kind : Nat) : ServedHere p (entered kind p d) := by
  obtain ⟨hhall, hpos, hline, hplain, hwf, halone, hlim⟩ := h
  obtain ⟨o, ho⟩ := entered_eq kind p d
  rw [ho]
  exact ⟨hhall, hpos, hline, hplain, hwf, halone, hlim⟩

theorem mem_entered (kind : Nat) (p : Req) (d : Dev) : (entered kind p d).mem = d.mem := by
  obtain ⟨o, ho⟩ := entered_eq kind p d
  rw [ho]

theorem cfg_entered (kind : Nat) (p : Req) (d : Dev) : (entered kind p d).cfg = d.cfg := by
  obtain ⟨o, ho⟩ := entered_eq kind p d
  rw [ho]

theorem fatal_entered (kind : Nat) (p : Req) (d : Dev) : (entered kind p d).flt.fatal = d.flt.fatal := by
  obtain ⟨o, ho⟩ := entered_eq kind p d
  rw [ho]

/-! ### What is served -/

section Served
variable {p : Req} {d : Dev} (h : ServedHere p d)
include h

/-- A part that stores as many bytes as the request names fits the request's line. -/
theorem ServedHere.fits {x : Part} (haddr : x.addr = p.addr) (hlen : x.len = p.size) (hact : x.act ≠ .read)
    (hstores : (x.stores d).length = p.size) : x.Fits d where
  pos := hlen ▸ h.pos
  line := by
    rw [haddr, hlen]
    exact mod_add_le_of_line h.line
  change := hact
  stores := hstores.trans hlen.symm

theorem serveAccess_of_read (hv : p.vc = 1) (hf : d.flt.fatal = false) :
    Answered d (serveAccess .read p d) p 0x22 stOk (memRead d.mem p.addr p.size) ∧ (serveAccess .read p d).mem = d.mem := by
  obtain ⟨clear, hserve⟩ := serveAccess_of_plain h.plain h.pos h.line .read h.hall h.unlimited h.alone
  have hrun := runJob_of_read (p := p) (d := (freshId d).2) (jid := d.nextId) (stamp := d.stk.number) (x := reqPart p .read clear)
    h.plain rfl rfl
  rw [hrun, runControl_of_no_jobs] at hserve
  · obtain ⟨e, he⟩ : ∃ e, countAccess (reqPart p .read clear).addr (setJob d.nextId (reqJob p d.stk.number (reqPart p .read clear))
        (freshId d).2) = { setJob d.nextId (reqJob p d.stk.number (reqPart p .read clear)) (freshId d).2 with counters := e } :=
      ⟨_, countAccess_eq ..⟩
    rw [hserve, he]
    refine ⟨?_, (mem_answerFabric ..).trans rfl⟩
    exact Answered.of_cfg (answered_read (x := (reqPart p .read clear).readFrom (freshId d).2) (throttled := false) hv
      (by exact hf) rfl rfl rfl rfl (length_memRead ..)) rfl
  · refine (jobs_answerFabric ..).trans (jobs_dropJob_of_set (j := reqJob p d.stk.number (reqPart p .read clear)) (d := (freshId d).2) h.alone ?_)
    rw [countAccess_eq]

/-- What a write or an atomic of a plain line leaves: the answer, and in memory the bytes that its part stores. -/
theorem serveAccess_of_change {act : Act} (hact : act ≠ .read) (hstores : ∀ clear, ((reqPart p act clear).stores d).length = p.size) :
    ∃ clear e, serveAccess act p d = answerFabric p [((reqPart p act clear).begun d).storedIn d] false e
      ∧ e.mem = (storePart (reqPart p act clear) d).mem ∧ e.flt.fatal = d.flt.fatal ∧ e.cfg = d.cfg := by
  obtain ⟨clear, hserve⟩ := serveAccess_of_plain h.plain h.pos h.line act h.hall h.unlimited h.alone
  have hrun := runJob_of_change (p := p) (d := (freshId d).2) (jid := d.nextId) (stamp := d.stk.number) (x := reqPart p act clear)
    h.plain rfl ((ServedHere.fits h rfl rfl hact (hstores clear)).of_mem rfl)
  obtain ⟨m, c, hstore⟩ := storePart_eq (reqPart p act clear)
    (setJob d.nextId (reqJob p d.stk.number (reqPart p act clear)) (freshId d).2)
  have hmem := mem_storePart (reqPart p act clear) (setJob d.nextId (reqJob p d.stk.number (reqPart p act clear)) (freshId d).2)
  rw [hrun, runControl_of_no_jobs] at hserve
  · refine ⟨clear, _, hserve, hmem.trans ?_, by rw [hstore]; rfl, by rw [hstore]; rfl⟩
    rw [mem_storePart, mem_setLine, mem_setLine]
    rfl
  · refine (jobs_answerFabric ..).trans (jobs_dropJob_of_set (j := reqJob p d.stk.number (reqPart p act clear)) (d := (freshId d).2) h.alone ?_)
    rw [hstore]

end Served

/-! ### The rows -/

section Rows
variable {p : Req} {s : State}

theorem rd_served (h : ServedHere p s.dev) (ht : Taken 0x01 p s.dev) :
    ∃ d, exec (.rd p) s = .next (ends d s) ∧ Answered s.dev d p 0x22 stOk (memRead s.dev.mem p.addr p.size) ∧ d.mem = s.dev.mem := by
  have hsize := mod_add_le_of_line h.line
  have hrow := accessRow_of_served (act := .read) (refusal := fun _ => if 1024 < p.size then some stBadLength else none) ht h.pos
    (if_neg (by omega))
  obtain ⟨hans, hmem⟩ := serveAccess_of_read (ServedHere.entered h 0x01) (vc_of_taken ht (by decide))
    ((fatal_entered ..).trans (fatal_of_taken ht))
  rw [mem_entered] at hans hmem
  exact ⟨_, next_onDev hrow, Answered.of_cfg hans (cfg_entered ..), hmem⟩

/-- A row whose request changes a plain line: the part performed, its answer, and the memory that it leaves. -/
theorem accessRow_of_change {kind : Nat} {act : Act} {refusal : Dev → Option Nat} (h : ServedHere p s.dev) (ht : Taken kind p s.dev)
    (hr : refusal (entered kind p s.dev) = none) (hact : act ≠ .read)
    (hstores : ∀ clear, ((reqPart p act clear).stores s.dev).length = p.size) :
    ∃ x e, accessRow kind act p refusal s.dev = answerFabric p [x] false e ∧ x.state = .ended stOk ∧ x.act = act
      ∧ x.data = (reqPart p act false).keeps s.dev ∧ e.flt.fatal = false ∧ e.cfg = s.dev.cfg
      ∧ memRead e.mem p.addr p.size = (reqPart p act false).stores s.dev
      ∧ ∀ a, (a < p.addr ∨ p.addr + p.size ≤ a) → memByte e.mem a = memByte s.dev.mem a := by
  have hent := ServedHere.entered h kind
  obtain ⟨o, ho⟩ := entered_eq kind p s.dev
  rw [ho] at hr hent
  obtain ⟨clear, e, hserve, hmem, hfatal, hcfg⟩ := serveAccess_of_change hent hact hstores
  have hfits := ServedHere.fits h (x := reqPart p act clear) rfl rfl hact (hstores clear)
  have hrow := accessRow_of_served ht h.pos (refusal := refusal) (act := act) (by rw [ho]; exact hr)
  rw [ho, hserve] at hrow
  have hmem' : e.mem = (storePart (reqPart p act clear) s.dev).mem := by
    rw [hmem, mem_storePart, mem_storePart, mem_setLine, mem_setLine]
    rfl
  refine ⟨_, e, hrow, rfl, rfl, rfl, hfatal.trans (fatal_of_taken ht : s.dev.flt.fatal = false), hcfg, ?_, fun a ha => ?_⟩
  · rw [hmem']
    exact memRead_storePart hfits h.wf
  · rw [hmem']
    exact memByte_storePart_out hfits h.wf ha

theorem wr_served (h : ServedHere p s.dev) (ht : Taken 0x02 p s.dev) :
    ∃ d, exec (.wr p) s = .next (ends d s) ∧ Answered s.dev d p 0x21 stOk [] ∧ memRead d.mem p.addr p.size = p.data
      ∧ ∀ a, (a < p.addr ∨ p.addr + p.size ≤ a) → memByte d.mem a = memByte s.dev.mem a := by
  have hdata : p.data.length = p.size := data_of_taken ht (by decide)
  have htake : p.data.take p.size = p.data := List.take_of_length_le hdata.le
  obtain ⟨x, e, hrow, hx, hact, -, hfatal, hcfg, hread, hout⟩ := accessRow_of_change (act := .write) (refusal := fun _ => none) h ht rfl
    (by simp) (fun clear => by simp [Part.stores, reqPart, hdata])
  refine ⟨_, next_onDev hrow, ?_, ?_, fun a ha => ?_⟩
  · exact Answered.of_cfg (answered_ended_write (vc_of_taken ht (by decide)) hfatal hx (Or.inl rfl) hact) hcfg
  · rw [mem_answerFabric, hread]
    exact htake
  · rw [mem_answerFabric]
    exact hout a ha

theorem atom_served (h : ServedHere p s.dev) (ht : Taken 0x03 p s.dev) (hc : atomCheck p s.dev = none) :
    let old := leNat (memRead s.dev.mem p.addr p.size)
    ∃ d, exec (.atom p) s = .next (ends d s) ∧ Answered s.dev d p 0x21 stOk (toLe 16 old)
      ∧ memRead d.mem p.addr p.size = toLe p.size (atomicResult p.op p.size old (p.operand % 2 ^ (8 * p.size))
          (p.compare % 2 ^ (8 * p.size)))
      ∧ ∀ a, (a < p.addr ∨ p.addr + p.size ≤ a) → memByte d.mem a = memByte s.dev.mem a := by
  intro old
  have hc' : atomCheck p (entered 0x03 p s.dev) = none := by
    obtain ⟨o, ho⟩ := entered_eq 0x03 p s.dev
    rw [ho]
    exact hc
  obtain ⟨x, e, hrow, hx, hact, hdata, hfatal, hcfg, hread, hout⟩ := accessRow_of_change (refusal := atomCheck p)
    (act := .atomic p.op p.size (p.operand % 2 ^ (8 * p.size)) (p.compare % 2 ^ (8 * p.size))) h ht hc' (by simp)
    (fun clear => by simp [Part.stores, reqPart])
  have hans := answered_ended_atomic (vc_of_taken ht (by decide)) hfatal hx (Or.inl rfl) hact
  rw [show x.data = toLe 16 old from hdata, slice_whole (length_toLe ..)] at hans
  refine ⟨_, next_onDev hrow, Answered.of_cfg hans hcfg, ?_, fun a ha => ?_⟩
  · rw [mem_answerFabric, hread]
    rfl
  · rw [mem_answerFabric]
    exact hout a ha

theorem failure_of_atomCheck {d : Dev} {st : Nat} (h : atomCheck p d = some st) : stSuccess st = false := by
  unfold atomCheck at h
  split at h
  · cases h; rfl
  · split at h
    · cases h; rfl
    · split at h
      · cases h; rfl
      · cases h

theorem atom_refused (ht : Taken 0x03 p s.dev) (hs : 0 < p.size) {st : Nat} (hc : atomCheck p s.dev = some st) :
    ∃ d, exec (.atom p) s = .next (ends d s) ∧ Answered s.dev d p 0x21 st (zeros 16) ∧ d.mem = s.dev.mem := by
  have hst := failure_of_atomCheck hc
  have hc' : atomCheck p (entered 0x03 p s.dev) = some st := by
    obtain ⟨o, ho⟩ := entered_eq 0x03 p s.dev
    rw [ho]
    exact hc
  have hrow := accessRow_of_refused (act := .atomic p.op p.size (p.operand % 2 ^ (8 * p.size)) (p.compare % 2 ^ (8 * p.size)))
    (refusal := atomCheck p) ht hs hc'
  have hans := answered_refused_atomic p.op p.size (p.operand % 2 ^ (8 * p.size)) (p.compare % 2 ^ (8 * p.size))
    (vc_of_taken ht (by decide)) ((fatal_entered 0x03 p s.dev).trans (fatal_of_taken ht)) hst
  exact ⟨_, next_onDev hrow, Answered.of_cfg hans (cfg_entered ..), (mem_answerFabric ..).trans (mem_entered ..)⟩

end Rows

end Sys2Proof.Machine
end

section
/-! Copies as they arrive, responses, and limits that pass (R182, R187, R188, R193, R468). -/

namespace Sys2Proof.Machine

/-! ### COPY_DATA -/

theorem poison_answerFabric (p : Req) (ps : List Part) (throttled : Bool) (d : Dev) :
    (answerFabric p ps throttled d).poison = d.poison := (congrArg Dev.poison (offAnswer_answerFabric p ps throttled d) :)

/-- After a write of a line that was not poisoned, the line is so where the write marks it. -/
theorem isPoisoned_storePart {p : Part} {d : Dev} (h : isPoisoned d (lineOf p.addr) = false) :
    isPoisoned (storePart p d) (lineOf p.addr) = p.poisoned := by
  obtain ⟨m, c, hstore⟩ := storePart_eq p d
  have hnot : lineOf p.addr ∉ d.poison := by simpa [isPoisoned] using h
  rw [hstore]
  cases hp : p.poisoned with
  | true => simp [isPoisoned, addTo, hnot]
  | false => cases hw : p.whole <;> simp [isPoisoned, hnot]

/-- The one part of a COPY_DATA within a line, with the line's POISON bit. -/
def copyPart (p : Req) : Part := { reqPart p .write false with poisoned := bitAt p.poison 0 }

theorem copyData_of_plain {p : Req} {d : Dev} (hplain : Plain d p.addr p.key) (hs : 0 < p.size)
    (hl : lineOf (p.addr + p.size - 1) = lineOf p.addr) :
    copyData p d = runJob d.nextId (setJob d.nextId (reqJob p d.stk.number (copyPart p)) (freshId d).2) := by
  have hsp : ¬addrSpace p.addr ≠ 0 := by simp [hplain.2.1]
  unfold copyData
  rw [strayStatus_of_plain hplain]
  simp only [Nat.ne_of_gt hs, hsp, if_false, splitParts_of_line hs hl, List.zipIdx_cons, List.zipIdx_nil, List.map_cons, List.map_nil]
  rfl

theorem copyData_served {p : Req} {s : State} (hs : 0 < p.size) (hl : lineOf (p.addr + p.size - 1) = lineOf p.addr)
    (hplain : Plain s.dev p.addr p.key) (hm : Memory.wf s.dev.mem = true) (ht : takesTraffic s.dev p.port = true)
    (hd : p.dest = unitId (ownModule s.dev) 0) (hf : reqFormed 0x61 p = true) :
    ∃ d, exec (.copyData p) s = .next (ends d s)
      ∧ Answered s.dev d p 0x62 (if bitAt p.poison 0 then stPoisoned else stOk) []
      ∧ memRead d.mem p.addr p.size = p.data ∧ isPoisoned d (lineOf p.addr) = bitAt p.poison 0
      ∧ ∀ a, (a < p.addr ∨ p.addr + p.size ≤ a) → memByte d.mem a = memByte s.dev.mem a := by
  have hdata : p.data.length = p.size := data_of_reqFormed hf (by decide)
  have htake : p.data.take p.size = p.data := List.take_of_length_le hdata.le
  have hpoison : isPoisoned s.dev (lineOf p.addr) = false := by
    obtain ⟨-, -, -, -, -, -, -, hp, -⟩ := hplain
    exact hp
  let k := setJob s.dev.nextId (reqJob p s.dev.stk.number (copyPart p)) (freshId s.dev).2
  have hfits : (copyPart p).Fits k :=
    { pos := hs, line := mod_add_le_of_line hl, change := by simp [copyPart, reqPart]
      stores := by simp [Part.stores, copyPart, reqPart, hdata] }
  have hrun := runJob_of_change (p := p) (d := (freshId s.dev).2) (jid := s.dev.nextId) (stamp := s.dev.stk.number) (x := copyPart p)
    hplain rfl (hfits.of_mem rfl)
  have hrow : onRequest 0x61 p (copyData p) s.dev = _ := (onRequest_of_formed ht hd hf _).trans ((copyData_of_plain hplain hs hl).trans hrun)
  obtain ⟨m, c, hstore⟩ := storePart_eq (copyPart p) k
  have hfatal : (storePart (copyPart p) k).flt.fatal = false := by
    rw [hstore]
    exact fatal_of_takesTraffic ht
  have hcfg : (storePart (copyPart p) k).cfg = s.dev.cfg := by
    rw [hstore]
    rfl
  refine ⟨_, next_onDev hrow, ?_, ?_, ?_, fun a ha => ?_⟩
  · have hst : (if bitAt p.poison 0 then stPoisoned else stOk) = stOk
        ∨ stSuccess (if bitAt p.poison 0 then stPoisoned else stOk) = false := by
      split
      · exact Or.inr rfl
      · exact Or.inl rfl
    exact Answered.of_cfg (answered_ended_copy (d := dropJob s.dev.nextId (storePart (copyPart p) k)) (vc_of_reqFormed hf) hfatal rfl hst)
      hcfg
  · rw [mem_answerFabric]
    exact (memRead_storePart hfits hm).trans htake
  · have hmark := isPoisoned_storePart (p := copyPart p) (d := k) hpoison
    unfold isPoisoned at hmark ⊢
    rw [poison_answerFabric]
    exact hmark
  · rw [mem_answerFabric]
    exact memByte_storePart_out hfits hm ha

/-! ### Responses -/

theorem tGet?_tMap {α : Type} (t : Tbl α) (f : Nat → α → α) (k : Nat) : tGet? (tMap t f) k = (tGet? t k).map (f k) := by
  induction t with
  | nil => rfl
  | cons p t ih =>
    obtain ⟨a, v⟩ := p
    simp only [tMap, List.map_cons, tGet?] at ih ⊢
    split
    next h => simp [h]
    next => exact ih

theorem mem_of_tGet? {α : Type} {t : Tbl α} {k : Nat} {v : α} (h : tGet? t k = some v) : (k, v) ∈ t := by
  induction t with
  | nil => cases h
  | cons p t ih =>
    obtain ⟨a, w⟩ := p
    simp only [tGet?] at h
    split at h
    next hk =>
      cases h
      rw [hk]
      exact List.mem_cons_self
    next => exact List.mem_cons_of_mem _ (ih h)

/-- A job once a response with a tag has come: the parts that await it have taken it. -/
def Job.take (tag gen : Nat) (f : Part → Part) (j : Job) : Job :=
  { j with ready := j.ready || j.parts.any (awaits tag gen), parts := j.parts.map fun x => if awaits tag gen x then f x else x }

theorem Job.take_of_none {tag gen : Nat} {f : Part → Part} {j : Job} (h : j.parts.any (awaits tag gen) = false) : j.take tag gen f = j := by
  have hmap : (j.parts.map fun x => if awaits tag gen x then f x else x) = j.parts :=
    (List.map_congr_left (g := id) fun x hx => if_neg (List.any_eq_false.mp h x hx)).trans (List.map_id _)
  simp [Job.take, h, hmap]

section AnswerPart
variable {copy : Bool} {tag gen : Nat} {f : Part → Part} {d : Dev}

theorem mem_answerPart : (answerPart copy tag gen f d).mem = d.mem := view_ite Dev.mem rfl rfl

/-- A response reaches exactly the parts that await it, among the COPYs or among the other jobs (R182, R193). -/
theorem jobs_answerPart {i : Nat} {j : Job} (h : tGet? d.jobs i = some j) :
    tGet? (answerPart copy tag gen f d).jobs i = some (if j.copies == copy then j.take tag gen f else j) := by
  by_cases hit : (d.jobs.any fun j => j.2.copies == copy && j.2.parts.any (awaits tag gen)) = true
  · have hans : (answerPart copy tag gen f d).jobs = tMap d.jobs fun _ j =>
        if j.copies == copy && j.parts.any (awaits tag gen) then
          { j with ready := true, parts := j.parts.map fun p => if awaits tag gen p then f p else p } else j :=
      congrArg Dev.jobs (if_pos hit)
    rw [hans, tGet?_tMap, h, Option.map_some]
    cases hc : j.copies == copy <;> cases ha : j.parts.any (awaits tag gen)
    · rfl
    · rfl
    · simp [Job.take_of_none ha]
    · simp [Job.take, ha]
  · have hstale : answerPart copy tag gen f d = dropStale d := if_neg hit
    have hans : (answerPart copy tag gen f d).jobs = d.jobs := (congrArg Dev.jobs hstale).trans rfl
    have hj := List.any_eq_false.mp (Bool.not_eq_true _ ▸ hit) _ (mem_of_tGet? h)
    rw [hans, h]
    cases hc : j.copies == copy
    · rfl
    · rw [Job.take_of_none (by simpa [hc] using hj)]
      rfl

/-- A response that nothing awaits is counted stale (R182). -/
theorem answerPart_of_none (h : ∀ i j, (i, j) ∈ d.jobs → (j.copies == copy) = true → ∀ x ∈ j.parts, awaits tag gen x = false) :
    answerPart copy tag gen f d = bumpReg 0x80038 31 0 1 d := by
  refine if_neg (Bool.eq_false_iff.mp (List.any_eq_false.mpr fun x hx => ?_))
  simp only [Bool.and_eq_true, not_and, Bool.not_eq_true]
  exact fun hc => List.any_eq_false.mpr fun y hy => by simp [h x.1 x.2 hx hc y hy]

end AnswerPart

theorem onResponse_of_formed {p : Rsp} {d : Dev} (ht : takesTraffic d p.port = true) (hd : ownUnit d p.dest = true)
    (hf : rspFormed p = true) (f : Dev → Dev) : onResponse p f d = f d := by
  simp [onResponse, ht, hd, hf]

section Rows
variable {p : Rsp} {s : State} (ht : takesTraffic s.dev p.port = true) (hd : ownUnit s.dev p.dest = true)
include ht hd

theorem exec_rsp (hf : rspFormed p = true) (hw : fromWitness s.dev p = false) (hst : p.status ≠ stTakeover) :
    exec (.rsp p) s = .next (ends (answerPart false p.tag p.tagGen (takeRsp p) s.dev) s) := by
  have hrsp : rspIn p s = { s with dev := answerPart false p.tag p.tagGen (takeRsp p) s.dev } := by
    have hon := onResponse_of_formed ht hd hf (answerPart false p.tag p.tagGen (takeRsp p))
    simp only [rspIn, hw, Bool.and_false, Bool.false_eq_true, if_false, hst, hon]
  exact congrArg (fun t => Host.Outcome.next (settle t)) hrsp

theorem exec_copyAck (hf : rspFormed { p with kind := 0x62 } = true) :
    exec (.copyAck p) s = .next (ends (answerPart true p.tag p.tagGen
      (fun x => x.fin (if stSuccess p.status && x.poisoned then stPoisoned else p.status)) s.dev) s) :=
  next_onDev (onResponse_of_formed (p := { p with kind := 0x62 }) ht hd hf _)

theorem exec_done (hf : rspFormed { p with kind := 0x2A } = true) : exec (.done p) s = .next (ends (doneIn p s.dev) s) :=
  next_onDev (onResponse_of_formed (p := { p with kind := 0x2A }) ht hd hf _)

end Rows

/-! ### Limits -/

section Relayed
variable {requester tag tagGen : Nat} {o : Outstanding} {s : State}
  (ho : (s.dev.outstanding.find? fun o => o.requester == requester && o.tag == tag && o.tagGen == tagGen && o.relayedTo.isSome) = some o)
include ho

theorem relayedRequestTimeout_of_early (h : s.dev.stk.number < o.stamp + parkTimeout s.dev + 16) :
    exec (.relayedRequestTimeout requester tag tagGen) s = .next (ends s.dev s) := by
  refine next_onDev ?_
  simp only [relayTimeout, ho, h, if_true]

/-- A relayed request whose limit has passed is answered with TIMEOUT (R188). -/
theorem relayedRequestTimeout_of_late (h : o.stamp + parkTimeout s.dev + 16 ≤ s.dev.stk.number) (hf : s.dev.flt.fatal = false)
    (hv : o.req.vc = 1) : ∃ d, exec (.relayedRequestTimeout requester tag tagGen) s = .next (ends d s) ∧ d.mem = s.dev.mem
      ∧ Answered s.dev d o.req 0x21 stTimeout (if o.kind = 3 then zeros 16 else []) := by
  have hrow : relayTimeout requester tag tagGen s.dev =
      refuseFabric { o.req with entry := 0 } (if o.kind = 3 then .atomic 0 0 0 0 else .write) stTimeout s.dev := by
    simp only [relayTimeout, ho, Nat.not_lt.mpr h, if_false]
  refine ⟨_, next_onDev hrow, mem_answerFabric .., ?_⟩
  by_cases hk : o.kind = 3
  · rw [if_pos hk, if_pos hk]
    exact answered_refused_atomic (p := { o.req with entry := 0 }) 0 0 0 0 hv hf rfl
  · rw [if_neg hk, if_neg hk]
    exact answered_refused_write (p := { o.req with entry := 0 }) hv hf rfl

end Relayed

theorem tryParts_of_all_ended {jid : Nat} {o : Owner} {r n : Nat} {ps : List Part} (h : ∀ x ∈ ps, ∃ st, x.state = .ended st) (k : Nat)
    (d : Dev) : tryParts jid o r n k ps d = (ps, d) := by
  induction ps generalizing k with
  | nil => rfl
  | cons x ps ih =>
    obtain ⟨st, hx⟩ := h x List.mem_cons_self
    simp only [tryParts, hx, ih (fun y hy => h y (List.mem_cons_of_mem _ hy))]

/-- A job of the device's own all of whose parts have ended is gone, and nothing follows it. -/
theorem runJob_of_device {jid : Nat} {j : Job} {d : Dev} (ho : j.owner = .device) (h : ∀ x ∈ j.parts, ∃ st, x.state = .ended st) :
    runJob jid (setJob jid j d) = dropJob jid (setJob jid j d) := by
  refine runJob_of_finished (tGet?_tSet_self ..) (tryParts_of_all_ended h ..) (List.all_eq_true.mpr fun x hx => ?_) ?_
  · obtain ⟨st, hx⟩ := h x hx
    simp [Part.done, hx]
  · simp only [finishJob, ho]

/-- Whether a part waits for another module past its limit (R468). -/
def Part.due (d : Dev) (p : Part) : Bool := p.remote && decide (p.since + remoteLimit d p.addr ≤ d.stk.number)

/-- A job once the parts whose limit has passed have ended with TIMEOUT. -/
def Job.expire (d : Dev) (j : Job) : Job := { j with parts := j.parts.map fun p => if p.due d then p.fin stTimeout else p }

section Device
variable {job : Nat} {j : Job} {s : State} (hj : tGet? s.dev.jobs job = some j)
include hj

theorem deviceRequestTimeout_of_early (h : ∀ p ∈ j.parts, p.due s.dev = false) :
    exec (.deviceRequestTimeout job) s = .next (ends s.dev s) := by
  have hdue : ¬(j.parts.any fun p => p.due s.dev) = true := by
    rw [List.any_eq_false.mpr fun p hp => by simp [h p hp]]
    exact Bool.false_ne_true
  refine next_onDev ?_
  unfold remoteTimeout
  rw [hj]
  exact if_neg hdue

theorem deviceRequestTimeout_of_late (h : ∃ p ∈ j.parts, p.due s.dev = true) :
    exec (.deviceRequestTimeout job) s = .next (ends (runControl (runJob job (setJob job (j.expire s.dev) s.dev))) s) := by
  refine next_onDev ?_
  unfold remoteTimeout
  rw [hj]
  exact if_pos (List.any_eq_true.mpr h)

/-- A job of the device's own all of whose parts are past their limits, the only one, is gone. -/
theorem deviceRequestTimeout_of_all (hne : j.parts ≠ []) (h : ∀ p ∈ j.parts, p.due s.dev = true) (ho : j.owner = .device)
    (hone : s.dev.jobs.length = 1) :
    ∃ d, exec (.deviceRequestTimeout job) s = .next (ends d s) ∧ d.jobs = [] ∧ d.mem = s.dev.mem := by
  obtain ⟨x, hx⟩ := List.exists_mem_of_ne_nil _ hne
  have hjobs : s.dev.jobs = [(job, j)] := by
    obtain ⟨y, hy⟩ := List.length_eq_one_iff.mp hone
    have hmem := mem_of_tGet? hj
    rw [hy, List.mem_singleton] at hmem
    rw [hy, hmem]
  have hended : ∀ y ∈ (j.expire s.dev).parts, ∃ st, y.state = .ended st := by
    intro y hy
    obtain ⟨p, hp, rfl⟩ := List.mem_map.mp hy
    exact ⟨stTimeout, by simp [h p hp, Part.fin]⟩
  have hrun := runJob_of_device (jid := job) (j := j.expire s.dev) (d := s.dev) ho hended
  have hgone := jobs_dropJob_only (jobs_setJob_only (k := j.expire s.dev) hjobs)
  refine ⟨_, deviceRequestTimeout_of_late hj ⟨x, hx, h x hx⟩, ?_, ?_⟩
  · rw [hrun, runControl_of_no_jobs hgone, hgone]
  · rw [hrun, runControl_of_no_jobs hgone]
    rfl

end Device

/-- Settles O53: the requests at their home by what each stores and answers, the responses by the parts that they reach, the limits by
the TIMEOUT that each ends in. -/
theorem requestsAtTheHome : Obligations.RequestsAtTheHome := by
  unfold Obligations.RequestsAtTheHome
  refine ⟨fun p s hflag hs hl hplain hm hjobs => ?_, fun p s ht hs st hc => atom_refused ht hs hc, fun p s ht hd => ?_,
    fun requester tag tagGen o s ho => ⟨relayedRequestTimeout_of_early ho, relayedRequestTimeout_of_late ho⟩,
    fun job j s hj => ⟨deviceRequestTimeout_of_early hj, deviceRequestTimeout_of_all hj, deviceRequestTimeout_of_late hj⟩⟩
  · have hserved (hlim : limitOf s.dev p.source = none) : ServedHere p s.dev := ⟨hflag, hs, hl, hplain, hm, hjobs, hlim⟩
    exact ⟨fun hlim ht => rd_served (hserved hlim) ht, fun hlim ht => wr_served (hserved hlim) ht,
      fun hlim ht hc => atom_served (hserved hlim) ht hc, fun ht hd hf => copyData_served hs hl hplain hm ht hd hf⟩
  · refine ⟨fun hf hw hst => ⟨⟨_, exec_rsp ht hd hf hw hst, mem_answerPart, fun i j hj => ?_⟩, fun h => ?_⟩,
      fun hf => ⟨⟨_, exec_copyAck ht hd hf, mem_answerPart, fun i j hj => ?_⟩, fun h => ?_⟩, fun hf => ?_⟩
    · rw [jobs_answerPart hj]
      cases j.copies <;> rfl
    · rw [exec_rsp ht hd hf hw hst, answerPart_of_none fun i j hj hc => h i j hj (by simpa using hc)]
    · rw [jobs_answerPart hj]
      cases j.copies <;> rfl
    · rw [exec_copyAck ht hd hf, answerPart_of_none fun i j hj hc => h i j hj (by simpa using hc)]
    · intro names
      refine ⟨fun ⟨o, ho, hn⟩ => ?_, fun h => ?_⟩ <;> rw [exec_done ht hd hf]
      · rw [show doneIn p s.dev = _ from if_pos (List.any_eq_true.mpr ⟨o, ho, hn⟩)]
      · rw [show doneIn p s.dev = _ from if_neg (Bool.eq_false_iff.mp (List.any_eq_false.mpr fun o ho => Bool.eq_false_iff.mp (h o ho)))]
        rfl

end Sys2Proof.Machine
end

section
/-! The registrations of the caching agents: what accesses, completions, fault records and the coherence of a line leave of them
(R113, R117, R125, R190). -/

namespace Sys2Proof.Machine

/-- What an agent's record says of its registration: whether it is registered, its generation, and those declared crashed. -/
def Agent.standing (g : Agent) : Bool × Nat × List Nat := (g.registered, g.regGen, g.crashed)

/-- The registrations of every agent, with the fatal state and the configuration. -/
def Dev.roll (d : Dev) : (Nat → Bool × Nat × List Nat) × Bool × Cfg := (fun a => (agentOf d a).standing, d.flt.fatal, d.cfg)

section Roll
variable {d e : Dev} (h : e.roll = d.roll)
include h

theorem standing_of_roll (a : Nat) : (agentOf e a).standing = (agentOf d a).standing :=
  (congrArg (fun r : (Nat → Bool × Nat × List Nat) × Bool × Cfg => r.1 a) h :)
theorem fatal_of_roll : e.flt.fatal = d.flt.fatal := (congrArg (fun r : (Nat → Bool × Nat × List Nat) × Bool × Cfg => r.2.1) h :)
theorem cfg_of_roll : e.cfg = d.cfg := (congrArg (fun r : (Nat → Bool × Nat × List Nat) × Bool × Cfg => r.2.2) h :)

end Roll

theorem Dev.roll_of_offNote {d e : Dev} (h : e.offNote = d.offNote) : e.roll = d.roll := by
  have hc : e.offNote.roll = d.offNote.roll := by rw [h]
  exact hc

theorem Dev.roll_of_offAnswer {d e : Dev} (h : e.offAnswer = d.offAnswer) : e.roll = d.roll := by
  have hc : e.offAnswer.roll = d.offAnswer.roll := by rw [h]
  exact hc

/-! ### Agents' records -/

theorem agentOf_setAgent (a : Nat) (g : Agent) (d : Dev) (x : Nat) : agentOf (setAgent a g d) x = if x = a then g else agentOf d x := by
  simp only [agentOf, setAgent, tGet?_tSet]
  split <;> rfl

/-- A record replaced by one of the same registration. -/
theorem roll_setAgent {a : Nat} {g : Agent} {d : Dev} (h : g.standing = (agentOf d a).standing) : (setAgent a g d).roll = d.roll := by
  refine Prod.ext (funext fun x => ?_) rfl
  simp only [Dev.roll, agentOf_setAgent]
  split
  next hx => rw [hx, h]
  next => rfl

/-- A record's sweep list changed. -/
theorem roll_modSweep (a : Nat) (f : List Nat → List Nat) (d : Dev) :
    Dev.roll { d with agents := tMod d.agents a fun x => { x with sweep := f x.sweep } } = d.roll := by
  refine Prod.ext (funext fun x => ?_) rfl
  simp only [Dev.roll, agentOf, tGet?_tMod]
  split
  · cases tGet? d.agents x <;> rfl
  · rfl

/-! ### The home of a line -/

@[simp] theorem roll_sendPkt (k : OutPkt) (d : Dev) : (sendPkt k d).roll = d.roll := Dev.roll_of_offAnswer (offAnswer_sendPkt k d)
@[simp] theorem roll_bumpReg (o h l n : Nat) (d : Dev) : (bumpReg o h l n d).roll = d.roll := rfl
@[simp] theorem roll_bumpDie (o k : Nat) (d : Dev) : (bumpDie o k d).roll = d.roll := view_ite _ rfl rfl
@[simp] theorem roll_setDir (l : Nat) (e : DirEntry) (d : Dev) : (setDir l e d).roll = d.roll := rfl
@[simp] theorem roll_setLine (l : Nat) (b : List Byte) (d : Dev) : (setLine l b d).roll = d.roll := by
  simp only [Dev.roll, agentOf, setLine_agents, setLine_flt, setLine_cfg]
@[simp] theorem roll_poisonLine (l : Nat) (d : Dev) : (poisonLine l d).roll = d.roll := rfl
@[simp] theorem roll_unpoison (l : Nat) (d : Dev) : (unpoison l d).roll = d.roll := rfl
@[simp] theorem roll_countAccess (a : Nat) (d : Dev) : (countAccess a d).roll = d.roll := by rw [countAccess_eq]; rfl
@[simp] theorem roll_sendSnoop (l g : Nat) (b : Bool) (d : Dev) (a : Nat) : (sendSnoop l g b d a).roll = d.roll := roll_sendPkt ..

@[simp] theorem roll_sweepLine (l : Nat) (d : Dev) : (sweepLine l d).roll = d.roll := by
  unfold sweepLine
  split
  · rfl
  · dsimp only
    rw [← roll_modSweep _ (·.filter (· != l)) d]
    exact view_ite _ rfl (view_ite _ (view_ite _ rfl rfl) rfl)

@[simp] theorem roll_stayCoarse (l : Nat) (d : Dev) : (stayCoarse l d).roll = d.roll := view_ite _ rfl rfl

@[simp] theorem roll_startSnoops (l st : Nat) (b : Bool) (ts : List Nat) (d : Dev) (k : List Nat) :
    (startSnoops l st b ts d k).roll = d.roll := by
  refine Eq.trans ?_ (roll_sweepLine l d)
  unfold startSnoops
  refine view_ite _ (view_ite _ ?_ rfl) ?_
  · exact roll_stayCoarse ..
  · exact (view_foldl Dev.roll (fun d a => roll_sendSnoop ..) _ _).trans rfl

@[simp] theorem roll_startFill (p : Nat) (b : Bool) (d : Dev) : (startFill p b d).roll = d.roll := by
  unfold startFill issueNvme dropPage
  dsimp only
  split
  · rfl
  · split
    · rfl
    · split
      · split <;> rfl
      · rfl

@[simp] theorem roll_touchPage (p : Nat) (d : Dev) : (touchPage p d).roll = d.roll := rfl

@[simp] theorem roll_sendMirror (a k : Nat) (w : Nat × Nat × Nat) (b : Bool) (l o : List Byte) (d : Dev) :
    (sendMirror a k w b l o d).roll = d.roll := roll_sendPkt ..

/-! ### Parts of an access -/

/-- A view of the device that both branches of a choice between results keep. -/
theorem view_snd_ite {α β : Type} (g : Dev → β) {c : Prop} [Decidable c] {x y : α × Dev} {b : β} (hx : g x.2 = b) (hy : g y.2 = b) :
    g (if c then x else y).2 = b := by
  split <;> assumption

/-- A line marked, or its mark cleared, after a change. -/
theorem roll_mark (p : Part) (l : Nat) (d : Dev) :
    (if p.poisoned then poisonLine l d else if p.whole then unpoison l d else d).roll = d.roll := view_ite _ rfl (view_ite _ rfl rfl)

@[simp] theorem roll_performPart (j : Nat) (o : Owner) (b : Bool) (p : Part) (d : Dev) : (performPart j o b p d).2.roll = d.roll := by
  have hc : (match o with
    | .device => d
    | _ => countAccess p.addr d).roll = d.roll := by cases o <;> simp
  unfold performPart
  dsimp only
  refine view_snd_ite _ hc ?_
  cases p.act <;> dsimp only
  · refine view_snd_ite _ hc ?_
    split <;> exact hc
  all_goals
    refine view_snd_ite _ hc (view_snd_ite _ (view_snd_ite _ hc ?_) ?_)
    · exact (roll_mark ..).trans ((roll_sendMirror ..).trans hc)
    · exact (roll_mark ..).trans ((roll_setLine ..).trans (view_ite _ ((roll_sendMirror ..).trans hc) hc))

@[simp] theorem roll_waitLine (j l : Nat) (d : Dev) : (waitLine j l d).roll = d.roll := view_ite _ rfl (view_ite _ rfl rfl)

@[simp] theorem roll_leaveLine (j l : Nat) (d : Dev) : (leaveLine j l d).roll = d.roll := rfl

@[simp] theorem roll_dirCheck (j : Nat) (p : Part) (d : Dev) : (dirCheck j p d).2.roll = d.roll := by
  have hs := roll_sweepLine (lineOf p.addr) d
  have hsnoop (st : Nat) (b : Bool) (ts : List Nat) :
      (startSnoops (lineOf p.addr) st b ts (sweepLine (lineOf p.addr) d)).roll = d.roll := (roll_startSnoops ..).trans hs
  unfold dirCheck
  dsimp only
  refine view_snd_ite _ hs (view_snd_ite _ hs (view_snd_ite _ ?_ (view_snd_ite _ ?_ (hsnoop ..))))
  · exact view_snd_ite _ hs (hsnoop ..)
  · exact view_snd_ite _ hs (hsnoop ..)

@[simp] theorem roll_keyCheck (p : Part) (d : Dev) : (keyCheck p d).2.roll = d.roll := by
  unfold keyCheck
  dsimp only
  refine view_snd_ite _ rfl (view_snd_ite _ ?_ (view_snd_ite _ rfl ?_))
  · exact view_snd_ite _ rfl (view_snd_ite _ rfl (view_snd_ite _ rfl rfl))
  · split
    · rfl
    · exact view_snd_ite _ rfl (view_snd_ite _ rfl rfl)

/-- A part admitted at its home. -/
theorem roll_dirTry (j : Nat) (o : Owner) (b : Bool) (p : Part) (d : Dev) :
    (match dirCheck j p d with
      | (some w, d) => (p.wait w, waitLine j (lineOf p.addr) d)
      | (none, d) => performPart j o b p (leaveLine j (lineOf p.addr) d)).2.roll = d.roll := by
  have hd := roll_dirCheck j p d
  generalize dirCheck j p d = x at hd ⊢
  obtain ⟨w, e⟩ := x
  cases w with
  | some w => exact (roll_waitLine ..).trans hd
  | none => exact (roll_performPart ..).trans hd

@[simp] theorem roll_homeTry (j : Nat) (o : Owner) (b : Bool) (p : Part) (d : Dev) : (homeTry j o b p d).2.roll = d.roll := by
  unfold homeTry
  have hk : (if p.admitted then ((none : Option Nat), d) else keyCheck p d).2.roll = d.roll := view_snd_ite _ rfl (roll_keyCheck ..)
  generalize (if p.admitted then ((none : Option Nat), d) else keyCheck p d) = x at hk ⊢
  obtain ⟨r, e⟩ := x
  dsimp only at hk
  cases r with
  | some st => exact hk
  | none =>
    rw [← hk]
    dsimp only
    refine view_snd_ite _ rfl (view_snd_ite _ rfl (view_snd_ite _ rfl (view_snd_ite _ rfl (view_snd_ite _ rfl (view_snd_ite _ rfl
      (view_snd_ite _ ?_ (view_snd_ite _ (roll_performPart ..) ?_)))))))
    · exact view_snd_ite _ (roll_performPart ..) (roll_startFill ..)
    · exact roll_dirTry j o b { p with admitted := true } e

@[simp] theorem roll_remoteTry (o : Owner) (r : Nat) (p : Part) (d : Dev) : (remoteTry o r p d).2.roll = d.roll := roll_sendPkt ..

@[simp] theorem roll_tryParts (j : Nat) (o : Owner) (r n k : Nat) (ps : List Part) (d : Dev) :
    (tryParts j o r n k ps d).2.roll = d.roll := by
  induction ps generalizing k d with
  | nil => rfl
  | cons p ps ih =>
    unfold tryParts
    dsimp only
    rw [ih]
    split
    · exact view_snd_ite _ (roll_homeTry ..) (roll_remoteTry ..)
    · rfl

/-! ### Completions -/

@[simp] theorem roll_setSess (i : Nat) (x : Session) (d : Dev) : (setSess i x d).roll = d.roll := rfl
@[simp] theorem roll_setQueue (i : Nat) (x : Queue) (d : Dev) : (setQueue i x d).roll = d.roll := rfl

@[simp] theorem roll_deviceWrite (a k : Nat) (b : List Byte) (d : Dev) : (deviceWrite a k b d).roll = d.roll := by
  have h (j r n : Nat) (ps : List Part) : (tryParts j .device r n 0 ps (freshId d).2).2.roll = d.roll := roll_tryParts ..
  exact view_ite _ (h ..) (h ..)

@[simp] theorem roll_ethSend (p : Nat) (e : EthOut) (d : Dev) : (ethSend p e d).roll = d.roll := view_ite _ rfl rfl

@[simp] theorem roll_emitRecord (i : Nat) (a b : Bool) (l : List Byte) (d : Dev) : (emitRecord i a b l d).roll = d.roll := roll_ethSend ..

@[simp] theorem roll_emitSplit (i k : Nat) (a : Bool) (l : List Byte) (d : Dev) : (emitSplit i k a l d).roll = d.roll := by
  induction k generalizing a l d with
  | zero => rfl
  | succ k ih => exact view_ite _ (roll_emitRecord ..) ((ih ..).trans (roll_emitRecord ..))

@[simp] theorem roll_flushWaiting (i k : Nat) (d : Dev) : (flushWaiting i k d).roll = d.roll := by
  induction k generalizing d with
  | zero => rfl
  | succ k ih =>
    unfold flushWaiting
    dsimp only
    split
    · rfl
    · exact view_ite _ rfl ((ih _).trans (roll_emitSplit ..))

@[simp] theorem roll_sessionSend (i : Nat) (l : List Byte) (d : Dev) : (sessionSend i l d).roll = d.roll :=
  view_ite _ rfl (roll_flushWaiting ..)

@[simp] theorem roll_writeCq (n : Nat) (c : Completion) (d : Dev) : (writeCq n c d).roll = d.roll := roll_deviceWrite ..

@[simp] theorem roll_postRing (n : Nat) (c : Completion) (d : Dev) : (postRing n c d).roll = d.roll := by
  unfold postRing
  dsimp only
  split
  · rfl
  · split <;> simp

@[simp] theorem roll_deviceCompletion (n st : Nat) (w : List Nat) (d : Dev) : (deviceCompletion n st w d).roll = d.roll := by
  unfold deviceCompletion
  refine view_ite _ rfl ?_
  dsimp only
  split
  · exact view_ite _ ((roll_sessionSend ..).trans (roll_postRing ..)) (roll_postRing ..)
  · exact roll_postRing ..

/-! ### Fault records -/

theorem roll_crewFault (c : Nat) (r : FaultRec) (d : Dev) : (crewFault c r d).roll = d.roll :=
  view_ite _ rfl (roll_deviceCompletion ..)

/-- A UC record changes no registration. -/
theorem roll_recordFault {r : FaultRec} (hr : r.cls = 2) (o : Option Nat) (d : Dev) : (recordFault r o d).roll = d.roll := by
  have hring (r : FaultRec) : (deviceRing (stampFault r d).1 (stampFault r d).2).roll = d.roll :=
    Dev.roll_of_offNote ((offNote_deviceRing ..).trans rfl)
  cases o with
  | none =>
    rw [recordFault_uc_none hr]
    exact (Dev.roll_of_offNote (offNote_signalUc _)).trans (hring _)
  | some c =>
    rw [recordFault_uc_some hr]
    exact (Dev.roll_of_offNote (offNote_signalUc _)).trans ((roll_crewFault ..).trans (hring _))

end Sys2Proof.Machine
end

section
/-! The registrations of the caching agents through the coherence of a line: what a grant, a recall, an answer, a crash and a leave make
of them (R113, R117, R125, R190). -/

namespace Sys2Proof.Machine

/-! ### Agents and entries -/

@[simp] theorem roll_reply (w : Pending) (kind st gen : Nat) (data : List Byte) (d : Dev) : (reply w kind st gen data d).roll = d.roll :=
  Dev.roll_of_offAnswer ((offAnswer_sendRsp ..).trans rfl)

@[simp] theorem roll_leaveEntry (p : Req) (d : Dev) : (leaveEntry p d).roll = d.roll := rfl
@[simp] theorem roll_modPending (w : Pending) (f : Pending → Pending) (d : Dev) : (modPending w f d).roll = d.roll := rfl
@[simp] theorem roll_wakeJobs (f : Wait → Bool) (d : Dev) : (wakeJobs f d).roll = d.roll := rfl
@[simp] theorem roll_charge (r c : Nat) (d : Dev) : (charge r c d).roll = d.roll := view_ite _ rfl rfl

@[simp] theorem roll_pruneAgent (a : Nat) (d : Dev) : (pruneAgent a d).roll = d.roll := view_ite _ rfl (roll_setAgent rfl)
@[simp] theorem roll_enterAgent (a l : Nat) (d : Dev) : (enterAgent a l d).roll = d.roll := roll_setAgent rfl
@[simp] theorem roll_openEntry (l : Nat) (d : Dev) : (openEntry l d).2.roll = d.roll := view_snd_ite _ rfl rfl

@[simp] theorem roll_grantShared (w : Pending) (d : Dev) : (grantShared w d).roll = d.roll :=
  (roll_reply ..).trans ((roll_setDir ..).trans ((roll_openEntry ..).trans (roll_enterAgent ..)))

@[simp] theorem roll_grantSole (w : Pending) (b : Bool) (d : Dev) : (grantSole w b d).roll = d.roll :=
  (roll_reply ..).trans ((roll_setDir ..).trans ((roll_openEntry ..).trans (roll_enterAgent ..)))

@[simp] theorem roll_takeTurn (w : Pending) (st : Nat) (b : Bool) (ts k : List Nat) (d : Dev) : (takeTurn w st b ts k d).roll = d.roll :=
  roll_startSnoops ..

@[simp] theorem roll_makeWay (l : Nat) (d : Dev) : (makeWay l d).2.roll = d.roll := by
  unfold makeWay
  refine view_snd_ite _ rfl ?_
  split
  · rfl
  · exact (roll_startSnoops ..).trans (roll_bumpDie ..)

/-! ### Requests -/

@[simp] theorem roll_takeLine (l : Nat) (b : List Byte) (d : Dev) : (takeLine l b d).roll = d.roll :=
  view_ite _ rfl ((roll_countAccess ..).trans ((roll_unpoison ..).trans (roll_setLine ..)))

@[simp] theorem roll_serveWb (w : Pending) (d : Dev) : (serveWb w d).roll = d.roll := by
  refine view_ite _ rfl (view_ite _ ?_ (roll_takeLine ..))
  exact (roll_pruneAgent ..).trans ((roll_reply ..).trans (roll_takeLine ..))

@[simp] theorem roll_cachingWaits (w : Pending) (d : Dev) : (cachingWaits w d).2.roll = d.roll :=
  view_snd_ite _ rfl (view_snd_ite _ (roll_startFill ..) rfl)

@[simp] theorem roll_serveCaching (n : Nat) (w : Pending) (d : Dev) : (serveCaching n w d).2.roll = d.roll := by
  induction n generalizing d with
  | zero => rfl
  | succ n ih =>
    have hagain {e : Dev} (he : e.roll = d.roll) :
        (if transient (dirOf e w.line).state then (false, e) else serveCaching n w e).2.roll = d.roll :=
      view_snd_ite _ he ((ih e).trans he)
    unfold serveCaching
    dsimp only
    refine view_snd_ite _ (roll_serveWb ..) (view_snd_ite _ (roll_reply ..) (view_snd_ite _ (roll_reply ..)
      (view_snd_ite _ (roll_reply ..) ?_)))
    generalize hw : (cachingWaits w d).1 = held
    generalize hs : sweepLine w.line (cachingWaits w d).2 = e
    have he : e.roll = d.roll := hs ▸ (roll_sweepLine ..).trans (roll_cachingWaits ..)
    have hturn (st : Nat) (b : Bool) (ts k : List Nat) : (takeTurn w st b ts k e).roll = d.roll := (roll_takeTurn ..).trans he
    have hway : (makeWay w.line e).2.roll = d.roll := (roll_makeWay ..).trans he
    refine view_snd_ite _ he (view_snd_ite _ ((roll_reply ..).trans he) (view_snd_ite _ ((roll_reply ..).trans he)
      (view_snd_ite _ (hagain (hturn ..)) (view_snd_ite _ ((roll_reply ..).trans he) (view_snd_ite _ (hagain (hturn ..))
        (view_snd_ite _ hway (view_snd_ite _ ?_ (view_snd_ite _ ?_ ?_))))))))
    · exact (roll_grantShared ..).trans ((roll_countAccess ..).trans hway)
    · exact (roll_grantSole ..).trans ((roll_countAccess ..).trans hway)
    · exact hagain ((roll_takeTurn ..).trans hway)

@[simp] theorem roll_tryPending (b : Bool) (w : Pending) (d : Dev) : (tryPending b w d).roll = d.roll := by
  have h := roll_serveCaching 3 w d
  unfold tryPending
  generalize serveCaching 3 w d = x at h ⊢
  obtain ⟨done, e⟩ := x
  exact view_ite _ h (view_ite _ h h)

/-! ### Answers -/

@[simp] theorem roll_settleLine (l : Nat) (d : Dev) : (settleLine l d).roll = d.roll := by
  unfold settleLine
  refine view_ite _ rfl ?_
  dsimp only
  generalize hw : wakeJobs (fun w => w == .snoop l) _ = e
  have he : e.roll = d.roll := by
    subst hw
    refine (roll_wakeJobs ..).trans ?_
    split
    · exact roll_reply ..
    · rfl
  split
  · exact view_ite _ ((roll_stayCoarse ..).trans ((roll_tryPending ..).trans he)) ((roll_tryPending ..).trans he)
  · exact view_ite _ ((roll_stayCoarse ..).trans he) he

@[simp] theorem roll_answered (l a : Nat) (d : Dev) : (answered l a d).roll = d.roll :=
  (roll_pruneAgent ..).trans ((roll_settleLine ..).trans rfl)

theorem roll_loseLine (a l : Nat) (d : Dev) : (loseLine a l d).roll = d.roll :=
  (roll_answered ..).trans ((roll_setDir ..).trans (view_ite _ (view_ite _ rfl rfl) rfl))

/-! ### The end of a registration -/

/-- An agent's record with its registration ended as crashed. -/
def Agent.ended (g : Agent) : Agent := { g with registered := false, crashed := g.crashed ++ [g.regGen] }

/-- A declaration as crashed ends the agent's registration and no other. -/
theorem roll_declareCrashed (a : Nat) (d : Dev) : (declareCrashed a d).roll = (setAgent a (agentOf d a).ended d).roll := by
  unfold declareCrashed
  dsimp only
  generalize hr : List.foldl (crashRecord a _) _ _ = e
  have he : e.roll = (setAgent a (agentOf d a).ended d).roll := by
    subst hr
    exact (view_foldl Dev.roll (fun d r => roll_recordFault rfl _ _) _ _).trans (roll_bumpReg ..)
  generalize hl : List.foldl (fun d l => loseLine a l d) e _ = e'
  have he' : e'.roll = (setAgent a (agentOf d a).ended d).roll := by
    subst hl
    exact (view_foldl Dev.roll (fun d l => roll_loseLine ..) _ _).trans he
  exact view_ite _ he' ((roll_setAgent (by rfl)).trans he')

/-- A clean leave ends the agent's registration and no other. -/
theorem roll_cleanLeave (a : Nat) (d : Dev) : (cleanLeave a d).roll = (setAgent a { agentOf d a with registered := false } d).roll := by
  unfold cleanLeave
  refine (roll_setAgent (by rfl)).trans ?_
  exact view_foldl Dev.roll (fun d l => (roll_answered ..).trans (roll_setDir ..)) _ _

/-- What a device of the same registrations as one with a record replaced says of the record's agent. -/
theorem standing_of_roll_setAgent {a : Nat} {g : Agent} {d e : Dev} (h : e.roll = (setAgent a g d).roll) :
    (agentOf e a).registered = g.registered ∧ (agentOf e a).regGen = g.regGen ∧ (agentOf e a).crashed = g.crashed := by
  have hs := standing_of_roll h a
  rw [agentOf_setAgent, if_pos rfl] at hs
  simpa [Agent.standing] using hs

end Sys2Proof.Machine
end

section
/-! AGENT_REG, AGENT_BYE and SNOOP_LIMIT_EXPIRY: how a registration begins and ends (R124, R125, R190). -/

namespace Sys2Proof.Machine

/-! ### Answers -/

/-- A packet sent outside the fatal state leaves. -/
theorem mem_fabTx_sendPkt_self {d : Dev} (hf : d.flt.fatal = false) (k : OutPkt) : k ∈ (sendPkt k d).fabTx := by
  unfold sendPkt
  rw [if_neg (by simp [hf])]
  exact List.mem_append_right _ List.mem_cons_self

/-- A response sent outside the fatal state answers its request, whatever grant and registration it names. -/
theorem answered_rsp {d : Dev} (hf : d.flt.fatal = false) (p : Req) (kind st grantGen regGen : Nat) (data : List Byte) :
    Answered d (sendRsp kind p.source p.tag p.tagGen st grantGen regGen data d) p kind st data :=
  ⟨_, mem_fabTx_sendPkt_self (d := (fabLoad d).2) hf _, rfl, rfl, rfl, rfl, rfl, rfl, rfl⟩

/-- A request that no byte limit has held is answered with the status given. -/
theorem answered_reply {d : Dev} (hf : d.flt.fatal = false) {w : Pending} (hw : w.throttled = false) (kind st gen : Nat)
    (data : List Byte) : Answered d (reply w kind st gen data d) w.req kind st data := by
  have hst : (if st = stOk ∧ w.throttled then stOkThrottled else st) = st := if_neg (by simp [hw])
  unfold reply
  rw [hst]
  exact answered_rsp (d := leaveEntry w.req d) hf ..

theorem roll_entered (kind : Nat) (p : Req) (d : Dev) : (entered kind p d).roll = d.roll := by
  obtain ⟨o, ho⟩ := entered_eq kind p d
  rw [ho]
  rfl

theorem agentOf_entered (kind : Nat) (p : Req) (d : Dev) (a : Nat) : agentOf (entered kind p d) a = agentOf d a := by
  obtain ⟨o, ho⟩ := entered_eq kind p d
  rw [ho]
  rfl

/-! ### AGENT_REG and AGENT_BYE -/

/-- A registration frame that its entry takes. -/
theorem agentRow_of_taken {kind : Nat} {p : Req} {d : Dev} (h : Taken kind p d) (f : Dev → Dev) :
    agentRow kind p f d = f (entered kind p d) := by
  unfold agentRow
  rw [onRequest_of_taken h, enterRequest_of_taken h]

/-- The device once a registration that an agent still holds has been declared crashed. -/
def unregistered (a : Nat) (d : Dev) : Dev := if (agentOf d a).registered then declareCrashed a d else d

section Unregistered
variable (a : Nat) (d : Dev)

theorem roll_unregistered :
    (unregistered a d).roll = (if (agentOf d a).registered then setAgent a (agentOf d a).ended d else d).roll := by
  unfold unregistered
  split
  · exact roll_declareCrashed a d
  · rfl

theorem fatal_unregistered : (unregistered a d).flt.fatal = d.flt.fatal := by
  rw [fatal_of_roll (roll_unregistered a d)]
  split <;> rfl

theorem cfg_unregistered : (unregistered a d).cfg = d.cfg := by
  rw [cfg_of_roll (roll_unregistered a d)]
  split <;> rfl

theorem regGen_unregistered : (agentOf (unregistered a d) a).regGen = (agentOf d a).regGen := by
  have h := roll_unregistered a d
  split at h
  · exact (standing_of_roll_setAgent h).2.1
  · exact congrArg (fun x : Bool × Nat × List Nat => x.2.1) (standing_of_roll h a)

theorem crashed_unregistered (h : (agentOf d a).registered = true) :
    (agentOf d a).regGen ∈ (agentOf (unregistered a d) a).crashed := by
  have hr := roll_unregistered a d
  rw [if_pos h] at hr
  rw [(standing_of_roll_setAgent hr).2.2]
  exact List.mem_append_right _ List.mem_cons_self

end Unregistered

/-- The record of a new registration, which takes the next generation. -/
def Agent.begun (g : Agent) : Agent := { g with regGen := (g.regGen + 1) % 65536, registered := true }

theorem agentReg_eq (p : Req) (d : Dev) : agentReg p d = sendRsp 0x27 p.source p.tag p.tagGen stOk 0
    (agentOf (unregistered p.source d) p.source).begun.regGen []
    (leaveEntry p (setAgent p.source (agentOf (unregistered p.source d) p.source).begun (unregistered p.source d))) := rfl

theorem roll_agentReg (p : Req) (d : Dev) : (agentReg p d).roll =
    (setAgent p.source (agentOf (unregistered p.source d) p.source).begun (unregistered p.source d)).roll := by
  rw [agentReg_eq]
  exact (Dev.roll_of_offAnswer (offAnswer_sendRsp ..)).trans (roll_leaveEntry ..)

theorem answered_agentReg {p : Req} {d : Dev} (hf : d.flt.fatal = false) : Answered d (agentReg p d) p 0x27 stOk [] := by
  have hf' : (unregistered p.source d).flt.fatal = false := (fatal_unregistered ..).trans hf
  rw [agentReg_eq]
  exact Answered.of_cfg (answered_rsp (d := leaveEntry p (setAgent p.source _ (unregistered p.source d))) hf' p ..)
    (cfg_unregistered p.source d)

theorem agentReg_taken {p : Req} {s : State} (h : Taken 0x08 p s.dev) :
    ∃ d, exec (.agentReg p) s = .next (ends d s) ∧ (agentOf d p.source).registered = true
      ∧ (agentOf d p.source).regGen = ((agentOf s.dev p.source).regGen + 1) % 65536
      ∧ Answered s.dev d p 0x27 stOk []
      ∧ ((agentOf s.dev p.source).registered = true → (agentOf s.dev p.source).regGen ∈ (agentOf d p.source).crashed) := by
  obtain ⟨hreg, hgen, hcrashed⟩ := standing_of_roll_setAgent (roll_agentReg p (entered 0x08 p s.dev))
  have hag := agentOf_entered 0x08 p s.dev p.source
  refine ⟨_, next_onDev (agentRow_of_taken h _), hreg, ?_, ?_, fun hr => ?_⟩
  · rw [hgen, ← hag, ← regGen_unregistered]
    rfl
  · exact Answered.of_cfg (answered_agentReg ((fatal_entered ..).trans (fatal_of_taken h))) (cfg_entered ..)
  · rw [hcrashed, ← hag]
    exact crashed_unregistered _ _ (by rw [hag, hr])

/-- What AGENT_BYE leaves of an agent's registration before it is answered. -/
def departed (a : Nat) (d : Dev) : Dev :=
  if !(agentOf d a).registered then d else if d.dir.any fun e => e.2.ownedBy a then declareCrashed a d else cleanLeave a d

/-- An agent that has left stands in no registration, and the configuration and the fatal state are as before. -/
theorem departed_roll (a : Nat) (d : Dev) : (agentOf (departed a d) a).registered = false ∧ (departed a d).flt.fatal = d.flt.fatal
    ∧ (departed a d).cfg = d.cfg := by
  unfold departed
  split
  case isTrue h => exact ⟨by simpa using h, rfl, rfl⟩
  case isFalse =>
    split
    · have h := roll_declareCrashed a d
      exact ⟨(standing_of_roll_setAgent h).1, (fatal_of_roll h :), (cfg_of_roll h :)⟩
    · have h := roll_cleanLeave a d
      exact ⟨(standing_of_roll_setAgent h).1, (fatal_of_roll h :), (cfg_of_roll h :)⟩

theorem agentBye_eq (p : Req) (d : Dev) : agentBye p d = reply { req := p } 0x21 stOk 0 [] (departed p.source d) := rfl

theorem agentBye_taken {p : Req} {s : State} (h : Taken 0x09 p s.dev) :
    ∃ d, exec (.agentBye p) s = .next (ends d s) ∧ (agentOf d p.source).registered = false ∧ Answered s.dev d p 0x21 stOk [] := by
  obtain ⟨hreg, hfatal, hcfg⟩ := departed_roll p.source (entered 0x09 p s.dev)
  refine ⟨_, next_onDev (agentRow_of_taken h _), ?_, ?_⟩
  · rw [agentBye_eq]
    exact (congrArg (fun x : Bool × Nat × List Nat => x.1) (standing_of_roll (roll_reply ..) p.source)).trans hreg
  · rw [agentBye_eq]
    exact Answered.of_cfg (answered_reply (w := { req := p }) (hfatal.trans ((fatal_entered ..).trans (fatal_of_taken h))) rfl ..)
      (hcfg.trans (cfg_entered ..))

/-! ### SNOOP_LIMIT_EXPIRY -/

section Expiry
variable {line a : Nat} {s : State}

theorem snoopLimitExpiry_of_early
    (h : ∀ x ∈ s.dev.snoops, x.line = line → x.agent = a → s.dev.stk.number < x.sent + cfgField s.dev 0x60000 7 0) :
    exec (.snoopLimitExpiry line a) s = .next (ends s.dev s) := by
  have hnone : (s.dev.snoops.find? fun x => x.line == line && x.agent == a
      && decide (x.sent + cfgField s.dev 0x60000 7 0 ≤ s.dev.stk.number)) = none := by
    refine List.find?_eq_none.mpr fun x hx hdue => ?_
    simp only [Bool.and_eq_true, beq_iff_eq, decide_eq_true_eq] at hdue
    obtain ⟨⟨hl, ha⟩, hdue⟩ := hdue
    exact absurd (h x hx hl ha) (Nat.not_lt.mpr hdue)
  refine next_onDev ?_
  unfold snoopExpiry
  rw [hnone]

theorem snoopLimitExpiry_of_late {x : Snoop} (hx : x ∈ s.dev.snoops) (hl : x.line = line) (ha : x.agent = a)
    (hdue : x.sent + cfgField s.dev 0x60000 7 0 ≤ s.dev.stk.number)
    (hreg : ∀ y ∈ s.dev.snoops, y.agent = a → registeredAs s.dev a y.regGen = true) :
    exec (.snoopLimitExpiry line a) s = .next (ends (declareCrashed a s.dev) s) := by
  refine next_onDev ?_
  unfold snoopExpiry
  split
  next hnone =>
    refine absurd (List.find?_eq_none.mp hnone x hx) ?_
    simp [hl, ha, hdue]
  next y hy =>
    have hya : y.agent = a := by
      have := List.find?_some hy
      simp only [Bool.and_eq_true, beq_iff_eq] at this
      exact this.1.2
    rw [if_pos (hreg y (List.mem_of_find?_eq_some hy) hya)]

/-- An agent past its limit is registered no more, and its generation counts as crashed. -/
theorem snoopLimitExpiry_ends {x : Snoop} (hx : x ∈ s.dev.snoops) (hl : x.line = line) (ha : x.agent = a)
    (hdue : x.sent + cfgField s.dev 0x60000 7 0 ≤ s.dev.stk.number)
    (hreg : ∀ y ∈ s.dev.snoops, y.agent = a → registeredAs s.dev a y.regGen = true) :
    ∃ d, exec (.snoopLimitExpiry line a) s = .next (ends d s) ∧ (agentOf d a).registered = false
      ∧ (agentOf s.dev a).regGen ∈ (agentOf d a).crashed := by
  obtain ⟨hend, -, hcrashed⟩ := standing_of_roll_setAgent (roll_declareCrashed a s.dev)
  refine ⟨_, snoopLimitExpiry_of_late hx hl ha hdue hreg, hend, ?_⟩
  rw [hcrashed]
  exact List.mem_append_right _ List.mem_cons_self

end Expiry

end Sys2Proof.Machine
end

section
/-! A caching request on a quiet line: what is granted, and who is asked first (R113, R116, R118, Table 4-3). -/

namespace Sys2Proof.Machine

/-! ### Replies, grants and snoops -/

theorem offAnswer_reply (w : Pending) (kind st gen : Nat) (data : List Byte) (d : Dev) :
    (reply w kind st gen data d).offAnswer = d.offAnswer := (offAnswer_sendRsp ..).trans rfl

@[simp] theorem mem_reply (w : Pending) (kind st gen : Nat) (data : List Byte) (d : Dev) : (reply w kind st gen data d).mem = d.mem :=
  (congrArg Dev.mem (offAnswer_reply w kind st gen data d) :)
@[simp] theorem dir_reply (w : Pending) (kind st gen : Nat) (data : List Byte) (d : Dev) : (reply w kind st gen data d).dir = d.dir :=
  (congrArg Dev.dir (offAnswer_reply w kind st gen data d) :)

theorem dirOf_congr {d e : Dev} (h : e.dir = d.dir) (l : Nat) : dirOf e l = dirOf d l := by simp only [dirOf, h]

theorem openEntry_of_invalid {l : Nat} {d : Dev} (h : (dirOf d l).state = 0) :
    openEntry l d = ({ dirOf d l with holders := [], coarse := none, allocated := d.nextId }, (freshId d).2) := if_pos h

theorem openEntry_of_held {l : Nat} {d : Dev} (h : (dirOf d l).state ≠ 0) : openEntry l d = (dirOf d l, d) := if_neg h

/-- A shared grant of a line in I: its entry is opened for the requester alone. -/
theorem grantShared_of_invalid {w : Pending} {d : Dev} (h : (dirOf d w.line).state = 0) :
    grantShared w d = reply w 0x23 stOk 0 (lineData d w.line) (setDir w.line
      { dirOf d w.line with state := 1, holders := [w.req.source], coarse := none, allocated := d.nextId }
      (freshId (enterAgent w.req.source w.line d)).2) := by
  unfold grantShared
  rw [openEntry_of_invalid (d := enterAgent w.req.source w.line d) h]
  rfl

theorem grantSole_of_invalid {w : Pending} {d : Dev} (h : (dirOf d w.line).state = 0) (upgrade : Bool) :
    grantSole w upgrade d = reply w (if upgrade then 0x25 else 0x24) stOk (((dirOf d w.line).gen + 1) % 65536)
      (if upgrade then [] else lineData d w.line) (setDir w.line
      { dirOf d w.line with state := 2, gen := ((dirOf d w.line).gen + 1) % 65536, holders := [w.req.source], coarse := none,
                            allocated := d.nextId } (freshId (enterAgent w.req.source w.line d)).2) := by
  unfold grantSole
  rw [openEntry_of_invalid (d := enterAgent w.req.source w.line d) h]
  rfl

theorem grantSole_of_held {w : Pending} {d : Dev} (h : (dirOf d w.line).state ≠ 0) (upgrade : Bool) :
    grantSole w upgrade d = reply w (if upgrade then 0x25 else 0x24) stOk (((dirOf d w.line).gen + 1) % 65536)
      (if upgrade then [] else lineData d w.line) (setDir w.line
      { dirOf d w.line with state := 2, gen := ((dirOf d w.line).gen + 1) % 65536, holders := [w.req.source],
                            coarse := (dirOf d w.line).coarse.map fun _ => groupBit 0 w.req.source }
      (enterAgent w.req.source w.line d)) := by
  unfold grantSole
  rw [openEntry_of_held (d := enterAgent w.req.source w.line d) h]
  rfl

@[simp] theorem mem_sendSnoop (l g : Nat) (b : Bool) (d : Dev) (a : Nat) : (sendSnoop l g b d a).mem = d.mem :=
  (congrArg Dev.mem (offAnswer_sendPkt ..) :)
@[simp] theorem dir_sendSnoop (l g : Nat) (b : Bool) (d : Dev) (a : Nat) : (sendSnoop l g b d a).dir = d.dir :=
  (congrArg Dev.dir (offAnswer_sendPkt ..) :)

/-- A snoop sent outside the fatal state leaves for its agent. -/
theorem mem_fabTx_sendSnoop {d : Dev} (hf : d.flt.fatal = false) (l g : Nat) (b : Bool) (a : Nat) :
    ∃ k ∈ (sendSnoop l g b d a).fabTx, k.kind = (if b then 0x42 else 0x41) ∧ k.dest = a
      ∧ k.body = reqBody (l * 128) 0 0 0 g 0 0 0 := by
  unfold sendSnoop
  exact ⟨_, mem_fabTx_sendPkt_self (by exact hf) _, rfl, rfl, rfl⟩

theorem sweepLine_of_none {l : Nat} {d : Dev} (h : ∀ x ∈ d.agents, l ∉ x.2.sweep) : sweepLine l d = d := by
  have hfind : (d.agents.find? fun a => a.2.sweep.contains l) = none :=
    List.find?_eq_none.mpr fun a ha => by simpa using h a ha
  unfold sweepLine
  rw [hfind]

/-- A line with one holder, of which no crashed agent is left to sweep, is put in a transient state with one snoop. -/
theorem startSnoops_of_one {l st b : Nat} {down : Bool} {keep : List Nat} {d : Dev} (hsweep : ∀ x ∈ d.agents, l ∉ x.2.sweep)
    (hcoarse : (dirOf d l).coarse = none) (hholders : (dirOf d l).holders = [b]) :
    startSnoops l st down [b] d keep = sendSnoop l (dirOf d l).gen down
      (setDir l { dirOf d l with state := st, unanswered := [b], holders := keep.filter fun a => decide (a = b) } d) b := by
  simp [startSnoops, sweepLine_of_none hsweep, hcoarse, hholders]

/-! ### A caching request tried -/

/-- Holders of a request's line that must lose it before the requester holds it alone. -/
def Pending.others (w : Pending) (d : Dev) : List Nat :=
  if (dirOf d w.line).state = 1 then (holdersOf d w.line).filter (· != w.req.source) else []

/-- Whether the requester shares its request's line. -/
def Pending.named (w : Pending) (d : Dev) : Bool := decide ((dirOf d w.line).state = 1) && (holdersOf d w.line).contains w.req.source

/-- A request tried again once it has taken its turn, unless its line awaits answers. -/
def retake (n : Nat) (w : Pending) (d : Dev) : Bool × Dev :=
  if transient (dirOf d w.line).state then (false, d) else serveCaching n w d

/-- A caching request of a registered agent for a plain line, first among those that wait for it, with room for its agent and its
entry. -/
structure Unhindered (w : Pending) (d : Dev) : Prop where
  caching : w.kind ≠ 0x07
  registered : registeredAs d w.req.source w.req.regGen = true
  region : ∃ r, regionAt d (w.line * 128) = some r ∧ r.paired = false ∧ crewSealed d r.crew = false
  space : addrSpace (w.line * 128) = 0
  unswept : ∀ x ∈ d.agents, w.line ∉ x.2.sweep
  foremost : yields d w.line w.promoted = false
  clean : isPoisoned d w.line = false
  unmirrored : mirrorOf d w.line = none
  room : (agentsOn d (dieOf d (w.line * 128))).length < 4096
  way : (d.dir.filter fun e => e.2.state != 0 && sameSet d e.1 w.line).length < 16

section Unhindered
variable {w : Pending} {d : Dev} (h : Unhindered w d)
include h

theorem Unhindered.makeWay : makeWay w.line d = (true, d) := if_pos (Or.inr h.way)

theorem Unhindered.cachingWaits : cachingWaits w d = (false, d) := by
  obtain ⟨r, hr, hpaired, -⟩ := h.region
  simp [Machine.cachingWaits, hr, hpaired, h.space, h.unmirrored, h.clean]

/-- Table 4-3 for a caching request that nothing but the line's holders can delay. -/
theorem Unhindered.serveCaching (ht : transient (dirOf d w.line).state = false) (n : Nat) :
    serveCaching (n + 1) w d =
      if (dirOf d w.line).state = 2 ∧ w.kind = 0x04 then
        retake n w (takeTurn w 0xA true (dirOf d w.line).holders (dirOf d w.line).holders d)
      else if (dirOf d w.line).state = 2 then retake n w (takeTurn w 9 false (dirOf d w.line).holders [] d)
      else if w.kind = 0x04 then (true, grantShared w (countAccess (w.line * 128) d))
      else if (w.others d).isEmpty then (true, grantSole w (w.named d && w.kind == 0x06) (countAccess (w.line * 128) d))
      else retake n w (takeTurn w 8 false (w.others d) (if w.named d then [w.req.source] else []) d) := by
  obtain ⟨r, hr, hpaired, hsealed⟩ := h.region
  have hfull : (!bitAt (agentOf d w.req.source).dies (dieOf d (w.line * 128))
      && decide (4096 ≤ (agentsOn d (dieOf d (w.line * 128))).length)) = false := by simp [Nat.not_le.mpr h.room]
  unfold Machine.serveCaching
  simp only [h.caching, h.registered, hr, hpaired, hsealed, h.cachingWaits, sweepLine_of_none h.unswept, ht, h.foremost, h.clean, hfull,
    h.makeWay, Option.getD_some, Option.isNone_some, if_false, Bool.not_true, Bool.false_eq_true, false_and, false_or, or_false]
  rfl

end Unhindered

end Sys2Proof.Machine
end

section
/-! RD_S, RD_X and UPG on a plain line of this home (R113, R116, R118, Table 4-3). -/

namespace Sys2Proof.Machine

/-! ### Tried in the pending buffer -/

theorem tryPending_of_done {b : Bool} {w : Pending} {d e : Dev} (h : serveCaching 3 w d = (true, e)) :
    tryPending b w d = { e with pendingBuf := e.pendingBuf.filter fun x => !w.same x } := by
  unfold tryPending
  rw [h]
  rfl

theorem tryPending_of_waiting {w : Pending} {d e : Dev} (h : serveCaching 3 w d = (false, e)) : tryPending false w d = e := by
  unfold tryPending
  rw [h]
  rfl

/-! ### Taken at its home -/

/-- The record of a caching request that its requester's limit does not delay. -/
def cachingRecord (kind : Nat) (p : Req) (d : Dev) : Pending := { line := lineOf p.addr, kind, req := p, stamp := d.stk.number }

/-- The device with a request in its pending buffer. -/
def queued (w : Pending) (d : Dev) : Dev := { d with pendingBuf := d.pendingBuf ++ [w] }

theorem takeCaching_of_unlimited {kind : Nat} {p : Req} {d : Dev} (h : limitOf d p.source = none) :
    takeCaching kind p d = tryPending false (cachingRecord kind p d) (queued (cachingRecord kind p d) d) := by
  have hlate : overBudget d p.source (reqCost p kind) = false := by simp [overBudget, h]
  have hcharge (e : Dev) (he : limitOf e p.source = none) : charge p.source (reqCost p kind) e = e := if_pos (by rw [he]; rfl)
  unfold takeCaching
  rw [hlate]
  dsimp only
  rw [hcharge _ (by exact h)]
  rfl

/-- A caching request of a registered agent for a line of this home that, but for its directory entry, is plain. -/
structure CachedHere (p : Req) (d : Dev) : Prop where
  hall : bitAt p.flags 0 = false
  aligned : p.addr % 128 = 0
  size : p.size = 128
  registered : registeredAs d p.source p.regGen = true
  unlimited : limitOf d p.source = none
  room : (agentsOn d (dieOf d p.addr)).length < 4096
  way : (d.dir.filter fun e => e.2.state != 0 && sameSet d e.1 (lineOf p.addr)).length < 16
  plain : Plain { d with dir := tDel d.dir (lineOf p.addr) } p.addr p.key

section Here
variable {p : Req} {d : Dev} (h : CachedHere p d)
include h

theorem CachedHere.entered (kind : Nat) : CachedHere p (entered kind p d) := by
  obtain ⟨hhall, halign, hsize, hreg, hlim, hroom, hway, hplain⟩ := h
  obtain ⟨o, ho⟩ := entered_eq kind p d
  rw [ho]
  exact ⟨hhall, halign, hsize, hreg, hlim, hroom, hway, hplain⟩

theorem CachedHere.line : lineOf p.addr * 128 = p.addr := by
  have := h.aligned
  unfold lineOf
  omega

theorem CachedHere.strayStatus : strayStatus d p = none :=
  strayStatus_of_plain (d := { d with dir := tDel d.dir (lineOf p.addr) }) h.plain

theorem CachedHere.keyCheck : keyCheck { addr := p.addr, len := 128, key := p.key, act := .read } d = (none, d) := by
  obtain ⟨-, hsp, ⟨r, hr, hkey, hstate, hlost, -⟩, -⟩ := h.plain
  have hr' : regionAt d p.addr = some r := hr
  simp [Machine.keyCheck, hsp, hr', hkey, hstate, hlost]

theorem CachedHere.cachingCheck {kind : Nat} (hk : kind ≠ 0x07) : cachingCheck kind p d = (none, d) := by
  obtain ⟨-, hsp, ⟨r, hr, -, -, -, hpaired, hprot, -⟩, -⟩ := h.plain
  have hr' : regionAt d p.addr = some r := hr
  have halign : Machine.aligned p.addr 128 = true := by simp [Machine.aligned, h.aligned]
  simp [Machine.cachingCheck, h.hall, halign, h.size, h.registered, hk, h.strayStatus, h.keyCheck, hr', hsp, hpaired, hprot]

theorem CachedHere.unhindered {kind : Nat} (hk : kind ≠ 0x07) :
    Unhindered (cachingRecord kind p d) (queued (cachingRecord kind p d) d) := by
  obtain ⟨-, hsp, ⟨r, hr, -, -, -, hpaired, -, hsealed⟩, -, -, hsweep, hpend, hclean, hmirror⟩ := h.plain
  have hl : (cachingRecord kind p d).line * 128 = p.addr := h.line
  refine ⟨hk, h.registered, ⟨r, ?_, hpaired, hsealed⟩, ?_, hsweep, ?_, hclean, hmirror, ?_, h.way⟩
  · rw [hl]
    exact hr
  · rw [hl]
    exact hsp
  · refine List.any_eq_false.mpr fun x hx => ?_
    rcases List.mem_append.mp hx with hx | hx
    · have := hpend x hx
      simp [cachingRecord, this]
    · obtain rfl := List.mem_singleton.mp hx
      simp [cachingRecord]
  · rw [hl]
    exact h.room

/-- A caching request that its entry takes, once it stands in the pending buffer, is tried at once. -/
theorem CachedHere.cachingRow {kind : Nat} (ht : Taken kind p d) (hk : kind ≠ 0x07) :
    cachingRow kind p d = tryPending false (cachingRecord kind p (Machine.entered kind p d))
      (queued (cachingRecord kind p (Machine.entered kind p d)) (Machine.entered kind p d)) := by
  unfold Machine.cachingRow
  rw [onRequest_of_taken ht, if_neg (by simp [hk]), enterRequest_of_taken ht, (h.entered kind).cachingCheck hk]
  exact takeCaching_of_unlimited (h.entered kind).unlimited

end Here

end Sys2Proof.Machine
end

section
/-! What RD_S, RD_X and UPG leave of a line: granted, or its holders asked first (R113, R116, R118, Table 4-3). -/

namespace Sys2Proof.Machine

/-! ### Grants -/

/-- What a grant leaves, from d to e: the request answered, the line's entry x, and memory and the other entries as they were. -/
structure Granted (w : Pending) (kind : Nat) (data : List Byte) (x : DirEntry) (d e : Dev) : Prop where
  answered : Answered d e w.req kind stOk data
  entry : dirOf e w.line = x
  mem : e.mem = d.mem
  others : ∀ m, m ≠ w.line → tGet? e.dir m = tGet? d.dir m

/-- A reply to a request whose line's entry has just been replaced. -/
theorem granted_reply {w : Pending} {kind gen : Nat} {data : List Byte} {x : DirEntry} {d e : Dev} (hf : e.flt.fatal = false)
    (hw : w.throttled = false) (hcfg : e.cfg = d.cfg) (hmem : e.mem = d.mem) (hdir : e.dir = d.dir) :
    Granted w kind data x d (reply w kind stOk gen data (setDir w.line x e)) where
  answered := Answered.of_cfg (answered_reply (d := setDir w.line x e) hf hw ..) hcfg
  entry := (dirOf_congr (dir_reply ..) _).trans (dirOf_setDir_self ..)
  mem := (mem_reply ..).trans hmem
  others m hm := by
    rw [dir_reply]
    exact (tGet?_tSet_ne _ _ hm).trans (by rw [hdir])

section Grants
variable {w : Pending} {d : Dev} (hf : d.flt.fatal = false) (hw : w.throttled = false)
include hf hw

theorem granted_shared (he : (dirOf d w.line).state = 0) : Granted w 0x23 (lineData d w.line)
    { dirOf d w.line with state := 1, holders := [w.req.source], coarse := none, allocated := d.nextId } d (grantShared w d) := by
  rw [grantShared_of_invalid he]
  exact granted_reply hf hw rfl rfl rfl

theorem granted_sole_of_invalid (he : (dirOf d w.line).state = 0) : Granted w 0x24 (lineData d w.line)
    { dirOf d w.line with state := 2, gen := ((dirOf d w.line).gen + 1) % 65536, holders := [w.req.source], coarse := none,
                          allocated := d.nextId } d (grantSole w false d) := by
  rw [grantSole_of_invalid he]
  exact granted_reply hf hw rfl rfl rfl

theorem granted_sole_of_held (he : (dirOf d w.line).state ≠ 0) (upgrade : Bool) :
    Granted w (if upgrade then 0x25 else 0x24) (if upgrade then [] else lineData d w.line)
      { dirOf d w.line with state := 2, gen := ((dirOf d w.line).gen + 1) % 65536, holders := [w.req.source],
                            coarse := (dirOf d w.line).coarse.map fun _ => groupBit 0 w.req.source } d (grantSole w upgrade d) := by
  rw [grantSole_of_held he]
  exact granted_reply hf hw rfl rfl rfl

end Grants

/-! ### Holders asked -/

/-- What asking a line's one holder leaves, from d to e: the line in a transient state, its holder's answer awaited, memory as it was,
and the snoop on its way. -/
structure Recalled (l st b : Nat) (down : Bool) (d e : Dev) : Prop where
  state : (dirOf e l).state = st
  unanswered : (dirOf e l).unanswered = [b]
  mem : e.mem = d.mem
  snoop : ∃ k ∈ e.fabTx, k.kind = (if down then 0x42 else 0x41) ∧ k.dest = b ∧ k.body = reqBody (l * 128) 0 0 0 (dirOf d l).gen 0 0 0

theorem recalled_takeTurn {w : Pending} {st b : Nat} {down : Bool} {keep : List Nat} {d : Dev} (hf : d.flt.fatal = false)
    (hsweep : ∀ x ∈ d.agents, w.line ∉ x.2.sweep) (hcoarse : (dirOf d w.line).coarse = none)
    (hholders : (dirOf d w.line).holders = [b]) : Recalled w.line st b down d (takeTurn w st down [b] keep d) := by
  have hturn := startSnoops_of_one (st := st) (down := down) (keep := keep) hsweep hcoarse hholders
  unfold takeTurn
  rw [hturn]
  generalize hx : ({ dirOf d w.line with state := st, unanswered := [b], holders := _ } : DirEntry) = x
  have hst : x.state = st := hx ▸ rfl
  have hun : x.unanswered = [b] := hx ▸ rfl
  have hdir : dirOf (sendSnoop w.line (dirOf d w.line).gen down (setDir w.line x d) b) w.line = x :=
    (dirOf_congr (dir_sendSnoop ..) _).trans (dirOf_setDir_self ..)
  refine ⟨?_, ?_, ?_, mem_fabTx_sendSnoop (d := setDir w.line x d) hf ..⟩
  · exact (congrArg DirEntry.state hdir).trans hst
  · exact (congrArg DirEntry.unanswered hdir).trans hun
  · exact mem_sendSnoop ..

/-- A request whose turn has put its line in a transient state waits. -/
theorem retake_of_transient {n st b : Nat} {down : Bool} {w : Pending} {d e : Dev} (h : Recalled w.line st b down d e) (hst : 8 ≤ st) :
    retake n w e = (false, e) := if_pos (by rw [h.state]; exact decide_eq_true hst)

/-! ### Requests tried -/

section Tried
variable {w : Pending} {d : Dev} (h : Unhindered w d)
include h

theorem serveCaching_of_rdS (hk : w.kind = 0x04) (he : (dirOf d w.line).state = 0) :
    serveCaching 3 w d = (true, grantShared w (countAccess (w.line * 128) d)) := by
  rw [h.serveCaching (by rw [he]; rfl)]
  simp [he, hk]

theorem serveCaching_of_sole (hk : w.kind ≠ 0x04) (ht : transient (dirOf d w.line).state = false) (he : (dirOf d w.line).state ≠ 2)
    (ho : w.others d = []) :
    serveCaching 3 w d = (true, grantSole w (w.named d && w.kind == 0x06) (countAccess (w.line * 128) d)) := by
  rw [h.serveCaching ht]
  simp [he, hk, ho]

variable (hf : d.flt.fatal = false) (hcoarse : (dirOf d w.line).coarse = none) {b : Nat} (hb : (dirOf d w.line).holders = [b])
include hf hcoarse hb

/-- RD_S of a line in X recalls it by DOWN. -/
theorem tryPending_of_owned (hk : w.kind = 0x04) (he : (dirOf d w.line).state = 2) :
    Recalled w.line 0xA b true d (tryPending false w d) := by
  have hr := recalled_takeTurn (st := 0xA) (down := true) (keep := [b]) hf h.unswept hcoarse hb
  have hserve : serveCaching 3 w d = (false, takeTurn w 0xA true [b] [b] d) := by
    rw [h.serveCaching (by rw [he]; rfl), if_pos ⟨he, hk⟩, hb]
    exact retake_of_transient hr (by decide)
  rw [tryPending_of_waiting hserve]
  exact hr

/-- RD_X or UPG of a line that another agent shares invalidates that copy first. -/
theorem tryPending_of_shared (hk : w.kind ≠ 0x04) (he : (dirOf d w.line).state = 1) (hne : b ≠ w.req.source) :
    Recalled w.line 8 b false d (tryPending false w d) := by
  have hholders : holdersOf d w.line = [b] := by simp [holdersOf, hcoarse, hb]
  have hothers : w.others d = [b] := by simp [Pending.others, he, hholders, hne]
  have hnamed : w.named d = false := by simp [Pending.named, hholders, Ne.symm hne]
  have hr := recalled_takeTurn (st := 8) (down := false) (keep := []) hf h.unswept hcoarse hb
  have hserve : serveCaching 3 w d = (false, takeTurn w 8 false [b] [] d) := by
    rw [h.serveCaching (by rw [he]; rfl), if_neg (by simp [he]), if_neg (by simp [he]), if_neg hk, hothers, hnamed]
    exact retake_of_transient hr (by decide)
  rw [tryPending_of_waiting hserve]
  exact hr

end Tried

/-! ### Requests at their home -/

/-- A grant of a request tried, whose access is counted and whose record leaves the pending buffer. -/
theorem granted_tryPending {w : Pending} {d e : Dev} {kind : Nat} {data : List Byte} {x : DirEntry}
    (hserve : serveCaching 3 w d = (true, e)) (hg : Granted w kind data x d e) : Granted w kind data x d (tryPending false w d) := by
  rw [tryPending_of_done hserve]
  exact ⟨hg.answered, hg.entry, hg.mem, hg.others⟩

/-- A grant counted from the device before its access was counted. -/
theorem Granted.of_counted {w : Pending} {d e : Dev} {a kind : Nat} {data : List Byte} {x : DirEntry}
    (hg : Granted w kind data x (countAccess a d) e) : Granted w kind data x d e := by
  rw [countAccess_eq a d] at hg
  exact ⟨hg.answered, hg.entry, hg.mem, hg.others⟩

section Tried
variable {w : Pending} {d : Dev} (h : Unhindered w d) (hf : d.flt.fatal = false) (hw : w.throttled = false)
include h hf hw

theorem granted_of_rdS (hk : w.kind = 0x04) (he : (dirOf d w.line).state = 0) :
    Granted w 0x23 (lineData d w.line)
      { dirOf d w.line with state := 1, holders := [w.req.source], coarse := none, allocated := d.nextId } d (tryPending false w d) := by
  have hserve := serveCaching_of_rdS h hk he
  have hg := granted_shared (d := countAccess (w.line * 128) d) (by rw [countAccess_eq]; exact hf) hw
    (by rw [countAccess_eq]; exact he)
  refine granted_tryPending hserve (Granted.of_counted (a := w.line * 128) ?_)
  rw [countAccess_eq] at hg ⊢
  exact hg

theorem granted_of_invalid (hk : w.kind ≠ 0x04) (he : (dirOf d w.line).state = 0) :
    Granted w 0x24 (lineData d w.line)
      { dirOf d w.line with state := 2, gen := ((dirOf d w.line).gen + 1) % 65536, holders := [w.req.source], coarse := none,
                            allocated := d.nextId } d (tryPending false w d) := by
  have hserve := serveCaching_of_sole h hk (by rw [he]; rfl) (by simp [he]) (by simp [Pending.others, he])
  have hnamed : (w.named d && w.kind == 0x06) = false := by simp [Pending.named, he]
  rw [hnamed] at hserve
  have hg := granted_sole_of_invalid (d := countAccess (w.line * 128) d) (by rw [countAccess_eq]; exact hf) hw
    (by rw [countAccess_eq]; exact he)
  refine granted_tryPending hserve (Granted.of_counted (a := w.line * 128) ?_)
  rw [countAccess_eq] at hg ⊢
  exact hg

theorem granted_of_sole_sharer (hk : w.kind ≠ 0x04) (he : (dirOf d w.line).state = 1) (hcoarse : (dirOf d w.line).coarse = none)
    (hb : (dirOf d w.line).holders = [w.req.source]) :
    Granted w (if w.kind = 0x06 then 0x25 else 0x24) (if w.kind = 0x06 then [] else lineData d w.line)
      { dirOf d w.line with state := 2, gen := ((dirOf d w.line).gen + 1) % 65536, holders := [w.req.source],
                            coarse := (dirOf d w.line).coarse.map fun _ => groupBit 0 w.req.source } d (tryPending false w d) := by
  have hholders : holdersOf d w.line = [w.req.source] := by simp [holdersOf, hcoarse, hb]
  have hserve := serveCaching_of_sole h hk (by rw [he]; rfl) (by simp [he]) (by simp [Pending.others, he, hholders])
  have hnamed : w.named d = true := by simp [Pending.named, he, hholders]
  rw [hnamed, Bool.true_and] at hserve
  have hg := granted_sole_of_held (d := countAccess (w.line * 128) d) (by rw [countAccess_eq]; exact hf) hw
    (by rw [countAccess_eq]; exact he ▸ Nat.one_ne_zero) (w.kind == 0x06)
  simp only [beq_iff_eq] at hg
  refine granted_tryPending hserve (Granted.of_counted (a := w.line * 128) ?_)
  rw [countAccess_eq] at hg ⊢
  exact hg

end Tried

end Sys2Proof.Machine
end

section
/-! The rows RD_S, RD_X and UPG (R113, R116, R118, Table 4-3). -/

namespace Sys2Proof.Machine

/-- The device once a caching request taken by its entry stands in the pending buffer. -/
def waiting (kind : Nat) (p : Req) (d : Dev) : Dev := queued (cachingRecord kind p (entered kind p d)) (entered kind p d)

theorem waiting_eq (kind : Nat) (p : Req) (d : Dev) : ∃ o l, waiting kind p d = { d with outstanding := o, pendingBuf := l } := by
  obtain ⟨o, ho⟩ := entered_eq kind p d
  exact ⟨o, d.pendingBuf ++ [cachingRecord kind p (entered kind p d)], by simp only [waiting, queued, ho]⟩

section Waiting
variable (kind : Nat) (p : Req) (d : Dev)

@[simp] theorem mem_waiting : (waiting kind p d).mem = d.mem := mem_entered kind p d
@[simp] theorem cfg_waiting : (waiting kind p d).cfg = d.cfg := cfg_entered kind p d
@[simp] theorem fatal_waiting : (waiting kind p d).flt.fatal = d.flt.fatal := fatal_entered kind p d
@[simp] theorem dir_waiting : (waiting kind p d).dir = d.dir := by
  obtain ⟨o, l, h⟩ := waiting_eq kind p d
  rw [h]

@[simp] theorem dirOf_waiting (l : Nat) : dirOf (waiting kind p d) l = dirOf d l := dirOf_congr (dir_waiting ..) l
@[simp] theorem lineData_waiting (l : Nat) : lineData (waiting kind p d) l = lineData d l := by simp only [lineData, mem_waiting]

end Waiting

/-- A grant counted from the device before the request arrived. -/
theorem Granted.of_waiting {w : Pending} {k kind : Nat} {q : Req} {data : List Byte} {x : DirEntry} {d e : Dev}
    (hg : Granted w kind data x (waiting k q d) e) : Granted w kind data x d e where
  answered := Answered.of_cfg hg.answered (cfg_waiting ..)
  entry := hg.entry
  mem := hg.mem.trans (mem_waiting ..)
  others m hm := (hg.others m hm).trans (by rw [dir_waiting])

section Rows
variable {p : Req} {s : State} (h : CachedHere p s.dev)
include h

theorem rdS_of_invalid (ht : Taken 0x04 p s.dev) (he : (dirOf s.dev (lineOf p.addr)).state = 0) :
    ∃ d, exec (.rdS p) s = .next (ends d s) ∧ Answered s.dev d p 0x23 stOk (lineData s.dev (lineOf p.addr))
      ∧ (dirOf d (lineOf p.addr)).state = 1 ∧ (dirOf d (lineOf p.addr)).holders = [p.source]
      ∧ (dirOf d (lineOf p.addr)).coarse = none ∧ d.mem = s.dev.mem
      ∧ ∀ m, m ≠ lineOf p.addr → tGet? d.dir m = tGet? s.dev.dir m := by
  have hg := granted_of_rdS (d := waiting 0x04 p s.dev) ((h.entered 0x04).unhindered (by decide))
    ((fatal_waiting ..).trans (fatal_of_taken ht)) rfl rfl ((congrArg DirEntry.state (dirOf_waiting ..)).trans he)
  rw [lineData_waiting] at hg
  obtain ⟨hans, hentry, hmem, hothers⟩ := Granted.of_waiting hg
  refine ⟨_, next_onDev (h.cachingRow ht (by decide)), hans, ?_, ?_, ?_, hmem, hothers⟩
  · exact congrArg DirEntry.state hentry
  · exact congrArg DirEntry.holders hentry
  · exact congrArg DirEntry.coarse hentry

theorem rdS_of_owned (ht : Taken 0x04 p s.dev) (he : (dirOf s.dev (lineOf p.addr)).state = 2)
    (hcoarse : (dirOf s.dev (lineOf p.addr)).coarse = none) {b : Nat} (hb : (dirOf s.dev (lineOf p.addr)).holders = [b]) :
    ∃ d, exec (.rdS p) s = .next (ends d s) ∧ (dirOf d (lineOf p.addr)).state = 0xA
      ∧ (dirOf d (lineOf p.addr)).unanswered = [b] ∧ d.mem = s.dev.mem
      ∧ ∃ k ∈ d.fabTx, k.kind = 0x42 ∧ k.dest = b
        ∧ k.body = reqBody (lineOf p.addr * 128) 0 0 0 (dirOf s.dev (lineOf p.addr)).gen 0 0 0 := by
  have hentry := dirOf_waiting 0x04 p s.dev (lineOf p.addr)
  obtain ⟨hstate, hun, hmem, hsnoop⟩ := tryPending_of_owned (d := waiting 0x04 p s.dev) ((h.entered 0x04).unhindered (by decide))
    ((fatal_waiting ..).trans (fatal_of_taken ht)) ((congrArg DirEntry.coarse hentry).trans hcoarse)
    ((congrArg DirEntry.holders hentry).trans hb) rfl ((congrArg DirEntry.state hentry).trans he)
  rw [show dirOf (waiting 0x04 p s.dev) (cachingRecord 0x04 p (entered 0x04 p s.dev)).line = dirOf s.dev (lineOf p.addr) from hentry]
    at hsnoop
  exact ⟨_, next_onDev (h.cachingRow ht (by decide)), hstate, hun, hmem.trans (mem_waiting ..), hsnoop⟩

section Sole
variable {kind : Nat} (hk : kind = 5 ∨ kind = 6) (ht : Taken kind p s.dev)
include hk ht

/-- RD_X or UPG of a line in I is granted sole with its bytes. -/
theorem cachingRow_of_invalid (he : (dirOf s.dev (lineOf p.addr)).state = 0) :
    let d := cachingRow kind p s.dev
    Answered s.dev d p 0x24 stOk (lineData s.dev (lineOf p.addr)) ∧ (dirOf d (lineOf p.addr)).state = 2
      ∧ (dirOf d (lineOf p.addr)).holders = [p.source]
      ∧ (dirOf d (lineOf p.addr)).gen = ((dirOf s.dev (lineOf p.addr)).gen + 1) % 65536 ∧ d.mem = s.dev.mem
      ∧ ∀ m, m ≠ lineOf p.addr → tGet? d.dir m = tGet? s.dev.dir m := by
  obtain ⟨hk4, hk7⟩ : kind ≠ 0x04 ∧ kind ≠ 0x07 := by omega
  have hg := granted_of_invalid (d := waiting kind p s.dev) ((h.entered kind).unhindered hk7)
    ((fatal_waiting ..).trans (fatal_of_taken ht)) rfl hk4 ((congrArg DirEntry.state (dirOf_waiting ..)).trans he)
  rw [lineData_waiting, dirOf_waiting] at hg
  obtain ⟨hans, hentry, hmem, hothers⟩ := Granted.of_waiting hg
  rw [h.cachingRow ht hk7]
  refine ⟨hans, ?_, ?_, ?_, hmem, hothers⟩
  · exact congrArg DirEntry.state hentry
  · exact congrArg DirEntry.holders hentry
  · exact congrArg DirEntry.gen hentry

/-- RD_X or UPG by the only sharer is granted sole, UPG without data. -/
theorem cachingRow_of_sole_sharer (he : (dirOf s.dev (lineOf p.addr)).state = 1)
    (hcoarse : (dirOf s.dev (lineOf p.addr)).coarse = none) (hb : (dirOf s.dev (lineOf p.addr)).holders = [p.source]) :
    let d := cachingRow kind p s.dev
    Answered s.dev d p (if kind = 6 then 0x25 else 0x24) stOk (if kind = 6 then [] else lineData s.dev (lineOf p.addr))
      ∧ (dirOf d (lineOf p.addr)).state = 2 ∧ (dirOf d (lineOf p.addr)).holders = [p.source] ∧ d.mem = s.dev.mem := by
  obtain ⟨hk4, hk7⟩ : kind ≠ 0x04 ∧ kind ≠ 0x07 := by omega
  have hentry := dirOf_waiting kind p s.dev (lineOf p.addr)
  have hg := granted_of_sole_sharer (d := waiting kind p s.dev) ((h.entered kind).unhindered hk7)
    ((fatal_waiting ..).trans (fatal_of_taken ht)) rfl hk4 ((congrArg DirEntry.state hentry).trans he)
    ((congrArg DirEntry.coarse hentry).trans hcoarse) ((congrArg DirEntry.holders hentry).trans hb)
  rw [lineData_waiting] at hg
  obtain ⟨hans, hentry, hmem, -⟩ := Granted.of_waiting hg
  rw [h.cachingRow ht hk7]
  refine ⟨hans, ?_, ?_, hmem⟩
  · exact congrArg DirEntry.state hentry
  · exact congrArg DirEntry.holders hentry

/-- RD_X or UPG of a line that another agent shares invalidates that copy by INV first. -/
theorem cachingRow_of_shared (he : (dirOf s.dev (lineOf p.addr)).state = 1) (hcoarse : (dirOf s.dev (lineOf p.addr)).coarse = none)
    {b : Nat} (hne : b ≠ p.source) (hb : (dirOf s.dev (lineOf p.addr)).holders = [b]) :
    let d := cachingRow kind p s.dev
    (dirOf d (lineOf p.addr)).state = 8 ∧ (dirOf d (lineOf p.addr)).unanswered = [b] ∧ d.mem = s.dev.mem
      ∧ ∃ k ∈ d.fabTx, k.kind = 0x41 ∧ k.dest = b := by
  obtain ⟨hk4, hk7⟩ : kind ≠ 0x04 ∧ kind ≠ 0x07 := by omega
  have hentry := dirOf_waiting kind p s.dev (lineOf p.addr)
  obtain ⟨hstate, hun, hmem, k, hsent, hkind, hdest, -⟩ := tryPending_of_shared (d := waiting kind p s.dev)
    ((h.entered kind).unhindered hk7) ((fatal_waiting ..).trans (fatal_of_taken ht))
    ((congrArg DirEntry.coarse hentry).trans hcoarse) ((congrArg DirEntry.holders hentry).trans hb) hk4
    ((congrArg DirEntry.state hentry).trans he) hne
  rw [h.cachingRow ht hk7]
  exact ⟨hstate, hun, hmem.trans (mem_waiting ..), k, hsent, hkind, hdest⟩

end Sole

end Rows

/-- RD_X and UPG are one row but for their TYPE. -/
theorem exec_sole {i : Instr} {p : Req} {kind : Nat} (hi : i = .rdX p ∧ kind = 5 ∨ i = .upg p ∧ kind = 6) (s : State) :
    exec i s = .next (ends (cachingRow kind p s.dev) s) ∧ (kind = 5 ∨ kind = 6) := by
  rcases hi with ⟨rfl, rfl⟩ | ⟨rfl, rfl⟩
  · exact ⟨next_onDev rfl, Or.inl rfl⟩
  · exact ⟨next_onDev rfl, Or.inr rfl⟩

end Sys2Proof.Machine
end

section
/-! WB at its home, on arrival and from the pending buffer (R117, Table 4-3). -/

namespace Sys2Proof.Machine

/-! ### A line taken back -/

/-- A line taken back changes memory, its mark and the counters. -/
theorem takeLine_eq (l : Nat) (b : List Byte) (d : Dev) :
    ∃ m x c, takeLine l b d = { d with mem := m, poison := x, counters := c } := by
  have hline : ∃ m x, unpoison l (setLine l b d) = { d with mem := m, poison := x } := by
    unfold unpoison setLine
    exact ⟨_, _, by dsimp only⟩
  obtain ⟨m, x, h⟩ := hline
  unfold takeLine
  split
  · exact ⟨d.mem, d.poison, d.counters, rfl⟩
  · rw [h, countAccess_eq]
    exact ⟨m, x, _, rfl⟩

theorem mem_countAccess (a : Nat) (d : Dev) : (countAccess a d).mem = d.mem := by rw [countAccess_eq]

theorem mem_takeLine (l : Nat) (b : List Byte) (d : Dev) :
    (takeLine l b d).mem = if b.isEmpty then d.mem else (setLine l b d).mem := by
  unfold takeLine
  split
  · rfl
  · rw [mem_countAccess, unpoison_mem]

section Frame
variable (l : Nat) (b : List Byte) (d : Dev)

@[simp] theorem dir_takeLine : (takeLine l b d).dir = d.dir := by
  obtain ⟨m, x, c, h⟩ := takeLine_eq l b d
  rw [h]

@[simp] theorem cfg_takeLine : (takeLine l b d).cfg = d.cfg := by
  obtain ⟨m, x, c, h⟩ := takeLine_eq l b d
  rw [h]

@[simp] theorem fatal_takeLine : (takeLine l b d).flt.fatal = d.flt.fatal := by
  obtain ⟨m, x, c, h⟩ := takeLine_eq l b d
  rw [h]

@[simp] theorem pendingBuf_takeLine : (takeLine l b d).pendingBuf = d.pendingBuf := by
  obtain ⟨m, x, c, h⟩ := takeLine_eq l b d
  rw [h]

@[simp] theorem snoops_takeLine : (takeLine l b d).snoops = d.snoops := by
  obtain ⟨m, x, c, h⟩ := takeLine_eq l b d
  rw [h]

end Frame

section Bytes
variable {l : Nat} {b : List Byte} {d : Dev} (hm : Memory.wf d.mem = true) (hb : b.length = 128 ∨ b = [])
include hm hb

/-- A line taken back holds the bytes that came with it, or its home value where none came. -/
theorem lineData_takeLine : lineData (takeLine l b d) l = if b.isEmpty then lineData d l else b := by
  unfold lineData
  rw [mem_takeLine]
  rcases hb with hb | rfl
  · have hne : b.isEmpty = false := by
      rw [List.isEmpty_eq_false_iff]
      rintro rfl
      simp at hb
    have hread := memRead_memWrite d.mem (l * 128) b hm
    rw [hb] at hread
    rw [hne, mem_setLine, slice_whole hb]
    exact hread
  · rfl

theorem memByte_takeLine_ne {a : Nat} (ha : lineOf a ≠ l) : memByte (takeLine l b d).mem a = memByte d.mem a := by
  rw [mem_takeLine]
  rcases hb with hb | rfl
  · split
    · rfl
    · rw [memByte_setLine hm hb, if_neg ha]
  · rfl

end Bytes

/-! ### The write-back -/

theorem pruneAgent_eq (a : Nat) (d : Dev) : ∃ t, pruneAgent a d = { d with agents := t } := by
  unfold pruneAgent
  dsimp only
  split
  · exact ⟨d.agents, rfl⟩
  · exact ⟨_, rfl⟩

/-- The entry of a line whose owner has written it back. -/
def DirEntry.vacated (e : DirEntry) : DirEntry := { e with state := 0, holders := [], coarse := none }

section Owner
variable {w : Pending} {d : Dev} (hst : (dirOf d w.line).state = 2) (hh : (dirOf d w.line).holders = [w.req.source])
  (hgen : (dirOf d w.line).gen = w.req.grantGen)
include hst hh hgen

theorem serveWb_of_owner : serveWb w d = pruneAgent w.req.source (reply w 0x26 stOk 0 []
    (setDir w.line (dirOf d w.line).vacated (takeLine w.line w.req.data d))) := by
  have howned : (dirOf d w.line).ownedBy w.req.source = true := by simp [DirEntry.ownedBy, hst, hh]
  unfold serveWb
  dsimp only
  rw [if_neg (by simp [hgen, howned]), if_pos hst]
  rfl

/-- WB from its line's owner is acknowledged, ends the hold, stores what it brings, and keeps the pending buffer. -/
theorem serveWb_ends_hold (hf : d.flt.fatal = false) (hw : w.throttled = false) :
    Answered d (serveWb w d) w.req 0x26 stOk [] ∧ dirOf (serveWb w d) w.line = (dirOf d w.line).vacated
      ∧ (serveWb w d).mem = (takeLine w.line w.req.data d).mem ∧ (serveWb w d).pendingBuf = d.pendingBuf := by
  rw [serveWb_of_owner hst hh hgen]
  have hoff := offAnswer_reply w 0x26 stOk 0 [] (setDir w.line (dirOf d w.line).vacated (takeLine w.line w.req.data d))
  have hans := answered_reply (d := setDir w.line (dirOf d w.line).vacated (takeLine w.line w.req.data d)) (w := w)
    ((fatal_takeLine ..).trans hf) hw 0x26 stOk 0 []
  generalize reply w 0x26 stOk 0 [] (setDir w.line (dirOf d w.line).vacated (takeLine w.line w.req.data d)) = e at hoff hans ⊢
  obtain ⟨t, ht⟩ := pruneAgent_eq w.req.source e
  rw [ht]
  refine ⟨Answered.of_cfg hans (cfg_takeLine ..), ?_, (congrArg Dev.mem hoff :), ?_⟩
  · exact (dirOf_congr (congrArg Dev.dir hoff :) _).trans (dirOf_setDir_self ..)
  · exact (congrArg Dev.pendingBuf hoff :).trans (pendingBuf_takeLine ..)

end Owner

theorem serveWb_of_stale {w : Pending} {d : Dev} (hgen : (dirOf d w.line).gen ≠ w.req.grantGen) :
    serveWb w d = bumpReg 0x60040 63 0 1 (leaveEntry w.req d) := if_pos (Or.inl hgen)

/-- A counter of a whole register counts one more. -/
theorem regRaw_bumpReg_whole (off : Nat) (d : Dev) : regRaw (bumpReg off 63 0 1 d) off = (regRaw d off + 1) % 2 ^ 64 := by
  simp only [bumpReg, setField, regRaw_setReg_self, putBits, bitsOf]
  omega

/-- WB is answered, or discarded, as soon as it is tried. -/
theorem serveCaching_of_wb {w : Pending} (hk : w.kind = 0x07) (n : Nat) (d : Dev) : serveCaching (n + 1) w d = (true, serveWb w d) :=
  if_pos hk

/-! ### On arrival -/

/-- WB of an agent's own registration, which no byte limit delays. -/
structure WrittenBack (p : Req) (d : Dev) : Prop where
  hall : bitAt p.flags 0 = false
  aligned : p.addr % 128 = 0
  size : p.size = 128 ∨ p.size = 0
  registered : registeredAs d p.source p.regGen = true
  living : p.regGen ∉ (agentOf d p.source).crashed
  unlimited : limitOf d p.source = none

section Arrival
variable {p : Req} {s : State} (h : WrittenBack p s.dev) (ht : Taken 0x07 p s.dev)
include h ht

theorem cachingRow_of_wb : cachingRow 0x07 p s.dev = { serveWb (cachingRecord 0x07 p (entered 0x07 p s.dev)) (waiting 0x07 p s.dev) with
    pendingBuf := (serveWb (cachingRecord 0x07 p (entered 0x07 p s.dev)) (waiting 0x07 p s.dev)).pendingBuf.filter
      fun x => !(cachingRecord 0x07 p (entered 0x07 p s.dev)).same x } := by
  have hcheck : cachingCheck 0x07 p (entered 0x07 p s.dev) = (none, entered 0x07 p s.dev) := by
    have halign : aligned p.addr 128 = true := by simp [aligned, h.aligned]
    have hsize : (p.size == 128 || p.size == 0) = true := by simpa using h.size
    have hreg : registeredAs (entered 0x07 p s.dev) p.source p.regGen = true := by
      simp only [registeredAs, agentOf_entered]
      exact h.registered
    simp [cachingCheck, h.hall, halign, hsize, hreg]
  have hlim : limitOf (entered 0x07 p s.dev) p.source = none := by
    obtain ⟨o, ho⟩ := entered_eq 0x07 p s.dev
    rw [ho]
    exact h.unlimited
  unfold cachingRow
  rw [onRequest_of_taken ht, if_neg (by simp [h.living]), enterRequest_of_taken ht, hcheck]
  exact (takeCaching_of_unlimited hlim).trans (tryPending_of_done (serveCaching_of_wb rfl 2 _))

theorem data_of_wb : p.data.length = 128 ∨ p.data = [] := by
  have hlen := data_of_taken ht (by decide)
  rcases h.size with hs | hs
  · exact Or.inl (by simpa [reqTail, hs] using hlen)
  · exact Or.inr (List.length_eq_zero_iff.mp (by simpa [reqTail, hs] using hlen))

theorem wb_of_owner (hm : Memory.wf s.dev.mem = true) (hst : (dirOf s.dev (lineOf p.addr)).state = 2)
    (hh : (dirOf s.dev (lineOf p.addr)).holders = [p.source]) (hgen : (dirOf s.dev (lineOf p.addr)).gen = p.grantGen) :
    ∃ d, exec (.wb p) s = .next (ends d s) ∧ Answered s.dev d p 0x26 stOk [] ∧ (dirOf d (lineOf p.addr)).state = 0
      ∧ (dirOf d (lineOf p.addr)).holders = []
      ∧ lineData d (lineOf p.addr) = (if p.size = 0 then lineData s.dev (lineOf p.addr) else p.data)
      ∧ ∀ a, lineOf a ≠ lineOf p.addr → memByte d.mem a = memByte s.dev.mem a := by
  have hentry := dirOf_waiting 0x07 p s.dev (lineOf p.addr)
  have hm' : Memory.wf (waiting 0x07 p s.dev).mem = true := by rw [mem_waiting, hm]
  have hdata := data_of_wb h ht
  obtain ⟨hans, hdir, hmem, -⟩ := serveWb_ends_hold (w := cachingRecord 0x07 p (entered 0x07 p s.dev)) (d := waiting 0x07 p s.dev)
    ((congrArg DirEntry.state hentry).trans hst) ((congrArg DirEntry.holders hentry).trans hh)
    ((congrArg DirEntry.gen hentry).trans hgen) ((fatal_waiting ..).trans (fatal_of_taken ht)) rfl
  refine ⟨_, next_onDev (cachingRow_of_wb h ht), Answered.of_cfg (d := waiting 0x07 p s.dev) hans (cfg_waiting ..),
    (congrArg DirEntry.state hdir :), (congrArg DirEntry.holders hdir :), ?_, fun a ha => ?_⟩
  · have hline := lineData_takeLine (l := lineOf p.addr) hm' hdata
    rw [lineData_waiting] at hline
    refine (congrArg (fun m => memRead m (lineOf p.addr * 128) 128) hmem).trans (hline.trans ?_)
    have hsize : p.data.isEmpty = decide (p.size = 0) := by
      have hlen := data_of_taken ht (by decide)
      rcases h.size with hs | hs <;> simp [reqTail, hs] at hlen <;> simp [hs, hlen, ← List.length_eq_zero_iff]
    simp [hsize]
  · refine (congrArg (fun m => memByte m a) hmem).trans ((memByte_takeLine_ne hm' hdata ha).trans ?_)
    rw [mem_waiting]

theorem wb_of_stale (hgen : (dirOf s.dev (lineOf p.addr)).gen ≠ p.grantGen) :
    ∃ d, exec (.wb p) s = .next (ends d s) ∧ d.mem = s.dev.mem ∧ d.dir = s.dev.dir ∧ d.fabTx = s.dev.fabTx
      ∧ regRaw d 0x60040 = (regRaw s.dev 0x60040 + 1) % 2 ^ 64 := by
  have hserve := serveWb_of_stale (w := cachingRecord 0x07 p (entered 0x07 p s.dev)) (d := waiting 0x07 p s.dev)
    (by rw [dirOf_congr (dir_waiting ..)]; exact hgen)
  obtain ⟨o, l, hw⟩ := waiting_eq 0x07 p s.dev
  refine ⟨_, next_onDev (cachingRow_of_wb h ht), ?_⟩
  rw [hserve, hw]
  exact ⟨rfl, rfl, rfl, regRaw_bumpReg_whole 0x60040 s.dev⟩

end Arrival

end Sys2Proof.Machine
end

section
/-! PENDING_RETRY and AGE_PROMOTION (R116, R123). -/

namespace Sys2Proof.Machine

/-! ### PENDING_RETRY -/

section Retry
variable {line : Nat} {s : State}

theorem pendingRetry_of_transient (h : transient (dirOf s.dev line).state = true) :
    exec (.pendingRetry line) s = .next (ends s.dev s) := next_onDev (if_pos h)

theorem pendingRetry_of_none (h : ∀ w ∈ s.dev.pendingBuf, w.line = line → w.job ≠ none ∨ w.delayed = true) :
    exec (.pendingRetry line) s = .next (ends s.dev s) := by
  have hnone : (s.dev.pendingBuf.filter fun w => w.line == line && w.job.isNone && !w.delayed) = [] := by
    refine List.filter_eq_nil_iff.mpr fun w hw hwait => ?_
    simp only [Bool.and_eq_true, beq_iff_eq, Option.isNone_iff_eq_none, Bool.not_eq_true'] at hwait
    obtain ⟨⟨hl, hj⟩, hd⟩ := hwait
    rcases h w hw hl with hj' | hd'
    · exact hj' hj
    · exact Bool.false_ne_true (hd.symm.trans hd')
  refine next_onDev ?_
  unfold pendingRetry
  rw [hnone]
  exact ite_self _

/-- A record that waits alone for a line in a stable state is tried. -/
theorem pendingRetry_of_one {w : Pending} {d : Dev} (hp : d.pendingBuf = [w]) (hl : w.line = line) (hj : w.job = none)
    (hd : w.delayed = false) (ht : transient (dirOf d line).state = false) : pendingRetry line d = tryPending true w d := by
  have hwaits : (d.pendingBuf.filter fun w => w.line == line && w.job.isNone && !w.delayed) = [w] := by simp [hp, hl, hj, hd]
  have hsort : sortBy Pending.key [w] = [w] := rfl
  have hfind : d.pendingBuf.find? w.same = some w := by simp [hp, Pending.same, hj]
  unfold pendingRetry
  rw [hwaits, hsort, if_neg (by simp [ht])]
  simp [hfind]

/-- A write-back that waits alone for the line that its agent owns ends the hold and leaves the buffer. -/
theorem pendingRetry_of_wb {w : Pending} (hp : s.dev.pendingBuf = [w]) (hl : w.line = line) (hj : w.job = none)
    (hd : w.delayed = false) (hk : w.kind = 0x07) (hw : w.throttled = false) (hst : (dirOf s.dev line).state = 2)
    (hh : (dirOf s.dev line).holders = [w.req.source]) (hgen : (dirOf s.dev line).gen = w.req.grantGen)
    (hf : s.dev.flt.fatal = false) :
    ∃ d, exec (.pendingRetry line) s = .next (ends d s) ∧ d.pendingBuf = [] ∧ Answered s.dev d w.req 0x26 stOk []
      ∧ (dirOf d line).state = 0 := by
  subst hl
  obtain ⟨hans, hdir, -, hbuf⟩ := serveWb_ends_hold hst hh hgen hf hw
  refine ⟨_, next_onDev ((pendingRetry_of_one hp rfl hj hd (by rw [hst]; rfl)).trans (tryPending_of_done (serveCaching_of_wb hk 2 _))),
    ?_, hans, (congrArg DirEntry.state hdir :)⟩
  simp [hbuf, hp, Pending.same, hj]

end Retry

/-! ### AGE_PROMOTION -/

/-- A request without its place among the promoted. -/
def Pending.unpromoted (w : Pending) : Pending := { w with promoted := none }

/-- Whether a request is promoted once its line's ages have been looked at. -/
def Pending.aged (line limit : Nat) (w : Pending) : Bool := w.promoted.isSome || (decide (w.line = line) && decide (limit ≤ w.retries))

/-- One record of the pending buffer looked at. -/
def promoteStep (line : Nat) (x : List Pending × Dev) (w : Pending) : List Pending × Dev :=
  if w.line = line then promoteOne x w else (x.1 ++ [w], x.2)

theorem agePromotion_eq (line : Nat) (d : Dev) :
    agePromotion line d = { (d.pendingBuf.foldl (promoteStep line) ([], d)).2 with
      pendingBuf := (d.pendingBuf.foldl (promoteStep line) ([], d)).1 } := rfl

/-- A record looked at is promoted where its age is due, and otherwise as it was; the device counts it. -/
theorem promoteStep_eq (line : Nat) (ws : List Pending) (d : Dev) (w : Pending) : ∃ w' n r,
    promoteStep line (ws, d) w = (ws ++ [w'], { d with nextId := n, regs := r }) ∧ w'.unpromoted = w.unpromoted
      ∧ w'.promoted.isSome = w.aged line (cfgField d 0x60008 7 0) := by
  by_cases hl : w.line = line
  · by_cases hdue : (w.promoted.isNone && decide (cfgField d 0x60008 7 0 ≤ w.retries)) = true
    · have hstep : promoteStep line (ws, d) w = (ws ++ [{ w with promoted := some d.nextId }],
          bumpDie 0x60028 (dieOf (freshId d).2 (w.line * 128)) (freshId d).2) := (if_pos hl).trans (if_pos hdue)
      have hage : w.aged line (cfgField d 0x60008 7 0) = true := by
        simp only [Bool.and_eq_true, decide_eq_true_eq] at hdue
        simp [Pending.aged, hl, hdue.2]
      rw [hstep]
      unfold bumpDie
      split
      · exact ⟨_, _, _, rfl, rfl, hage.symm⟩
      · exact ⟨_, _, _, rfl, rfl, hage.symm⟩
    · have hstep : promoteStep line (ws, d) w = (ws ++ [w], d) := (if_pos hl).trans (if_neg hdue)
      have hage : w.promoted.isSome = w.aged line (cfgField d 0x60008 7 0) := by
        cases hp : w.promoted with
        | none =>
          have hyoung : ¬cfgField d 0x60008 7 0 ≤ w.retries := by simpa [hp] using hdue
          simp [Pending.aged, hp, hyoung]
        | some n => simp [Pending.aged, hp]
      exact ⟨w, d.nextId, d.regs, hstep, rfl, hage⟩
  · exact ⟨w, d.nextId, d.regs, if_neg hl, rfl, by simp [Pending.aged, hl]⟩

/-- What `promoteStep_eq` says of one record, of all. -/
theorem promoteAll_eq (line : Nat) (l : List Pending) (ws : List Pending) (d : Dev) : ∃ l' n r,
    l.foldl (promoteStep line) (ws, d) = (ws ++ l', { d with nextId := n, regs := r })
      ∧ l'.map Pending.unpromoted = l.map Pending.unpromoted
      ∧ l'.map (·.promoted.isSome) = l.map (Pending.aged line (cfgField d 0x60008 7 0)) := by
  induction l generalizing ws d with
  | nil => exact ⟨[], d.nextId, d.regs, by simp, rfl, rfl⟩
  | cons w l ih =>
    obtain ⟨w', n, r, hstep, hsame, hage⟩ := promoteStep_eq line ws d w
    obtain ⟨l', n', r', hfold, hsames, hages⟩ := ih (ws ++ [w']) { d with nextId := n, regs := r }
    refine ⟨w' :: l', n', r', ?_, ?_, ?_⟩
    · rw [List.foldl_cons, hstep, hfold, List.append_assoc, List.singleton_append]
    · rw [List.map_cons, List.map_cons, hsame, hsames]
    · rw [List.map_cons, List.map_cons, hage, hages]
      rfl

/-- AGE_PROMOTION promotes exactly the line's requests whose retries have reached the limit. -/
theorem agePromotion_promotes (line : Nat) (s : State) :
    ∃ d, exec (.agePromotion line) s = .next (ends d s) ∧ d.mem = s.dev.mem ∧ d.dir = s.dev.dir
      ∧ d.pendingBuf.map Pending.unpromoted = s.dev.pendingBuf.map Pending.unpromoted
      ∧ d.pendingBuf.map (·.promoted.isSome) = s.dev.pendingBuf.map (Pending.aged line (cfgField s.dev 0x60008 7 0)) := by
  obtain ⟨l, n, r, hfold, hsame, hage⟩ := promoteAll_eq line s.dev.pendingBuf [] s.dev
  refine ⟨_, next_onDev (agePromotion_eq line s.dev), ?_⟩
  rw [hfold]
  exact ⟨rfl, rfl, hsame, hage⟩

end Sys2Proof.Machine
end

section
/-! ACK and ACK_D: the last answer of a line makes it stable (R114, R117, R124, Table 4-3). -/

namespace Sys2Proof.Machine

/-! ### A line whose last answer is in -/

/-- The entry of a line all of whose agents have answered: stable with the holders kept, which stand in the vector where the entry was
coarse. -/
def DirEntry.settled (e : DirEntry) : DirEntry :=
  { e with state := if e.holders.isEmpty then 0 else 1, unanswered := [], heldWb := none, evicting := false
           holders := if e.coarse.isSome then [] else e.holders
           coarse := if e.coarse.isSome && !e.holders.isEmpty then some (e.holders.foldl groupBit 0) else none }

/-- The entry of a line in the stable state that its last answer leaves. -/
def DirEntry.stable (e : DirEntry) : DirEntry :=
  { e with state := if e.holders.isEmpty then 0 else 1, coarse := none, evicting := false, heldWb := none }

/-- The device once a line is stable and what waited for its agents is woken. -/
def stilled (l : Nat) (d : Dev) : Dev := wakeJobs (fun w => w == .snoop l) (setDir l (dirOf d l).stable d)

theorem dirOf_stilled (l : Nat) (d : Dev) : dirOf (stilled l d) l = (dirOf d l).stable :=
  (dirOf_congr (d := setDir l (dirOf d l).stable d) rfl l).trans (dirOf_setDir_self ..)

theorem stayCoarse_of_shared {l : Nat} {d : Dev} (hst : (dirOf d l).state = 1) (hc : (dirOf d l).coarse = none) :
    stayCoarse l d = setDir l { dirOf d l with coarse := some (((dirOf d l).holders ++ (dirOf d l).unanswered).foldl groupBit 0)
                                               holders := [] } d := by
  unfold stayCoarse
  simp [hst, hc]

section Last
variable {l : Nat} {d : Dev} (ht : transient (dirOf d l).state = true) (hun : (dirOf d l).unanswered = [])
  (hev : (dirOf d l).evicting = false) (hheld : (dirOf d l).heldWb = none)
  (hturn : ∀ w ∈ d.pendingBuf, w.line = l → w.turn = false)
include ht hun hev hheld hturn

/-- A line's last answer, where no write-back crossed it and no request has its turn. -/
theorem settleLine_of_last : settleLine l d =
    if (dirOf d l).coarse.isSome && !(dirOf d l).holders.isEmpty then stayCoarse l (stilled l d) else stilled l d := by
  have hfind : (d.pendingBuf.find? fun w => w.line == l && w.turn) = none := by
    refine List.find?_eq_none.mpr fun w hw hyes => ?_
    simp only [Bool.and_eq_true, beq_iff_eq] at hyes
    exact Bool.false_ne_true ((hturn w hw hyes.1).symm.trans hyes.2)
  unfold settleLine
  dsimp only
  rw [if_neg (by simp [ht, hun]), hev, hheld]
  split
  next w hw => exact absurd (hw.symm.trans hfind) (by simp)
  next =>
    rw [Bool.not_false, Bool.and_true]
    rfl

theorem settleLine_eq :
    ∃ t j, settleLine l d = { d with dir := t, jobs := j } ∧ dirOf (settleLine l d) l = (dirOf d l).settled := by
  have hentry := dirOf_stilled l d
  rw [settleLine_of_last ht hun hev hheld hturn]
  cases hsome : (dirOf d l).coarse.isSome
  · refine ⟨_, _, rfl, hentry.trans ?_⟩
    simp [DirEntry.stable, DirEntry.settled, hsome, hun]
  · cases hne : (dirOf d l).holders.isEmpty
    · have hstay := stayCoarse_of_shared (l := l) (d := stilled l d) (by rw [hentry]; simp [DirEntry.stable, hne])
        (by rw [hentry]; rfl)
      rw [if_pos (by rfl), hstay]
      refine ⟨_, _, rfl, (dirOf_setDir_self ..).trans ?_⟩
      rw [hentry]
      simp [DirEntry.stable, DirEntry.settled, hsome, hne, hun]
    · refine ⟨_, _, rfl, hentry.trans ?_⟩
      simp [DirEntry.stable, DirEntry.settled, hsome, hun, List.isEmpty_iff.mp hne]

end Last

/-- The last answer of a line: its entry is settled, the agent's snoops of the line are gone, and memory is as before. -/
theorem answered_of_last {l a : Nat} {d : Dev} (ht : transient (dirOf d l).state = true) (hun : (dirOf d l).unanswered = [a])
    (hev : (dirOf d l).evicting = false) (hheld : (dirOf d l).heldWb = none)
    (hturn : ∀ w ∈ d.pendingBuf, w.line = l → w.turn = false) :
    dirOf (answered l a d) l = (dirOf d l).settled ∧ (answered l a d).mem = d.mem
      ∧ (answered l a d).snoops = d.snoops.filter fun x => !(x.line == l && x.agent == a) := by
  have hfilter : (dirOf d l).unanswered.filter (· != a) = [] := by simp [hun]
  let b : Dev := setDir l { dirOf d l with unanswered := [] }
    { d with snoops := d.snoops.filter fun x => !(x.line == l && x.agent == a) }
  have hentry : dirOf b l = { dirOf d l with unanswered := [] } := dirOf_setDir_self ..
  obtain ⟨t, j, heq, hsettled⟩ := settleLine_eq (l := l) (d := b) (by rw [hentry]; exact ht) (by rw [hentry])
    (by rw [hentry]; exact hev) (by rw [hentry]; exact hheld) hturn
  have hanswered : answered l a d = pruneAgent a (settleLine l b) := by
    unfold answered
    dsimp only
    rw [hfilter]
  obtain ⟨g, hprune⟩ := pruneAgent_eq a (settleLine l b)
  rw [hanswered, hprune]
  refine ⟨?_, ?_, ?_⟩
  · refine (dirOf_congr (d := settleLine l b) rfl l).trans (hsettled.trans ?_)
    rw [hentry]
    rfl
  · rw [heq]
    rfl
  · rw [heq]
    rfl

/-! ### The rows -/

/-- An answer by its agent to the last snoop of a line. -/
structure LastAnswer (p : Rsp) (sn : Snoop) (d : Dev) : Prop where
  living : p.regGen ∉ (agentOf d p.source).crashed
  found : (d.snoops.find? fun x => x.tag == p.tag && x.tagGen == p.tagGen && x.agent == p.source) = some sn
  registration : sn.regGen = p.regGen
  last : (dirOf d sn.line).unanswered = [p.source]
  kept : (dirOf d sn.line).evicting = false
  uncrossed : (dirOf d sn.line).heldWb = none
  turnless : ∀ w ∈ d.pendingBuf, w.line = sn.line → w.turn = false
  asked : (dirOf d sn.line).state = 8
    ∨ ((dirOf d sn.line).state = 9 ∨ (dirOf d sn.line).state = 0xA) ∧ p.grantGen = (dirOf d sn.line).gen

section Answer
variable {p : Rsp} {sn : Snoop} {d : Dev} (h : LastAnswer p sn d)
include h

theorem ackIn_of_last (data : List Byte) :
    ackIn p data d = answered sn.line p.source (if (dirOf d sn.line).state = 8 then d else takeLine sn.line data d) := by
  obtain ⟨hliving, hfound, hreg, -, hkept, -, -, hasked⟩ := h
  unfold ackIn
  rw [if_neg (by simp [hliving]), hfound]
  dsimp only
  rcases hasked with h8 | ⟨hrecalled, hgen⟩
  · simp [h8, hreg, hkept]
  · have hne : (dirOf d sn.line).state ≠ 8 := by omega
    simp [hrecalled, hgen, hreg, hne]

/-- What an answer leaves: the line's entry settled, the agent's snoops of it gone, the line's home value where it brings data, and
every other byte as before. -/
theorem ackIn_settles (hm : Memory.wf d.mem = true) {data : List Byte} (hdata : data.length = 128 ∨ data = []) :
    dirOf (ackIn p data d) sn.line = (dirOf d sn.line).settled
      ∧ (∀ x ∈ (ackIn p data d).snoops, ¬(x.line = sn.line ∧ x.agent = p.source))
      ∧ lineData (ackIn p data d) sn.line
        = (if (dirOf d sn.line).state = 8 ∨ data.isEmpty = true then lineData d sn.line else data)
      ∧ ∀ a, lineOf a ≠ sn.line → memByte (ackIn p data d).mem a = memByte d.mem a := by
  rw [ackIn_of_last h]
  obtain ⟨e, he⟩ : ∃ e, e = (if (dirOf d sn.line).state = 8 then d else takeLine sn.line data d) := ⟨_, rfl⟩
  have hdir : e.dir = d.dir := he ▸ view_ite Dev.dir rfl (dir_takeLine ..)
  have hbuf : e.pendingBuf = d.pendingBuf := he ▸ view_ite Dev.pendingBuf rfl (pendingBuf_takeLine ..)
  have hentry := dirOf_congr hdir sn.line
  have htrans : transient (dirOf d sn.line).state = true := by
    refine decide_eq_true ?_
    rcases h.asked with h8 | ⟨hrecalled, -⟩ <;> omega
  obtain ⟨hsettled, hmem, hsnoops⟩ := answered_of_last (l := sn.line) (a := p.source) (d := e) (by rw [hentry, htrans])
    (by rw [hentry, h.last]) (by rw [hentry, h.kept]) (by rw [hentry, h.uncrossed]) (by rw [hbuf]; exact h.turnless)
  rw [← he]
  refine ⟨hsettled.trans (by rw [hentry]), fun x hx => ?_, ?_, fun a ha => ?_⟩
  · rw [hsnoops] at hx
    have hkept := (List.mem_filter.mp hx).2
    simp only [Bool.not_eq_true', Bool.and_eq_false_iff, beq_eq_false_iff_ne] at hkept
    tauto
  · refine (congrArg (fun m => memRead m (sn.line * 128) 128) hmem).trans ?_
    rw [he]
    by_cases h8 : (dirOf d sn.line).state = 8
    · simp [h8, lineData]
    · have hline := lineData_takeLine (l := sn.line) hm hdata
      simpa [h8, lineData] using hline
  · rw [hmem, he]
    split
    · rfl
    · exact memByte_takeLine_ne hm hdata ha

end Answer

theorem data_of_rspFormed {p : Rsp} (hf : rspFormed { p with kind := 0x29 } = true) : p.data.length = 128 := by
  simp only [rspFormed, rspLength, Bool.and_eq_true, beq_iff_eq] at hf
  simp at hf
  tauto

/-- The data that an answer's packet brings. -/
def answerData (i : Instr) (p : Rsp) : List Byte := if i = .ackD p then p.data else []

/-- ACK and ACK_D are one row but for their data. -/
theorem exec_answer {i : Instr} {p : Rsp} {s : State} (ht : takesTraffic s.dev p.port = true) (hd : ownUnit s.dev p.dest = true)
    (hi : i = .ack p ∧ rspFormed { p with kind := 0x28 } = true ∨ i = .ackD p ∧ rspFormed { p with kind := 0x29 } = true) :
    exec i s = .next (ends (ackIn p (answerData i p) s.dev) s)
      ∧ (answerData i p = p.data ∧ p.data.length = 128 ∧ i = .ackD p ∨ answerData i p = [] ∧ i ≠ .ackD p) := by
  rcases hi with ⟨rfl, hf⟩ | ⟨rfl, hf⟩
  · have hne : Instr.ack p ≠ .ackD p := fun h => nomatch h
    have hdata : answerData (.ack p) p = [] := if_neg hne
    rw [hdata]
    exact ⟨next_onDev (onResponse_of_formed (p := { p with kind := 0x28 }) ht hd hf _), Or.inr ⟨rfl, hne⟩⟩
  · have hdata : answerData (.ackD p) p = p.data := if_pos rfl
    rw [hdata]
    exact ⟨next_onDev (onResponse_of_formed (p := { p with kind := 0x29 }) ht hd hf _), Or.inl ⟨rfl, data_of_rspFormed hf, rfl⟩⟩

theorem answer_settles {i : Instr} {p : Rsp} {sn : Snoop} {s : State} (h : LastAnswer p sn s.dev)
    (ht : takesTraffic s.dev p.port = true) (hd : ownUnit s.dev p.dest = true) (hm : Memory.wf s.dev.mem = true)
    (hi : i = .ack p ∧ rspFormed { p with kind := 0x28 } = true ∨ i = .ackD p ∧ rspFormed { p with kind := 0x29 } = true) :
    ∃ d, exec i s = .next (ends d s) ∧ dirOf d sn.line = (dirOf s.dev sn.line).settled
      ∧ (∀ x ∈ d.snoops, ¬(x.line = sn.line ∧ x.agent = p.source))
      ∧ lineData d sn.line = (if i = .ackD p ∧ (dirOf s.dev sn.line).state ≠ 8 then p.data else lineData s.dev sn.line)
      ∧ ∀ a, lineOf a ≠ sn.line → memByte d.mem a = memByte s.dev.mem a := by
  obtain ⟨hexec, hdata⟩ := exec_answer ht hd hi
  have hshape : (answerData i p).length = 128 ∨ answerData i p = [] := by
    rcases hdata with ⟨hp, hlen, -⟩ | ⟨hnil, -⟩
    · exact Or.inl (hp ▸ hlen)
    · exact Or.inr hnil
  obtain ⟨hsettled, hsnoops, hline, hrest⟩ := ackIn_settles h hm hshape
  refine ⟨_, hexec, hsettled, hsnoops, hline.trans ?_, hrest⟩
  rcases hdata with ⟨hp, hlen, hi⟩ | ⟨hnil, hne⟩
  · have hfull : p.data.isEmpty = false := by
      rw [List.isEmpty_eq_false_iff]
      exact fun h => by simp [h] at hlen
    rw [hp]
    simp only [hfull, hi, Bool.false_eq_true, or_false, true_and, ne_eq, ite_not]
  · rw [hnil, if_pos (Or.inr List.isEmpty_nil), if_neg fun h => hne h.1]

end Sys2Proof.Machine
end

section
/-! The home's coherence, settled from its rows (R113 to R125, R190, R191). -/

namespace Sys2Proof.Machine

/-- Settles O54: the caching requests by what is granted or who is asked, the write-backs and answers by what they leave of a line, the
registrations by what every operation of coherence keeps of them. -/
theorem coherenceAtTheHome : Obligations.CoherenceAtTheHome := by
  unfold Obligations.CoherenceAtTheHome
  refine ⟨fun p s hflag halign hsize hreg hlim hroom hway hplain => ?_,
    fun p s ht hflag halign hsize hreg hliving hlim hm hst hh => ?_,
    fun p sn s ht hd hliving hfound hgen hm => ?_,
    fun line s => ⟨pendingRetry_of_transient, pendingRetry_of_none,
      fun w hp hl hj hd hk hw hst hh hgen hf => pendingRetry_of_wb hp hl hj hd hk hw hst hh hgen hf, agePromotion_promotes line s⟩,
    fun line a s => ⟨snoopLimitExpiry_of_early, fun x hx hl ha hdue hreg => snoopLimitExpiry_ends hx hl ha hdue hreg⟩,
    fun p s ht => agentReg_taken ht, fun p s ht => agentBye_taken ht⟩
  · have h : CachedHere p s.dev := ⟨hflag, halign, hsize, hreg, hlim, hroom, hway, hplain⟩
    refine ⟨fun ht => ⟨rdS_of_invalid h ht, fun he hc b hb => rdS_of_owned h ht he hc hb⟩, fun i kind hi ht => ?_⟩
    obtain ⟨hexec, hk⟩ := exec_sole hi s
    exact ⟨fun he => ⟨_, hexec, cachingRow_of_invalid h hk ht he⟩,
      fun he hc hb => ⟨_, hexec, cachingRow_of_sole_sharer h hk ht he hc hb⟩,
      fun he hc b hne hb => ⟨_, hexec, cachingRow_of_shared h hk ht he hc hne hb⟩⟩
  · have h : WrittenBack p s.dev := ⟨hflag, halign, hsize, hreg, hliving, hlim⟩
    exact ⟨wb_of_owner h ht hm hst hh, wb_of_stale h ht⟩
  · intro e hlast hev hheld hturn i hi hasked
    obtain ⟨d, hexec, hsettled, hsnoops, hline, hrest⟩ :=
      answer_settles ⟨hliving, hfound, hgen, hlast, hev, hheld, hturn, hasked⟩ ht hd hm hi
    refine ⟨d, hexec, ?_, ?_, ?_, ?_, hsnoops, ?_, hrest⟩
    · rw [hsettled]
      rfl
    · rw [hsettled]
      rfl
    · rw [hsettled]
      rfl
    · rw [hsettled]
      rfl
    · rw [hline]

end Sys2Proof.Machine
end

section
/-! The last slice of a PLACE to DRAM (R92, R146). -/

namespace Sys2Proof.Machine

@[simp] theorem ctxOf_dropCache (n j : Nat) (sg : Option Nat) (d : Dev) : ctxOf (dropCache n sg d) j = ctxOf d j := rfl

@[simp] theorem editSeg_mem (c : Cmd) (f : Seg → Seg) (d : Dev) : (editSeg c f d).mem = d.mem := rfl

/-- The segment that a PLACE names reads as changed once it has been edited. -/
theorem segs_editSeg_self {c : Cmd} {d : Dev} {g : Seg} (f : Seg → Seg)
    (h : tGet? (ctxOf d (pNat c 0 2)).segs (pNat c 2 1) = some g) :
    tGet? (ctxOf (editSeg c f d) (pNat c 0 2)).segs (pNat c 2 1) = some (f g) := by
  simp only [editSeg, ctxOf_dropCache, ctxOf_setCtx_self, tGet?_tMod, h, if_true, Option.map_some]

/-- The segment of a PLACE to DRAM after its commit (R146 step 4): at the destination, under its key and with the rights asked for. -/
def dramSeg (c : Cmd) (base key : Nat) (g : Seg) : Seg :=
  { g with hallBase := base, key, r := bitAt (pNat c 5 1) 0, w := bitAt (pNat c 5 1) 1, a := bitAt (pNat c 5 1) 2 }

/-- The device that the last slice of a PLACE to DRAM leaves before the operation ends: the run copied and the segment switched. -/
def dramPlaced (l : LongOp) (d : Dev) : Dev :=
  let base := l.dest * 2 ^ 21
  editSeg l.q.cmd (dramSeg l.q.cmd base (devKey d base)) { d with mem := memCopy d.mem (l.first * 2 ^ 21) base (l.count * 2 ^ 21) }

/-- With no line in the way, the last slice of a PLACE to DRAM that keeps its source copies, switches the segment and ends. -/
theorem placeFinish_of_dram {i : Nat} {s : State} {l : LongOp} (hl : opOf s.dev i = l) (hdir : pNat l.q.cmd 3 1 = 1)
    (hkeep : bitAt (pNat l.q.cmd 4 1) 0 = false) (hclear : recallLines true l.dest l.count s.dev = (true, s.dev)) :
    let base := l.dest * 2 ^ 21
    let key := devKey s.dev base
    placeFinish i s = { s with dev := endOp i stOk (sealWords base (key % 2 ^ 32) (key / 2 ^ 32) 0) (dramPlaced l s.dev) } := by
  simp only [placeFinish, hl, hdir, hkeep, hclear, one_ne_zero, false_and, if_false, Bool.not_true, Bool.false_eq_true]
  rfl

/-- Settles O8: the device from which the operation ends is that of `dramPlaced`, whose memory is a copy and whose segment an edit. -/
theorem placeCommitCopies : Obligations.PlaceCommitCopies := by
  unfold Obligations.PlaceCommitCopies
  intro i s l c hdir hkeep hwf hclear base key
  refine ⟨dramPlaced l s.dev, placeFinish_of_dram rfl hdir hkeep hclear, fun x => ?_, fun g hg => segs_editSeg_self _ hg⟩
  rw [dramPlaced, editSeg_mem]
  exact memByte_memCopy _ hwf _ _ _ _

end Sys2Proof.Machine
end

section
/-! SEAL LOG_CREATE and KV_APPEND (R149 to R151). -/

namespace Sys2Proof.Machine

/-! ### A log created -/

/-- A log of n regions opened from a first one: its regions entered, its extent recorded, its bytes cleared, the quota charged and the
change logged (R149). -/
def logOpened (q : QCmd) (first : Nat) (r : Region) (d : Dev) : Dev :=
  let n := pNat q.cmd 16 4
  let e := (regionRun first n).foldl (fun d i => { d with regions := tSet d.regions i r }) d
  logCmd q q.cmd.crew 2 (first * 2 ^ 21) 0 r.key (modCrew q.cmd.crew (fun x => { x with denseUsed := x.denseUsed + n })
    { e with extents := tSet e.extents first { count := n, ns := r.ns }, mem := memClear e.mem (first * 2 ^ 21) (n * 2 ^ 21) })

section Opened
variable (q : QCmd) (first : Nat) (r : Region) (d : Dev)

theorem tGet?_logOpened_regions (x : Nat) : tGet? (logOpened q first r d).regions x =
    if first ≤ x ∧ x < first + pNat q.cmd 16 4 then some r else tGet? d.regions x := by
  rw [logOpened, logCmd_eq, modCrew_regions]
  simp only [tGet?_enter_foldl, mem_regionRun]

theorem memByte_logOpened {a : Nat} (hlow : first * 2 ^ 21 ≤ a) (hhigh : a < (first + pNat q.cmd 16 4) * 2 ^ 21) :
    memByte (logOpened q first r d).mem a = 0 := by
  rw [logOpened, logCmd_eq, modCrew_mem]
  exact memByte_memClear_in _ hlow (by rwa [← Nat.add_mul])

theorem tGet?_logOpened_extents :
    tGet? (logOpened q first r d).extents first = some { count := pNat q.cmd 16 4, ns := r.ns } := by
  rw [logOpened, logCmd_eq]
  exact tGet?_tSet_self ..

end Opened

theorem sealBody_of_logCreate {q : QCmd} {t : State} (hkind : pNat q.cmd 13 1 = 1) (h : logCreateCheck t.dev q = none) :
    let prot := bitAt (pNat q.cmd 14 1) 2
    let first := freeSealed t.dev (pNat q.cmd 16 4)
    let k := drawKey t
    let g := if prot then drawKey k.2 else (0, k.2)
    let r : Region := { crew := q.cmd.crew, key := newKeyWord k.1, prot, dgen := g.1, state := .opened
                        ns := (pickNs t.dev q.cmd.crew 0).getD 0, format := 3 }
    sealBody q t =
      { g.2 with dev := complete q stOk (0 :: sealWords (first * 2 ^ 21) k.1 1 0) [] (logOpened q first r g.2.dev) } := by
  simp only [sealBody, hkind, logCreateBody, h]
  rfl

/-! ### An append issued and acknowledged -/

/-- The job of an append: each layer's bytes wait for the drive (R150). -/
def appendJob (q : QCmd) (rows : List (List Byte)) (stamp : Nat) : Job :=
  { owner := .command q, crew := q.cmd.crew, stamp, goal := .output stOk []
    parts := ((appendLayers q.cmd).zip rows).map fun y =>
      { addr := y.1.2, len := pNat q.cmd 33 1 * pNat q.cmd 34 2, act := .write, data := y.2, admitted := true,
        state := .waiting .append, since := stamp } }

theorem kvAppendBody_of_ready {q : QCmd} {d : Dev} (h : appendCheck d q = none) :
    let n := pNat q.cmd 33 1 * pNat q.cmd 34 2
    let ls := appendLayers q.cmd
    let ns := ((regionAt d (pNat q.cmd 20 8)).getD {}).ns
    let blocks := appendBlocks ls n
    let x := readLayers .device (pNat q.cmd 8 5) n ls d
    blocks ≤ (tGet d.namespaces ns : Ns).free → stSuccess x.2.1 = true → x.2.2.1 = true →
    let j := freshId x.2.2.2
    kvAppendBody q d =
      issueNvme ns (.append j.1) (takeBlocks ns blocks (setJob j.1 (appendJob q x.1 j.2.stk.number) j.2)) := by
  intro n ls ns blocks x hroom hread hready j
  have hfits : ¬(tGet d.namespaces ns : Ns).free < blocks := Nat.not_lt.mpr hroom
  have hok : ¬(!stSuccess x.2.1) = true := by simp [hread]
  have hall : ¬(!x.2.2.1) = true := by simp [hready]
  unfold kvAppendBody
  rw [h]
  dsimp only
  rw [if_neg hfits, if_neg hok, if_neg hall]
  rfl

theorem sealBody_of_kvAppend {q : QCmd} {t : State} (hkind : pNat q.cmd 13 1 = 2) :
    sealBody q t = { t with dev := kvAppendBody q t.dev } := by
  simp only [sealBody, hkind]

/-- Settles O9: LOG_CREATE by what `logOpened` makes of regions, bytes and extents, KV_APPEND by the job it issues, and the drive's
acknowledgement as it stands. -/
theorem sealLogAndAppend : Obligations.SealLogAndAppend := by
  unfold Obligations.SealLogAndAppend
  refine ⟨fun c s q t hb hpass hkind => ?_, fun c s q t hb hpass hkind => ?_, fun jid j d hj => ?_⟩
  · intro n prot first ns k g
    refine ⟨_, next_settle_of_begins hb (sealBody_of_logCreate hkind hpass), fun r => ?_, fun a hlow hhigh => ?_,
      tGet?_logOpened_extents ..⟩
    · rw [tGet?_logOpened_regions, drawKey_if_dev]
      rfl
    · exact memByte_logOpened q first _ _ hlow hhigh
  · intro n ls ns blocks x hroom hread hready j
    exact next_settle_of_begins hb ((sealBody_of_kvAppend hkind).trans
      (congrArg (fun d => { t with dev := d }) (kvAppendBody_of_ready hpass hroom hread hready)))
  · simp only [appendDone, hj]

end Sys2Proof.Machine
end

section
/-! TIER_EVICT, COUNTERS_READ and the decay of the page counters (R143 to R145, R162). -/

namespace Sys2Proof.Machine

/-- Whether a TIER_EVICT names a page of a crew: one of its own crew's, in the range given or, where asked, any. -/
def evictNames (q : QCmd) (p crew : Nat) : Bool :=
  let first := pageNo (pNat q.cmd 0 8)
  crew == q.cmd.crew && (pNat q.cmd 20 1 == 1 || (decide (first ≤ p) && decide (p < first + pNat q.cmd 16 4)))

/-- The resident pages that a TIER_EVICT names. -/
def evictResident (q : QCmd) (d : Dev) : List Nat := (d.pages.filter fun p => evictNames q p.1 p.2.crew).map (·.1)

/-- The pages being filled, to be kept, that a TIER_EVICT names. -/
def evictFilling (q : QCmd) (d : Dev) : List Nat := (d.fills.filter fun f => evictNames q f.1 f.2.crew && f.2.keep).map (·.1)

section Passes
variable {q : QCmd} {d : Dev}

theorem tierEvictBody_of_passes (h : tierEvictCheck d q = none) :
    let res := evictResident q d
    let fil := evictFilling q d
    tierEvictBody q d = complete q stOk [(res ++ fil.filter fun p => !res.contains p).length] []
      ((res ++ fil).foldl (fun d p => evictPage p d) d) := by
  simp only [tierEvictBody, h]
  rfl

theorem countersReadBody_of_passes (h : countersReadCheck d q = none) :
    let first := pageNo (pNat q.cmd 0 8)
    let n := pNat q.cmd 16 4
    let data := ((List.range n).map (first + ·)).flatMap fun p => toLe 2 (tGet d.counters p)
    let keep (x : Nat × Nat) : Bool := !(decide (first ≤ x.1) && decide (x.1 < first + n))
    let e := if pNat q.cmd 13 1 = 1 then { d with counters := d.counters.filter keep } else d
    countersReadBody q d = writeOut q (pNat q.cmd 24 8) (pNat q.cmd 32 5) data stOk [] e := by
  simp only [countersReadBody, h]

end Passes

/-- A page with no access in flight is dropped from its share at once. -/
theorem evictPage_of_idle {p : Nat} {d : Dev}
    (h : pageBusy { d with fills := tMod d.fills p fun f => { f with keep := false } } p = false) :
    evictPage p d = dropPage p { d with fills := tMod d.fills p fun f => { f with keep := false } } := by
  simp only [evictPage, h, Bool.false_eq_true, if_false]

@[simp] theorem tGet?_dropPage_pages (p : Nat) (d : Dev) : tGet? (dropPage p d).pages p = none := tGet?_tDel_self ..
@[simp] theorem tGet?_dropPage_counters (p : Nat) (d : Dev) : tGet? (dropPage p d).counters p = none := tGet?_tDel_self ..

/-- At a boundary that is a multiple of the decay interval every counter is halved (R144). -/
theorem counterDecay_of_due {d : Dev} (h : d.stk.number % 2 ^ cfgField d 0x70000 12 8 = 0) :
    counterDecay d =
      { d with counters := d.counters.filterMap fun c => if c.2 / 2 = 0 then none else some (c.1, c.2 / 2) } := if_pos h

/-- Settles O10: the two commands by their bodies where the checks pass, an idle page by what its drop leaves, and the decay. -/
theorem evictCountersComplete : Obligations.EvictCountersComplete := by
  unfold Obligations.EvictCountersComplete
  refine ⟨fun c s q t hb hpass => ?_, fun p d hidle => ?_, fun c s q t hb hpass => ?_, fun s hdue => ?_⟩
  · exact next_ends_of_begins hb (tierEvictBody_of_passes hpass)
  · rw [evictPage_of_idle hidle]
    exact ⟨tGet?_dropPage_pages .., tGet?_dropPage_counters ..⟩
  · exact next_ends_of_begins hb (countersReadBody_of_passes hpass)
  · exact next_onDev (counterDecay_of_due hdue)

end Sys2Proof.Machine
end

section
/-! Weight windows (R159 to R161). -/

namespace Sys2Proof.Machine

/-! ### WINDOW_SET -/

/-- The window that a WINDOW_CREATE makes, under a generation (R159). -/
def createdWin (q : QCmd) (gen : Nat) : Win :=
  { gen, state := 1, crew := q.cmd.crew, slots := pNat q.cmd 3 1, spans := pNat q.cmd 4 4, source := pNat q.cmd 8 8
    ring := pNat q.cmd 24 8, spanBytes := pNat q.cmd 40 4 }

/-- A window whose cursor has moved on past some counts: it forgets what their slots held (R160). -/
def advancedWin (n : Nat) (passed : List Nat) (slots : Nat) (x : Win) : Win :=
  { x with cursor := x.cursor + n, counts := passed.foldl (fun t k => tDel t (k % slots)) x.counts }

section Body
variable {q : QCmd} {d : Dev}

theorem windowBody_of_create (hop : pNat q.cmd 0 1 = 0) (h : windowCreateCheck d q = none) :
    let w := ((List.range 64).find? fun w => (winOf d w).state == 0).getD 0
    let g := nextGen8 (winOf d w).gen
    let x := createdWin q g
    windowBody q d = complete q stOk [w + g * 256] [] (startSpans w (List.range x.slots)
      ((List.range x.slots).foldl (fun d k => slotStatus x k slotEmpty d) (setWin w x d))) := by
  simp only [windowBody, hop, windowCreateBody, h]
  rfl

theorem windowBody_of_advance (hop : pNat q.cmd 0 1 = 1) (h : windowAdvanceCheck d q = none) :
    let w := pNat q.cmd 1 1
    let x := winOf d w
    let n := pNat q.cmd 44 4
    let passed := (List.range n).map (x.cursor + ·)
    let e := passed.foldl (fun d k => slotStatus x (k % x.slots) slotEmpty d) d
    windowBody q d = complete q stOk [] []
      (startSpans w (passed.map (· + x.slots)) (setWin w (advancedWin n passed x.slots (winOf e w)) e)) := by
  simp only [windowBody, hop, windowAdvanceBody, h, advancedWin, completeSt]

theorem windowBody_of_delete (hop : pNat q.cmd 0 1 = 2) (h : windowDeleteCheck d q = none) :
    let w := pNat q.cmd 1 1
    windowBody q d = setWin w { winOf d w with state := 2, deleteBy := some q } d := by
  simp only [windowBody, hop, windowDeleteBody, h]

end Body

/-! ### Fills that end -/

section Live
variable {w : Nat} {d : Dev} {x : Win} (hx : winOf d w = x)
include hx

/-- A window being deleted whose fills have all ended is emptied and its generation bumped, and the DELETE completes (R161). -/
theorem windowDeleteEnd_of_drained {q : QCmd} (hst : x.state = 2) (hf : x.filling = []) (hq : x.deleteBy = some q) :
    windowDeleteEnd w d = complete q stOk [] [] (setWin w { gen := nextGen8 x.gen }
      ((List.range x.slots).foldl (fun d k => slotStatus x k slotEmpty d) d)) := by
  have hdrained : ¬(x.state ≠ 2 ∨ (!x.filling.isEmpty) = true) := by simp [hst, hf]
  simp only [windowDeleteEnd, hx, hdrained, if_false, hq, completeSt]

/-- The fill of a count not yet passed that ends well writes the span to its slot, then the count to the slot's status word (R160). -/
theorem windowFillEnd_of_current {c : Nat} (hst : x.state = 1) (hc : c ∈ x.filling) (hcur : x.cursor ≤ c) :
    let k := c % x.slots
    let e := endNvme (· == .windowFill w c) (setWin w { x with filling := x.filling.filter (· != c) } d)
    let dst := x.ring + 65536 + k * x.spanBytes
    let f := deviceWrite dst (devKey e dst) (memRead e.mem (x.source + c % x.spans * x.spanBytes) x.spanBytes) e
    windowFillEnd w c true d = slotStatus x k c
      (bumpReg 0x70008 47 32 1 (setWin w { winOf f w with counts := tSet (winOf f w).counts k c } f)) := by
  have hfilled : ¬(x.state = 0 ∨ (!x.filling.contains c) = true) := by simp [hst, hc]
  have hwanted : ¬(x.state ≠ 1 ∨ c < x.cursor) := by simp [hst, hcur]
  simp only [windowFillEnd, hx, hfilled, hwanted, if_false, Bool.not_true, Bool.false_eq_true]

end Live

/-- Settles O11: WINDOW_SET by its three bodies where the checks pass, and the two ends by the state of the window. -/
theorem weightWindows : Obligations.WeightWindows := by
  unfold Obligations.WeightWindows
  refine ⟨fun c s q t hb hpass hop => ?_, fun c s q t hb hpass hop => ?_, fun c s q t hb hpass hop => ?_,
    fun w q s hst hf hq => ?_, fun w c s hst hc hcur => ?_⟩
  · exact next_ends_of_begins hb (windowBody_of_create hop hpass)
  · exact next_ends_of_begins hb (windowBody_of_advance hop hpass)
  · exact next_ends_of_begins hb (windowBody_of_delete hop hpass)
  · exact next_onDev (windowDeleteEnd_of_drained rfl hst hf hq)
  · exact next_onDev (windowFillEnd_of_current rfl hst hc hcur)

end Sys2Proof.Machine
end

section
/-! Fills of the tier cache and the drives (R138 to R141, R166). -/

namespace Sys2Proof.Machine

/-! ### Fills -/

/-- The device with a filled page entered: it is the most recently used, and its counter is clear (R139). -/
def pageEntered (page : Nat) (f : Fill) (d : Dev) : Dev :=
  let (i, e) := freshId (endNvme (· == .pageFill page) { d with fills := tDel d.fills page })
  { e with pages := tSet e.pages page { crew := f.crew, used := i, doomed := !f.keep }, counters := tDel e.counters page }

/-- The device with a filled page entered and counted, for its crew too where the page is kept. -/
def pageInstalled (page : Nat) (f : Fill) (d : Dev) : Dev :=
  let e := pageEntered page f d
  bumpReg 0x70008 31 0 1 (if f.keep then bumpReg (0x71010 + 0x20 * f.crew) 63 0 1 e else e)

/-- Counting a page changes nothing but registers. -/
theorem pageInstalled_eq (page : Nat) (f : Fill) (d : Dev) :
    pageInstalled page f d = { pageEntered page f d with regs := (pageInstalled page f d).regs } := by
  unfold pageInstalled
  cases f.keep <;> rfl

theorem tierFillEnd_of_success {page : Nat} {f : Fill} {d : Dev} (hf : tGet? d.fills page = some f)
    (hr : ((tGet? d.regions (page / 32)).getD { state := .scrubbing }).state = .sealedExtent
      ∨ ((tGet? d.regions (page / 32)).getD { state := .scrubbing }).state = .opened) :
    tierFillEnd page 0 d = wakeJobs (· == .fill page) (pageInstalled page f d) := by
  have hlive : ¬(((tGet? d.regions (page / 32)).getD { state := .scrubbing }).state ≠ .sealedExtent
      ∧ ((tGet? d.regions (page / 32)).getD { state := .scrubbing }).state ≠ .opened) := by
    rintro ⟨hsealed, hopened⟩
    exact hr.elim hsealed hopened
  simp only [tierFillEnd, hf, hlive, if_false, zero_ne_one, false_and, ne_eq, not_true_eq_false]
  rfl

/-! ### Drives -/

section Found
variable {link command : Nat} {n : NvmeCmd} {d : Dev}
  (h : d.nvme.find? (fun n => n.link == link && n.command == command) = some n)
include h

theorem nvmeCompletion_of_found (ok : Bool) : nvmeCompletion link command ok d = nvmeWorkEnd n.work ok
    { d with nvme := d.nvme.filter (fun m => !(m == n)), nvmeTimeouts := tDel d.nvmeTimeouts link } := by
  simp only [nvmeCompletion, h]

theorem nvmeTimeout_of_found :
    let k := tGet d.nvmeTimeouts link + 1
    let e := nvmeWorkEnd n.work false
      { d with nvme := d.nvme.filter (fun m => !(m == n)), nvmeTimeouts := tSet d.nvmeTimeouts link k }
    nvmeTimeout link command d = if k ≥ 3 then resetController link 6 0 e else e := by
  simp only [nvmeTimeout, h]

end Found

theorem tGet?_namespaceReturn {link i : Nat} {d : Dev} {n : Ns} (h : tGet? d.namespaces i = some n) :
    tGet? (namespaceReturn link d).namespaces i = some (if n.link = link then { n with available := true } else n) := by
  rw [namespaceReturn, tGet?_tMap, h]
  rfl

/-- Settles O12: a fill by the device with its page installed, the drives' rows by what each does where it finds its command. -/
theorem tierFillsAndDrives : Obligations.TierFillsAndDrives := by
  unfold Obligations.TierFillsAndDrives
  refine ⟨fun page f s hf hr => ?_, fun link command ok n s h => ?_, fun link command n s h => ?_, fun link s => ?_,
    fun link detail s => ⟨next_onDev rfl, next_onDev rfl⟩⟩
  · refine ⟨pageInstalled page f s.dev, next_onDev (tierFillEnd_of_success hf hr), ?_, ?_, ?_, ?_, ?_⟩ <;>
      rw [pageInstalled_eq]
    · exact tGet?_tDel_self ..
    · exact ⟨_, tGet?_tSet_self ..⟩
    · exact tGet?_tDel_self ..
    · rfl
    · rfl
  · exact next_onDev (nvmeCompletion_of_found h ok)
  · exact next_onDev (nvmeTimeout_of_found h)
  · exact ⟨_, next_onDev rfl, fun i n h => tGet?_namespaceReturn h, rfl⟩

end Sys2Proof.Machine
end

section
/-! The pair: what a change of its state, its packets and its ask of the witness leave (Chapter 14). -/

namespace Sys2Proof.Machine

/-! ### Registers -/

/-- A counter in a register's high half that is raised by one wraps at 32 bits. -/
theorem bitsOf_regRaw_bumpReg_high (off : Nat) (d : Dev) :
    bitsOf (regRaw (bumpReg off 63 32 1 d) off) 63 32 = (bitsOf (regRaw d off) 63 32 + 1) % 2 ^ 32 := by
  simp only [bumpReg, setField, regRaw_setReg_self, putBits, bitsOf]
  omega

theorem partnerModule_congr {d e : Dev} (h : e.regs = d.regs) : partnerModule e = partnerModule d := by
  unfold partnerModule
  rw [regRaw_congr h]

theorem partnerModule_setField {o : Nat} (ho : o ≠ 0x110008) (h l v : Nat) (d : Dev) :
    partnerModule (setField o h l v d) = partnerModule d := by
  unfold partnerModule setField
  rw [regRaw_setReg_ne _ _ ho.symm]

/-! ### A change of state -/

/-- A change of the pair's state is one record of the change log and one event of the controller beside (Table 14-2). -/
theorem offIcu_pairTo (st : Nat) (d : Dev) :
    ∃ l, (pairTo st d).offIcu = Dev.offIcu { d with pair := { d.pair with state := st }, log := l } := by
  unfold pairTo
  split
  case isTrue h =>
    subst h
    exact ⟨d.log, rfl⟩
  case isFalse =>
    rw [offIcu_pulse, logDev_eq]
    exact ⟨_, rfl⟩

section PairTo
variable (st : Nat) (d : Dev)

theorem pairTo_frame {β : Type} (g : Dev → β) (hicu : ∀ e : Dev, g e.offIcu = g e)
    (hlog : ∀ l, g { d with pair := { d.pair with state := st }, log := l } = g { d with pair := { d.pair with state := st } }) :
    g (pairTo st d) = g { d with pair := { d.pair with state := st } } := by
  obtain ⟨l, h⟩ := offIcu_pairTo st d
  rw [← hicu, h, hicu, hlog]

@[simp] theorem pairTo_pair : (pairTo st d).pair = { d.pair with state := st } := pairTo_frame st d Dev.pair (fun _ => rfl) fun _ => rfl
@[simp] theorem pairTo_mem : (pairTo st d).mem = d.mem := pairTo_frame st d Dev.mem (fun _ => rfl) fun _ => rfl
@[simp] theorem pairTo_regions : (pairTo st d).regions = d.regions := pairTo_frame st d Dev.regions (fun _ => rfl) fun _ => rfl
@[simp] theorem pairTo_regs : (pairTo st d).regs = d.regs := pairTo_frame st d Dev.regs (fun _ => rfl) fun _ => rfl
@[simp] theorem pairTo_cfg : (pairTo st d).cfg = d.cfg := pairTo_frame st d Dev.cfg (fun _ => rfl) fun _ => rfl
@[simp] theorem pairTo_stk : (pairTo st d).stk = d.stk := pairTo_frame st d Dev.stk (fun _ => rfl) fun _ => rfl

end PairTo

/-! ### Packets -/

/-- A pair packet of the CTL types leaves in every state of the module (R380). -/
theorem sendPair_of_ctl {kind : Nat} (h : 0x81 ≤ kind) (body : List Byte) (d : Dev) :
    sendPair kind body d = { d with fabTx := d.fabTx ++
      [{ kind, dest := unitId (partnerModule d) 0, source := unitId (ownModule d) 0, body }] } := sendPkt_of_ctl h d

/-- The REDIRECT that a member broadcasts (R192). -/
def redirectPkt (d : Dev) : OutPkt :=
  { kind := 0x84, dest := 0xFFFFFF, source := unitId (ownModule d) 0,
    body := toLe 2 (if d.cfg.role = 1 then ownModule d else partnerModule d) ++ toLe 2 (ownModule d) ++ toLe 4 d.pair.epoch
      ++ toLe 8 d.stk.number }

theorem sendRedirect_eq (d : Dev) : sendRedirect d = { d with fabTx := d.fabTx ++ [redirectPkt d] } :=
  sendPkt_of_ctl (k := redirectPkt d) (by simp [redirectPkt]) d

/-- Which REDIRECT a member broadcasts depends on its role, the two modules, the epoch and the stroke. -/
theorem redirectPkt_congr {d e : Dev} (hcfg : e.cfg = d.cfg) (hpartner : partnerModule e = partnerModule d)
    (hepoch : e.pair.epoch = d.pair.epoch) (hstk : e.stk = d.stk) : redirectPkt e = redirectPkt d := by
  simp only [redirectPkt, ownModule, hcfg, hpartner, hepoch, hstk]

/-- The request by which the witness is asked: one 8-byte CAS by requester unit 3 (R398). -/
def witnessPkt (compare operand : Nat) (d : Dev) : OutPkt :=
  { kind := 0x03, dest := unitId (routeModule d (regRaw d 0x110010)) 0, source := unitId (ownModule d) 3
    tag := d.nextTag % 65536, tagGen := d.nextTag / 65536 % 255 + 1
    body := reqBody (regRaw d 0x110010) (regRaw d 0x110018) 9 8 0 0 0 0 ++ toLe 16 operand ++ toLe 16 compare }

theorem witnessCas_eq (compare operand : Nat) (d : Dev) :
    let k := witnessPkt compare operand d
    witnessCas compare operand d = sendPkt k
      { d with nextTag := d.nextTag + 1, pair := { d.pair with asking := some (k.tag, k.tagGen), askedAt := d.stk.number } } := rfl

/-- An ask of the witness outside the fatal state is sent, and its answer is then awaited. -/
theorem witnessCas_sends {d : Dev} (hf : d.flt.fatal = false) (compare operand : Nat) :
    let k := witnessPkt compare operand d
    k ∈ (witnessCas compare operand d).fabTx
      ∧ (witnessCas compare operand d).pair = { d.pair with asking := some (k.tag, k.tagGen), askedAt := d.stk.number } := by
  intro k
  rw [witnessCas_eq]
  constructor
  · apply mem_fabTx_sendPkt_self
    exact hf
  · rw [sendPkt_eq]

end Sys2Proof.Machine
end

section
/-! Takeover, joining, the switch and samples (O50). -/

namespace Sys2Proof.Machine

/-! ### Tables merged -/

/-- A table into which the entries of another were set, at a key that the other does not hold. -/
theorem tGet?_foldl_tSet_of_absent {α : Type} (l : Tbl α) (t : Tbl α) {k : Nat} (h : ∀ x, (k, x) ∉ l) :
    tGet? (l.foldl (fun t r => tSet t r.1 r.2) t) k = tGet? t k := by
  induction l generalizing t with
  | nil => rfl
  | cons r l ih =>
    have hne : k ≠ r.1 := by
      rintro rfl
      exact h r.2 List.mem_cons_self
    rw [List.foldl_cons, ih _ (fun x hx => h x (List.mem_cons_of_mem _ hx)), tGet?_tSet_ne _ _ hne]

/-- A table into which the entries of another were set, at the key of an entry that no later one overwrites. -/
theorem tGet?_foldl_tSet_of_last {α : Type} (l m t : Tbl α) {k : Nat} (v : α) (h : ∀ y, (k, y) ∉ m) :
    tGet? ((l ++ (k, v) :: m).foldl (fun t r => tSet t r.1 r.2) t) k = some v := by
  rw [List.foldl_append, List.foldl_cons, tGet?_foldl_tSet_of_absent m _ h, tGet?_tSet_self]

/-! ### Serving -/

/-- Taking the partner's regions in changes the region table, the directory and the mirrored table alone. -/
theorem takeIn_eq (d : Dev) : takeIn d = { d with
    dir := (takeIn d).dir
    regions := (takeIn d).regions
    pair := { d.pair with mirrored := (takeIn d).pair.mirrored } } := by
  unfold takeIn
  dsimp only
  split <;> rfl

/-- A member that is not a bow enters every mirrored region into its own table (R400 step 3). -/
theorem takeIn_of_role {d : Dev} (h : d.cfg.role ≠ 1) :
    (takeIn d).regions = d.pair.mirrored.foldl (fun t r => tSet t r.1 r.2) d.regions ∧ (takeIn d).pair.mirrored = [] := by
  simp [takeIn, mirrorsOwn, h]

/-- The last part of a takeover and of a switch: the state that serves, REDIRECT, and the requests that waited for the pair. -/
def servesAs (st : Nat) (d : Dev) : Dev := wakeJobs waitsPair (startRedirect (pairTo st d))

section ServesAs
variable (st : Nat) (d : Dev)

/-- But for the jobs, a member that serves is the one that entered the state and sent a REDIRECT, with sixteen to follow. -/
theorem servesAs_eq :
    let e := pairTo st d
    let f := { e with pair := { e.pair with redirectsLeft := 16, redirectAt := e.stk.number + 64 } }
    servesAs st d = { f with fabTx := f.fabTx ++ [redirectPkt f], jobs := (servesAs st d).jobs } := by
  intro e f
  rw [servesAs, startRedirect, sendRedirect_eq]
  rfl

theorem servesAs_pair :
    (servesAs st d).pair = { d.pair with state := st, redirectsLeft := 16, redirectAt := d.stk.number + 64 } := by
  rw [servesAs_eq, pairTo_pair, pairTo_stk]

theorem servesAs_mem : (servesAs st d).mem = d.mem := by rw [servesAs_eq, pairTo_mem]

theorem servesAs_regions : (servesAs st d).regions = d.regions := by rw [servesAs_eq, pairTo_regions]

theorem redirectPkt_mem_servesAs : redirectPkt d ∈ (servesAs st d).fabTx := by
  have hpkt : redirectPkt { pairTo st d with
      pair := { (pairTo st d).pair with redirectsLeft := 16, redirectAt := (pairTo st d).stk.number + 64 } } = redirectPkt d :=
    redirectPkt_congr (pairTo_cfg st d) (partnerModule_congr (pairTo_regs st d)) (by rw [pairTo_pair]) (pairTo_stk st d)
  rw [servesAs_eq, hpkt]
  exact List.mem_append_right _ List.mem_cons_self

end ServesAs

/-- The end of reconciliation: the device from which the member serves in SOLO (R400 steps 3 to 5). -/
theorem reconcileEnd_of_reconciling {d : Dev} (h : d.pair.state = 8) :
    ∃ e, reconcileEnd d = servesAs 6 e ∧ e.mem = d.mem ∧ e.regions = (takeIn d).regions ∧ redirectPkt e = redirectPkt d
      ∧ e.stk = d.stk
      ∧ e.pair = { d.pair with
          mirrored := (takeIn d).pair.mirrored, mseq := d.pair.applied, acked := d.pair.applied
          keptUntil := some (d.stk.number + 2048) } := by
  refine ⟨_, if_neg (not_not.mpr h), ?_, rfl, redirectPkt_congr ?_ ?_ ?_ ?_, ?_, ?_⟩
  case refine_3 =>
    rw [partnerModule_setField (by decide), partnerModule_setField (by decide)]
    refine partnerModule_congr ?_
    rw [takeIn_eq]
  all_goals
    simp only [setField_mem, setField_cfg, setField_pair, setField_stk]
    rw [takeIn_eq]

theorem redirectRepeat_of_due {d : Dev} (hleft : 0 < d.pair.redirectsLeft) (hat : d.pair.redirectAt ≤ d.stk.number) :
    let e := { d with pair := { d.pair with redirectsLeft := d.pair.redirectsLeft - 1, redirectAt := d.stk.number + 64 } }
    redirectRepeat d = { e with fabTx := e.fabTx ++ [redirectPkt e] } := by
  intro e
  exact (if_neg (by omega)).trans (sendRedirect_eq e)

theorem takeoverExpiry_of_some {n : Nat} {d : Dev} (h : d.pair.keptUntil = some n) :
    takeoverExpiry d = if d.stk.number < n then d else { d with pair := { d.pair with kept := [], keptUntil := none } } := by
  simp only [takeoverExpiry, h]

/-! ### Reconciliation -/

theorem applyMirror_expelUntil (p : MirrorPkt) (d : Dev) : (applyMirror p d).pair.expelUntil = d.pair.expelUntil :=
  view_ite (fun d => d.pair.expelUntil) rfl rfl

theorem modMirrored_expelUntil (f : Tbl Region → Nat → Tbl Region) (run : List Nat) (d : Dev) :
    (modMirrored f run d).pair.expelUntil = d.pair.expelUntil := view_ite (fun d => d.pair.expelUntil) rfl rfl

theorem applyRegion_expelUntil (p : RegionPkt) (d : Dev) : (applyRegion p d).pair.expelUntil = d.pair.expelUntil := by
  unfold applyRegion
  dsimp only
  split
  · exact modMirrored_expelUntil ..
  · split
    · exact modMirrored_expelUntil ..
    · split
      · exact modMirrored_expelUntil ..
      · exact modMirrored_expelUntil ..

/-- The mirror's stream never touches the wait of an expulsion. -/
theorem applyBuffered_expelUntil (fuel : Nat) (d : Dev) : (applyBuffered fuel d).pair.expelUntil = d.pair.expelUntil := by
  induction fuel generalizing d with
  | zero => rfl
  | succ fuel ih =>
    unfold applyBuffered
    dsimp only
    split
    · rw [ih, applyMirror_expelUntil]
    · rw [ih, applyRegion_expelUntil]
    · rfl

theorem sendOwed_pair (d : Dev) (o : Owed) : (sendOwed o d).pair = d.pair :=
  (congrArg Dev.pair (offAnswer_sendRsp 0x21 o.requester o.tag o.tagGen stOk 0 0 (if o.kind = 2 then toLe 16 o.old else []) d) :)

/-- Reconciliation leaves nothing buffered or owed, and the wait of an expulsion as it was. -/
theorem reconcile_pair (d : Dev) :
    let x := (reconcile d).pair
    x.state = 8 ∧ x.expelUntil = d.pair.expelUntil ∧ x.buffer = [] ∧ x.regionBuffer = [] ∧ x.owed = [] := by
  simp only [reconcile, pairTo_pair]
  rw [view_foldl Dev.pair sendOwed_pair]
  exact ⟨trivial, applyBuffered_expelUntil .., rfl, rfl, rfl⟩

section ExpelWait
variable {n : Nat} {d : Dev} (h : d.pair.expelUntil = some n)
include h

theorem expelWaitEnd_of_due (hst : d.pair.state = 5) (hn : n ≤ d.stk.number) :
    expelWaitEnd d = reconcile { d with pair := { d.pair with expelUntil := none, expelling := false, detectedAt := d.stk.number } } := by
  simp only [expelWaitEnd, h]
  exact if_neg (by omega)

theorem expelWaitEnd_of_early (hn : d.stk.number < n) : expelWaitEnd d = d := by
  simp only [expelWaitEnd, h]
  exact if_pos (Or.inl hn)

end ExpelWait

/-! ### The switch -/

/-- SWITCH received by the mirror: it serves at the packet's epoch with MSEQ going on (R406 step 4). -/
theorem switchIn_of_mirror {d : Dev} (h : d.pair.state = 5) (epoch : Nat) :
    let e := { d with pair := { d.pair with epoch, mseq := d.pair.applied, acked := d.pair.applied, owed := [], missed := 0 } }
    switchIn epoch d = servesAs 4 (takeIn e) := if_neg (not_not.mpr h)

/-! ### Joining -/

/-- The checks on a JOIN message (R404). -/
def joinGood (p : JoinPkt) : Bool := p.sigOk && p.fwEqual && p.witnessEqual && p.partnerOk

/-- The JOIN message that the exchange awaits: a stern the first, or the third after its second; a bow the second after its first. -/
def JoinAwaited (p : JoinPkt) (d : Dev) : Prop :=
  d.cfg.role = 2 ∧ (p.msg = 1 ∨ (p.msg = 3 ∧ d.pair.joinMsg = 2)) ∨ d.cfg.role = 1 ∧ p.msg = 2 ∧ d.pair.joinMsg = 1

/-- The stern's answer to the first message, over both (R404). -/
def answerJoin (p : JoinPkt) (d : Dev) : Dev :=
  let e := { d with draws := d.draws + 32 + 96 }
  let h1 := joinHead 1 p.nonce p.pub e
  let h2 := joinHead 2 (drawBytes 32 d).1 (drawBytes 96 (drawBytes 32 d).2).1 e
  sendJoin h2 h1 { e with pair := { e.pair with joinMsg := 2, joinTrans := h1 ++ h2 } }

section Join
variable {p : JoinPkt} {d : Dev} (hst : d.pair.state = 1) (hp : JoinAwaited p d)
include hst hp

theorem joinIn_of_awaited :
    joinIn p d = if joinGood p = false then faultCE 0x10 0 0 d else if p.msg = 1 then answerJoin p d
      else if p.msg = 2 then joinAccepted (sendJoin (joinHead 3 [] [] d) (d.pair.joinTrans ++ joinHead 2 p.nonce p.pub d) d)
      else joinAccepted d := by
  have hexpected : if d.cfg.role = 2 then p.msg = 1 ∨ (p.msg = 3 ∧ d.pair.joinMsg = 2) else p.msg = 2 ∧ d.pair.joinMsg = 1 := by
    rcases hp with ⟨hrole, h⟩ | ⟨hrole, h⟩
    · rw [if_pos hrole]
      exact h
    · rw [if_neg (by omega)]
      exact h
  unfold joinIn
  rw [if_neg (by simp [hst, hexpected])]
  simp only [Bool.not_eq_eq_eq_not, Bool.not_true]
  rfl

theorem joinIn_of_bad (hbad : joinGood p = false) : joinIn p d = faultCE 0x10 0 0 d := by
  rw [joinIn_of_awaited hst hp, if_pos hbad]

theorem joinIn_of_first (hgood : joinGood p = true) (hmsg : p.msg = 1) : joinIn p d = answerJoin p d := by
  rw [joinIn_of_awaited hst hp, if_neg (by simp [hgood]), if_pos hmsg]

/-- A good second or third message is accepted, the bow's third being sent first; the device is else the one that received it. -/
theorem joinIn_of_later (hgood : joinGood p = true) (hmsg : p.msg ≠ 1) :
    ∃ tx, joinIn p d = joinAccepted { d with fabTx := tx } := by
  rw [joinIn_of_awaited hst hp, if_neg (by simp [hgood]), if_neg hmsg]
  split
  · exact ⟨_, congrArg joinAccepted (sendPair_of_ctl (by decide) _ d)⟩
  · exact ⟨d.fabTx, rfl⟩

end Join

/-- The stern's answer is a JOIN with MSG 2, and the member goes on joining. -/
theorem answerJoin_sends (p : JoinPkt) (d : Dev) :
    (answerJoin p d).pair.joinMsg = 2 ∧ (answerJoin p d).pair.state = d.pair.state ∧ (answerJoin p d).mem = d.mem
      ∧ ∃ k ∈ (answerJoin p d).fabTx, k.kind = 0x95 ∧ k.body.take 8 = toLe 1 2 ++ zeros 7 := by
  simp only [answerJoin, sendJoin]
  rw [sendPair_of_ctl (by decide)]
  refine ⟨rfl, rfl, rfl, _, List.mem_append_right _ List.mem_cons_self, rfl, ?_⟩
  simp only [joinHead, List.append_assoc]
  rw [← List.append_assoc]
  exact List.take_left' rfl

/-! ### Samples -/

/-- The bytes of a sample that have arrived before a part. -/
def sampleBytes (number part : Nat) (d : Dev) : List Byte :=
  if part = 0 then [] else ((tGet? d.pair.samples number).getD default).2.2

theorem sampleFault_samples (desc step : Nat) (d : Dev) : (sampleFault desc step d).pair.samples = d.pair.samples :=
  (congrArg (fun e : Dev => e.pair.samples) (offFault_recordFault ..) :)

section Sample
variable {number desc step part : Nat} {data : List Byte} {d : Dev} (hl : mirrorListens d = true)
  (ho : (sampleBytes number part d).length = part * 1024)
include hl ho

theorem sampleIn_of_listening :
    sampleIn number desc step part data d =
      if data.length = 1024 then
        { d with pair := { d.pair with samples := tSet d.pair.samples number (desc, step, sampleBytes number part d ++ data) } }
      else
        let x := sampleOut desc (sampleBytes number part d ++ data)
          { d with pair := { d.pair with samples := tDel d.pair.samples number } }
        let ok := samplePasses (cfgField x.2.2 0x100000 31 24) x.1 x.2.1
        let e := bumpReg 0x100050 63 32 1 x.2.2
        sendPair 0x93 (toLe 8 number ++ toLe 1 (b2n (!ok)) ++ zeros 7) (if ok then e else sampleFault desc step e) := by
  unfold sampleIn
  rw [hl]
  exact if_neg (not_not.mpr ho)

/-- The last part of a sample ends it with a verdict (R373). -/
theorem sampleIn_of_last (hdata : data.length < 1024) :
    ∃ failed, tGet? (sampleIn number desc step part data d).pair.samples number = none
      ∧ ∃ k ∈ (sampleIn number desc step part data d).fabTx,
          k.kind = 0x93 ∧ k.body = toLe 8 number ++ toLe 1 (b2n failed) ++ zeros 7 := by
  rw [sampleIn_of_listening hl ho, if_neg (by omega)]
  dsimp only
  rw [sendPair_of_ctl (by decide)]
  refine ⟨_, ?_, _, List.mem_append_right _ List.mem_cons_self, rfl, rfl⟩
  refine (congrArg (fun t => tGet? t number) (?_ : _ = tDel d.pair.samples number)).trans (tGet?_tDel_self ..)
  exact view_ite (fun e : Dev => e.pair.samples) rfl ((sampleFault_samples ..).trans rfl)

end Sample

theorem sampleVerdict_of_held {number desc step : Nat} {bytes : List Byte} {d : Dev}
    (h : tGet? d.pair.samples number = some (desc, step, bytes)) (failed : Bool) :
    let e := bumpReg 0x100050 63 32 1 { d with pair := { d.pair with samples := tDel d.pair.samples number } }
    sampleVerdict number failed d = if failed then sampleFault desc step e else e := by
  simp only [sampleVerdict, h]

/-! ### The rows -/

/-- RECONCILE_END (R400, R192). -/
theorem reconcileEnd_serves {s : State} (hst : s.dev.pair.state = 8) (hrole : s.dev.cfg.role ≠ 1) :
    ∃ d, exec .reconcileEnd s = .next (ends d s) ∧ d.pair.state = 6 ∧ d.pair.redirectsLeft = 16
      ∧ d.pair.redirectAt = s.dev.stk.number + 64 ∧ d.pair.keptUntil = some (s.dev.stk.number + 2048) ∧ d.pair.kept = s.dev.pair.kept
      ∧ d.pair.mirrored = [] ∧ d.pair.mseq = s.dev.pair.applied ∧ d.mem = s.dev.mem
      ∧ (∀ r, (∀ x, (r, x) ∉ s.dev.pair.mirrored) → tGet? d.regions r = tGet? s.dev.regions r)
      ∧ (∀ l r x m, s.dev.pair.mirrored = l ++ (r, x) :: m → (∀ y, (r, y) ∉ m) → tGet? d.regions r = some x)
      ∧ ∃ k ∈ d.fabTx, k.kind = 0x84 ∧ k.dest = 0xFFFFFF
        ∧ k.body = toLe 2 (partnerModule s.dev) ++ toLe 2 (ownModule s.dev) ++ toLe 4 s.dev.pair.epoch ++ toLe 8 s.dev.stk.number := by
  obtain ⟨e, hend, hmem, hregions, hpkt, hstk, hpair⟩ := reconcileEnd_of_reconciling hst
  obtain ⟨hentered, hnone⟩ := takeIn_of_role hrole
  refine ⟨_, next_onDev hend, ?_⟩
  rw [servesAs_pair, servesAs_mem, servesAs_regions, hpair, hmem, hregions, hentered, hstk]
  refine ⟨rfl, rfl, rfl, rfl, rfl, hnone, rfl, rfl, fun r h => tGet?_foldl_tSet_of_absent _ _ h, ?_, ?_⟩
  · intro l r x m hl hm
    rw [hl]
    exact tGet?_foldl_tSet_of_last l m _ x hm
  · refine ⟨redirectPkt s.dev, hpkt ▸ redirectPkt_mem_servesAs 6 e, rfl, rfl, ?_⟩
    simp only [redirectPkt, hrole, if_false]

/-- REDIRECT_REPEAT (R192). -/
theorem redirectRepeat_by_stroke (s : State) :
    (0 < s.dev.pair.redirectsLeft → s.dev.pair.redirectAt ≤ s.dev.stk.number →
      ∃ d, exec .redirectRepeat s = .next (ends d s) ∧ d.pair.redirectsLeft + 1 = s.dev.pair.redirectsLeft
        ∧ d.pair.redirectAt = s.dev.stk.number + 64 ∧ d.fabTx.length = s.dev.fabTx.length + 1 ∧ d.mem = s.dev.mem)
    ∧ ((s.dev.pair.redirectsLeft = 0 ∨ s.dev.stk.number < s.dev.pair.redirectAt) →
      exec .redirectRepeat s = .next (ends s.dev s)) := by
  refine ⟨fun hleft hat => ?_, fun h => next_onDev (if_pos h)⟩
  exact ⟨_, next_onDev (redirectRepeat_of_due hleft hat), Nat.sub_add_cancel hleft, rfl, List.length_append, rfl⟩

/-- EXPEL_WAIT_END (R408). -/
theorem expelWaitEnd_by_stroke {n : Nat} {s : State} (h : s.dev.pair.expelUntil = some n) (hst : s.dev.pair.state = 5) :
    (n ≤ s.dev.stk.number → ∃ d, exec .expelWaitEnd s = .next (ends d s) ∧ d.pair.state = 8 ∧ d.pair.expelUntil = none
      ∧ d.pair.buffer = [] ∧ d.pair.regionBuffer = [] ∧ d.pair.owed = [])
    ∧ (s.dev.stk.number < n → exec .expelWaitEnd s = .next (ends s.dev s)) :=
  ⟨fun hn => ⟨_, next_onDev (expelWaitEnd_of_due h hst hn), reconcile_pair _⟩, fun hn => next_onDev (expelWaitEnd_of_early h hn)⟩

/-- SWITCH (R406 step 4). -/
theorem switch_by_state {stroke : Nat} (epoch : Nat) (s : State) (hstroke : stroke < 2 ^ 64) :
    (s.dev.pair.state = 5 → ∃ d, exec (.switch stroke epoch) s = .next (ends d s) ∧ d.pair.state = 4 ∧ d.pair.epoch = epoch
      ∧ d.pair.mseq = s.dev.pair.applied ∧ d.pair.redirectsLeft = 16 ∧ d.mem = s.dev.mem)
    ∧ (s.dev.pair.state ≠ 5 → exec (.switch stroke epoch) s = .next (ends s.dev s)) := by
  refine ⟨fun hst => ?_, fun hst => next_onDev ((if_pos hstroke).trans (if_pos hst))⟩
  refine ⟨_, next_onDev ((if_pos hstroke).trans (switchIn_of_mirror hst epoch)), ?_⟩
  rw [servesAs_pair, servesAs_mem, takeIn_eq]
  exact ⟨rfl, rfl, rfl, rfl, rfl⟩

/-- JOIN, the message that the exchange awaits (R404). -/
theorem join_of_awaited {p : JoinPkt} {s : State} (hst : s.dev.pair.state = 1) (hp : JoinAwaited p s.dev) :
    (joinGood p = false → exec (.join p) s = .next (ends (faultCE 0x10 0 0 s.dev) s))
    ∧ (joinGood p = true →
      (p.msg = 1 → ∃ d, exec (.join p) s = .next (ends d s) ∧ d.pair.joinMsg = 2 ∧ d.pair.state = 1 ∧ d.mem = s.dev.mem
        ∧ ∃ k ∈ d.fabTx, k.kind = 0x95 ∧ k.body.take 8 = toLe 1 2 ++ zeros 7)
      ∧ (p.msg ≠ 1 → s.dev.flt.fatal = false → ∃ d, exec (.join p) s = .next (ends d s) ∧ d.pair.joinMsg = 4 ∧ d.pair.state = 1
        ∧ ∃ k ∈ d.fabTx, d.pair.asking = some (k.tag, k.tagGen) ∧ k.kind = 0x03
          ∧ k.body = reqBody (regRaw s.dev 0x110010) (regRaw s.dev 0x110018) 9 8 0 0 0 0
            ++ toLe 16 (if s.dev.cfg.role = 1 then witnessWord 1 (ownModule s.dev) else 0) ++ toLe 16 0)) := by
  refine ⟨fun hbad => next_onDev (joinIn_of_bad hst hp hbad), fun hgood => ⟨fun hmsg => ?_, fun hmsg hf => ?_⟩⟩
  · obtain ⟨hjoin, hstate, hmem, hpkt⟩ := answerJoin_sends p s.dev
    exact ⟨_, next_onDev (joinIn_of_first hst hp hgood hmsg), hjoin, hstate.trans hst, hmem, hpkt⟩
  · obtain ⟨tx, hin⟩ := joinIn_of_later hst hp hgood hmsg
    let e : Dev := { s.dev with fabTx := tx, pair := { s.dev.pair with joinMsg := 4 } }
    obtain ⟨hpkt, hpair⟩ := witnessCas_sends (d := e) hf 0 (if e.cfg.role = 1 then witnessWord 1 (ownModule e) else 0)
    exact ⟨_, next_onDev hin, (congrArg Pair.joinMsg hpair :), (congrArg Pair.state hpair).trans hst, _, hpkt,
      (congrArg Pair.asking hpair :), rfl, rfl⟩

/-- Settles O50: each row by the equation of its meaning in the case named, and what that device holds. -/
theorem takeoverJoiningAndSwitch : Obligations.TakeoverJoiningAndSwitch := by
  unfold Obligations.TakeoverJoiningAndSwitch
  refine ⟨fun s hst hrole => reconcileEnd_serves hst hrole, redirectRepeat_by_stroke, fun n s h => ⟨fun hn => ?_, fun hn => ?_⟩,
    fun n s h hst => expelWaitEnd_by_stroke h hst, fun stroke epoch s hstroke => switch_by_state epoch s hstroke,
    fun s => ⟨fun hst hrole hmsg => ?_, fun h => ?_⟩, fun p s hst hp => join_of_awaited hst hp,
    fun number desc step part data s hl => ?_, fun number desc step bytes s h => ?_, fun number desc step bytes s h => ?_⟩
  · exact next_onDev ((takeoverExpiry_of_some h).trans (if_neg (Nat.not_lt.mpr hn)))
  · exact next_onDev ((takeoverExpiry_of_some h).trans (if_pos hn))
  · exact next_onDev (if_pos ⟨hst, hrole, hmsg⟩)
  · exact next_onDev (if_neg (by tauto))
  · intro old ho
    refine ⟨fun hdata => next_onDev ((sampleIn_of_listening hl ho).trans (if_pos hdata)), fun hdata => ?_⟩
    obtain ⟨failed, hsamples, hpkt⟩ := sampleIn_of_last (desc := desc) (step := step) hl ho hdata
    exact ⟨_, failed, next_onDev rfl, hsamples, hpkt⟩
  · exact ⟨_, next_onDev (sampleVerdict_of_held h false), tGet?_tDel_self .., bitsOf_regRaw_bumpReg_high .., rfl⟩
  · refine ⟨_, next_onDev (sampleVerdict_of_held h true), ?_⟩
    rw [if_pos rfl, sampleFault_samples]
    exact tGet?_tDel_self ..

end Sys2Proof.Machine
end

section
/-! WRITE and FILL (O13). -/

namespace Sys2Proof.Machine

/-! ### A command's access of one part -/

/-- The job of a command's access of one part, begun by the Cox cores (Table 6-5). -/
def cmdJob (q : QCmd) (goal : Goal) (p : Part) (d : Dev) : Job :=
  { owner := .command q, crew := q.cmd.crew, requester := coxUnit d, stamp := d.stk.number, goal, parts := [p] }

/-- The device with the job of a command's access of one part, which it is about to run. -/
def cmdBegun (q : QCmd) (goal : Goal) (p : Part) (d : Dev) : Dev := setJob d.nextId (cmdJob q goal p d) (freshId d).2

/-- A part that lies in one line and comes in the form in which `cutRanges` leaves it is begun as it is. -/
theorem cmdAccess_of_cut {q : QCmd} {goal : Goal} {p : Part} {d : Dev} (hp : cutRanges [p] = [p]) :
    cmdAccess q false goal [p] d = runControl (runJob d.nextId (cmdBegun q goal p d)) := by
  have hbegun : cmdAccess q false goal [p] d
      = runControl (runJob d.nextId (setJob d.nextId { cmdJob q goal p d with parts := cutRanges [p] } (freshId d).2)) := rfl
  rw [hbegun, hp]
  rfl

/-! ### One line written -/

/-- A part that is not marked leaves the poison of its line as it was where there was none (R126). -/
theorem poison_storePart {d : Dev} {p : Part} (hp : p.poisoned = false) (h : isPoisoned d (lineOf p.addr) = false) :
    (storePart p d).poison = d.poison := by
  obtain ⟨m, c, hstore⟩ := storePart_eq p d
  have hkeep : d.poison.filter (· != lineOf p.addr) = d.poison := by
    refine List.filter_eq_self.mpr fun l hl => bne_iff_ne.mpr ?_
    rintro rfl
    simp [isPoisoned, hl] at h
  rw [hstore]
  simp only [hp, hkeep, ite_self, Bool.false_eq_true, if_false]

theorem wf_storePart {d : Dev} (hm : Memory.wf d.mem = true) (p : Part) : Memory.wf (storePart p d).mem = true := by
  rw [mem_storePart]
  exact wf_setLine hm ..

/-- A command that counts the bytes of its one part, which has acted, completes with OK and the part's length (R230). -/
theorem finishJob_of_count {jid : Nat} {j : Job} {q : QCmd} {x : Part} {d : Dev} (ho : j.owner = .command q) (hg : j.goal = .count)
    (hparts : j.parts = [x]) (hx : x.state = .ended stOk) :
    finishJob jid j d = (none, complete q stOk [x.len] [] (dropJob jid d)) := by
  have hst := partsStatus_of_one hx (Or.inl rfl)
  have hgood : goodBytes [x] = x.len := by simp [goodBytes, Part.done, Part.status, hx, stSuccess, stOk]
  simp only [finishJob, ho, hg, hparts, hst, hgood]

/-- The access of a command that writes one plain line completes at once with the number of bytes stored. -/
theorem cmdAccess_of_write {q : QCmd} {p : Part} {d : Dev} (hcut : cutRanges [p] = [p]) (h : Plain d p.addr p.key)
    (hp : ∀ e : Dev, p.Fits e) (hs : p.state = .todo) (hpo : p.poisoned = false) : cmdAccess q false .count [p] d
      = runControl (complete q stOk [p.len] [] (dropJob d.nextId (storePart p (cmdBegun q .count p d)))) := by
  rw [cmdAccess_of_cut hcut]
  refine congrArg runControl (runJob_of_store (d := (freshId d).2) h (hp _) hs Owner.noConfusion Goal.noConfusion rfl ?_)
  exact finishJob_of_count (x := (p.begun _).storedIn _) rfl rfl rfl (by simp [Part.storedIn, Part.fin, Part.begun, hpo])

/-- A FILL that passes its checks begins the write of its pattern, or completes at once where it has no bytes (R230). -/
theorem fillBody_of_sound {q : QCmd} {d : Dev} (hf : addrField q.cmd = false) (hle : pNat q.cmd 16 4 ≤ 2 ^ 28) :
    fillBody q d = if pNat q.cmd 16 4 = 0 then completeSt q stOk d else cmdAccess q (Cmd.ctx q.cmd) .count
      [{ addr := pNat q.cmd 0 8, len := pNat q.cmd 16 4, key := pNat q.cmd 8 5, act := .write,
         data := fillBytes q.cmd (pNat q.cmd 16 4) }] d := by
  have hmax : ¬ maxBytes < pNat q.cmd 16 4 := Nat.not_lt.mpr hle
  simp only [fillBody, hf, Bool.false_eq_true, if_false, hmax]

/-- Settles O13: the access that each begins is the row's; its one part acts at once on a plain line. -/
theorem writeAndFillStore : Obligations.WriteAndFillStore := by
  unfold Obligations.WriteAndFillStore
  refine ⟨fun c s q t hb hf => ?_, fun c s q t hb hf hle => ?_, fun q a key data d hn hl hplain hm => ?_⟩
  · exact next_ends_of_begins hb (if_neg (Bool.eq_false_iff.mp hf))
  · refine (next_ends_of_begins hb (fillBody_of_sound hf hle)).trans ?_
    split <;> rfl
  · let p : Part := { addr := a, len := data.length, key, act := .write, data }
    have hcut : cutRanges [p] = [p] := (cutRanges_of_line (x := p) hn hl).trans (by simp [p])
    have hfits (e : Dev) : p.Fits e := ⟨hn, mod_add_le_of_line hl, Act.noConfusion, rfl⟩
    have hrun := cmdAccess_of_write (q := q) hcut hplain hfits rfl rfl
    obtain ⟨-, -, -, -, -, -, -, hpoison, -⟩ := hplain
    obtain ⟨m, c, hstore⟩ := storePart_eq p (cmdBegun q .count p d)
    refine ⟨_, hrun, memByte_storePart (hfits _) hm, wf_storePart (d := cmdBegun q .count p d) hm p, ?_, ?_,
      poison_storePart (d := cmdBegun q .count p d) rfl hpoison, ?_⟩
    all_goals
      rw [hstore]
    · rfl
    · rfl
    · exact ⟨rfl, rfl, rfl⟩

end Sys2Proof.Machine
end

section
/-! READ (O14). -/

namespace Sys2Proof.Machine

/-- A read of a plain line for anyone but the device itself gives the bytes of memory and counts the access. -/
theorem performPart_of_read {d : Dev} {p : Part} (h : Plain d p.addr p.key) (ha : p.act = .read) (jid : Nat) {o : Owner}
    (ho : o ≠ .device) (last : Bool) :
    performPart jid o last p d = ({ p.fin stOk with data := memRead d.mem p.addr p.len }, countAccess p.addr d) := by
  obtain ⟨-, -, -, -, -, -, -, hpoison, hmirror⟩ := h
  have heq := countAccess_eq p.addr d
  have hbad : isPoisoned (countAccess p.addr d) (lineOf p.addr) = false := by rw [heq]; exact hpoison
  have hmir : mirrorOf (countAccess p.addr d) (lineOf p.addr) = none := by rw [heq]; exact hmirror
  have hmem : (countAccess p.addr d).mem = d.mem := by rw [heq]
  simp [performPart, hbad, hmir, ha, hmem]

/-- A read of a plain line that is tried has been performed. -/
theorem tryParts_of_read {jid : Nat} {o : Owner} {r n k : Nat} {p : Part} {d : Dev} (h : Plain d p.addr p.key) (hs : p.state = .todo)
    (ha : p.act = .read) (ho : o ≠ .device) : tryParts jid o r n k [p] d = ([p.readFrom d], countAccess p.addr d) := by
  have htry := (homeTry_performs (p := { p with since := if p.since = 0 then d.stk.number else p.since }) h jid o (k + 1 == n)).trans
    (performPart_of_read (p := p.begun d) h ha jid ho (k + 1 == n))
  cases p
  cases hs
  simp only [tryParts, h.1, if_true]
  rw [htry]
  rfl

/-- An inline READ whose one part has been performed completes with OK, its length and its bytes (R231). -/
theorem finishJob_of_inlineData {jid : Nat} {j : Job} {q : QCmd} {x : Part} {d : Dev} (ho : j.owner = .command q)
    (hg : j.goal = .inlineData) (hparts : j.parts = [x]) (hx : x.state = .ended stOk) (hoff : x.off = 0)
    (hdata : x.data.length = x.len) : finishJob jid j d = (none, complete q stOk [x.len] x.data (dropJob jid d)) := by
  have hok : (x.done && stSuccess x.status) = true := by simp [Part.done, Part.status, hx, stSuccess, stOk]
  have hst := partsStatus_of_one hx (Or.inl rfl)
  have hgood : goodBytes [x] = x.len := by simp only [goodBytes, List.foldl_cons, List.foldl_nil, hok, if_true, Nat.zero_add]
  have hlen : [x].foldl (fun a p => max a (p.off + p.len)) 0 = x.len := by simp [hoff]
  simp only [finishJob, ho, hg, hparts, hst, hgood, hlen, gatherBytes_of_one hok hoff hdata rfl]

/-- The access of an inline READ of one plain line completes at once with the bytes of memory. -/
theorem cmdAccess_of_read {q : QCmd} {p : Part} {d : Dev} (hcut : cutRanges [p] = [p]) (h : Plain d p.addr p.key)
    (hs : p.state = .todo) (ha : p.act = .read) (hoff : p.off = 0) : cmdAccess q false .inlineData [p] d
      = runControl (complete q stOk [p.len] (memRead d.mem p.addr p.len)
          (dropJob d.nextId (countAccess p.addr (cmdBegun q .inlineData p d)))) := by
  rw [cmdAccess_of_cut hcut]
  refine congrArg runControl (runJob_of_finished (j := cmdJob q .inlineData p d) (tGet?_tSet_self ..)
    (tryParts_of_read (o := .command q) (d := cmdBegun q .inlineData p d) h hs ha Owner.noConfusion) rfl ?_)
  exact finishJob_of_inlineData (x := p.readFrom _) rfl rfl rfl rfl hoff (length_memRead ..)

/-- Settles O14: the access that it begins is the row's; its one part is performed at once on a plain line. -/
theorem readReturnsBytes : Obligations.ReadReturnsBytes := by
  unfold Obligations.ReadReturnsBytes
  refine ⟨fun c s q t hb hc => next_ends_of_begins hb ?_, fun q a key n clear d hn hl hplain => ?_⟩
  · simp only [readBody, hc]
  · let p : Part := { addr := a, len := n, key, act := .read, clear }
    have hcut : cutRanges [p] = [p] := (cutRanges_of_line (x := p) hn hl).trans (by simp [p])
    refine ⟨_, cmdAccess_of_read (p := p) hcut hplain rfl rfl rfl, ?_⟩
    rw [countAccess_eq]
    exact ⟨rfl, rfl, rfl, rfl, rfl, rfl, rfl⟩

end Sys2Proof.Machine
end

section
/-! QUEUE_CREATE, QUEUE_ATTACH and QUEUE_DELETE (O1). -/

namespace Sys2Proof.Machine

/-- The record of a queue that QUEUE_CREATE makes, at the generation after its number's last (R218, Table 7-7). -/
def createdQueue (q : QCmd) (d : Dev) : Queue := {
  present := true, crew := q.cmd.crew, gen := nextGen8 (queueOf d (pNat q.cmd 0 2)).gen, weight := pNat q.cmd 2 1
  doorbell := bitAt (pNat q.cmd 3 1) 0, notify := if bitAt (pNat q.cmd 3 1) 1 then issuer d q else none
  sqLog := pNat q.cmd 4 1, cqLog := pNat q.cmd 5 1, sqBase := pNat q.cmd 8 8, sqKey := pNat q.cmd 16 5
  cqBase := pNat q.cmd 24 8, cqKey := pNat q.cmd 32 5, fLast := (crewOf d q.cmd.crew).vtime }

section Create
variable {q : QCmd} {d : Dev} (hc : queueCreateCheck d q = none)
include hc

/-- With ATTACH = 0 the queue is made, its completion ring zeroed, and the change logged (R218). -/
theorem queueCreateBody_of_create (ha : bitAt (pNat q.cmd 3 1) 2 = false) : queueCreateBody q d =
    let n := pNat q.cmd 0 2
    let new := createdQueue q d
    complete q stOk [n + new.gen * 2 ^ 16] [] (logCmd q q.cmd.crew 3 (n + new.gen * 2 ^ 16) (queueOf d n).gen new.gen
      (deviceWrite new.cqBase new.cqKey (zeros (32 * 2 ^ new.cqLog)) (setQueue n new d))) := by
  simp only [queueCreateBody, hc, ha, Bool.false_eq_true, if_false, createdQueue]

/-- With ATTACH = 1 the queue's notify session alone is replaced (R218). -/
theorem queueCreateBody_of_attach (ha : bitAt (pNat q.cmd 3 1) 2 = true) : queueCreateBody q d =
    let n := pNat q.cmd 0 2
    let r := queueOf d n
    let notify := if bitAt (pNat q.cmd 3 1) 1 then issuer d q else none
    complete q stOk [n + r.gen * 2 ^ 16] []
      (logCmd q r.crew 3 (n + r.gen * 2 ^ 16) (b2n r.notify.isSome) (b2n notify.isSome) (setQueue n { r with notify } d)) := by
  simp only [queueCreateBody, hc, ha, if_true]

end Create

/-- A QUEUE_DELETE that passes its checks stays with the queue, whose waiting commands are cancelled (R219). -/
theorem queueDeleteBody_of_sound {q : QCmd} {d : Dev} (hc : queueDeleteCheck d q = none) : queueDeleteBody q d =
    let n := pNat q.cmd 0 2
    let r := queueOf d n
    let g := nextGen8 r.gen
    cancelHeld n stCancelled (logCmd q r.crew 3 (n + g * 2 ^ 16) r.gen g
      (setQueue n { r with gen := g, deleting := some q, unwritten := 0 } d)) := by
  simp only [queueDeleteBody, hc]

/-- A queue that is being deleted and has no started command left is deleted (R219). -/
theorem queueDeleteEnd_of_drained {n : Nat} {q : QCmd} {d : Dev} (hq : (queueOf d n).deleting = some q) (hb : queueBusy d n = false) :
    queueDeleteEnd n d = complete q stOk [0, (queueOf d n).unwritten] []
      (setQueue n { crew := (queueOf d n).crew, gen := (queueOf d n).gen, deletedAt := some d.stk.number } d) := by
  simp only [queueDeleteEnd, hq, hb, Bool.false_eq_true, if_false]

/-- Settles O1: each row by its body in the case that its check leaves. -/
theorem queuesCreatedAttachedAndDeleted : Obligations.QueuesCreatedAttachedAndDeleted := by
  unfold Obligations.QueuesCreatedAttachedAndDeleted
  refine ⟨⟨fun c s q t hb ha hc => ?_, fun c s q t hb ha hc => ?_⟩, fun c s q t hb hc => ?_, fun n q s hq hb => ?_⟩
  · exact next_ends_of_begins hb (queueCreateBody_of_create hc ha)
  · exact next_ends_of_begins hb (queueCreateBody_of_attach hc ha)
  · exact next_ends_of_begins hb (queueDeleteBody_of_sound hc)
  · exact next_onDev (queueDeleteEnd_of_drained hq hb)

end Sys2Proof.Machine
end

section
/-! What is sent to a session, and what a session's own events leave of the others (R201, R205, R207, R208, R213). -/

namespace Sys2Proof.Machine

/-! ### Frames -/

/-- A device with the sessions of another has its session records. -/
theorem sessOf_congr {d e : Dev} (h : e.sessions = d.sessions) (i : Nat) : sessOf e i = sessOf d i := by
  unfold sessOf
  rw [h]

theorem ethSend_sessions (pcp : Nat) (x : EthOut) (d : Dev) : (ethSend pcp x d).sessions = d.sessions := by rw [ethSend_eq]
theorem ethSend_mem (pcp : Nat) (x : EthOut) (d : Dev) : (ethSend pcp x d).mem = d.mem := by rw [ethSend_eq]
theorem ethSend_regs (pcp : Nat) (x : EthOut) (d : Dev) : (ethSend pcp x d).regs = d.regs := by rw [ethSend_eq]

@[simp] theorem sessOf_ethSend (pcp : Nat) (x : EthOut) (d : Dev) (i : Nat) : sessOf (ethSend pcp x d) i = sessOf d i :=
  sessOf_congr (ethSend_sessions ..) i

@[simp] theorem sessOf_logDev (ow k ob a b : Nat) (d : Dev) (i : Nat) : sessOf (logDev ow k ob a b d) i = sessOf d i := by
  rw [logDev_eq]
  rfl

@[simp] theorem sessOf_bumpReg (o h l n : Nat) (d : Dev) (i : Nat) : sessOf (bumpReg o h l n d) i = sessOf d i := rfl

/-- A frame of a priority that is not paused leaves at once (R201). -/
theorem ethTx_ethSend {pcp : Nat} {d : Dev} (h : pcp ∉ d.pausedPcp) (x : EthOut) : (ethSend pcp x d).ethTx = d.ethTx ++ [x] := by
  rw [ethSend, if_neg h]

/-! ### Sending to a session -/

/-- A session without what sending to it changes. -/
def Session.offSend (x : Session) : Session := { x with outSeq := 0, unacked := [], waiting := [], sinceAck := 0, ceEcho := false }

theorem Session.standing_of_offSend {x y : Session} (h : x.offSend = y.offSend) : x.isOpen = y.isOpen ∧ x.isPending = y.isPending
    ∧ x.gen = y.gen ∧ x.management = y.management ∧ x.crew = y.crew :=
  ⟨(congrArg Session.isOpen h :), (congrArg Session.isPending h :), (congrArg Session.gen h :), (congrArg Session.management h :),
    (congrArg Session.crew h :)⟩

/-- What sending to session i leaves: its record but for what is sent, every other session, and memory. -/
def Dev.offSend (i : Nat) (d : Dev) : Session × (Nat → Session) × List Host.Cell :=
  ((sessOf d i).offSend, fun k => if k = i then {} else sessOf d k, d.mem)

section OffSend
variable {i : Nat} {d e : Dev} (h : e.offSend i = d.offSend i)
include h

theorem record_of_offSend : (sessOf e i).offSend = (sessOf d i).offSend := (congrArg Prod.fst h :)
theorem mem_of_offSend : e.mem = d.mem := (congrArg (fun v : Session × (Nat → Session) × List Host.Cell => v.2.2) h :)

theorem sessOf_of_offSend {k : Nat} (hk : k ≠ i) : sessOf e k = sessOf d k := by
  have hother := congrArg (fun v : Session × (Nat → Session) × List Host.Cell => v.2.1 k) h
  simpa only [Dev.offSend, if_neg hk] using hother

end OffSend

/-- A session's record replaced by one that differs only in what is sent. -/
theorem offSend_setSess {i : Nat} {x : Session} {d : Dev} (h : x.offSend = (sessOf d i).offSend) :
    (setSess i x d).offSend i = d.offSend i := by
  have hother : (fun k => if k = i then {} else sessOf (setSess i x d) k) = fun k => if k = i then {} else sessOf d k := by
    funext k
    split
    · rfl
    · exact sessOf_setSess_ne _ _ _ _ ‹_›
  rw [Dev.offSend, sessOf_setSess_self, h, hother]
  rfl

@[simp] theorem offSend_ethSend (pcp : Nat) (x : EthOut) (d : Dev) (i : Nat) : (ethSend pcp x d).offSend i = d.offSend i := by
  rw [ethSend_eq]
  rfl

@[simp] theorem offSend_emitRecord (i : Nat) (cont more : Bool) (l : List Byte) (d : Dev) :
    (emitRecord i cont more l d).offSend i = d.offSend i :=
  (offSend_ethSend ..).trans (offSend_setSess rfl)

@[simp] theorem offSend_emitSplit (i n : Nat) (cont : Bool) (l : List Byte) (d : Dev) :
    (emitSplit i n cont l d).offSend i = d.offSend i := by
  induction n generalizing cont l d with
  | zero => rfl
  | succ n ih => exact view_ite _ (offSend_emitRecord ..) ((ih ..).trans (offSend_emitRecord ..))

@[simp] theorem offSend_flushWaiting (i n : Nat) (d : Dev) : (flushWaiting i n d).offSend i = d.offSend i := by
  induction n generalizing d with
  | zero => rfl
  | succ n ih =>
    unfold flushWaiting
    dsimp only
    split
    · rfl
    · exact view_ite _ rfl ((ih _).trans ((offSend_emitSplit ..).trans (offSend_setSess rfl)))

/-- A record sent to a session, or left waiting for it, changes of the device no more than `Dev.offSend` leaves out (R207). -/
@[simp] theorem offSend_sessionSend (i : Nat) (l : List Byte) (d : Dev) : (sessionSend i l d).offSend i = d.offSend i :=
  view_ite _ rfl ((offSend_flushWaiting ..).trans (offSend_setSess rfl))

@[simp] theorem offSend_bumpReg (o h l n : Nat) (d : Dev) (i : Nat) : (bumpReg o h l n d).offSend i = d.offSend i := rfl

@[simp] theorem offSend_logDev (ow k ob a b : Nat) (d : Dev) (i : Nat) : (logDev ow k ob a b d).offSend i = d.offSend i := by
  rw [logDev_eq]
  rfl

/-- A completion made draws free values, and changes nothing else (R212). -/
@[simp] theorem offSend_makeCompletion (q : QCmd) (st : Nat) (w : List Nat) (b : List Byte) (d : Dev) (i : Nat) :
    (makeCompletion q st w b d).2.offSend i = d.offSend i := by
  have hload : (engineLoad q.cmd.crew d).2.offSend i = d.offSend i := by
    unfold engineLoad
    split <;> rfl
  unfold makeCompletion
  dsimp only
  split <;> exact hload

/-! ### Acknowledgements -/

/-- A session's record once an acknowledgement has been sent to its host (R207). -/
def Session.acking (x : Session) : Session := { x with ackSeq := x.ackSeq + 1, sinceAck := 0, ceEcho := false }

@[simp] theorem sessOf_ackOnly_self (i : Nat) (d : Dev) : sessOf (ackOnly i d) i = (sessOf d i).acking :=
  (sessOf_ethSend ..).trans (sessOf_setSess_self ..)

theorem sessOf_ackOnly_ne {i k : Nat} (h : k ≠ i) (d : Dev) : sessOf (ackOnly i d) k = sessOf d k :=
  (sessOf_ethSend ..).trans (sessOf_setSess_ne _ _ _ _ h)

@[simp] theorem ackOnly_mem (i : Nat) (d : Dev) : (ackOnly i d).mem = d.mem := ethSend_mem ..
@[simp] theorem ackOnly_regs (i : Nat) (d : Dev) : (ackOnly i d).regs = d.regs := ethSend_regs ..

/-! ### The end of a session -/

/-- An open session closed leaves its generation and its stroke, and every other session is as before (R205). -/
theorem closeSession_sessions {i : Nat} {d : Dev} (h : (sessOf d i).isOpen = true) :
    sessOf (closeSession i d) i = { gen := nextGen8 (sessOf d i).gen, closedAt := some d.stk.number }
      ∧ ∀ k, k ≠ i → sessOf (closeSession i d) k = sessOf d k := by
  rw [closeSession, if_pos (Or.inl h)]
  exact ⟨(sessOf_logDev ..).trans (sessOf_setSess_self ..), fun k hk => (sessOf_logDev ..).trans (sessOf_setSess_ne _ _ _ _ hk)⟩

end Sys2Proof.Machine
end

section
/-! The handshake (R343, R344). -/

namespace Sys2Proof.Machine

/-! ### Message 1 -/

/-- The record of a session that message 1 makes pending at a free index (R343). -/
def pendingOf (h : Hello1) (i : Nat) (d : Dev) : Session :=
  { gen := nextSession (sessOf d i), isPending := true, management := h.role == 0, crew := h.crew, cred := h.cred
    crewGen := if h.role = 0 then 0 else (crewOf d h.crew).gen }

section Hello
variable {h : Hello1} {d : Dev} (hs : helloServes d = true) (hp : (d.sessions.filter fun x => x.2.isPending).length < 64)
include hs hp

theorem sessionOpen_of_refused {st : Nat} (hc : helloCheck d h = some st) : sessionOpen h d = refuseHello 0 st d := by
  simp only [sessionOpen, hs, Nat.not_le.mpr hp, hc, Bool.not_true, Bool.false_eq_true, if_false]

/-- A message 1 that passes the checks draws its nonce and key, makes the index pending and is answered by message 2. -/
theorem sessionOpen_of_free {i : Nat} (hc : helloCheck d h = none) (hi : freeSession d = some i) : ∃ n body,
    sessionOpen h d = ethSend (sessionPcp d) (.message2 (nextSession (sessOf d i) * 2 ^ 24 + i) 0 body)
      (setSess i (pendingOf h i d) { d with draws := n }) := by
  simp only [sessionOpen, hs, Nat.not_le.mpr hp, hc, hi, Bool.not_true, Bool.false_eq_true, if_false]
  exact ⟨_, _, rfl⟩

end Hello

theorem refuseHello_sessions (session st : Nat) (d : Dev) : (refuseHello session st d).sessions = d.sessions := ethSend_sessions ..

/-- SESSION_OPEN (R343). -/
theorem sessionOpen_cases (h : Hello1) (s : State) (hs : helloServes s.dev = true)
    (hp : (s.dev.sessions.filter fun x => x.2.isPending).length < 64) :
    (∀ st, helloCheck s.dev h = some st → exec (.sessionOpen h) s = .next (ends (refuseHello 0 st s.dev) s)
      ∧ (refuseHello 0 st s.dev).sessions = s.dev.sessions)
    ∧ (∀ i, helloCheck s.dev h = none → freeSession s.dev = some i → ∃ d body, exec (.sessionOpen h) s = .next (ends d s)
        ∧ (sessOf d i).isPending = true ∧ (sessOf d i).isOpen = false ∧ (sessOf d i).gen = nextSession (sessOf s.dev i)
        ∧ (sessOf d i).management = (h.role == 0) ∧ (sessOf d i).crew = h.crew ∧ (sessOf d i).cred = h.cred
        ∧ (∀ k, k ≠ i → sessOf d k = sessOf s.dev k) ∧ d.mem = s.dev.mem
        ∧ (sessionPcp s.dev ∉ s.dev.pausedPcp →
            d.ethTx = s.dev.ethTx ++ [.message2 (nextSession (sessOf s.dev i) * 2 ^ 24 + i) 0 body])) := by
  refine ⟨fun st hc => ⟨next_onDev (sessionOpen_of_refused hs hp hc), refuseHello_sessions ..⟩, fun i hc hi => ?_⟩
  obtain ⟨n, body, hopen⟩ := sessionOpen_of_free hs hp hc hi
  refine ⟨_, body, next_onDev hopen, ?_⟩
  rw [sessOf_ethSend, sessOf_setSess_self]
  refine ⟨rfl, rfl, rfl, rfl, rfl, rfl, fun k hk => ?_, ethSend_mem .., fun hpcp => ?_⟩
  · exact (sessOf_ethSend ..).trans (sessOf_setSess_ne _ _ _ _ hk)
  · exact ethTx_ethSend (d := setSess i (pendingOf h i s.dev) { s.dev with draws := n }) hpcp _

/-! ### Message 3 -/

/-- The record of a session as it opens (R344): its index, generation and rights are those of the pending one. -/
def Session.opened (x : Session) : Session :=
  { gen := x.gen, isOpen := true, management := x.management, crew := x.crew, crewGen := x.crewGen, cred := x.cred }

/-- An operation that opens a session: beyond what is then sent to it, its record is the opened one, and other sessions and memory are as
before. -/
structure Opens (f : Nat → Hello3 → Dev → Dev) : Prop where
  keeps : ∀ i h d, (f i h d).offSend i = (setSess i (sessOf d i).opened d).offSend i

/-- The completion is held as any operation that keeps `Dev.offSend`, so that no step evaluates it. -/
theorem openSession_opens : Opens openSession := by
  obtain ⟨make, hmake⟩ : ∃ f, f = makeCompletion := ⟨_, rfl⟩
  have hmade (q st w b d i) : (make q st w b d).2.offSend i = d.offSend i := by
    rw [hmake]
    exact offSend_makeCompletion ..
  delta openSession
  rw [← hmake]
  refine ⟨fun i h d => ?_⟩
  dsimp only
  rw [offSend_sessionSend, hmade, offSend_logDev, offSend_bumpReg]
  rfl

section Message3
variable {h : Hello3} {d : Dev} (hs : helloServes d = true) (hp : (sessOf d (h.session % 4096)).isPending = true)
  (hw : h.session = (sessOf d (h.session % 4096)).gen * 2 ^ 24 + h.session % 4096)
include hs hp hw

theorem msg3_taken : ¬(!helloServes d ∨ !(sessOf d (h.session % 4096)).isPending
    ∨ h.session ≠ (sessOf d (h.session % 4096)).gen * 2 ^ 24 + h.session % 4096) := by
  rw [hs, hp]
  exact fun hbad => hbad.elim Bool.noConfusion fun hbad => hbad.elim Bool.noConfusion fun hne => hne hw

theorem handshakeMsg3_of_refused {st : Nat} (hc : msg3Check d (sessOf d (h.session % 4096)) h = some st) :
    handshakeMsg3 h d = refuseHello h.session st (dropPending (h.session % 4096) d) := by
  rw [handshakeMsg3, if_neg (msg3_taken hs hp hw), hc]

theorem handshakeMsg3_of_passed (hc : msg3Check d (sessOf d (h.session % 4096)) h = none) :
    handshakeMsg3 h d = openSession (h.session % 4096) h d := by
  rw [handshakeMsg3, if_neg (msg3_taken hs hp hw), hc]

end Message3

/-- HANDSHAKE_MSG3 under the pending word (R344). -/
theorem handshakeMsg3_cases (h : Hello3) (s : State) : let i := h.session % 4096
    helloServes s.dev = true → (sessOf s.dev i).isPending = true → h.session = (sessOf s.dev i).gen * 2 ^ 24 + i →
    (msg3Check s.dev (sessOf s.dev i) h = none → ∃ d, exec (.handshakeMsg3 h) s = .next (ends d s) ∧ (sessOf d i).isOpen = true
        ∧ (sessOf d i).isPending = false ∧ (sessOf d i).gen = (sessOf s.dev i).gen
        ∧ (sessOf d i).management = (sessOf s.dev i).management ∧ (sessOf d i).crew = (sessOf s.dev i).crew
        ∧ (∀ k, k ≠ i → sessOf d k = sessOf s.dev k) ∧ d.mem = s.dev.mem)
    ∧ (∀ st, msg3Check s.dev (sessOf s.dev i) h = some st → exec (.handshakeMsg3 h) s =
        .next (ends (refuseHello h.session st (dropPending i s.dev)) s)) := by
  intro i hs hp hw
  refine ⟨fun hc => ⟨_, next_onDev (handshakeMsg3_of_passed hs hp hw hc), ?_⟩,
    fun st hc => next_onDev (handshakeMsg3_of_refused hs hp hw hc)⟩
  have hoff := openSession_opens.keeps i h s.dev
  have hrec := record_of_offSend hoff
  rw [sessOf_setSess_self] at hrec
  obtain ⟨hopen, hpend, hgen, hman, hcrew⟩ := Session.standing_of_offSend hrec
  exact ⟨hopen, hpend, hgen, hman, hcrew, fun k hk => (sessOf_of_offSend hoff hk).trans (sessOf_setSess_ne _ _ _ _ hk),
    (mem_of_offSend hoff).trans (setSess_mem ..)⟩

/-! ### Sessions that end, and acknowledgements that are due -/

/-- PENDING_SESSION_EXPIRY, SESSION_IDLE and ACK_TIMER (R205, R207, R343). -/
theorem session_timers (i : Nat) (s : State) :
    ((sessOf s.dev i).isPending = true → ∃ d, exec (.pendingSessionExpiry i) s = .next (ends d s)
      ∧ sessOf d i = { gen := nextGen8 (sessOf s.dev i).gen } ∧ ∀ k, k ≠ i → sessOf d k = sessOf s.dev k)
    ∧ ((sessOf s.dev i).isPending = false → exec (.pendingSessionExpiry i) s = .next (ends s.dev s))
    ∧ ((sessOf s.dev i).isOpen = true → ∃ d, exec (.sessionIdle i) s = .next (ends d s)
      ∧ sessOf d i = { gen := nextGen8 (sessOf s.dev i).gen, closedAt := some s.dev.stk.number }
      ∧ ∀ k, k ≠ i → sessOf d k = sessOf s.dev k)
    ∧ ((sessOf s.dev i).isOpen = false → exec (.sessionIdle i) s = .next (ends s.dev s))
    ∧ ((sessOf s.dev i).isOpen = true → 0 < (sessOf s.dev i).sinceAck → ∃ d, exec (.ackTimer i) s = .next (ends d s)
      ∧ sessOf d i = { sessOf s.dev i with ackSeq := (sessOf s.dev i).ackSeq + 1, sinceAck := 0, ceEcho := false })
    ∧ (((sessOf s.dev i).isOpen = false ∨ (sessOf s.dev i).sinceAck = 0) → exec (.ackTimer i) s = .next (ends s.dev s)) := by
  refine ⟨fun hp => ⟨_, next_onDev (if_pos hp), ?_, fun k hk => ?_⟩, fun hp => next_onDev (if_neg (Bool.eq_false_iff.mp hp)),
    fun ho => ⟨_, next_onDev (if_pos ho), closeSession_sessions ho⟩, fun ho => next_onDev (if_neg (Bool.eq_false_iff.mp ho)),
    fun ho ha => ⟨_, next_onDev (if_pos ⟨ho, ha⟩), sessOf_ackOnly_self ..⟩, fun h => next_onDev (if_neg ?_)⟩
  · exact (sessOf_bumpReg ..).trans (sessOf_setSess_self ..)
  · exact (sessOf_bumpReg ..).trans (sessOf_setSess_ne _ _ _ _ hk)
  · rintro ⟨ho, ha⟩
    rcases h with h | h
    · exact Bool.false_ne_true (h.symm.trans ho)
    · omega

end Sys2Proof.Machine
end

section
/-! Datagrams of a session (R206 to R210). -/

namespace Sys2Proof.Machine

/-! ### Acknowledgements taken -/

/-- A session's record once its host has acknowledged what came before (R206, R207). -/
def Session.acked (ack : Nat) (x : Session) : Session :=
  { x with hostAck := max x.hostAck ack, unacked := x.unacked.filter fun g => decide (max x.hostAck ack < g.seq) }

theorem takeAck_of_none_waiting {i : Nat} {d : Dev} (h : (sessOf d i).waiting = []) (ack : Nat) :
    takeAck i ack d = setSess i ((sessOf d i).acked ack) d := by
  have hw : (sessOf (setSess i ((sessOf d i).acked ack) d) i).waiting = [] := by
    rw [sessOf_setSess_self]
    exact h
  have hflush (n : Nat) (e : Dev) (he : (sessOf e i).waiting = []) : flushWaiting i (n + 1) e = e := by
    unfold flushWaiting
    dsimp only
    rw [he]
  exact hflush _ _ hw

/-! ### Datagrams that are taken -/

section Taken
variable {g : Datagram} {d : Dev} (hs : ethServes d = true)
include hs

/-- A datagram of no open session, or one that is not authentic, is counted and discarded (R206). -/
theorem sessionDatagram_of_discarded (h : namedSession d g.session = none ∨ g.auth = false ∨ g.type ≠ 2) :
    sessionDatagram g d = bumpReg 0x90070 63 32 1 d := by
  unfold sessionDatagram
  rw [if_neg (by simp [hs])]
  split
  · rfl
  next i hi =>
    refine if_pos ?_
    rcases h with h | h | h
    · exact absurd (h.symm.trans hi) (Option.some_ne_none i).symm
    · exact Or.inl (by simp [h])
    · exact Or.inr h

/-- An authentic datagram of a session for which nothing waits: its acknowledgement is taken, and it is handled by its SEQ. -/
theorem sessionDatagram_of_authentic {i : Nat} (hi : namedSession d g.session = some i) (ha : g.auth = true) (ht : g.type = 2)
    (hce : g.ce = false) (hw : (sessOf d i).waiting = []) : sessionDatagram g d =
      if 2 ^ 63 ≤ g.seq then
        (if g.count ≠ 0 ∨ bitAt g.flags 1 ∨ bitAt g.flags 2 then malformed 1 (setSess i ((sessOf d i).acked g.ack) d)
          else setSess i ((sessOf d i).acked g.ack) d)
      else sequence i g (setSess i ((sessOf d i).acked g.ack) d) := by
  rw [← takeAck_of_none_waiting hw]
  unfold sessionDatagram
  rw [if_neg (by simp [hs])]
  split
  next hn => exact absurd (hi.symm.trans hn) (Option.some_ne_none i)
  next k hk =>
    obtain rfl : i = k := Option.some.inj (hi.symm.trans hk)
    rw [if_neg (by simp [ha, ht]), hce]
    rfl

end Taken

/-! ### Datagrams in order -/

/-- A datagram without records, and outside any, closes nothing and begins nothing (R209, R210). -/
theorem actDatagram_of_empty {i : Nat} {g : Datagram} {d : Dev} (hr : (sessOf d i).recOpen = false) (h1 : bitAt g.flags 1 = false)
    (hn : g.count = 0) (hp : g.payload = []) :
    actDatagram i g d = setSess i { sessOf d i with openRec := [], recOpen := false } d := by
  simp [actDatagram, hr, h1, hn, hp, takeRecords]

/-- A datagram whose record comes whole is acted on as that command (R209). -/
theorem actDatagram_of_record {i : Nat} {g : Datagram} {d : Dev} (hr : (sessOf d i).recOpen = false) (h1 : bitAt g.flags 1 = false)
    (hn : g.count = 1) (hl : g.payload.length = 64 * entriesFor (fieldLe g.payload 12 4)) :
    actDatagram i g d = takeCommand i g.dscp g.payload (setSess i { sessOf d i with openRec := [], recOpen := false } d) := by
  have hpos (n : Nat) : 1 ≤ entriesFor n := by
    unfold entriesFor
    split <;> omega
  have hlen : ¬(g.payload.length < 64 ∨ g.payload.length < 64 * entriesFor (fieldLe g.payload 12 4)) := by
    have := hpos (fieldLe g.payload 12 4)
    omega
  have hdrop : g.payload.drop (64 * entriesFor (fieldLe g.payload 12 4)) = [] := List.drop_eq_nil_iff.mpr hl.le
  have htake : g.payload.take (64 * entriesFor (fieldLe g.payload 12 4)) = g.payload := List.take_of_length_le hl.le
  simp only [actDatagram, hr, h1, hn, takeRecords, hlen, hdrop, htake, if_false, ne_eq, not_true, Bool.false_eq_true,
    List.isEmpty_nil, if_true]

/-- The next datagram in order, empty and with none held behind it, advances N, and what is owed to the host is counted (R206). -/
theorem actHeld_of_next {i : Nat} {g : Datagram} {d : Dev} (n : Nat) (hh : (sessOf d i).heldDg = [((sessOf d i).next, g)])
    (hr : (sessOf d i).recOpen = false) (h1 : bitAt g.flags 1 = false) (hn : g.count = 0) (hp : g.payload = []) :
    let e := actHeld i (n + 2) d
    sessOf e i = { sessOf d i with heldDg := [], next := (sessOf d i).next + 1, openRec := [], recOpen := false }
      ∧ (∀ k, k ≠ i → sessOf e k = sessOf d k) ∧ e.mem = d.mem := by
  have hstep : actHeld i (n + 2) d = actHeld i (n + 1)
      (actDatagram i g (setSess i { sessOf d i with heldDg := [], next := (sessOf d i).next + 1 } d)) := by
    rw [actHeld]
    simp [hh, tGet?, tDel]
  have hact := actDatagram_of_empty (g := g) (d := setSess i { sessOf d i with heldDg := [], next := (sessOf d i).next + 1 } d)
    (by rw [sessOf_setSess_self]; exact hr) h1 hn hp
  rw [sessOf_setSess_self] at hact
  have hstop (e : Dev) (he : (sessOf e i).heldDg = []) : actHeld i (n + 1) e = e := by
    rw [actHeld]
    simp [he]
  rw [hstep, hact, hstop _ (by rw [sessOf_setSess_self])]
  refine ⟨sessOf_setSess_self .., fun k hk => ?_, rfl⟩
  rw [sessOf_setSess_ne _ _ _ _ hk, sessOf_setSess_ne _ _ _ _ hk]

/-- An empty datagram that is next in order, with none held, advances N; it is acknowledged once sixteen are owed (R206, R207). -/
theorem sequence_of_next {i : Nat} {g : Datagram} {d : Dev} (hseq : g.seq = (sessOf d i).next) (hh : (sessOf d i).heldDg = [])
    (hr : (sessOf d i).recOpen = false) (h1 : bitAt g.flags 1 = false) (hn : g.count = 0) (hp : g.payload = []) :
    let e := sequence i g d
    (sessOf e i).next = (sessOf d i).next + 1 ∧ (sessOf e i).hostAck = (sessOf d i).hostAck
      ∧ (sessOf e i).unacked = (sessOf d i).unacked ∧ (∀ k, k ≠ i → sessOf e k = sessOf d k) ∧ e.mem = d.mem := by
  let d₁ := setSess i { sessOf d i with heldDg := [(g.seq, g)], sinceAck := (sessOf d i).sinceAck + 1 } d
  have hd₁ : sessOf d₁ i = { sessOf d i with heldDg := [(g.seq, g)], sinceAck := (sessOf d i).sinceAck + 1 } := sessOf_setSess_self ..
  obtain ⟨hrec, hother, hmem⟩ := actHeld_of_next (g := g) (d := d₁) 1023 (by rw [hd₁, hseq]) (by rw [hd₁]; exact hr) h1 hn hp
  have hheld : sequence i g d =
      if 16 ≤ (sessOf (actHeld i 1025 d₁) i).sinceAck then ackOnly i (actHeld i 1025 d₁) else actHeld i 1025 d₁ := by
    simp [sequence, hh, tSet, hseq, d₁]
  have hd₁' (k : Nat) (hk : k ≠ i) : sessOf d₁ k = sessOf d k := sessOf_setSess_ne _ _ _ _ hk
  generalize actHeld i 1025 d₁ = e at hrec hother hmem hheld
  dsimp only
  rw [hheld]
  split
  · rw [sessOf_ackOnly_self, hrec, hd₁]
    exact ⟨rfl, rfl, rfl, fun k hk => (sessOf_ackOnly_ne hk _).trans ((hother k hk).trans (hd₁' k hk)), (ackOnly_mem ..).trans hmem⟩
  · rw [hrec, hd₁]
    exact ⟨rfl, rfl, rfl, fun k hk => (hother k hk).trans (hd₁' k hk), hmem⟩

section Authentic
variable {i : Nat} {g : Datagram} {s : State} (hs : ethServes s.dev = true) (hi : namedSession s.dev g.session = some i)
  (ha : g.auth = true) (ht : g.type = 2) (hce : g.ce = false) (hw : (sessOf s.dev i).waiting = [])
include hs hi ha ht hce hw

/-- SESSION_DATAGRAM in SEQ order, without records (R206). -/
theorem sessionDatagram_in_order (hlt : g.seq < 2 ^ 63) (hseq : g.seq = (sessOf s.dev i).next) (hn : g.count = 0)
    (h1 : bitAt g.flags 1 = false) (hp : g.payload = []) (hr : (sessOf s.dev i).recOpen = false)
    (hh : (sessOf s.dev i).heldDg = []) : let x := sessOf s.dev i
    ∃ d, exec (.sessionDatagram g) s = .next (ends d s) ∧ (sessOf d i).next = x.next + 1
      ∧ (sessOf d i).hostAck = max x.hostAck g.ack
      ∧ (sessOf d i).unacked = x.unacked.filter (fun y => decide (max x.hostAck g.ack < y.seq))
      ∧ (∀ k, k ≠ i → sessOf d k = sessOf s.dev k) ∧ d.mem = s.dev.mem := by
  intro x
  have hacked : sessOf (setSess i (x.acked g.ack) s.dev) i = x.acked g.ack := sessOf_setSess_self ..
  obtain ⟨hnext, hack, hun, hother, hmem⟩ := sequence_of_next (d := setSess i (x.acked g.ack) s.dev)
    (by rw [hacked]; exact hseq) (by rw [hacked]; exact hh) (by rw [hacked]; exact hr) h1 hn hp
  rw [hacked] at hnext hack hun
  exact ⟨_, next_onDev ((sessionDatagram_of_authentic hs hi ha ht hce hw).trans (if_neg (Nat.not_le.mpr hlt))), hnext, hack, hun,
    fun k hk => (hother k hk).trans (sessOf_setSess_ne _ _ _ _ hk), hmem⟩

/-- SESSION_DATAGRAM with a SEQ that has been taken before (R206). -/
theorem sessionDatagram_replayed (hlt : g.seq < 2 ^ 63) (hold : g.seq < (sessOf s.dev i).next) :
    ∃ d, exec (.sessionDatagram g) s = .next (ends d s) ∧ (sessOf d i).next = (sessOf s.dev i).next ∧ (sessOf d i).sinceAck = 0
      ∧ bitsOf (regRaw d 0x90078) 63 32 = (bitsOf (regRaw s.dev 0x90078) 63 32 + 1) % 2 ^ 32 := by
  have hacked : sessOf (setSess i ((sessOf s.dev i).acked g.ack) s.dev) i = (sessOf s.dev i).acked g.ack := sessOf_setSess_self ..
  have hseq : sequence i g (setSess i ((sessOf s.dev i).acked g.ack) s.dev) =
      ackOnly i (bumpReg 0x90078 63 32 1 (setSess i ((sessOf s.dev i).acked g.ack) s.dev)) :=
    if_pos (Or.inl (by rw [hacked]; exact hold))
  refine ⟨_, next_onDev ((sessionDatagram_of_authentic hs hi ha ht hce hw).trans ((if_neg (Nat.not_le.mpr hlt)).trans hseq)), ?_⟩
  rw [sessOf_ackOnly_self, sessOf_bumpReg, hacked, regRaw_congr (ackOnly_regs ..), bitsOf_regRaw_bumpReg_high]
  exact ⟨rfl, rfl, rfl⟩

/-- ACK_ONLY_DATAGRAM (R206, R208). -/
theorem ackOnlyDatagram_releases (hn : g.count = 0) (h1 : bitAt g.flags 1 = false) (h2 : bitAt g.flags 2 = false) :
    ∃ d, exec (.ackOnlyDatagram g) s = .next (ends d s) ∧ sessOf d i = (sessOf s.dev i).acked g.ack := by
  have hdg := sessionDatagram_of_authentic (g := { g with seq := 2 ^ 63 + g.seq % 2 ^ 63 }) hs hi ha ht hce hw
  rw [if_pos (Nat.le_add_right ..), if_neg (by simp [hn, h1, h2])] at hdg
  exact ⟨_, next_onDev hdg, sessOf_setSess_self ..⟩

end Authentic

/-! ### Datagrams resent -/

/-- A session's record once the datagram of a SEQ has been resent (R207). -/
def Session.resent (seq : Nat) (x : Session) : Session :=
  { x with unacked := x.unacked.map fun y => if y.seq = seq then { y with resends := y.resends + 1 } else y }

section Resend
variable {i seq : Nat} {g : OutDatagram} {d : Dev} (hg : ((sessOf d i).unacked.find? fun x => x.seq == seq) = some g)
include hg

theorem datagramResend_of_left (hlt : g.resends < cfgField d 0x90050 7 0) : datagramResend i seq d =
    ethSend (sessionPcp d) (.datagram { g with resends := 0 }) (bumpReg 0x90080 31 0 1 (setSess i ((sessOf d i).resent seq) d)) := by
  simp only [datagramResend, hg, Nat.not_le.mpr hlt, if_false]
  rfl

theorem datagramResend_of_spent (hle : cfgField d 0x90050 7 0 ≤ g.resends) :
    datagramResend i seq d = closeSession i (bumpReg 0x90080 63 32 1 d) := by
  simp only [datagramResend, hg, hle, if_true]

end Resend

/-- DATAGRAM_RESEND (R207). -/
theorem datagramResend_cases (i seq : Nat) (g : OutDatagram) (s : State)
    (hg : ((sessOf s.dev i).unacked.find? fun x => x.seq == seq) = some g) :
    (g.resends < cfgField s.dev 0x90050 7 0 → ∃ d, exec (.datagramResend i seq) s = .next (ends d s)
      ∧ (sessOf d i).unacked = (sessOf s.dev i).unacked.map (fun x => if x.seq = seq then { x with resends := x.resends + 1 } else x)
      ∧ (sessOf d i).isOpen = (sessOf s.dev i).isOpen
      ∧ (sessionPcp s.dev ∉ s.dev.pausedPcp → d.ethTx = s.dev.ethTx ++ [.datagram { g with resends := 0 }]))
    ∧ (cfgField s.dev 0x90050 7 0 ≤ g.resends → (sessOf s.dev i).isOpen = true →
      ∃ d, exec (.datagramResend i seq) s = .next (ends d s)
        ∧ sessOf d i = { gen := nextGen8 (sessOf s.dev i).gen, closedAt := some s.dev.stk.number }) := by
  refine ⟨fun hlt => ⟨_, next_onDev (datagramResend_of_left hg hlt), ?_⟩,
    fun hle ho => ⟨_, next_onDev (datagramResend_of_spent hg hle), ?_⟩⟩
  · rw [sessOf_ethSend, sessOf_bumpReg, sessOf_setSess_self]
    exact ⟨rfl, rfl, fun hpcp => ethTx_ethSend (by exact hpcp) _⟩
  · exact (closeSession_sessions (d := bumpReg 0x90080 63 32 1 s.dev) ho).1

end Sys2Proof.Machine
end

section
/-! The Ethernet port (R199 to R201, Table 2-16). -/

namespace Sys2Proof.Machine

/-- PFC_FRAME for a priority under PFC (R201). -/
theorem pfcFrame_cases (p : Nat) (s : State) (hs : ethServes s.dev = true) (hp : p < 8)
    (hen : bitAt (cfgField s.dev 0x90000 23 16) p = true) :
    (∃ d, exec (.pfcFrame p true) s = .next (ends d s) ∧ p ∈ d.pausedPcp ∧ d = { s.dev with pausedPcp := d.pausedPcp })
    ∧ (∃ d, exec (.pfcFrame p false) s = .next (ends d s) ∧ p ∉ d.pausedPcp
        ∧ (∀ k, k ≠ p → (k ∈ d.pausedPcp ↔ k ∈ s.dev.pausedPcp)) ∧ (∀ e, (p, e) ∉ d.ethHeld)
        ∧ ∀ e, (p, e) ∈ s.dev.ethHeld → e ∈ d.ethTx) := by
  have hgo : ¬(!ethServes s.dev ∨ 8 ≤ p ∨ !bitAt (cfgField s.dev 0x90000 23 16) p) := by simp [hs, hen, hp]
  refine ⟨⟨_, next_onDev ((if_neg hgo).trans (if_pos rfl)), ?_, rfl⟩,
    ⟨_, next_onDev ((if_neg hgo).trans (if_neg Bool.false_ne_true)), ?_, fun k hk => ?_, fun e => ?_, fun e he => ?_⟩⟩
  · dsimp only
    unfold addTo
    split <;> simp [*]
  · simp
  · simp [hk]
  · simp
  · simp [he]

/-- ARP_REQUEST, NEIGHBOR_SOLICITATION and ICMP_ECHO (R199). -/
theorem addressRequest_cases (address sender : Nat) (s : State) (hs : ethServes s.dev = true) :
    (ownIpv4 s.dev address = true →
      exec (.arpRequest address sender) s = .next (ends (ethSend 0 (.arpReply address sender) s.dev) s)
      ∧ ∀ data, exec (.icmpEcho false address sender data) s = .next (ends (ethSend 0 (.echoReply false address sender data) s.dev) s))
    ∧ (ownIpv6 s.dev address = true →
      exec (.neighborSolicitation address sender) s = .next (ends (ethSend 0 (.neighborAdvertisement address sender) s.dev) s)
      ∧ ∀ data, exec (.icmpEcho true address sender data) s = .next (ends (ethSend 0 (.echoReply true address sender data) s.dev) s))
    ∧ (ownIpv4 s.dev address = false → exec (.arpRequest address sender) s = .next (ends s.dev s))
    ∧ (ownIpv6 s.dev address = false → exec (.neighborSolicitation address sender) s = .next (ends s.dev s)) := by
  refine ⟨fun h => ⟨next_onDev (if_pos ?_), fun data => next_onDev (if_pos ?_)⟩,
    fun h => ⟨next_onDev (if_pos ?_), fun data => next_onDev (if_pos ?_)⟩, fun h => next_onDev (if_neg ?_),
    fun h => next_onDev (if_neg ?_)⟩ <;>
  simp [hs, h]

/-- PTP_MESSAGE of the configured domain (Table 2-16). -/
theorem ptpMessage_sets_tod (m : PtpMsg) (s : State) (hs : ethServes s.dev = true) (hen : bitAt (cfgField s.dev 0x90060 0 0) 0 = true)
    (hd : m.domain = cfgField s.dev 0x90060 15 8) (h6 : m.ipv6 = bitAt (cfgField s.dev 0x90060 1 1) 0) :
    ∃ d, exec (.ptpMessage m) s = .next (ends d s) ∧ d.stk.tod / 2 ^ 30 = m.seconds % 2 ^ 34 ∧ d.stk.tod % 2 ^ 30 = m.nanos % 10 ^ 9
      ∧ d.stk.ptpLocked = m.locked ∧ d.stk.number = s.dev.stk.number ∧ d.mem = s.dev.mem := by
  refine ⟨_, next_onDev (if_neg (by simp [hs, hen, hd, h6])), ?_⟩
  rw [stk_of_offNote (offNote_setWire ..), mem_of_offNote (offNote_setWire ..)]
  exact ⟨by dsimp only; omega, by dsimp only; omega, rfl, rfl, rfl⟩

/-- Settles O56: each event by what it makes of the sessions, of what is sent, and of the rest of the device. -/
theorem sessionsAndFrames : Obligations.SessionsAndFrames := by
  unfold Obligations.SessionsAndFrames
  refine ⟨sessionOpen_cases, handshakeMsg3_cases, session_timers,
    fun g s hs => ⟨fun h => next_onDev (sessionDatagram_of_discarded hs h), fun i hi ha ht hce hw => ⟨?_, ?_, ?_⟩⟩,
    fun i g d hr h1 hn hl => actDatagram_of_record hr h1 hn hl, datagramResend_cases, fun f s hs => next_onDev ?_, pfcFrame_cases,
    addressRequest_cases, ptpMessage_sets_tod⟩
  · exact fun hlt hseq hn h1 _ hp => sessionDatagram_in_order hs hi ha ht hce hw hlt hseq hn h1 hp
  · exact sessionDatagram_replayed hs hi ha ht hce hw
  · exact ackOnlyDatagram_releases hs hi ha ht hce hw
  · simp only [ethFrame, hs, Bool.true_and]
    rfl

end Sys2Proof.Machine
end

section
/-! SCRATCH_LOAD and SCRATCH_STORE (O39). -/

namespace Sys2Proof.Machine

/-! ### The commands -/

/-- A copy of one row has that row alone, at the start of the operand (R241). -/
theorem scratchRows_of_one {c : Cmd} (h : pNat c 24 4 = 1) (act : Act) :
    scratchRows c act = [{ addr := pNat c 0 8, len := pNat c 20 4, key := pNat c 8 5, act }] := by
  simp [scratchRows, h]

/-- Marking the blocks that a load has filled changes nothing but the two flag lists (R354). -/
theorem markBlocks_eq (crew core base : Nat) (ps : List Part) (d : Dev) : markBlocks crew core base ps d =
    { d with flagged := (markBlocks crew core base ps d).flagged, spadBad := (markBlocks crew core base ps d).spadBad } := rfl

/-- The one row of a load from home-cache space, as read: it counts as unprotected bytes of this module (R241, R354). -/
def loadedRow (q : QCmd) (d : Dev) : Part :=
  { addr := hallAddr (ownModule d) 3 0, len := pNat q.cmd 20 4, key := pNat q.cmd 8 5, act := .read, state := .ended stOk
    data := memRead d.cspace (cspaceAddr (dieOfCore (pNat q.cmd 14 2)) q.cmd.crew (pNat q.cmd 0 8)) (pNat q.cmd 20 4) }

/-- The pieces of a store as they leave the window: each with its bytes, and poisoned where its block is in error (R354). -/
def storedPieces (q : QCmd) (d : Dev) : List Part :=
  let core := pNat q.cmd 14 2
  let base := (windowOf d q.cmd.crew core).1 + pNat q.cmd 16 4
  (scratchRows q.cmd .write).flatMap fun p => (cutBlocks base p).map fun x =>
    { x with
      data := memRead d.scratch (scratchAddr core (base + x.off)) x.len
      poisoned := d.spadBad.contains (blockNo q.cmd.crew core ((base + x.off) / 65536)) }

section Passes
variable {q : QCmd} {d : Dev} (hpass : scratchCheck d q = none)
include hpass

/-- A load from the store is one access of its rows that ends in the window. -/
theorem scratchLoadBody_of_store (hcs : bitAt (pNat q.cmd 13 1) 0 = false) : scratchLoadBody q d =
    let core := pNat q.cmd 14 2
    startAccess
      { owner := .command q, crew := q.cmd.crew, requester := unitId (ownModule d) 3, stamp := d.stk.number
        parts := scratchRows q.cmd .read, goal := .scratch core ((windowOf d q.cmd.crew core).1 + pNat q.cmd 16 4) 0 }
      (Cmd.ctx q.cmd) (some q.cmd.crew) d := by
  simp only [scratchLoadBody, hpass, hcs, Bool.false_eq_true, if_false]

/-- A load of one row from home-cache space writes it to the window and completes with its length. -/
theorem scratchLoadBody_of_cspace (hcs : bitAt (pNat q.cmd 13 1) 0 = true) (hone : pNat q.cmd 24 4 = 1) : scratchLoadBody q d =
    let core := pNat q.cmd 14 2
    let base := (windowOf d q.cmd.crew core).1 + pNat q.cmd 16 4
    complete q stOk [pNat q.cmd 20 4] []
      (markBlocks q.cmd.crew core base [loadedRow q d] (spadWrite core base (loadedRow q d).data d)) := by
  simp only [scratchLoadBody, hpass, hcs, if_true, scratchRows_of_one hone, hone, Nat.one_mul]
  rfl

/-- With no block flagged, a store to the store is one access that writes its pieces. -/
theorem scratchStoreBody_of_store (hflag : d.flagged = []) (hcs : bitAt (pNat q.cmd 13 1) 0 = false) : scratchStoreBody q d =
    startAccess
      { owner := .command q, crew := q.cmd.crew, requester := unitId (ownModule d) 3, stamp := d.stk.number
        parts := storedPieces q d, goal := .count }
      (Cmd.ctx q.cmd) (some q.cmd.crew) d := by
  simp [scratchStoreBody, hpass, hcs, hflag, storedPieces]

/-- With no block flagged, a store to home-cache space puts its pieces there and completes, with POISONED where one is in error. -/
theorem scratchStoreBody_of_cspace (hflag : d.flagged = []) (hcs : bitAt (pNat q.cmd 13 1) 0 = true) : scratchStoreBody q d =
    complete q (if (storedPieces q d).any (·.poisoned) then stPoisoned else stOk) [pNat q.cmd 24 4 * pNat q.cmd 20 4] []
      { d with cspace := (storedPieces q d).foldl (fun m p =>
          memWrite m (cspaceAddr (dieOfCore (pNat q.cmd 14 2)) q.cmd.crew p.addr) p.data) d.cspace } := by
  simp [scratchStoreBody, hpass, hcs, hflag, storedPieces]

end Passes

/-! ### The end of a load's access -/

/-- The bytes of an access of one part: the part's length where it succeeded. -/
theorem goodBytes_of_one {x : Part} {st : Nat} (hx : x.state = .ended st) :
    goodBytes [x] = if stSuccess st = true then x.len else 0 := by
  simp [goodBytes, Part.done, Part.status, hx]

section Ended
variable {jid : Nat} {j : Job} {q : QCmd} {core base k : Nat} {p : Part} {d : Dev} (ho : j.owner = .command q)
  (hg : j.goal = .scratch core base k) (hparts : j.parts = [p])
include ho hg hparts

/-- A part that was read is in the window. -/
theorem finishJob_of_loaded (hp : p.state = .ended stOk) : finishJob jid j d = (none, complete q stOk [p.len] []
    (markBlocks q.cmd.crew core base [p] (spadWrite core (base + p.off) (slice p.data 0 p.len) (dropJob jid d)))) := by
  have hgood : goodBytes [p] = p.len := goodBytes_of_one hp
  have hst : p.status = stOk := by simp only [Part.status, hp]
  have hok : stSuccess stOk = true := rfl
  simp only [finishJob, ho, hg, hparts, partsStatus_of_one hp (Or.inl rfl), hgood, List.foldl_cons, List.foldl_nil, hst, hok, if_true,
    spadWrite]

/-- The bytes of a poisoned part are cleared. -/
theorem finishJob_of_load_poisoned (hp : p.state = .ended stPoisoned) : finishJob jid j d = (none, complete q stPoisoned [0] []
    (markBlocks q.cmd.crew core base [p]
      { dropJob jid d with scratch := memClear d.scratch (scratchAddr core (base + p.off)) p.len })) := by
  have hgood : goodBytes [p] = 0 := goodBytes_of_one hp
  have hst : p.status = stPoisoned := by simp only [Part.status, hp]
  have hbad : stSuccess stPoisoned = false := rfl
  simp only [finishJob, ho, hg, hparts, partsStatus_of_one hp (Or.inr rfl), hgood, List.foldl_cons, List.foldl_nil, hst, hbad,
    Bool.false_eq_true, if_false, if_true]
  rfl

end Ended

/-- Settles O39: each copy by its body in its space, and the end of a load's access by what its part leaves in the window. -/
theorem scratchpadCopies : Obligations.ScratchpadCopies := by
  unfold Obligations.ScratchpadCopies
  refine ⟨fun c s q t hb hpass => ⟨fun hcs => ?_, fun hcs hone => ?_⟩, fun c s q t hb hpass hflag => ⟨fun hcs => ?_, fun hcs => ?_⟩,
    fun jid j q core base k p d ho hg hparts => ⟨fun hp => ?_, fun hp => ?_⟩⟩
  · exact next_ends_of_begins hb (scratchLoadBody_of_store hpass hcs)
  · exact ⟨_, next_ends_of_begins hb (scratchLoadBody_of_cspace hpass hcs hone), rfl, rfl, rfl, rfl, rfl⟩
  · exact next_ends_of_begins hb (scratchStoreBody_of_store hpass hflag hcs)
  · exact next_ends_of_begins hb (scratchStoreBody_of_cspace hpass hflag hcs)
  · exact ⟨_, finishJob_of_loaded ho hg hparts hp, rfl, rfl⟩
  · exact ⟨_, finishJob_of_load_poisoned ho hg hparts hp, rfl, rfl⟩

end Sys2Proof.Machine
end

section
/-! EXPERT, and the batch that computes it (O40). -/

namespace Sys2Proof.Machine

/-! ### Arrival -/

/-- A command put at the end of its session's own queue is held there behind the others (R247). -/
theorem enqueue_of_session {q : QCmd} {i : Nat} (hr : q.cmd.route = .session i) (hg : q.cmd.qgen = 0) (d : Dev) :
    enqueue q d = setSess i { sessOf d i with held := (sessOf d i).held ++ [q] } d := by
  simp only [enqueue, hr, hg, if_true]

/-- A command put at the end of its ring queue is held there behind the others (R247). -/
theorem enqueue_of_ring {q : QCmd} {n : Nat} (hr : q.cmd.route = .ring n) (d : Dev) :
    enqueue q d = setQueue n { queueOf d n with held := (queueOf d n).held ++ [q] } d := by
  simp only [enqueue, hr]

theorem expertBody_of_passes {q : QCmd} {d : Dev} (h : expertCheck d q = none) :
    expertBody q d = enqueue { q with reserved := 0 } (unreserve q d) := by
  simp only [expertBody, h]

theorem expertBody_of_fails {q : QCmd} {d : Dev} {st : Nat} (h : expertCheck d q = some st) : expertBody q d = complete q st [] [] d := by
  simp only [expertBody, h, completeSt]

/-! ### A batch -/

/-- The factor form of a descriptor under its profile, for work of a command (R268, R279). -/
def expertForm (x : ExpertDesc) (q : QCmd) (d : Dev) : Nat × Nat :=
  ((profLive d q.cmd.crew x.profile x.pgen q.stamp).map fun r => (r.1, r.2.1)).getD (0, 0)

/-- Where a token's activation is read from; an inline one is not read (R247). -/
def activationSpan (x : ExpertDesc) (q : QCmd) : Span :=
  if expertInline q.cmd then (0, 0, 0) else (pNat q.cmd 40 8, arrayBytes (pNat q.cmd 13 1) (x.dm * 128), pNat q.cmd 48 5)

/-- What a batch reads: the weights of its expert, then the activation of each token (R252). -/
def batchSpans (x : ExpertDesc) (q : QCmd) (qs : List QCmd) (d : Dev) : List Span :=
  (x.weights, 3 * x.tiles * x.tile (expertForm x q d), devKey d x.weights) :: (q :: qs).map (activationSpan x)

/-- The tiles or slots of the weights that were read. -/
def weightPieces (x : ExpertDesc) (form : Nat × Nat) (wps : List Part) : List (List Byte × Bool) :=
  cutPieces wps (x.tile form) (3 * x.tiles)

/-- The factor slots that fail their check (R253, R270). -/
def badSlots (x : ExpertDesc) (form : Nat × Nat) (wps : List Part) : Nat :=
  if x.factored then ((weightPieces x form wps).filter fun p => !(p.2 && slotGood form.1 form.2 p.1)).length else 0

/-- The status of the weights of a batch: POISONED where a slot fails its check, else the first failure of what was read (R253). -/
def weightStatus (x : ExpertDesc) (form : Nat × Nat) (wps : List Part) : Nat :=
  if badSlots x form wps > 0 then stPoisoned else firstBad wps

/-- The device with a batch of n tokens counted for the module and the crew, and its failed slots (R253). -/
def batchCounted (crew n bad : Nat) (d : Dev) : Dev :=
  bumpReg (0xB1008 + 0x20 * crew) 63 32 n (bumpReg (0xB1008 + 0x20 * crew) 31 0 1
    (bumpReg 0xB0018 63 32 n (bumpReg 0xB0018 31 0 1 (countCheckFails bad d))))

/-- Counting a batch changes neither memory nor crews nor queues. -/
theorem batchCounted_frame (crew n bad : Nat) (d : Dev) :
    let e := batchCounted crew n bad d
    e.mem = d.mem ∧ e.crews = d.crews ∧ e.queues = d.queues := by
  unfold batchCounted countCheckFails
  split <;> exact ⟨rfl, rfl, rfl⟩

/-- A token's activation as bytes: inline in its command, or as it was read (R247). -/
def activationBytes (q : QCmd) (ap : List Part) : List Byte :=
  if expertInline q.cmd then slice q.cmd.params 64 (q.cmd.length - 64) else spanBytes ap

/-- The data of a token's slot: the expert's output for its activation (R250). -/
def tokenData (x : ExpertDesc) (form : Nat × Nat) (wps ap : List Part) (q : QCmd) (d : Dev) : List Byte :=
  padLine (expertOut d.draws x form (pNat q.cmd 13 1) (pNat q.cmd 16 4) (pNat q.cmd 14 1) ((weightPieces x form wps).map (·.1))
    (activationBytes q ap))

/-- One token of n answered by its slot: with the failing status of the weights or of its activation, else with the expert's output
for it (R250, R253). -/
def tokenAnswered (x : ExpertDesc) (form : Nat × Nat) (n : Nat) (wps ap : List Part) (q : QCmd) (d : Dev) : Dev :=
  let wst := weightStatus x form wps
  let st := if wst ≠ stOk then wst else firstBad ap
  if st ≠ stOk then failSlot q (expertSlot q (x.dm * 128)) st [n] d
  else writeSlot q (expertSlot q (x.dm * 128)) stOk [n] (tokenData x form wps ap q d) { d with draws := d.draws + expertDraws x }

section Token
variable {x : ExpertDesc} {form : Nat × Nat} {n : Nat} {wps ap : List Part} {q : QCmd} {d : Dev}

theorem tokenAnswered_of_weights_bad (hw : weightStatus x form wps ≠ stOk) :
    tokenAnswered x form n wps ap q d = failSlot q (expertSlot q (x.dm * 128)) (weightStatus x form wps) [n] d := by
  simp only [tokenAnswered, if_pos hw]

theorem tokenAnswered_of_activation_bad (hw : weightStatus x form wps = stOk) (ha : firstBad ap ≠ stOk) :
    tokenAnswered x form n wps ap q d = failSlot q (expertSlot q (x.dm * 128)) (firstBad ap) [n] d := by
  simp only [tokenAnswered, hw, ne_eq, not_true, if_false, if_pos ha]

theorem tokenAnswered_of_read (hw : weightStatus x form wps = stOk) (ha : firstBad ap = stOk) : tokenAnswered x form n wps ap q d =
    writeSlot q (expertSlot q (x.dm * 128)) stOk [n] (tokenData x form wps ap q d) { d with draws := d.draws + expertDraws x } := by
  simp only [tokenAnswered, hw, ha, ne_eq, not_true, if_false]

end Token

/-- What a batch does with what it could read: it is not finished where something is missing, and otherwise it is counted and each of
its tokens answered (R250 to R254). -/
theorem runBatch_cons (desc : Nat) (q : QCmd) (qs : List QCmd) (d : Dev) : runBatch desc (q :: qs) d =
    let x := parseExpert (toLe 128 desc)
    let form := expertForm x q d
    match fetchNow (batchSpans x q qs d) d with
    | (none, e) => (false, e)
    | (some [], e) => (true, e)
    | (some (wps :: aps), e) =>
      (true, ((q :: qs).zip aps).foldl (fun d y => tokenAnswered x form (qs.length + 1) wps y.2 y.1 d)
        (batchCounted q.cmd.crew (qs.length + 1) (badSlots x form wps) e)) := by
  unfold runBatch
  generalize parseExpert (toLe 128 desc) = x
  rcases hprof : profLive d q.cmd.crew x.profile x.pgen q.stamp with _ | live
  all_goals
    simp only [batchSpans, expertForm, hprof, Option.map_none, Option.map_some, Option.getD_none, Option.getD_some]
    rfl

/-- A batch whose weights and activations cannot all be read is not finished. -/
theorem runBatch_of_unread {desc : Nat} {q : QCmd} {qs : List QCmd} {d e : Dev}
    (h : fetchNow (batchSpans (parseExpert (toLe 128 desc)) q qs d) d = (none, e)) : runBatch desc (q :: qs) d = (false, e) := by
  rw [runBatch_cons]
  dsimp only
  rw [h]

/-- A batch of one whose data has been read is counted, and its token answered. -/
theorem runBatch_of_one {desc : Nat} {q : QCmd} {d e : Dev} {wps ap : List Part}
    (h : fetchNow (batchSpans (parseExpert (toLe 128 desc)) q [] d) d = (some [wps, ap], e)) : runBatch desc [q] d =
      let x := parseExpert (toLe 128 desc)
      let form := expertForm x q d
      (true, tokenAnswered x form 1 wps ap q (batchCounted q.cmd.crew 1 (badSlots x form wps) e)) := by
  rw [runBatch_cons]
  dsimp only
  rw [h]
  rfl

/-- Settles O40: the command by its check, its queue by what is held there, and a batch by what could be read of it. -/
theorem expertsJoinTheirInbox : Obligations.ExpertsJoinTheirInbox := by
  unfold Obligations.ExpertsJoinTheirInbox
  refine ⟨fun c s q t hb => ⟨fun hok => ?_, fun st hst => ?_⟩, fun q i d hr hg => ?_, fun q n d hr => ?_,
    fun desc q d e wps ap hread => ?_, fun desc q qs d e hread => runBatch_of_unread hread⟩
  · exact next_ends_of_begins hb (expertBody_of_passes hok)
  · exact next_ends_of_begins hb (expertBody_of_fails hst)
  · rw [enqueue_of_session hr hg, sessOf_setSess_self]
    exact ⟨rfl, rfl, rfl, fun k hk => sessOf_setSess_ne _ _ _ _ hk⟩
  · rw [enqueue_of_ring hr, queueOf_setQueue_self]
    exact ⟨rfl, rfl, fun k hk => queueOf_setQueue_ne _ _ _ _ hk⟩
  · have hrun := runBatch_of_one hread
    obtain ⟨hmem, hcrews, hqueues⟩ := batchCounted_frame q.cmd.crew 1
      (badSlots (parseExpert (toLe 128 desc)) (expertForm (parseExpert (toLe 128 desc)) q d) wps) e
    exact ⟨_, congrArg Prod.fst hrun, hmem, hcrews, hqueues,
      fun hw ha => (congrArg Prod.snd hrun).trans (tokenAnswered_of_read hw ha),
      fun hw => (congrArg Prod.snd hrun).trans (tokenAnswered_of_weights_bad hw),
      fun hw ha => (congrArg Prod.snd hrun).trans (tokenAnswered_of_activation_bad hw ha)⟩

end Sys2Proof.Machine
end

section
/-! ATTN_PARTIAL (R255 to R258). -/

namespace Sys2Proof.Machine

/-- What an ATTN_PARTIAL reads first: its block table, and its query where that is not inline (R255). -/
def attnTableSpans (c : Cmd) : List Span :=
  [(pNat c 24 8, pNat c 38 2 * 8, pNat c 32 5), if bitAt (pNat c 15 1) 1 then (0, 0, 0) else (pNat c 0 8, attnQuery c, pNat c 8 5)]

/-- The block addresses of a table that was read. -/
def attnEntries (c : Cmd) (x : List (List Part)) : List Nat :=
  (List.range (pNat c 38 2)).map fun i => fieldLe (spanBytes (x.getD 0 [])) (8 * i) 8

/-- The rows of a block: 32, but for the last (R255). -/
def attnBlockRows (c : Cmd) (i : Nat) : Nat := if i + 1 = pNat c 38 2 then pNat c 37 1 else 32

/-- The blocks, as an ATTN_PARTIAL reads them once it has their addresses (R255). -/
def attnBlockSpans (c : Cmd) (x : List (List Part)) : List Span :=
  ((List.range (pNat c 38 2)).zip (attnEntries c x)).map fun b =>
    (b.2, attnBlockRows c b.1 * attnRow c, if addrSpace b.2 = 0 then pNat c 64 5 else pNat c 69 5)

/-- The query's bytes. -/
def attnQueryBytes (c : Cmd) (x : List (List Part)) : List Byte :=
  if bitAt (pNat c 15 1) 1 then slice c.params 80 (attnQuery c) else spanBytes (x.getD 1 [])

/-- The rows of the blocks that were read. -/
def attnRows (c : Cmd) (y : List (List Part)) : List (List Byte) :=
  ((List.range (pNat c 38 2)).zip y).flatMap fun b =>
    (List.range (attnBlockRows c b.1)).map fun t => slice (spanBytes b.2) (t * attnRow c) (attnRow c)

/-- A row's value: the whole of it where keys and values are shared, else what follows the key (R255). -/
def attnValue (c : Cmd) (r : List Byte) : List FVal :=
  decodeArray (pNat c 14 1) (pNat c 20 2)
    (if bitAt (pNat c 15 1) 0 then r else r.drop (pNat c 18 2 * arrayBytes (pNat c 14 1) 1))

/-- The numbers of sums that one head draws. -/
def attnDraws (c : Cmd) (y : List (List Part)) : Nat := (attnRows c y).length + 1 + pNat c 20 2

/-- The partial of head h, whose sums are drawn from n0 on (R257). -/
def attnHeadOut (n0 : Nat) (c : Cmd) (x y : List (List Part)) (h : Nat) : BitVec 32 × BitVec 32 × List (BitVec 32) :=
  attnHead n0 (BitVec.ofNat 32 (pNat c 40 4))
    (decodeArray (pNat c 13 1) (pNat c 18 2) ((attnQueryBytes c x).drop (h * arrayBytes (pNat c 13 1) (pNat c 18 2))))
    ((attnRows c y).map fun r => decodeArray (pNat c 14 1) (pNat c 18 2) r) ((attnRows c y).map (attnValue c)) (pNat c 20 2)

/-- The partials of all heads, one head's sums drawn after another's. -/
def attnOuts (n0 : Nat) (c : Cmd) (x y : List (List Part)) : List (BitVec 32 × BitVec 32 × List (BitVec 32)) :=
  (List.range (pNat c 16 2)).map fun h => attnHeadOut (n0 + h * attnDraws c y) c x y h

theorem length_attnOuts (n0 : Nat) (c : Cmd) (x y : List (List Part)) : (attnOuts n0 c x y).length = pNat c 16 2 := by simp [attnOuts]

theorem getD_attnOuts (n0 : Nat) {c : Cmd} (x y : List (List Part)) {h : Nat} (hh : h < pNat c 16 2)
    (o : BitVec 32 × BitVec 32 × List (BitVec 32)) :
    (attnOuts n0 c x y).getD h o = attnHeadOut (n0 + h * attnDraws c y) c x y h := by
  simp [attnOuts, hh]

section Run
variable {q : QCmd} {d e f : Dev} {x y : List (List Part)}

/-- An ATTN_PARTIAL that cannot read its table and query now has parked (R258). -/
theorem attnRun_of_parked (hx : fetch q (attnTableSpans q.cmd) d = (none, e)) : attnRun q d = e := by
  unfold attnTableSpans at hx
  simp only [attnRun, hx]

/-- A table or query that cannot be had gives the slot its status. -/
theorem attnRun_of_table_bad (hx : fetch q (attnTableSpans q.cmd) d = (some x, e)) (hbad : spansBad x ≠ stOk) :
    attnRun q d = failSlot q (attnSlot q) (spansBad x) [] e := by
  unfold attnTableSpans at hx
  simp only [attnRun, hx, if_pos hbad]

/-- A table of sound addresses whose blocks were read gives the slot the partial of every head (R257). -/
theorem attnRun_of_read (hx : fetch q (attnTableSpans q.cmd) d = (some x, e)) (hok : spansBad x = stOk)
    (hsound : ∀ a ∈ attnEntries q.cmd x, addrModule a = ownModule e ∧ addrSpace a ≤ 1 ∧ aligned a 128 = true)
    (hy : fetch q (attnBlockSpans q.cmd x) e = (some y, f)) (hyok : spansBad y = stOk) : attnRun q d =
      let outs := attnOuts f.draws q.cmd x y
      writeSlot q (attnSlot q) stOk [] (partialData (pNat q.cmd 22 1) (outs.map (·.1)) (outs.map (·.2.1)) (outs.map (·.2.2)))
        { f with draws := f.draws + pNat q.cmd 16 2 * attnDraws q.cmd y } := by
  have hall : ¬ ((attnEntries q.cmd x).any fun a =>
      addrModule a != ownModule e || decide (1 < addrSpace a) || !aligned a 128) = true := by
    simp only [List.any_eq_true, not_exists, not_and]
    intro a ha
    obtain ⟨hm, hs, hl⟩ := hsound a ha
    simp [hm, hs, hl]
  unfold attnTableSpans at hx
  unfold attnBlockSpans attnEntries at hy
  unfold attnEntries at hall
  simp only [attnBlockRows] at hy
  simp only [attnRun, hx, hok, hall, hy, hyok, ne_eq, not_true, if_false]
  rfl

end Run

/-- An ATTN_PARTIAL that passes its checks is computed. -/
theorem attnBody_of_passes {q : QCmd} {d : Dev} (h : attnCheck d q = none) : attnBody q d = attnRun q d := by
  simp only [attnBody, h]

end Sys2Proof.Machine
end

section
/-! COMBINE (R259 to R263), and the attention statement (O41). -/

namespace Sys2Proof.Machine

/-! ### Arming, and the moments at which a COMBINE is judged -/

section Judged
variable {id : Nat} {a : Armed} {d : Dev} (ha : tGet? d.armed id = some a)
include ha

theorem combineFire_of_armed :
    combineFire id d = if combineComplete d a.q.cmd = true then combineClose id a false d else d := by
  simp only [combineFire, ha]

theorem combineDeadline_of_armed : combineDeadline id d = if combineComplete d a.q.cmd = true then combineClose id a false d
    else if d.stk.number < a.deadline then d else combineClose id a true d := by
  simp only [combineDeadline, ha]

end Judged

/-- A COMBINE that passes its checks and finds room is armed with its deadline, and judged at once (R260, R261). -/
theorem combineBody_of_room {q : QCmd} {d : Dev} (h : combineCheck d q = none) (hroom : d.armed.length < 4096) :
    let a : Armed := { q, crew := q.cmd.crew, deadline := d.stk.number + pNat q.cmd 24 1 - 1 }
    let e := { d with armed := tSet d.armed q.id a }
    combineBody q d = if combineComplete d q.cmd = true then combineClose q.id a false e else e := by
  intro a e
  have hnot : ¬ d.armed.length ≥ 4096 := Nat.not_le.mpr hroom
  simp only [combineBody, h, hnot, if_false]
  exact combineFire_of_armed (d := e) (tGet?_tSet_self ..)

/-! ### Recalls -/

/-- With no line held by an agent nothing is recalled. -/
theorem recallRanges_of_no_dir {d : Dev} (hd : d.dir = []) (write : Bool) (l : List (Nat × Nat)) :
    recallRanges write l d = (true, d) := by
  induction l with
  | nil => rfl
  | cons r l ih =>
    have hone : recallRange write r.1 r.2 d = (true, d) := by simp [recallRange, hd]
    unfold recallRanges at ih ⊢
    simpa only [List.foldl_cons, hone, Bool.true_and] using ih

theorem combineClose_of_no_dir {d : Dev} (hd : d.dir = []) (id : Nat) (a : Armed) (late : Bool) :
    combineClose id a late d = combineEnd id a late d := by
  simp only [combineClose, recallRanges_of_no_dir hd, if_true]

/-! ### The end -/

/-- The arrived inputs of a COMBINE. -/
def arrivedInputs (d : Dev) (c : Cmd) : List Nat := (List.range (pNat c 15 1)).filter (combineArrived d c)

/-- The arrived inputs that have failed. -/
def failedInputs (d : Dev) (c : Cmd) : List Nat := (arrivedInputs d c).filter fun i => inputStatus d c i ≠ 0

/-- A COMBINE no longer armed, and counted: as late, or as fired (R260, R261). -/
def disarmed (id : Nat) (a : Armed) (late : Bool) (d : Dev) : Dev :=
  let cr := 0xB1010 + 0x20 * a.crew
  let e := { d with armed := tDel d.armed id }
  if late then bumpReg cr 31 0 1 (bumpSat 0xB0020 31 16 1 e) else bumpReg cr 63 32 1 (bumpReg 0xB0020 63 32 1 e)

/-- Disarming changes nothing but the table of armed COMBINEs and registers. -/
theorem disarmed_eq (id : Nat) (a : Armed) (late : Bool) (d : Dev) :
    disarmed id a late d = { d with armed := tDel d.armed id, regs := (disarmed id a late d).regs } := by
  cases late <;> rfl

/-- What a COMBINE that has been disarmed leaves of the rest of the device. -/
theorem disarmed_frame (id : Nat) (a : Armed) (late : Bool) (d : Dev) :
    let e := disarmed id a late d
    tGet? e.armed id = none ∧ e.mem = d.mem ∧ e.crews = d.crews ∧ e.sessions = d.sessions ∧ e.queues = d.queues := by
  dsimp only
  rw [disarmed_eq]
  exact ⟨tGet?_tDel_self .., rfl, rfl, rfl, rfl⟩

theorem arrivedInputs_congr {d e : Dev} (h : e.mem = d.mem) (c : Cmd) : arrivedInputs e c = arrivedInputs d c := by
  have harr : combineArrived e c = combineArrived d c := by
    funext i
    simp only [combineArrived, combineHeader, h]
  simp only [arrivedInputs, harr]

section End
variable {id : Nat} {a : Armed} {d : Dev}

/-- A late COMBINE without PARTIAL_OK ends TIMEOUT with no input merged (R261, R262). -/
theorem combineEnd_of_late (hp : bitAt (pNat a.q.cmd 14 1) 0 = false) :
    combineEnd id a true d = complete a.q stTimeout (combineWords (pNat a.q.cmd 15 1) []) [] (disarmed id a true d) := by
  have hbad : stTimeout ≠ stOk ∧ (!bitAt (pNat a.q.cmd 14 1) 0) = true := by simp [hp, stTimeout, stOk]
  simp only [combineEnd, if_true, if_pos hbad]
  rfl

/-- A fired COMBINE without PARTIAL_OK ends with the status of its first failed input, and no input merged (R262). -/
theorem combineEnd_of_failed {i : Nat} (hf : (failedInputs d a.q.cmd).head? = some i) (hp : bitAt (pNat a.q.cmd 14 1) 0 = false) :
    combineEnd id a false d =
      complete a.q (inputStatus d a.q.cmd i) (combineWords (pNat a.q.cmd 15 1) []) [] (disarmed id a false d) := by
  obtain ⟨l, hl⟩ := List.head?_eq_some_iff.mp hf
  have hmem : i ∈ failedInputs d a.q.cmd := by simp [hl]
  have hne : inputStatus d a.q.cmd i ≠ 0 := of_decide_eq_true (List.mem_filter.mp hmem).2
  have hbad : inputStatus d a.q.cmd i ≠ stOk ∧ (!bitAt (pNat a.q.cmd 14 1) 0) = true := by simpa [hp, stOk] using hne
  unfold failedInputs arrivedInputs at hl
  simp only [combineEnd, hl, Bool.false_eq_true, if_false, if_pos hbad]
  rfl

/-- A fired COMBINE with no failed input and no residual merges every arrived input (R263). -/
theorem combineEnd_of_sound (hf : failedInputs d a.q.cmd = []) (hr : bitAt (pNat a.q.cmd 14 1) 2 = false) :
    combineEnd id a false d = combineWrite a.q stOk (arrivedInputs d a.q.cmd) (disarmed id a false d) := by
  have hmerged : ((arrivedInputs d a.q.cmd).filter fun i => inputStatus d a.q.cmd i = 0) = arrivedInputs d a.q.cmd := by
    refine List.filter_eq_self.mpr fun i hi => ?_
    simpa using List.filter_eq_nil_iff.mp hf i hi
  unfold failedInputs arrivedInputs at hf
  unfold arrivedInputs at hmerged ⊢
  simp only [combineEnd, hf, hmerged, hr, Bool.false_eq_true, if_false, ne_eq, not_true, false_and]
  rfl

end End

theorem failedInputs_eq_nil {d : Dev} {c : Cmd}
    (h : ∀ i, i < pNat c 15 1 → combineArrived d c i = true → inputStatus d c i = 0) : failedInputs d c = [] := by
  refine List.filter_eq_nil_iff.mpr fun i hi => ?_
  obtain ⟨hlt, harr⟩ := List.mem_filter.mp hi
  simpa using h i (List.mem_range.mp hlt) harr

/-- The first failed input is the arrived one that has failed and before which no arrived one has. -/
theorem head_failedInputs {d : Dev} {c : Cmd} {i : Nat} (hi : i < pNat c 15 1) (harr : combineArrived d c i = true)
    (hst : inputStatus d c i ≠ 0) (hfirst : ∀ k, k < i → combineArrived d c k = true → inputStatus d c k = 0) :
    (failedInputs d c).head? = some i := by
  rw [failedInputs, arrivedInputs, List.filter_filter, List.head?_filter, List.find?_range_eq_some]
  refine ⟨by simp [harr, hst], List.mem_range.mpr hi, fun k hk => ?_⟩
  by_cases hk' : combineArrived d c k = true
  · simp [hfirst k hk hk']
  · simp [hk']

/-- Settles O41: an ATTN_PARTIAL by what could be read for it, a head of one row, and a COMBINE by where it is judged and how it ends. -/
theorem attentionPartialsAndCombines : Obligations.AttentionPartialsAndCombines := by
  unfold Obligations.AttentionPartialsAndCombines
  refine ⟨fun c s q t hb hpass => ?_, fun n0 scale qv k v dv => rfl, fun c s q t hb hpass hroom => ?_,
    fun id a s ha => ⟨fun hall => ⟨?_, ?_⟩, fun hsome => ⟨?_, fun hbefore => ?_, fun hpast => ?_⟩⟩,
    fun id a late d hd => combineClose_of_no_dir hd id a late, fun id a late d hsound hp => ?_,
    fun id a i d hi harr hst hfirst hp => ?_⟩
  · refine ⟨_, next_ends_of_begins hb (attnBody_of_passes hpass), fun l e hread => ⟨?_, ?_, ?_⟩⟩
    · rintro rfl
      exact attnRun_of_parked hread
    · rintro x rfl hbad
      exact attnRun_of_table_bad hread hbad
    · rintro x rfl hok
      exact fun hentries y f hblocks hyok => ⟨_, _, attnRun_of_read hread hok hentries hblocks hyok, length_attnOuts ..,
        fun h hh => ⟨_, getD_attnOuts _ x y hh _⟩⟩
  · exact next_ends_of_begins hb (combineBody_of_room hpass hroom)
  · exact next_onDev ((combineFire_of_armed ha).trans (if_pos hall))
  · exact next_onDev ((combineDeadline_of_armed ha).trans (if_pos hall))
  · exact next_onDev ((combineFire_of_armed ha).trans (if_neg (Bool.eq_false_iff.mp hsome)))
  · exact next_onDev ((combineDeadline_of_armed ha).trans ((if_neg (Bool.eq_false_iff.mp hsome)).trans (if_pos hbefore)))
  · exact next_onDev ((combineDeadline_of_armed ha).trans
      ((if_neg (Bool.eq_false_iff.mp hsome)).trans (if_neg (Nat.not_lt.mpr hpast))))
  · obtain ⟨harmed, hmem, hcrews, hsessions, hqueues⟩ := disarmed_frame id a late d
    refine ⟨disarmed id a late d, harmed, hmem, hcrews, hsessions, hqueues, ?_, ?_⟩
    · rintro rfl
      exact combineEnd_of_late hp
    · rintro rfl hr
      rw [combineEnd_of_sound (failedInputs_eq_nil hsound) hr, ← arrivedInputs_congr hmem]
      rfl
  · obtain ⟨harmed, hmem, -, -, -⟩ := disarmed_frame id a false d
    exact ⟨_, harmed, hmem, combineEnd_of_failed (head_failedInputs hi harr hst hfirst) hp⟩

end Sys2Proof.Machine
end

section
/-! EXPAND (R283, R284). -/

namespace Sys2Proof.Machine

/-! ### What an EXPAND reads and what it makes of it -/

/-- The rank, factor format and dense format under which an EXPAND reads its slots (R279). -/
def expandForm (q : QCmd) (d : Dev) : Nat × Nat × Nat :=
  (profLive d q.cmd.crew (pNat q.cmd 13 1) (pNat q.cmd 14 1) q.stamp).getD (0, 0, 2)

/-- The slots of an EXPAND as ranges under its key. -/
def expandSpans (q : QCmd) (d : Dev) : List Span :=
  (expandSrc q.cmd (slotBytes (expandForm q d).1 (expandForm q d).2.1)).map fun r => (r.1, r.2, pNat q.cmd 8 5)

/-- The tiles of an EXPAND from its slots as read, and the device once their sums are drawn. -/
def expanded (q : QCmd) (form : Nat × Nat × Nat) (x : List (List Part)) (d : Dev) : List (Option (List Byte)) × Dev :=
  expandTiles form.1 form.2.1 form.2.2 (x.flatMap fun ps => cutPieces ps (slotBytes form.1 form.2.1) (pNat q.cmd 24 2)) d

/-- The tiles whose slots passed their checks. -/
def goodTiles (ts : List (Option (List Byte))) : Nat := (ts.filter Option.isSome).length

/-- The status with which an EXPAND completes: POISONED where a slot was bad (R284). -/
def expandStatus (ts : List (Option (List Byte))) : Nat := if ts.length - goodTiles ts = 0 then stOk else stPoisoned

/-- The device once the slots of tiles have been counted, good and bad (R284). -/
def tilesCounted (y : List (Option (List Byte)) × Dev) : Dev :=
  countCheckFails (y.1.length - goodTiles y.1) (bumpReg 0xC0010 31 0 (goodTiles y.1) y.2)

/-- Counting slots changes neither memory nor crews, queues or sessions. -/
theorem tilesCounted_frame (y : List (Option (List Byte)) × Dev) :
    let g := tilesCounted y
    g.mem = y.2.mem ∧ g.crews = y.2.crews ∧ g.queues = y.2.queues ∧ g.sessions = y.2.sessions := by
  unfold tilesCounted countCheckFails
  split <;> exact ⟨rfl, rfl, rfl, rfl⟩

/-- The parts of the access that writes tiles into the store: those of bad slots are zeros, poisoned (R284). -/
def tileParts (c : Cmd) (t : Nat) (ts : List (Option (List Byte))) : List Part :=
  ((List.range ts.length).zip ts).flatMap fun z =>
    (splitParts (pNat c 32 8 + z.1 * t) t (pNat c 40 5) .write (z.2.getD (zeros t))).map fun p =>
      { p with off := z.1 * t + p.off, poisoned := z.2.isNone }

/-! ### EXPAND computed -/

theorem expandBody_of_passes {q : QCmd} {d : Dev} (h : expandCheck d q = none) : expandBody q d = expandRun q d := by
  simp only [expandBody, h]

section Run
variable {q : QCmd} {d e : Dev}

/-- An EXPAND that cannot read its slots now has parked. -/
theorem expandRun_of_unread (h : fetch q (expandSpans q d) d = (none, e)) : expandRun q d = e := by
  unfold expandSpans expandForm at h
  simp only [expandRun, h]

variable {x : List (List Part)} (h : fetch q (expandSpans q d) d = (some x, e))
include h

/-- Into a scratchpad every tile is put at once, zeros for a bad slot (R284). -/
theorem expandRun_of_scratchpad (hspad : bitAt (pNat q.cmd 15 1) 0 = true) : expandRun q d =
    let y := expanded q (expandForm q d) x e
    let g := tilesCounted y
    let core := pNat q.cmd 26 2
    complete q (expandStatus y.1) [goodTiles y.1, y.1.length - goodTiles y.1] []
      (spadWrite core ((windowOf g q.cmd.crew core).1 + pNat q.cmd 32 8)
        (y.1.flatMap fun z => z.getD (zeros (tileBytes (expandForm q d).2.2))) g) := by
  unfold expandSpans expandForm at h
  simp only [expandRun, h, hspad, if_true]
  rfl

/-- Into the store one access writes every tile (R284). -/
theorem expandRun_of_store (hspad : bitAt (pNat q.cmd 15 1) 0 = false) : expandRun q d =
    let y := expanded q (expandForm q d) x e
    let i := (freshId (tilesCounted y)).1
    let g := (freshId (tilesCounted y)).2
    runJob i (setJob i { owner := .command q, crew := q.cmd.crew, requester := unitId (ownModule g) 3, stamp := g.stk.number
                         parts := tileParts q.cmd (tileBytes (expandForm q d).2.2) y.1
                         goal := .output (expandStatus y.1) [goodTiles y.1, y.1.length - goodTiles y.1] } g) := by
  unfold expandSpans expandForm at h
  simp only [expandRun, h, hspad, Bool.false_eq_true, if_false]
  rfl

end Run

end Sys2Proof.Machine
end

section
/-! FACTOR and its undoing, IMAGE_LOAD, and generations that retire (R280, R285, R287, R288): the statement (O42). -/

namespace Sys2Proof.Machine

/-! ### Marks -/

/-- The rank and factor format with which a region is marked. -/
def markOf (d : Dev) (r : Nat) : Option (Nat × Nat) := ((tGet? d.regions r).getD {}).mark

/-- Unmarking a region unmarks that one alone. -/
theorem markOf_unmark (r x : Nat) (d : Dev) : markOf (markRegion none r d) x = if x = r then none else markOf d x := by
  unfold markOf
  rcases h : tGet? d.regions r with _ | y
  · have hsame : markRegion none r d = d := by simp only [markRegion, h]
    rw [hsame]
    split
    next hx => rw [hx, h]; rfl
    next => rfl
  · have hregs : (markRegion none r d).regions = tMod d.regions r fun y => { y with mark := none, charge := markCharge none } := by
      simp only [markRegion, h]
      rfl
    rw [hregs, tGet?_tMod]
    split
    next hx => rw [hx, h]; rfl
    next => rfl

/-- A region of a run unmarked has no mark. -/
theorem markOf_unmark_run {l : List Nat} {x : Nat} (d : Dev) (h : x ∈ l ∨ markOf d x = none) :
    markOf (l.foldl (fun d r => markRegion none r d) d) x = none := by
  induction l generalizing d with
  | nil => exact h.resolve_left List.not_mem_nil
  | cons r l ih =>
    refine ih _ ?_
    rw [markOf_unmark]
    by_cases hx : x = r
    · exact Or.inr (if_pos hx)
    · rw [if_neg hx]
      exact h.imp_left fun hm => (List.mem_cons.mp hm).resolve_left hx

/-- Marking changes no byte of memory. -/
theorem markRegion_mem (m : Option (Nat × Nat)) (r : Nat) (d : Dev) : (markRegion m r d).mem = d.mem := by
  unfold markRegion
  split <;> rfl

/-! ### FACTOR -/

section Factor
variable {q : QCmd} {d : Dev} (hpass : factorCheck d q = none)
include hpass

theorem factorBody_of_busy (hfree : (freeOp d).isNone = true) : factorBody q d = completeSt q stBusy d := by
  simp only [factorBody, hpass, hfree, if_true]

/-- A FACTOR for which an operation is free marks its unmarked regions, tells the partner of a paired run, and starts (R285). -/
theorem factorBody_of_free (hfree : (freeOp d).isNone = false) : factorBody q d =
    let p := (profLive d q.cmd.crew (pNat q.cmd 14 1) (pNat q.cmd 15 1) q.stamp).getD (0, 0, 0)
    let dest := pNat q.cmd 24 8
    let run := rangeRegions dest (pNat q.cmd 18 2 * pNat q.cmd 16 2 * slotBytes p.1 p.2.1)
    let fresh := run.filter fun r => ((tGet? d.regions r).getD {}).mark.isNone
    let e := fresh.foldl (fun d r => markRegion (some (p.1, p.2.1)) r d) d
    let x := (tGet? e.regions (regionNo dest)).getD {}
    startOp q { first := regionNo dest, count := run.length, marked := fresh, words := [p.1, p.2.1] }
      (if x.paired then sendRegion (regionNo dest) run.length 4 x e else e) := by
  simp only [factorBody, hpass, hfree, Bool.false_eq_true, if_false]

end Factor

/-- A FACTOR undone leaves none of its marks. -/
theorem markOf_factorUndo {i r : Nat} {d : Dev} (h : r ∈ (opOf d i).marked) : markOf (factorUndo i d) r = none :=
  markOf_unmark_run _ (Or.inl h)

/-- A FACTOR undone has its slots zeroed once it began writing (R287). -/
theorem factorUndo_mem (i : Nat) (d : Dev) : (factorUndo i d).mem =
    if (opOf d i).phase = 0 then d.mem else memClear d.mem (factorDest (opOf d i)).1 (factorDest (opOf d i)).2 := by
  refine (view_foldl Dev.mem (fun d r => markRegion_mem none r d) _ _).trans ?_
  split <;> rfl

/-! ### IMAGE_LOAD -/

theorem imageLoadBody_of_passes {q : QCmd} {d : Dev} {k : KeySlot} (hpass : imageLoadCheck d q = none)
    (hk : imageSlot d q.cmd.crew (pNat q.cmd 15 1) = some k) : imageLoadBody q d =
      startOp q { first := regionNo (pNat q.cmd 20 8), count := pNat q.cmd 36 4, words := [leNat k.keyId, leNat k.key] } d := by
  simp only [imageLoadBody, hpass, hk, Option.getD_some]

/-! ### Profiles -/

@[simp] theorem profOf_setProf_self (p : Nat) (x : Profile) (d : Dev) : profOf (setProf p x d) p = x := by simp [profOf, setProf]

theorem profOf_setProf_ne {p o : Nat} (h : o ≠ p) (x : Profile) (d : Dev) : profOf (setProf p x d) o = profOf d o := by
  simp [profOf, setProf, tGet?_tSet_ne _ _ h]

/-- A draining generation with a holder stays (R280). -/
theorem profileRetire_of_held {p : Nat} {d : Dev} (h : profHolders d (profOf d p) ≠ 0) : profileRetire p d = d :=
  if_neg fun hn => h hn.2

/-- A draining generation without holders retires (R280). -/
theorem profileRetire_of_free {p : Nat} {d : Dev} (ho : (profOf d p).oldGen ≠ 0) (h : profHolders d (profOf d p) = 0) :
    profileRetire p d = setProf p { profOf d p with oldGen := 0, oldRank := 0, oldFfmt := 0, oldDfmt := 0 } d :=
  if_pos ⟨ho, h⟩

/-- Settles O42: EXPAND by what could be read for it and where its tiles go, the two starts by their bodies where the checks pass, a
FACTOR undone by its marks and bytes, and a profile by its holders. -/
theorem expandFactorAndImageLoad : Obligations.ExpandFactorAndImageLoad := by
  unfold Obligations.ExpandFactorAndImageLoad
  refine ⟨fun c s q t hb hpass => ?_, fun c s q t hb hpass => ⟨fun hbusy => ?_, fun hfree => ?_⟩,
    fun i d => ⟨fun r hr => markOf_factorUndo hr, fun h0 => (factorUndo_mem i d).trans (if_pos h0),
      fun h0 => (factorUndo_mem i d).trans (if_neg h0)⟩,
    fun c s q t k hb hpass hk => ?_, fun p s ho => ⟨fun hz => ?_, fun hh => ?_⟩⟩
  · refine ⟨_, next_ends_of_begins hb (expandBody_of_passes hpass), fun l e hread => ⟨?_, ?_⟩⟩
    · rintro rfl
      exact expandRun_of_unread hread
    · rintro x rfl
      obtain ⟨hmem, hcrews, hqueues, hsessions⟩ := tilesCounted_frame (expanded q (expandForm q t.dev) x e)
      exact ⟨_, hmem, hcrews, hqueues, hsessions,
        fun hspad => expandRun_of_scratchpad hread hspad,
        fun hspad => ⟨_, _, _, expandRun_of_store hread hspad, rfl, rfl, rfl, rfl⟩⟩
  · exact next_ends_of_begins hb (factorBody_of_busy hpass hbusy)
  · exact next_ends_of_begins hb (factorBody_of_free hpass hfree)
  · exact next_ends_of_begins hb (imageLoadBody_of_passes hpass hk)
  · exact ⟨_, next_onDev (profileRetire_of_free ho hz), profOf_setProf_self .., fun o hne => profOf_setProf_ne hne ..⟩
  · exact next_onDev (profileRetire_of_held hh)

end Sys2Proof.Machine
end

section
/-! Look-ups, and POOL over one bound version (R293, R295 to R298). -/

namespace Sys2Proof.Machine

/-! ### Reads of nothing, and lines held by no agent -/

/-- A read of ranges without a byte is done at once and changes nothing. -/
theorem fetch_of_empty {q : QCmd} {rs : List Span} (h : ∀ r ∈ rs, r.2.1 = 0) (d : Dev) :
    fetch q rs d = (some (rs.map fun _ => []), d) := by
  have htry (have_ : List Part) : trySpans have_ rs d = (rs.map fun _ => [], d) := by
    induction rs with
    | nil => rfl
    | cons r rs ih =>
      have hnone : trySpan have_ r d = ([], d) := by
        simp [trySpan, splitParts, h r List.mem_cons_self, tryParts]
      simp only [trySpans, hnone, ih fun x hx => h x (List.mem_cons_of_mem _ hx), List.map_cons]
  simp [fetch, htry]

/-- Where no agent holds a line, the device may change any range at once (Table 4-3). -/
theorem claim_of_no_dir {d : Dev} (hd : d.dir = []) (q : QCmd) (rs : List (Nat × Nat)) : claim q rs d = (true, d) := by
  simp [claim, hd]

/-! ### The version bound -/

/-- The active version of a table, as a command binds it (R297). -/
def activeVersion (q : QCmd) (t : Nat) (d : Dev) : Bound :=
  { work := q.id, table := t, version := (tableOf d t).version, stamp := q.stamp, rows := (tableOf d t).rows
    descs := (tableOf d t).descs, body := (tableOf d t).body, bodyRegions := (tableOf d t).bodyRegions }

theorem bindTable_of_fresh {q : QCmd} {d : Dev} (h : (d.bound.find? fun b => b.work == q.id) = none) (t : Nat) :
    bindTable q t d = (activeVersion q t d, { d with bound := d.bound ++ [activeVersion q t d] }) := by
  simp only [bindTable, h]
  rfl

theorem bindTable_of_held {q : QCmd} {d : Dev} {b : Bound} (h : (d.bound.find? fun b => b.work == q.id) = some b) (t : Nat) :
    bindTable q t d = (b, d) := by
  simp only [bindTable, h]

/-- A command binds its version once: asked again, it has the same. -/
theorem bindTable_again {q : QCmd} {d : Dev} (h : (d.bound.find? fun b => b.work == q.id) = none) (t : Nat) :
    (bindTable q t (bindTable q t d).2).1 = (bindTable q t d).1 := by
  rw [bindTable_of_fresh h, bindTable_of_held (b := activeVersion q t d)]
  simp [h, activeVersion]

/-! ### A row resolved -/

/-- The device once look-ups of a table are counted for the module and its crew, with those met by a hot copy and by a replica. -/
def lookUpsCounted (t n hot replica : Nat) (d : Dev) : Dev :=
  let cr := 0xD8000 + 0x10 * (tableOf d t).crew
  bumpReg (cr + 8) 31 0 replica (bumpReg 0xD0008 31 0 replica
    (bumpReg (cr + 8) 63 32 hot (bumpReg 0xD0008 63 32 hot (bumpReg cr 63 0 n (bumpReg 0xD0000 63 0 n d)))))

@[simp] theorem bumpReg_replicas (o h l n : Nat) (d : Dev) : (bumpReg o h l n d).replicas = d.replicas := rfl

/-- Counting look-ups changes neither memory nor replicas. -/
theorem lookUpsCounted_frame (t n hot replica : Nat) (d : Dev) :
    (lookUpsCounted t n hot replica d).mem = d.mem ∧ (lookUpsCounted t n hot replica d).replicas = d.replicas := by
  simp [lookUpsCounted]

/-- A hot copy answers its look-up without a read (R293 step 1). -/
theorem lookRows_of_hot {b : Bound} {k row : Nat} {d : Dev} {h : HotCopy} (hcopy : hotCopy d b.table k row = some h) (q : QCmd)
    (elems : Nat) :
    lookRows q b elems true [(k, row)] d = (some [.have_ h.cls h.body], lookUpsCounted b.table 1 1 0 d) := by
  simp only [lookRows, List.map_cons, List.map_nil, if_true, hcopy, List.zip_cons_cons, List.zip_nil_right, Option.isSome_some,
    Option.isSome_some, true_or, fetch_of_empty, List.mem_singleton, forall_eq, lookSpan]
  rfl

section Resolve
variable {d : Dev} {b : Bound} {elems k row : Nat} {ps : List Part} (hok : firstBad ps = stOk)
  (hrsv : (parseRow (spanBytes ps)).rsv = 0) (hfits : bodyFits elems b.bodyRegions (parseRow (spanBytes ps)) = true)
include hok hrsv hfits

/-- A row with REPLICA set is answered by a filled replica of its descriptor's version (R293 step 3). -/
theorem resolveRow_of_replica {x : Replica} (hrep : (parseRow (spanBytes ps)).replica = true)
    (hx : replicaOf d b.table k row (parseRow (spanBytes ps)).version = some x) :
    resolveRow d b elems k row ps = .have_ x.cls x.body := by
  simp [resolveRow, hok, hrsv, hfits, hrep, hx]

/-- Without REPLICA, or without such a replica, the body is read (R293 step 4). -/
theorem resolveRow_of_body
    (hnone : (parseRow (spanBytes ps)).replica = false ∨ replicaOf d b.table k row (parseRow (spanBytes ps)).version = none) :
    resolveRow d b elems k row ps = .body (parseRow (spanBytes ps)) := by
  rcases hnone with hrep | hx
  · simp [resolveRow, hok, hrsv, hfits, hrep]
  · simp [resolveRow, hok, hrsv, hfits, hx]

end Resolve

/-! ### POOL -/

theorem poolBody_of_passes {q : QCmd} {d : Dev} (h : poolCheck d q = none) : poolBody q d = poolRun q d := by
  simp only [poolBody, h]

/-- What a POOL reads first: its list, where that is not inline (R295). -/
def poolListSpan (c : Cmd) : Span := if bitAt (pNat c 2 1) 0 then (0, 0, 0) else (pNat c 12 8, poolList c, pNat c 20 5)

/-- A POOL's list as bytes: inline in its command, or as it was read. -/
def poolListBytes (c : Cmd) (x : List (List Part)) : List Byte :=
  if bitAt (pNat c 2 1) 0 then slice c.params 48 (poolList c) else spanBytes (x.getD 0 [])

/-- The lengths of a POOL's bags. -/
def poolLens (c : Cmd) (x : List (List Part)) : List Nat := (List.range (pNat c 4 2)).map fun i => fieldLe (poolListBytes c x) (2 * i) 2

/-- The rows of a POOL's bags. -/
def poolRows (c : Cmd) (x : List (List Part)) : List Nat :=
  (List.range (pNat c 8 4)).map fun i => fieldLe (poolListBytes c x) (4 * ceilDiv (pNat c 4 2) 2 + 4 * i) 4

/-- The weights of a POOL's rows: 1 where it gives none. -/
def poolWeights (c : Cmd) (x : List (List Part)) : List Nat :=
  (List.range (pNat c 8 4)).map fun i =>
    if bitAt (pNat c 2 1) 1 then fieldLe (poolListBytes c x) (4 * ceilDiv (pNat c 4 2) 2 + 4 * pNat c 8 4 + 4 * i) 4 else 0x3F800000

section Run
variable {q : QCmd} {d e : Dev}

/-- A POOL that cannot read its list now has parked. -/
theorem poolRun_of_unread (h : fetch q [poolListSpan q.cmd] (bindTable q (pNat q.cmd 0 1) d).2 = (none, e)) : poolRun q d = e := by
  unfold poolListSpan at h
  simp only [poolRun, h]

variable {x : List (List Part)} (h : fetch q [poolListSpan q.cmd] (bindTable q (pNat q.cmd 0 1) d).2 = (some x, e))
include h

theorem poolRun_of_list_bad (hbad : spansBad x ≠ stOk) : poolRun q d = completeSt q (spansBad x) e := by
  unfold poolListSpan at h
  simp only [poolRun, h, if_pos hbad]

/-- What a POOL does with a list it has read: it judges its bags before it looks a row up (R296). -/
theorem poolRun_of_list (hok : spansBad x = stOk) : poolRun q d =
    if (poolLens q.cmd x).any (4096 < ·) then completeSt q stBadLength e
    else if (poolLens q.cmd x).sum ≠ pNat q.cmd 8 4 then completeSt q stBadField e
    else poolOut q (bindTable q (pNat q.cmd 0 1) d).1 (poolLens q.cmd x) (poolRows q.cmd x) (poolWeights q.cmd x) e := by
  unfold poolListSpan at h
  simp only [poolRun, h, hok, ne_eq, not_true, if_false]
  rfl

end Run

/-- The weighted values of the one bag of a POOL, from the look-ups of its rows. -/
def bagRows (elems n : Nat) (wts : List Nat) (looks : List Look) : List (BitVec 32 × List (BitVec 32)) :=
  ((wts.take n).map (BitVec.ofNat 32 ·)).zip (looks.map (lookValues elems))

/-- The output of a POOL's one bag (R297, R298): its weighted sum in the output format, or zeros where a look-up has failed. -/
def bagData (n0 elems n fmt : Nat) (wts : List Nat) (looks : List Look) : List Byte :=
  if bagStatus looks = stOk then encodeArray fmt ((bagSum n0 elems (bagRows elems n wts looks)).map f32Val)
  else zeros (elems * (elemBits fmt / 8))

/-- The rows of one bag in the cluster drawn for it. -/
def oneBagLooks (q : QCmd) (idx : List Nat) (d : Dev) : List (Nat × Nat) :=
  let ks := crewClusters d q.cmd.crew
  idx.map fun r => (ks.getD (Config.freeNat (d.draws + 0) % max 1 ks.length) 0, r)

/-- A POOL of one bag that needs no release line writes the bag's output and completes with the counts of bags done and failed. -/
theorem poolOut_of_one_bag {q : QCmd} {b : Bound} {idx wts : List Nat} {n : Nat} {looks : List Look} {d e : Dev}
    (hrel : bitAt (pNat q.cmd 2 1) 2 = false) (hidx : idx.length = n)
    (hlook : lookRows q b (tableOf d b.table).elems true (oneBagLooks q idx d) { d with draws := d.draws + 1 } = (some looks, e))
    (hlen : looks.length = n) : poolOut q b [n] idx wts d =
      let elems := (tableOf d b.table).elems
      writeOut q (pNat q.cmd 28 8) (pNat q.cmd 36 5) (bagData e.draws elems n (pNat q.cmd 3 1) wts looks) (bagStatus looks)
        [if bagStatus looks = stOk then 1 else 0, if bagStatus looks = stOk then 0 else 1, 0] { e with draws := e.draws + 1 * elems } := by
  have hrows : idx.take n = idx := List.take_of_length_le hidx.le
  have hlooks : looks.take n = looks := List.take_of_length_le hlen.le
  have hstarts : (bagStarts [n]).getD 0 0 = 0 := rfl
  unfold oneBagLooks at hlook
  dsimp only at hlook
  simp only [poolOut, List.length_singleton, List.range_one, List.flatMap_cons, List.flatMap_nil, List.append_nil, hstarts,
    List.getD_cons_zero, List.drop_zero, hrows, hlook, hlooks, hrel, Bool.false_eq_true, if_false, List.map_cons, List.map_nil]
  by_cases hst : bagStatus looks = stOk
  · simp [hst, bagData, bagRows]
  · simp [hst, bagData]

end Sys2Proof.Machine
end

section
/-! HOTSET_LOAD and ROW_REPLICATE (R299 to R301), and the statement with POOL (O43). -/

namespace Sys2Proof.Machine

/-! ### Hot sets dropped -/

/-- The hot sets of a table dropped in several clusters. -/
def dropHots (t : Nat) (ks : List Nat) (d : Dev) : Dev := ks.foldl (fun d k => dropHot t k d) d

theorem mem_hotOn_dropHots {t : Nat} {ks : List Nat} {d : Dev} {x : Nat × Nat} :
    x ∈ (dropHots t ks d).hotOn ↔ x ∈ d.hotOn ∧ ¬(x.1 = t ∧ x.2 ∈ ks) := by
  induction ks generalizing d with
  | nil => simp [dropHots]
  | cons k ks ih =>
    have hstep : x ∈ (dropHot t k d).hotOn ↔ x ∈ d.hotOn ∧ ¬(x.1 = t ∧ x.2 = k) := by simp [dropHot, Prod.ext_iff]
    exact ih.trans (by rw [hstep, List.mem_cons]; tauto)

theorem mem_hot_dropHots {t : Nat} {ks : List Nat} {d : Dev} {h : HotCopy} :
    h ∈ (dropHots t ks d).hot ↔ h ∈ d.hot ∧ ¬(h.table = t ∧ h.cluster ∈ ks) := by
  induction ks generalizing d with
  | nil => simp [dropHots]
  | cons k ks ih =>
    have hstep : h ∈ (dropHot t k d).hot ↔ h ∈ d.hot ∧ ¬(h.table = t ∧ h.cluster = k) := by simp [dropHot, imp_iff_not_or]
    exact ih.trans (by rw [hstep, List.mem_cons]; tauto)

theorem mem_maskBits {n mask k : Nat} : k ∈ maskBits n mask ↔ k < n ∧ bitAt mask k = true := by
  simp [maskBits]

theorem hotsetBody_of_drop {q : QCmd} {d : Dev} (hop : pNat q.cmd 2 1 = 1) (h : hotsetCheck d q = none) :
    hotsetBody q d = completeSt q stOk (dropHots (pNat q.cmd 0 1) (maskBits 16 (pNat q.cmd 4 2)) d) := by
  simp only [hotsetBody, h, hop, Nat.one_ne_zero, if_false]
  rfl

/-! ### Hot sets loaded -/

/-- Bytes of the body that a look-up gives. -/
def lookSize (x : Look) : Nat := match x with
  | .have_ _ body => body.length
  | _ => 0

/-- The hot copy of a row as looked up for a cluster. -/
def hotCopyOf (t k : Nat) (x : Nat × Look) : HotCopy := match x.2 with
  | .have_ cls body => { table := t, cluster := k, row := x.1, cls, body }
  | _ => {}

/-- The rows taken put into the hot area of a cluster, and its hot set enabled (R299). -/
def fillHot (q : QCmd) (taken : List (Nat × Look)) (d : Dev) (k : Nat) : Dev :=
  let core := (lowCore d q.cmd.crew k).getD 0
  let (free, e) := drawBytes (pNat q.cmd 16 4) d
  spadWrite core ((windowOf e q.cmd.crew core).1 + pNat q.cmd 12 4) free
    { e with hot := e.hot ++ taken.map (hotCopyOf (pNat q.cmd 0 1) k), hotOn := e.hotOn ++ [(pNat q.cmd 0 1, k)] }

/-- Filling hot areas enables each of them, and changes neither memory nor replicas. -/
theorem fillHots_frame (q : QCmd) (taken : List (Nat × Look)) (ks : List Nat) (d : Dev) :
    let e := ks.foldl (fillHot q taken) d
    e.hotOn = d.hotOn ++ ks.map (fun k => (pNat q.cmd 0 1, k)) ∧ e.mem = d.mem ∧ e.replicas = d.replicas := by
  refine ⟨?_, view_foldl Dev.mem (f := fillHot q taken) (fun _ _ => rfl) ks d,
    view_foldl Dev.replicas (f := fillHot q taken) (fun _ _ => rfl) ks d⟩
  induction ks generalizing d with
  | nil => simp
  | cons k ks ih =>
    have hstep : (fillHot q taken d k).hotOn = d.hotOn ++ [(pNat q.cmd 0 1, k)] := rfl
    rw [List.foldl_cons, ih, hstep, List.append_assoc, List.map_cons, List.singleton_append]

/-- The version that a HOTSET_LOAD binds once the hot sets it names are dropped, and the device so reached. -/
def hotsetBound (q : QCmd) (d : Dev) : Bound × Dev :=
  bindTable q (pNat q.cmd 0 1) (dropHots (pNat q.cmd 0 1) (maskBits 16 (pNat q.cmd 4 2)) d)

/-- The rows that a HOTSET_LOAD lists, those past the table's end left out (R299). -/
def hotsetRows (q : QCmd) (rows : Nat) (l : List (List Part)) : List Nat :=
  ((List.range (pNat q.cmd 8 4)).map fun i => fieldLe (spanBytes (l.getD 0 [])) (4 * i) 4).filter (· < rows)

theorem hotsetBody_of_load {q : QCmd} {d : Dev} (hop : pNat q.cmd 2 1 = 0) (h : hotsetCheck d q = none) :
    hotsetBody q d = hotsetLoadRun q d := by
  simp only [hotsetBody, h, hop, if_true]

/-- A HOTSET_LOAD whose rows were looked up takes those that fit: a failed look-up among them ends it, else each named cluster's hot
area is filled with them (R299). -/
theorem hotsetLoadRun_of_looked {q : QCmd} {d e f : Dev} {l : List (List Part)} {looks : List Look}
    (hread : fetch q [(pNat q.cmd 20 8, 4 * pNat q.cmd 8 4, pNat q.cmd 28 5)] (hotsetBound q d).2 = (some l, e))
    (hok : spansBad l = stOk)
    (hlook : lookRows q (hotsetBound q d).1 (tableOf (hotsetBound q d).2 (pNat q.cmd 0 1)).elems false
      ((hotsetRows q (hotsetBound q d).1.rows l).map fun r => ((maskBits 16 (pNat q.cmd 4 2)).headD 0, r)) e = (some looks, f)) :
    hotsetLoadRun q d =
      let m := hotFit (pNat q.cmd 16 4 - 4096) (looks.map lookSize)
      let taken := ((hotsetRows q (hotsetBound q d).1.rows l).zip looks).take m
      if bagStatus (taken.map (·.2)) ≠ stOk then completeSt q (bagStatus (taken.map (·.2))) f
      else complete q stOk [m, pNat q.cmd 8 4 - m] [] ((maskBits 16 (pNat q.cmd 4 2)).foldl (fillHot q taken) f) := by
  unfold hotsetBound dropHots at hread hlook
  unfold hotsetRows at hlook
  simp only [hotsetLoadRun, hread, hok, hlook, ne_eq, not_true, if_false]
  rfl

/-! ### Replicas -/

theorem rowReplicateBody_of_passes {q : QCmd} {d : Dev} (h : rowReplicateCheck d q = none) :
    rowReplicateBody q d = rowReplicateRun q d := by
  simp only [rowReplicateBody, h]

/-- The descriptor of the row that a ROW_REPLICATE names. -/
def replicateSpan (q : QCmd) (d : Dev) : Span := descSpan d (tableOf d (pNat q.cmd 0 1)).descs (pNat q.cmd 4 4)

/-- The descriptor of that row, as read. -/
def replicatedRow (l : List (List Part)) : RowDesc := parseRow (spanBytes (l.getD 0 []))

/-- The range of the row's body, under its region's key in a device. -/
def replicatedBody (q : QCmd) (d e : Dev) (r : RowDesc) : Span :=
  let x := tableOf d (pNat q.cmd 0 1)
  (x.body + r.offset * 16, bodyBytes r.cls x.elems, devKey e (x.body + r.offset * 16))

/-- Bytes of replica store that a copy of the row takes in a cluster (R301). -/
def replicaSize (q : QCmd) (d : Dev) (r : RowDesc) : Nat := ceilDiv (bodyBytes r.cls (tableOf d (pNat q.cmd 0 1)).elems) 256 * 256

/-- The device once the row has no replica. -/
def unreplicated (q : QCmd) (d : Dev) : Dev := freeReplicas (pNat q.cmd 0 1) (pNat q.cmd 4 4) d

/-- The row's replica in a cluster, filled with its body. -/
def filledReplica (q : QCmd) (d : Dev) (r : RowDesc) (body : List Byte) (k : Nat) : Replica :=
  { table := pNat q.cmd 0 1, cluster := k, row := pNat q.cmd 4 4, size := replicaSize q d r, version := r.version, cls := r.cls
    filled := true, body }

/-- The device with a replica entered in each cluster of the crew. -/
def replicasFilled (q : QCmd) (new : Nat → Replica) (d : Dev) : Dev :=
  { d with replicas := d.replicas ++ (crewClusters d q.cmd.crew).map new }

section Replicate
variable {q : QCmd} {d e : Dev} {l : List (List Part)} (hread : fetch q [replicateSpan q d] d = (some l, e)) (hok : spansBad l = stOk)
include hread hok

/-- A CLEAR frees the row's replicas and clears REPLICA at home (R301). -/
theorem rowReplicateRun_of_clear (hop : pNat q.cmd 2 1 = 1) (hdir : e.dir = []) : rowReplicateRun q d =
    writeOut q (replicateSpan q d).1 (replicateSpan q d).2.2
      ({ replicatedRow l with replica := false } : RowDesc).bytes stOk [] (unreplicated q e) := by
  unfold replicateSpan at hread ⊢
  simp only [rowReplicateRun, hread, hok, hop, claim_of_no_dir hdir, ne_eq, not_true, Bool.not_true, Bool.false_eq_true,
    if_false, if_true]
  rfl

/-- A SET whose row's body was read and for whose copies every cluster of the crew has room puts one in each, and sets REPLICA at home
(R301). -/
theorem rowReplicateRun_of_set {f g : Dev} {l2 : List (List Part)} {r : RowDesc} (hr : replicatedRow l = r) (hg : unreplicated q f = g)
    (hop : pNat q.cmd 2 1 = 0) (hrsv : r.rsv = 0)
    (hfits : bodyFits (tableOf d (pNat q.cmd 0 1)).elems (tableOf d (pNat q.cmd 0 1)).bodyRegions r = true)
    (hbody : fetch q [replicatedBody q d e r] e = (some l2, f)) (hok2 : spansBad l2 = stOk) (hdir : f.dir = [])
    (hroom : ∀ k ∈ crewClusters g q.cmd.crew,
      replicaUsed g q.cmd.crew k + replicaSize q d r ≤ replicaRoom g q.cmd.crew k) : rowReplicateRun q d =
        writeOut q (replicateSpan q d).1 (replicateSpan q d).2.2 ({ r with replica := true } : RowDesc).bytes stOk []
          (replicasFilled q (filledReplica q d r (spanBytes (l2.getD 0 []))) g) := by
  subst hr hg
  have hall : ((crewClusters (unreplicated q f) q.cmd.crew).any fun k => decide (replicaRoom (unreplicated q f) q.cmd.crew k
      < replicaUsed (unreplicated q f) q.cmd.crew k + replicaSize q d (replicatedRow l))) = false := by
    simpa using hroom
  unfold unreplicated replicaSize replicatedRow at hall
  unfold replicateSpan at hread ⊢
  unfold replicatedBody at hbody
  unfold replicatedRow at hrsv hfits hbody ⊢
  simp only [rowReplicateRun, hread, hok, hop, hrsv, hfits, hbody, hok2, claim_of_no_dir hdir, hall, ne_eq, not_true, Bool.not_true,
    Bool.false_eq_true, or_self, Nat.zero_ne_one, if_false]
  rfl

end Replicate

/-- Settles O43: a POOL by its list and its one bag, a look-up by the hot copy, the replica or the body that answers it, and HOTSET_LOAD
and ROW_REPLICATE by their bodies where the checks pass. -/
theorem poolsHotSetsAndReplicas : Obligations.PoolsHotSetsAndReplicas := by
  unfold Obligations.PoolsHotSetsAndReplicas
  refine ⟨fun c s q t hb hpass => ?_, fun q t d hfresh => ?_, fun q b idx wts n looks d e hrel hidx => ?_,
    fun q b elems k row d h hcopy => ?_, fun d b elems k row ps hok => ?_,
    fun c s q t hb hop hpass => ?_, fun c s q t l e looks f hb hop hpass => ?_,
    fun c s q t l e hb hop hpass => ?_, fun c s q t l e l2 f hb hop hpass => ?_⟩
  · refine ⟨_, next_ends_of_begins hb (poolBody_of_passes hpass), fun l e hread => ⟨?_, ?_⟩⟩
    · rintro rfl
      exact poolRun_of_unread hread
    · rintro x rfl
      refine ⟨poolRun_of_list_bad hread, fun hok => ?_⟩
      rw [poolRun_of_list hread hok]
      exact ⟨fun hlong => if_pos hlong, fun hshort hsum => (if_neg (Bool.eq_false_iff.mp hshort)).trans (if_pos hsum),
        fun hshort hsum => (if_neg (Bool.eq_false_iff.mp hshort)).trans (if_neg (not_not.mpr hsum))⟩
  · exact ⟨congrArg Prod.fst (bindTable_of_fresh hfresh t), bindTable_again hfresh t⟩
  · intro elems ks hlook hlen st ok
    refine ⟨{ e with draws := e.draws + 1 * elems }, rfl, rfl, ?_⟩
    rw [poolOut_of_one_bag hrel hidx hlook hlen]
    simp only [bagData, bagRows, ok, st, elems, decide_eq_true_eq]
  · exact ⟨_, lookRows_of_hot hcopy q elems, lookUpsCounted_frame ..⟩
  · intro r hrsv hfits
    exact ⟨fun x => resolveRow_of_replica hok hrsv hfits, resolveRow_of_body hok hrsv hfits⟩
  · refine ⟨next_ends_of_begins hb (hotsetBody_of_drop hop hpass), fun k hk hbit => ⟨fun hon => ?_, fun h hh hat => ?_⟩⟩
    · exact (mem_hotOn_dropHots.mp hon).2 ⟨rfl, mem_maskBits.mpr ⟨hk, hbit⟩⟩
    · obtain ⟨htable, rfl⟩ := hat
      exact (mem_hot_dropHots.mp hh).2 ⟨htable, mem_maskBits.mpr ⟨hk, hbit⟩⟩
  · intro p tb ks n b hread hok rows hlook sizes m st
    have hrow := (hotsetBody_of_load hop hpass).trans (hotsetLoadRun_of_looked (d := t.dev) hread hok hlook)
    refine ⟨fun hbad => next_ends_of_begins hb (hrow.trans (if_pos hbad)), fun hgood => ?_⟩
    obtain ⟨hon, hmem, hreps⟩ := fillHots_frame q ((rows.zip looks).take m) ks f
    exact ⟨_, next_ends_of_begins hb (hrow.trans (if_neg (not_not.mpr hgood))), hon, hmem, hreps⟩
  · intro x ds hread hok hdir
    exact next_ends_of_begins hb ((rowReplicateBody_of_passes hpass).trans (rowReplicateRun_of_clear hread hok hop hdir))
  · intro tb row x ds hread hok r a hrsv hfits hbody hok2 hdir g size ks hroom
    exact next_ends_of_begins hb ((rowReplicateBody_of_passes hpass).trans
      (rowReplicateRun_of_set hread hok rfl rfl hop hrsv hfits hbody hok2 hdir hroom))

end Sys2Proof.Machine
end

section
/-! Row publications and TABLE_SWITCH (O44). -/

namespace Sys2Proof.Machine

/-! ### Row-move slots -/

theorem mem_keys_of_tGet? {α : Type} {t : Tbl α} {k : Nat} (h : tGet? t k ≠ none) : k ∈ t.map Prod.fst := by
  induction t with
  | nil => exact absurd rfl h
  | cons p t ih =>
    by_cases hk : k = p.1
    · simp [hk]
    · exact List.mem_cons_of_mem _ (ih (by simpa only [tGet?, hk, if_false] using h))

/-- A table of fewer entries than n lacks a key below n. -/
theorem exists_free_key {α : Type} {t : Tbl α} {n : Nat} (h : t.length < n) : ∃ k < n, tGet? t k = none := by
  by_contra hfull
  push Not at hfull
  have hsub : List.range n ⊆ t.map Prod.fst := fun k hk => mem_keys_of_tGet? (hfull k (List.mem_range.mp hk))
  have hle := (List.nodup_range.subperm hsub).length_le
  rw [List.length_range, List.length_map] at hle
  omega

/-- The lowest free row-move slot. -/
def freeMove (d : Dev) : Nat := ((List.range 1024).find? fun i => (tGet? d.moves i).isNone).getD 0

/-- While fewer than 1,024 slots are held, that slot is free and every lower one is held. -/
theorem freeMove_spec {d : Dev} (h : d.moves.length < 1024) :
    tGet? d.moves (freeMove d) = none ∧ ∀ n, n < freeMove d → tGet? d.moves n ≠ none := by
  obtain ⟨k, hk, hfree⟩ := exists_free_key h
  obtain ⟨i, hi⟩ : ∃ i, (List.range 1024).find? (fun i => (tGet? d.moves i).isNone) = some i :=
    Option.isSome_iff_exists.mp (List.find?_isSome.mpr ⟨k, List.mem_range.mpr hk, by simp [hfree]⟩)
  obtain ⟨hnone, -, hlow⟩ := List.find?_range_eq_some.mp hi
  rw [freeMove, hi]
  exact ⟨Option.isNone_iff_eq_none.mp hnone, fun n hn => by simpa [Option.ne_none_iff_isSome] using hlow n hn⟩

/-- A ROW_PUBLISH passes its checks only while a slot is free (R302). -/
theorem moves_of_rowPublishCheck {q : QCmd} {d : Dev} (h : rowPublishCheck d q = none) : d.moves.length < 1024 := by
  by_contra hfull
  unfold rowPublishCheck at h
  simp only [ge_iff_le, Nat.not_lt.mp hfull, if_true, ite_self] at h
  split at h
  · cases h
  · split at h
    · cases h
    · obtain ⟨-, hrest⟩ := (Option.orElse_eq_none _ _).mp h
      obtain ⟨-, hlast⟩ := (Option.orElse_eq_none _ _).mp hrest
      split at hlast <;> cases hlast

/-! ### ROW_PUBLISH -/

/-- The range of the descriptor that a ROW_PUBLISH reads. -/
def publishSpan (q : QCmd) (d : Dev) : Span := descSpan d (tableOf d (pNat q.cmd 0 1)).descs (pNat q.cmd 8 4)

/-- The row-move slot that a ROW_PUBLISH takes from acceptance on, for a row of a descriptor (R302). -/
def newMove (q : QCmd) (x : EmbTable) (r : RowDesc) : RowMove :=
  { table := pNat q.cmd 0 1, row := pNat q.cmd 8 4, crew := q.cmd.crew, op := pNat q.cmd 2 1, q, oldBody := x.body + r.offset * 16
    oldBytes := bodyBytes r.cls x.elems, newBody := x.body + pNat q.cmd 16 8 * 16 }

/-- Whether a ROW_PUBLISH is refused for its row's present descriptor: its new body leaves the area or meets the old one, or the old one
cannot be read (R302 step 2). -/
def moveBad (q : QCmd) (x : EmbTable) (r : RowDesc) : Bool :=
  let new := x.body + pNat q.cmd 16 8 * 16
  let size := bodyBytes (newClass q.cmd r) x.elems
  decide (x.bodyRegions * 2 ^ 21 < pNat q.cmd 16 8 * 16 + size)
    || bytesMeet new size (x.body + r.offset * 16) (bodyBytes r.cls x.elems)
    || (pNat q.cmd 2 1 != 0 && (r.rsv != 0 || !bodyFits x.elems x.bodyRegions r))

theorem moveBad_iff {q : QCmd} {x : EmbTable} {r : RowDesc} :
    moveBad q x r = true ↔ pNat q.cmd 16 8 * 16 + bodyBytes (newClass q.cmd r) x.elems > x.bodyRegions * 2 ^ 21
      ∨ bytesMeet (x.body + pNat q.cmd 16 8 * 16) (bodyBytes (newClass q.cmd r) x.elems) (x.body + r.offset * 16)
        (bodyBytes r.cls x.elems) = true
      ∨ (pNat q.cmd 2 1 ≠ 0 ∧ (r.rsv ≠ 0 ∨ (!bodyFits x.elems x.bodyRegions r) = true)) := by
  simp [moveBad, or_assoc]

section Publish
variable {q : QCmd} {d e : Dev} {l : List (List Part)} {r : RowDesc} (hnew : moveOf d q = none) (hpass : rowPublishCheck d q = none)
  (hread : fetch q [publishSpan q d] d = (some l, e)) (hok : spansBad l = stOk) (hmoves : e.moves = d.moves)
  (hr : parseRow (spanBytes (l.getD 0 [])) = r)
include hnew hpass hread hok hmoves hr

/-- A ROW_PUBLISH whose row's descriptor was read is judged by it, and takes the lowest free slot (R302). -/
theorem rowPublishBody_of_read : rowPublishBody q d =
    let x := tableOf d (pNat q.cmd 0 1)
    if moveBad q x r = true then completeSt q stBadField e
    else rowPublishRun q (freeMove e) (newMove q x r) r { e with moves := tSet e.moves (freeMove e) (newMove q x r) } := by
  have hnone : moveOf e q = none := by rw [moveOf, hmoves]; exact hnew
  unfold publishSpan at hread
  simp only [rowPublishBody, hnew, Option.isSome_none, Bool.false_eq_true, if_false, hpass, hread, hok, hnone, ne_eq, not_true, hr]
  exact if_congr moveBad_iff.symm rfl rfl

end Publish

section Swap
variable {q : QCmd} {k : Nat} {m : RowMove} {x : EmbTable} {r : RowDesc} {body : List Byte} {d : Dev}

/-- With EXPECT and another version than expected, the swap is refused and the slot freed (R304). -/
theorem rowSwap_of_stale (hexpect : bitAt (pNat q.cmd 3 1) 1 = true) (hv : r.version ≠ pNat q.cmd 6 2) :
    rowSwap q k m x r body d = endMove q stStale d := if_pos ⟨hexpect, hv⟩

/-- The descriptor that a swap writes: of the new body, under the row's next version (Table 10-1). -/
def swappedRow (q : QCmd) (r : RowDesc) : RowDesc :=
  { cls := newClass q.cmd r, replica := r.replica, version := nextRowVersion r.version, rsv := 0, offset := pNat q.cmd 16 8 }

/-- The device with the swap stamped in its slot and the row's hot copies gone (R304). -/
def swapStamped (k : Nat) (m : RowMove) (d : Dev) : Dev :=
  dropHotRow m.table m.row { d with moves := tSet d.moves k { m with swapped := some d.stk.number } }

theorem mem_hot_swapStamped {h : HotCopy} :
    h ∈ (swapStamped k m d).hot ↔ h ∈ d.hot ∧ ¬(h.table = m.table ∧ h.row = m.row) := by
  simp [swapStamped, dropHotRow, imp_iff_not_or]

theorem tGet?_swapStamped : tGet? (swapStamped k m d).moves k = some { m with swapped := some d.stk.number } := tGet?_tSet_self ..

/-- The access of a swap: the new body written and then the descriptor, and the next version with the stroke returned (R304). -/
def swapJob (q : QCmd) (m : RowMove) (r : RowDesc) (body : List Byte) (ds : Span) (d : Dev) : Job :=
  { owner := .command q, crew := q.cmd.crew, requester := unitId (ownModule d) 3, stamp := d.stk.number
    parts := splitParts m.newBody body.length (devKey d m.newBody) .write body
      ++ splitParts ds.1 8 ds.2.2 .write (swappedRow q r).bytes
    goal := .output stOk [nextRowVersion r.version, d.stk.number % 2 ^ 32] }

/-- A swap that is not stale is one access, where no agent holds a line (R304). -/
theorem rowSwap_of_current (hcur : bitAt (pNat q.cmd 3 1) 1 = false ∨ r.version = pNat q.cmd 6 2) (hdir : d.dir = []) :
    rowSwap q k m x r body d =
      let (i, u) := freshId (swapStamped k m d)
      runJob i (setJob i (swapJob q m r body (descSpan d x.descs m.row) u) u) := by
  have hfresh : ¬(bitAt (pNat q.cmd 3 1) 1 = true ∧ r.version ≠ pNat q.cmd 6 2) := by
    rcases hcur with h | h <;> simp [h]
  simp only [rowSwap, hfresh, if_false, claim_of_no_dir hdir, Bool.not_true, Bool.false_eq_true]
  rfl

end Swap

section Fence
variable {slot k : Nat} {m : RowMove} {d : Dev} (hslot : tGet? d.moves slot = some m) (hk : m.swapped = some k)
include hslot hk

/-- A slot whose fence has not lasted the request timeout stays (R304). -/
theorem rowFenceEnd_of_early (h : d.stk.number < k + reqTimeout d) : rowFenceEnd slot d = d := by
  simp only [rowFenceEnd, hslot, hk, if_pos h]

theorem rowFenceEnd_of_past (h : k + reqTimeout d ≤ d.stk.number) : rowFenceEnd slot d = { d with moves := tDel d.moves slot } := by
  simp only [rowFenceEnd, hslot, hk, if_neg (Nat.not_lt.mpr h)]

end Fence

/-! ### TABLE_SWITCH -/

theorem tableSwitchBody_of_passes {q : QCmd} {d : Dev} {op : Nat} (hop : pNat q.cmd 0 1 = op) (h : tableSwitchCheck d q = none) :
    tableSwitchBody q d =
      let t := pNat q.cmd 1 1
      if op = 0 then startOp q { first := (freeTable d).getD 0 } d
      else startOp q { first := t } (if op = 1 then setTable t { tableOf d t with state := 2 } d else d) := by
  simp only [tableSwitchBody, h, hop]

@[simp] theorem tableOf_setTable_self (t : Nat) (x : EmbTable) (d : Dev) : tableOf (setTable t x d) t = x := by
  simp [tableOf, setTable]

theorem tableOf_setTable_ne {t k : Nat} (h : k ≠ t) (x : EmbTable) (d : Dev) : tableOf (setTable t x d) k = tableOf d k := by
  simp [tableOf, setTable, tGet?_tSet_ne _ _ h]

/-- The record of a table once its TABLE_SWITCH has ended: absent at a bumped generation after DELETE, else serving (R308). -/
def drainedTable (l : LongOp) (x : EmbTable) : EmbTable :=
  if pNat l.q.cmd 0 1 = 2 then { gen := nextGen8 x.gen } else { x with state := 1 }

/-- The device with that record entered, and DELETE logged. -/
def tableDrained (l : LongOp) (d : Dev) : Dev :=
  let x := tableOf d l.first
  let e := setTable l.first (drainedTable l x) d
  if pNat l.q.cmd 0 1 = 2 then logCmd l.q x.crew 9 (l.first + nextGen8 x.gen * 256) x.gen (nextGen8 x.gen) e else e

section Drained
variable (l : LongOp) (d : Dev)

/-- That changes the table's record and the change log alone. -/
theorem tableDrained_eq : tableDrained l d =
    { setTable l.first (drainedTable l (tableOf d l.first)) d with log := (tableDrained l d).log } := by
  unfold tableDrained
  dsimp only
  split
  · exact logCmd_eq ..
  · rfl

end Drained

/-- An operation whose table still has an earlier version bound waits (R308 step 4). -/
theorem tableDrainEnd_of_bound {i : Nat} {d : Dev} (h : oldBound d (opOf d i).first = true) : tableDrainEnd i d = d := by
  simp only [tableDrainEnd, h, or_true, if_true]

/-- Without one it ends with its table's record entered (R308 step 4). -/
theorem tableDrainEnd_of_free {i : Nat} {d : Dev} (hlive : (opOf d i).state ≠ 5) (hop : (opOf d i).opcode = 0x405)
    (hcom : (opOf d i).committed = true) (h : oldBound d (opOf d i).first = false) : tableDrainEnd i d =
    endOp i stOk (tableWords 0 (opOf d i).first d) (tableDrained (opOf d i) d) := by
  simp only [tableDrainEnd, hlive, hop, hcom, h, tableDrained, drainedTable]
  by_cases hdel : pNat (opOf d i).q.cmd 0 1 = 2 <;> simp [hdel]

/-- Settles O44: a ROW_PUBLISH by what its descriptor allows and the slot free for it, a swap by whether it is stale, a fence by its
stroke, and TABLE_SWITCH by its start and by what is still bound at its end. -/
theorem rowPublicationsAndTables : Obligations.RowPublicationsAndTables := by
  unfold Obligations.RowPublicationsAndTables
  refine ⟨fun op i c s q t l e hi hb hnew hpass => ?_, fun q k m x r body d hexpect hv => rowSwap_of_stale hexpect hv,
    fun q k m x r body d hcur hdir => ?_, fun slot m k s hslot hk => ⟨fun h => ?_, fun h => ?_⟩,
    fun op i c s q t hi hb hop hpass => ?_, fun i s hlive hop hcom => ⟨fun h => ?_, fun h => ?_⟩⟩
  · intro p x hread hok hmoves r old new size m bad
    have hbody := rowPublishBody_of_read hnew hpass hread hok hmoves rfl
    have hrow {d : Dev} (hd : rowPublishBody q t.dev = d) : exec (i c) s = .next (ends d t) := by
      rcases hi with ⟨rfl, rfl⟩ | ⟨rfl, rfl⟩ | ⟨rfl, rfl⟩ <;> exact next_ends_of_begins hb hd
    refine ⟨fun hbad => hrow (hbody.trans (if_pos hbad)), fun hgood => ?_⟩
    obtain ⟨hfree, hlow⟩ := freeMove_spec (hmoves ▸ moves_of_rowPublishCheck hpass)
    exact ⟨freeMove e, hfree, hlow, hrow (hbody.trans (if_neg (Bool.eq_false_iff.mp hgood)))⟩
  · exact ⟨_, _, _, rowSwap_of_current hcur hdir, rfl, tGet?_swapStamped, fun h => mem_hot_swapStamped, rfl, rfl, _, rfl⟩
  · exact next_onDev (rowFenceEnd_of_early hslot hk h)
  · exact next_onDev (rowFenceEnd_of_past hslot hk h)
  · have hbody := tableSwitchBody_of_passes hop hpass
    rcases hi with ⟨rfl, rfl⟩ | ⟨rfl, rfl⟩ | ⟨rfl, rfl⟩ <;> exact next_ends_of_begins hb hbody
  · exact next_onDev (tableDrainEnd_of_bound h)
  · have heq := tableDrained_eq (opOf s.dev i) s.dev
    refine ⟨tableDrained (opOf s.dev i) s.dev, next_onDev (tableDrainEnd_of_free hlive hop hcom h), ?_, ?_, fun k hne => ?_, ?_⟩
    · rw [heq]; rfl
    · rw [heq]; rfl
    · rw [heq]; exact tableOf_setTable_ne hne ..
    · rw [heq]; exact tableOf_setTable_self ..

end Sys2Proof.Machine
end

section
/-! The interrupt controller: what is selected, claimed and completed, and what a source's events leave (R422 to R426). -/

namespace Sys2Proof.Machine

/-! ### Selection -/

/-- A source that a target can claim is not in service and is routed to it (R423). -/
theorem claimable_iff {d : Dev} {t n : Nat} : claimable d t n = true ↔
    srcReserved n = false ∧ (srcOf d n).target = t ∧ ((srcOf d n).en = true ∨ (srcOf d n).once = true)
      ∧ (srcOf d n).pending = true ∧ (srcOf d n).active = false := by
  simp only [claimable, Bool.and_eq_true, Bool.not_eq_true', beq_iff_eq, Bool.or_eq_true, and_assoc]

/-- The sources among which the controller selects for a target: its own 32 and the shared ones (Tables 15-2, 15-3). -/
theorem mem_candidates {t k : Nat} (h : (32 * t ≤ k ∧ k < 32 * t + 32) ∨ (832 ≤ k ∧ k < 1024)) :
    k ∈ ((List.range 32).map (32 * t + ·)) ++ (List.range 192).map (832 + ·) := by
  simp only [List.mem_append, List.mem_map, List.mem_range]
  rcases h with h | h
  · exact .inl ⟨k - 32 * t, by omega, by omega⟩
  · exact .inr ⟨k - 832, by omega, by omega⟩

/-- A candidate's number is below 1,024 for each of the 26 targets. -/
theorem lt_of_mem_candidates {t k : Nat} (ht : t < 26)
    (h : k ∈ ((List.range 32).map (32 * t + ·)) ++ (List.range 192).map (832 + ·)) : k < 1024 := by
  simp only [List.mem_append, List.mem_map, List.mem_range] at h
  rcases h with ⟨i, hi, rfl⟩ | ⟨i, hi, rfl⟩ <;> omega

/-- The selected source is claimable, and no claimable candidate comes before it in the controller's order (R423). -/
theorem selected_spec {d : Dev} {t n : Nat} (h : selected d t = some n) :
    n ∈ ((List.range 32).map (32 * t + ·)) ++ (List.range 192).map (832 + ·) ∧ claimable d t n = true
      ∧ ∀ k ∈ ((List.range 32).map (32 * t + ·)) ++ (List.range 192).map (832 + ·), claimable d t k = true →
          (7 - (srcOf d n).prio) * 1024 + n ≤ (7 - (srcOf d k).prio) * 1024 + k := by
  obtain ⟨hmem, hmin⟩ := leastBy_spec h
  obtain ⟨hcand, hclaim⟩ := List.mem_filter.mp hmem
  exact ⟨hcand, hclaim, fun k hk hc => hmin k (List.mem_filter.mpr ⟨hk, hc⟩)⟩

/-- Where a candidate can be claimed, one is selected (R423). -/
theorem selected_isSome {d : Dev} {t k : Nat} (hk : (32 * t ≤ k ∧ k < 32 * t + 32) ∨ (832 ≤ k ∧ k < 1024))
    (hc : claimable d t k = true) : (selected d t).isSome = true := by
  cases h : selected d t with
  | some n => rfl
  | none =>
    have hmem := List.mem_filter.mpr ⟨mem_candidates hk, hc⟩
    rw [leastBy_eq_none h] at hmem
    cases hmem

/-- Settles O21: the selection is the least by the key that PRIO and the number make. -/
theorem selectionByPriority : Obligations.SelectionByPriority := by
  unfold Obligations.SelectionByPriority
  refine ⟨fun d t n ht h => ?_, fun d t k hk hc => selected_isSome hk hc⟩
  obtain ⟨hcand, hclaim, hmin⟩ := selected_spec h
  refine ⟨hclaim, fun k hk hc hne hpk hpn => ?_⟩
  have hle := hmin k (mem_candidates hk) hc
  have hn := lt_of_mem_candidates ht hcand
  have hk' := lt_of_mem_candidates ht (mem_candidates hk)
  omega

/-! ### Claim and complete -/

/-- A ring is not served in native mode (R428). -/
theorem ringPump_of_native {d : Dev} {t : Nat} (h : (tgtOf d t).ring = false) (k : Nat) : ringPump t k d = d := by
  cases k with
  | zero => rfl
  | succ k => exact if_pos (Or.inl (by rw [h]; rfl))

/-- Of a source whose target is in native mode nothing waits for a ring (R428). -/
theorem pumpFor_of_native {d : Dev} {n : Nat} (h : (tgtOf d (srcOf d n).target).ring = false) : pumpFor n d = d :=
  ringPump_of_native h 256

/-- A claim in native mode takes the selected source (R424). -/
theorem claimSource_of_selected {d : Dev} {t n : Nat} (hr : (tgtOf d t).ring = false) (hs : selected d t = some n) :
    claimSource t d = takeSrc n (setTgt t { tgtOf d t with claims := ((tgtOf d t).claims + 1) % 2 ^ 32 } d) := by
  simp only [claimSource, hr, hs, Bool.false_eq_true, if_false]

theorem claimSource_of_none {d : Dev} {t : Nat} (hr : (tgtOf d t).ring = false) (hs : selected d t = none) : claimSource t d = d := by
  simp only [claimSource, hr, hs, Bool.false_eq_true, if_false]

/-- What a claim in native mode reads (R424). -/
theorem claimValue_of_native {d : Dev} {t : Nat} (hr : (tgtOf d t).ring = false) :
    claimValue d t = ((selected d t).map (2 ^ 15 + ·)).getD 0 := by
  simp only [claimValue, hr, Bool.false_eq_true, if_false]
  cases selected d t <;> rfl

/-- Settles O20: claims by the selection, completions by whether the source is one in service of the target. -/
theorem claimAndComplete : Obligations.ClaimAndComplete := by
  unfold Obligations.ClaimAndComplete
  refine ⟨fun t n s ht hr hs => ⟨?_, ?_⟩, fun t s ht hr hs => ⟨?_, ?_⟩, fun d t n hs => ?_, fun t n s ht hn ha htgt => ?_,
    fun t n s ht hn hnot => ?_⟩
  · rw [claimValue_of_native hr, hs]; rfl
  · refine ⟨_, next_onDev (if_pos ht), ?_⟩
    rw [claimSource_of_selected hr hs]
    exact ⟨srcOf_setSrc_self .., fun k hk => srcOf_setSrc_ne _ _ _ _ hk, rfl, rfl⟩
  · rw [claimValue_of_native hr, hs]; rfl
  · exact next_onDev ((if_pos ht).trans (claimSource_of_none hr hs))
  · obtain ⟨-, hclaim, -⟩ := selected_spec hs
    obtain ⟨-, htgt, -, -, hact⟩ := claimable_iff.mp hclaim
    exact ⟨hact, htgt⟩
  · refine next_onDev ((if_pos ht).trans ?_)
    rw [Nat.mod_eq_of_lt hn]
    exact if_pos ⟨ha, htgt⟩
  · refine next_onDev ((if_pos ht).trans ?_)
    rw [Nat.mod_eq_of_lt hn]
    exact if_neg hnot

/-! ### Registers written whole -/

/-- A register written whole takes the value (R229): the bits of the word are the value's. -/
theorem masked_allBits (cur : Nat) {v : Nat} (h : v < 2 ^ 64) : masked cur v allBits = (cur - cur % 2 ^ 64) + v := by
  simp only [masked, allBits, Nat.and_two_pow_sub_one_eq_mod, Nat.mod_eq_of_lt h]

/-- So a field of it is that of the value. -/
theorem bitsOf_masked_allBits (cur : Nat) {v hi lo : Nat} (h : v < 2 ^ 64) (hh : hi < 64) (hl : lo ≤ hi) :
    bitsOf (masked cur v allBits) hi lo = bitsOf v hi lo := by
  have hdvd : cur - cur % 2 ^ 64 = cur / 2 ^ 64 * 2 ^ (64 - lo) * 2 ^ lo := by
    rw [Nat.mul_assoc, ← Nat.pow_add, Nat.sub_add_cancel (by omega)]
    omega
  have hw : 2 ^ (64 - lo) = 2 ^ (63 - hi) * 2 ^ (hi + 1 - lo) := by rw [← Nat.pow_add]; congr 1; omega
  rw [masked_allBits cur h, hdvd]
  simp only [bitsOf]
  rw [Nat.add_comm, Nat.add_mul_div_right _ _ (Nat.two_pow_pos lo), hw, ← Nat.mul_assoc, Nat.add_mul_mod_self_right]

theorem bitAt_masked_allBits (cur : Nat) {v i : Nat} (h : v < 2 ^ 64) (hi : i < 64) : bitAt (masked cur v allBits) i = bitAt v i := by
  have := bitsOf_masked_allBits cur h hi (Nat.le_refl i)
  simp only [bitsOf, show i + 1 - i = 1 by omega, Nat.pow_one] at this
  simp only [bitAt, this]

/-- The device with another change log. -/
def relog (l : Log) (d : Dev) : Dev := { d with log := l }

/-- A device whose change log is put back is what it was. -/
theorem relog_restored (l : Log) (d : Dev) : { relog l d with log := d.log } = d := rfl

/-- A register's change changes nothing but the log (R17). -/
theorem logReg_relogs (who : Writer) (ow off : Nat) (sec : Bool) (a b : Nat) (d : Dev) : ∃ l, logReg who ow off sec a b d = relog l d := by
  unfold logReg
  split
  · exact ⟨d.log, rfl⟩
  · exact ⟨_, rfl⟩

/-! ### Modes and rings -/

/-- A write that would change RING of a target in use changes nothing (R429). -/
theorem icuModeWrite_of_in_use {d : Dev} {who : Writer} {t v : Nat} (hv : v < 2 ^ 64) (ho : icuOwns d who t = true)
    (hr : (bitAt v 0 && (t == 8 || t == 9)) ≠ (tgtOf d t).ring)
    (hu : tgtActive d t = true ∨ (tgtOf d t).producer ≠ (tgtOf d t).consumer) : icuModeWrite who t v allBits d = (stOkPartial, d) := by
  unfold icuModeWrite
  dsimp only
  rw [if_neg (by simp [ho]), bitAt_masked_allBits _ hv (by omega), if_pos ⟨hr, hu⟩]

/-- A target in ring mode from empty (R429). -/
def Tgt.ringed (g : Tgt) (size : Nat) : Tgt :=
  { g with ring := true, producer := 0, consumer := 0, size := if 6 ≤ size ∧ size ≤ 12 then size else g.size }

/-- A write that sets RING of a service target not in use enters ring mode from empty, and its waiting records are written (R429). -/
theorem icuModeWrite_of_set {d : Dev} {who : Writer} {t v : Nat} (hv : v < 2 ^ 64) (ht : t = 8 ∨ t = 9) (ho : icuOwns d who t = true)
    (hb : bitAt v 0 = true) (hr : (tgtOf d t).ring = false) (ha : tgtActive d t = false)
    (hpc : (tgtOf d t).producer = (tgtOf d t).consumer) :
    ∃ l, (icuModeWrite who t v allBits d).2 = relog l (ringPump t 256 (setTgt t ((tgtOf d t).ringed (bitsOf v 7 4)) d)) := by
  have ht' : (t == 8 || t == 9) = true := by simpa using ht
  unfold icuModeWrite
  dsimp only
  rw [if_neg (by simp [ho]), if_neg (by simp [ha, hpc]), bitAt_masked_allBits _ hv (by omega), bitsOf_masked_allBits _ hv (by omega) (by omega)]
  simp only [hb, ht', hr, Bool.and_true, Bool.not_false, if_true, Bool.and_eq_true, decide_eq_true_eq]
  exact logReg_relogs ..

/-- Settles O22: a write that changes RING by whether the target is in use. -/
theorem targetModeWrite : Obligations.TargetModeWrite := by
  unfold Obligations.TargetModeWrite
  refine ⟨fun who t v s ht ho hr hu => ?_, fun who t v s ht ho hb hr ha hpc => ?_⟩
  · have h := icuModeWrite_of_in_use v.isLt ho hr hu
    exact ⟨next_onDev ((if_pos ht).trans (congrArg Prod.snd h)), congrArg Prod.fst h⟩
  · obtain ⟨l, hl⟩ := icuModeWrite_of_set v.isLt ht ho hb hr ha hpc
    refine ⟨_, next_onDev (if_pos (by omega)), ?_⟩
    rw [hl]
    exact relog_restored l (ringPump t 256 (setTgt t ((tgtOf s.dev t).ringed (bitsOf v.toNat 7 4)) s.dev))

end Sys2Proof.Machine
end

section
/-! Writes of the interrupt controller's registers, and the watchdogs (R420, R421, R425, R426, R428). -/

namespace Sys2Proof.Machine

/-! ### Events and wires -/

/-- A source changed whose target is in native mode: its record alone changes, for no ring is served. -/
theorem pumpFor_setSrc_of_native {d : Dev} {n : Nat} {x : Src} (h : (tgtOf d x.target).ring = false) :
    pumpFor n (setSrc n x d) = setSrc n x d :=
  pumpFor_of_native (by rw [srcOf_setSrc_self]; exact h)

/-- An event on a source whose target is in native mode (R422, R425). -/
theorem pulse_of_native {d : Dev} {n : Nat} (hn : srcReserved n = false) (h : (tgtOf d (srcOf d n).target).ring = false) :
    pulse n d = setSrc n { srcOf d n with latched := (srcOf d n).latched || decide (2 ≤ (srcOf d n).sense) } d := by
  unfold pulse
  rw [if_neg (by simp [hn])]
  exact pumpFor_setSrc_of_native h

/-- A level driven on the wire of a source whose target is in native mode (R422). -/
theorem setWire_of_native {d : Dev} {n : Nat} (lvl : Bool) (hn : srcReserved n = false) (h : (tgtOf d (srcOf d n).target).ring = false) :
    setWire n lvl d = setSrc n { srcOf d n with
      wire := lvl
      latched := (srcOf d n).latched || ((srcOf d n).wire != lvl && ((srcOf d n).sense == 4 || ((srcOf d n).sense == 2 && lvl)
        || ((srcOf d n).sense == 3 && !lvl))) } d := by
  unfold setWire
  rw [if_neg (by simp [hn])]
  exact pumpFor_setSrc_of_native h

/-! ### ICU_SOFT, ICU_SRC and the ring's CONSUMER -/

/-- ICU_SOFT by a writer that may write it pulses the SOFT source of the target (R421). -/
theorem icuSoftWrite_of_target {d : Dev} {who : Writer} {t : Nat} (ht : t < 26) (hw : icuWriter d who = true) :
    (icuSoftWrite who t allBits d).2 = pulse (32 * t) d := by
  have hm : t &&& allBits = t := by
    rw [allBits, Nat.and_two_pow_sub_one_eq_mod]
    omega
  unfold icuSoftWrite
  dsimp only
  rw [hm, if_neg (by simp [hw]), Nat.mod_eq_of_lt (by omega : t < 32), if_neg (by omega), if_neg (by decide)]

/-- What a write of ICU_SRC with fields allowed makes of its source, EN not cleared within 8 cycles of a selection (R422, R426). -/
def Src.written (s : Src) (v : Nat) : Src :=
  { s with en := bitAt v 0, prio := bitsOf v 10 8, sense := bitsOf v 3 1, once := !bitAt v 0 && s.once }

/-- A write of ICU_SRC by device firmware with fields allowed changes its source and the log alone. -/
theorem icuSrcWrite_of_allowed {d : Dev} {n v : Nat} (hv : v < 2 ^ 64) (hn : srcReserved n = false) (hs : bitsOf v 3 1 ≤ 4)
    (hp : srcPulse n = true → 2 ≤ bitsOf v 3 1) (ht : bitsOf v 20 16 = (srcOf d n).target)
    (hr : (tgtOf d (srcOf d n).target).ring = false) (hsel : bitAt v 0 = true ∨ selected d (srcOf d n).target ≠ some n) :
    ∃ l, (icuSrcWrite .firmware n v allBits d).2 = relog l (setSrc n ((srcOf d n).written v) d) := by
  have hlate : ((srcOf d n).en && !bitAt v 0 && (selected d (srcOf d n).target == some n)) = false := by
    rcases hsel with h | h
    · simp [h]
    · simp [beq_eq_false_iff_ne.mpr h]
  have hsense : (decide (bitsOf v 3 1 ≤ 4) && !(srcPulse n && decide (bitsOf v 3 1 < 2))) = true := by
    cases hb : srcPulse n with
    | false => simp [hs]
    | true => simpa [hs, Nat.lt_iff_add_one_le] using hp hb
  have hpump := pumpFor_setSrc_of_native (n := n) (x := (srcOf d n).written v) hr
  unfold icuSrcWrite
  dsimp only
  rw [if_neg (by simp [hn]), if_neg (by simp)]
  simp only [bitAt_masked_allBits _ hv, bitsOf_masked_allBits _ hv, hlate, hsense, ht, beq_self_eq_true, Bool.true_or,
    Bool.false_eq_true, if_false, if_true, Nat.reduceLT, Nat.reduceLeDiff, Nat.zero_mod, Nat.zero_ne_one, beq_false_of_ne, ne_eq,
    not_false_eq_true, Bool.or_false]
  obtain ⟨l, hl⟩ := logReg_relogs .firmware deviceWide (0xF1000 + 8 * n) false (srcRead d n)
    (srcRead (pumpFor n (setSrc n ((srcOf d n).written v) d)) n) (pumpFor n (setSrc n ((srcOf d n).written v) d))
  exact ⟨l, hl.trans (congrArg (relog l) hpump)⟩

/-- Settles O23: ICU_SOFT, an event, ICU_SRC and CONSUMER, each by what its writer may write. -/
theorem sourceWritesAndRing : Obligations.SourceWritesAndRing := by
  unfold Obligations.SourceWritesAndRing
  refine ⟨fun who t s ht hw => next_onDev (icuSoftWrite_of_target ht hw), fun n d hn hr => ?_,
    fun n v s hn hs hp ht hr hsel => ?_, fun who t k s ht ho hk => ?_⟩
  · rw [pulse_of_native hn hr]
    exact ⟨srcOf_setSrc_self .., fun k hk => srcOf_setSrc_ne _ _ _ _ hk⟩
  · obtain ⟨l, hl⟩ := icuSrcWrite_of_allowed v.isLt hn hs hp ht hr hsel
    exact ⟨_, next_onDev hl, srcOf_setSrc_self .., fun k hk => srcOf_setSrc_ne _ _ _ _ hk⟩
  · refine next_onDev ((if_pos ⟨ht, ho⟩).trans ?_)
    simp only [consumeRing, Nat.mod_eq_of_lt hk]
    split
    · rw [if_neg (by omega)]
    · rw [if_pos (by omega)]

/-! ### Watchdogs -/

/-- A register of which the KICK bit alone is written keeps its low half and reads KICK set. -/
theorem masked_kick (cur : Nat) : masked cur (2 ^ 63) (2 ^ 63) % 2 ^ 32 = cur % 2 ^ 32 ∧ bitAt (masked cur (2 ^ 63) (2 ^ 63)) 63 = true := by
  have hand : cur &&& 2 ^ 63 = (cur / 2 ^ 63 % 2) * 2 ^ 63 := by
    rw [Nat.and_two_pow, Nat.toNat_testBit]
  have hle : (cur / 2 ^ 63 % 2) * 2 ^ 63 ≤ cur := by omega
  simp only [masked, hand, Nat.and_self, bitAt, beq_iff_eq]
  omega

/-- A kick restarts the period and keeps PERIOD (R420). -/
theorem watchdogKick_of_owner {d : Dev} {who : Writer} {t : Nat} (ht : t < 10) (ho : icuOwns d who t = true)
    (hp : (tgtOf d t).period < 2 ^ 32) : ∃ l, watchdogKick who t d = relog l (setTgt t { tgtOf d t with half := false } d) := by
  obtain ⟨hlow, hkick⟩ := masked_kick (tgtRead d t 0x28)
  have hread : tgtRead d t 0x28 % 2 ^ 32 = (tgtOf d t).period := by
    show (if t < 10 then (tgtOf d t).misses * 2 ^ 32 + (tgtOf d t).period else 0) % 2 ^ 32 = _
    rw [if_pos ht]
    omega
  unfold watchdogKick icuWdogWrite
  rw [if_pos ht]
  dsimp only
  rw [if_neg (by simp [ho]; omega), hlow, hread, hkick]
  simp only [beq_self_eq_true, Bool.or_true, if_true, Bool.not_true, Bool.and_false]
  exact logReg_relogs ..

/-- Sources of a target that leave service, one after another, where the controller holds them. -/
def retireSrcs (t : Nat) (l : List Nat) (d : Dev) : Dev :=
  l.foldl (fun d k => if (tGet? d.icu (32 * t + k)).isSome then setSrc (32 * t + k) { srcOf d (32 * t + k) with active := false } d
    else d) d

theorem tgtOf_retireSrcs (t : Nat) (l : List Nat) (d : Dev) (k : Nat) : tgtOf (retireSrcs t l d) k = tgtOf d k := by
  refine view_foldl (tgtOf · k) (fun d a => ?_) l d
  split <;> rfl

/-- Taking one such source out of service leaves what the controller holds. -/
theorem isSome_retired {d : Dev} {j k : Nat} (x : Src) (h : (tGet? d.icu k).isSome = true) :
    (tGet? (setSrc j x d).icu k).isSome = true := by
  by_cases hk : k = j
  · subst hk
    exact congrArg Option.isSome (tGet?_tSet_self ..)
  · exact (congrArg Option.isSome (tGet?_tSet_ne _ _ hk)).trans h

/-- A source that the controller holds is out of service once it is one of those, and else as it was. -/
theorem srcOf_retireSrcs {t k : Nat} (l : List Nat) {d : Dev} (h : (tGet? d.icu (32 * t + k)).isSome = true) :
    srcOf (retireSrcs t l d) (32 * t + k)
      = if k ∈ l then { srcOf d (32 * t + k) with active := false } else srcOf d (32 * t + k) := by
  induction l generalizing d with
  | nil => rfl
  | cons a l ih =>
    rw [retireSrcs, List.foldl_cons, ← retireSrcs]
    by_cases hk : k = a
    · subst hk
      rw [if_pos h, ih (isSome_retired _ h), srcOf_setSrc_self]
      simp
    · have hne : 32 * t + k ≠ 32 * t + a := by omega
      have hmem : k ∈ a :: l ↔ k ∈ l := by simp [hk]
      simp only [hmem]
      split
      · rw [ih (isSome_retired _ h), srcOf_setSrc_ne _ _ _ _ hne]
      · exact ih h

/-- A target's registers after a miss, which is counted and restarts the period (R420). -/
def Tgt.missed (g : Tgt) : Tgt := { g with misses := min 65535 (g.misses + 1), half := false }

/-- A Cox core that misses its watchdog (R420). -/
theorem watchdogMiss_of_cox {d : Dev} {t : Nat} (ht : t < 8) (hp : (tgtOf d t).period ≠ 0) (second : Bool) :
    watchdogMiss t second d = if second then enterFatal 0x10 (setTgt t (tgtOf d t).missed d)
      else coxCommands (faultCE 0x10 (0x9000 + t) 0 (setTgt t (tgtOf d t).missed d)) := by
  unfold watchdogMiss
  dsimp only
  rw [if_neg (by omega), if_pos ht]
  rfl

/-- A service core that misses its watchdog: its target returns to native mode with no source in service (R420). -/
theorem watchdogMiss_of_service {d : Dev} {t : Nat} (ht : t = 8 ∨ t = 9) (hp : (tgtOf d t).period ≠ 0) (second : Bool) :
    watchdogMiss t second d = faultCE 0x10 (0x9000 + t) 0
      (retireSrcs t (List.range 32) (setTgt t { (tgtOf d t).missed with ring := false, size := 6 } d)) := by
  unfold watchdogMiss
  dsimp only
  rw [if_neg (by omega), if_neg (by omega)]
  rfl

/-- Settles O24: a kick, half a period, and a miss of a Cox core and of a service core. -/
theorem watchdogs : Obligations.Watchdogs := by
  unfold Obligations.Watchdogs
  refine ⟨fun who t s ht ho hp => ?_, fun t s ht hp hh => ?_, fun t s ht hp => ⟨?_, ?_⟩, fun t b s ht hp => ?_⟩
  · obtain ⟨l, hl⟩ := watchdogKick_of_owner ht ho hp
    exact ⟨_, next_onDev hl, tgtOf_setTgt_self .., fun k hk => tgtOf_setTgt_ne _ _ _ _ hk, rfl, rfl⟩
  · exact next_onDev (if_neg (by simp [hp, hh, ht]))
  · exact next_onDev ((watchdogMiss_of_cox ht hp true).trans (if_pos rfl))
  · exact next_onDev ((watchdogMiss_of_cox ht hp false).trans (if_neg Bool.false_ne_true))
  · refine ⟨_, next_onDev (watchdogMiss_of_service ht hp b), ?_, fun k hlo hhi hk => ?_⟩
    · rw [tgtOf_retireSrcs, tgtOf_setTgt_self]
      rfl
    · obtain ⟨i, rfl⟩ := Nat.exists_eq_add_of_le hlo
      exact (srcOf_retireSrcs (d := setTgt t _ s.dev) _ hk).trans (if_pos (List.mem_range.mpr (by omega)))

end Sys2Proof.Machine
end

section
/-! The entry into the fatal state (R380, R381), and what raises an In-Band Interrupt (R456). -/

namespace Sys2Proof.Machine

/-! ### The entry, part by part -/

/-- The notice on the pair link that the entry sends (R380). -/
def fatalNotice (source : Nat) (d : Dev) : Dev :=
  if d.cfg.role ≠ 0 ∧ d.pair.state ≠ 0 then
    sendPkt { kind := 0x92, dest := unitId (partnerModule d) 0, source := unitId (ownModule d) 0
              body := toLe 8 d.stk.number ++ toLe 1 source ++ zeros 7 } d
  else d

/-- The fatal flag with its source and stroke. -/
def fatalFlag (source : Nat) (d : Dev) : Dev := { d with flt := { d.flt with fatal := true, ftSource := source, ftStroke := d.stk.number } }

/-- Sessions closed one after another, those of management excepted. -/
def closeCrewSessions (l : List (Nat × Session)) (d : Dev) : Dev :=
  l.foldl (fun d s => if s.2.management then d else closeSession s.1 d) d

/-- What the entry does after the record: the saved area, SNP held, and the snapshot trigger (R377, R383). -/
def fatalSaved (d : Dev) : Dev :=
  let last := d.flt.ring.drop (d.flt.ring.length - 64)
  let d := { d with flt := { d.flt with saved := last.map fun r => { r with flags := r.flags ||| 8 } } }
  let d := { setField 0x100010 0 0 1 d with inForce := tSet d.inForce 0x100010 1 }
  if bitAt (regRaw d 0x130000) 1 then { d with trig := d.trig ++ [4] } else d

/-- The device with the fatal flag and without its open crew sessions. -/
def fatalClosed (source : Nat) (d : Dev) : Dev :=
  let e := fatalFlag source (fatalNotice source d)
  closeCrewSessions (openSessions e) e

/-- The entry is the notice, the flag, the sessions closed, the record, what it saves, and the interrupt. -/
theorem enterFatal_eq {d : Dev} (h : d.flt.fatal = false) (source : Nat) : enterFatal source d =
    raiseIbi 1 (fatalSaved (recordFault { cls := 3, source, flags := 0 } none (fatalClosed source d))) := by
  unfold enterFatal
  rw [if_neg (by simp [h])]
  rfl

theorem offNote_ftRecord (n : Nat) (d : Dev) : (recordFault { cls := 3, source := n, flags := 0 } none d).offNote = d.offNote :=
  offNote_recordFault (Or.inr rfl) d

/-- In the fatal state the entry changes nothing. -/
theorem enterFatal_of_fatal {d : Dev} (h : d.flt.fatal = true) (source : Nat) : enterFatal source d = d := if_pos h

/-! ### What it leaves -/

/-- The device without what the entry into the fatal state changes. -/
def Dev.offEntry (d : Dev) : Dev :=
  { d.offNote with flt := {}, fabTx := [], sessions := [], log := {}, regs := [], inForce := [], side := {} }

theorem Dev.offEntry_of_offNote {d e : Dev} (h : e.offNote = d.offNote) : e.offEntry = d.offEntry := by
  unfold offEntry
  rw [h]

theorem offEntry_fatalNotice (n : Nat) (d : Dev) : (fatalNotice n d).offEntry = d.offEntry :=
  view_ite Dev.offEntry ((congrArg Dev.offEntry (sendPkt_eq ..)).trans rfl) rfl

theorem offEntry_closeSession (i : Nat) (d : Dev) : (closeSession i d).offEntry = d.offEntry :=
  view_ite Dev.offEntry ((congrArg Dev.offEntry (logDev_eq ..)).trans rfl) rfl

theorem offEntry_closeCrewSessions (l : List (Nat × Session)) (d : Dev) : (closeCrewSessions l d).offEntry = d.offEntry :=
  view_foldl Dev.offEntry (fun _ _ => view_ite Dev.offEntry rfl (offEntry_closeSession ..)) l d

theorem offEntry_fatalClosed (n : Nat) (d : Dev) : (fatalClosed n d).offEntry = d.offEntry :=
  (offEntry_closeCrewSessions ..).trans (offEntry_fatalNotice n d)

theorem offEntry_fatalSaved (d : Dev) : (fatalSaved d).offEntry = d.offEntry := view_ite Dev.offEntry rfl rfl

theorem offEntry_raiseIbi (b : Nat) (d : Dev) : (raiseIbi b d).offEntry = d.offEntry := view_ite Dev.offEntry rfl rfl

/-- The entry changes only what `Dev.offEntry` leaves out. -/
theorem offEntry_enterFatal (n : Nat) (d : Dev) : (enterFatal n d).offEntry = d.offEntry := by
  cases h : d.flt.fatal with
  | true => rw [enterFatal_of_fatal h]
  | false =>
    rw [enterFatal_eq h, offEntry_raiseIbi, offEntry_fatalSaved, Dev.offEntry_of_offNote (offNote_ftRecord ..),
      offEntry_fatalClosed]

theorem mem_enterFatal (n : Nat) (d : Dev) : (enterFatal n d).mem = d.mem := (congrArg Dev.mem (offEntry_enterFatal n d) :)
theorem regions_enterFatal (n : Nat) (d : Dev) : (enterFatal n d).regions = d.regions :=
  (congrArg Dev.regions (offEntry_enterFatal n d) :)

/-! ### The fault unit and the side band -/

/-- The fatal flag, its source and its stroke. -/
def Dev.ftView (d : Dev) : Bool × Nat × Nat := (d.flt.fatal, d.flt.ftSource, d.flt.ftStroke)

theorem ftView_pulse (n : Nat) (d : Dev) : (pulse n d).ftView = d.ftView := (congrArg Dev.ftView (offIcu_pulse n d) :)

theorem ftView_armFault (c : Nat) (d : Dev) : (armFault c d).ftView = d.ftView := by
  unfold armFault
  split <;> rfl

theorem ftView_pinPulse (c : Nat) (d : Dev) : (pinPulse c d).ftView = d.ftView := by
  unfold pinPulse
  split <;> rfl

theorem ftView_countFault (c : Nat) (d : Dev) : (countFault c d).ftView = d.ftView := by
  unfold countFault
  split
  · rfl
  · split <;> rfl

theorem ftView_deviceRing (r : FaultRec) (d : Dev) : (deviceRing r d).ftView = d.ftView := by
  unfold deviceRing
  dsimp only
  split
  · rfl
  · split <;> rfl

theorem ftView_fatalSaved (d : Dev) : (fatalSaved d).ftView = d.ftView := by
  unfold fatalSaved
  dsimp only
  split <;> rfl

/-- A record of no crew keeps the fatal flag with its source and stroke. -/
theorem ftView_recordFault {r : FaultRec} (h : r.cls = 1 ∨ r.cls = 3) (d : Dev) : (recordFault r none d).ftView = d.ftView := by
  simp only [recordFault_none h, ftView_armFault, ftView_pinPulse, ftView_pulse, ftView_countFault, ftView_deviceRing]
  rfl

theorem flt_closeCrewSessions (l : List (Nat × Session)) (d : Dev) : (closeCrewSessions l d).flt = d.flt :=
  view_foldl Dev.flt closeOther_flt l d

theorem ftView_fatalClosed (n : Nat) (d : Dev) : (fatalClosed n d).ftView = (true, n, d.stk.number) := by
  have hs : (fatalNotice n d).stk = d.stk := (congrArg Dev.stk (offEntry_fatalNotice n d) :)
  refine (congrArg (fun f : Flt => (f.fatal, f.ftSource, f.ftStroke)) (flt_closeCrewSessions _ _)).trans ?_
  exact congrArg (fun x : Stroke => (true, n, x.number)) hs

/-- Entering from outside sets the flag, the source and the stroke (R380). -/
theorem ftView_enterFatal {d : Dev} (h : d.flt.fatal = false) (n : Nat) : (enterFatal n d).ftView = (true, n, d.stk.number) := by
  rw [enterFatal_eq h]
  refine (congrArg (fun f : Flt => (f.fatal, f.ftSource, f.ftStroke)) (raiseIbi_flt ..)).trans ?_
  exact (ftView_fatalSaved _).trans ((ftView_recordFault (Or.inr rfl) _).trans (ftView_fatalClosed n d))

theorem side_closeCrewSessions (l : List (Nat × Session)) (d : Dev) : (closeCrewSessions l d).side = d.side := by
  refine view_foldl Dev.side (fun d a => ?_) l d
  refine view_ite Dev.side rfl (view_ite Dev.side ?_ rfl)
  rw [logDev_eq]
  rfl

theorem side_fatalSaved (d : Dev) : (fatalSaved d).side = d.side := by
  unfold fatalSaved
  dsimp only
  split <;> rfl

theorem sessions_fatalSaved (d : Dev) : (fatalSaved d).sessions = d.sessions := by
  unfold fatalSaved
  dsimp only
  split <;> rfl

theorem sessions_raiseIbi (b : Nat) (d : Dev) : (raiseIbi b d).sessions = d.sessions := by
  unfold raiseIbi
  split <;> rfl

/-- What stands in the side band when the interrupt is raised is what stood there. -/
theorem side_before_ibi (n : Nat) (d : Dev) :
    (fatalSaved (recordFault { cls := 3, source := n, flags := 0 } none (fatalClosed n d))).side = d.side := by
  refine (side_fatalSaved _).trans ?_
  refine (congrArg Dev.side (offNote_ftRecord n _) :).trans ((side_closeCrewSessions ..).trans ?_)
  refine view_ite Dev.side ?_ rfl
  rw [sendPkt_eq]

/-- An interrupt is raised while events are enabled, and else what waits stays (R456). -/
theorem ibi_raiseIbi (b : Nat) (d : Dev) : (raiseIbi b d).side.ibi = if d.side.events then some b else d.side.ibi := by
  unfold raiseIbi
  split <;> rfl

/-! ### Sessions -/

theorem sessOf_closeSession_ne {i k : Nat} (h : k ≠ i) (d : Dev) : sessOf (closeSession i d) k = sessOf d k := by
  unfold closeSession
  dsimp only
  split
  · exact (sessOf_logDev ..).trans (sessOf_setSess_ne _ _ _ _ h)
  · rfl

/-- A session that is closed, or was not open, is not open. -/
theorem isOpen_closeSession (i : Nat) (d : Dev) : (sessOf (closeSession i d) i).isOpen = false := by
  cases h : (sessOf d i).isOpen with
  | true => rw [(closeSession_sessions h).1]
  | false =>
    unfold closeSession
    dsimp only
    split
    · rw [sessOf_logDev, sessOf_setSess_self]
    · exact h

/-- A session that is not open stays so while others are closed. -/
theorem isOpen_closeCrewSessions_of_closed {i : Nat} (l : List (Nat × Session)) {d : Dev} (h : (sessOf d i).isOpen = false) :
    (sessOf (closeCrewSessions l d) i).isOpen = false := by
  induction l generalizing d with
  | nil => exact h
  | cons a l ih =>
    refine ih ?_
    dsimp only
    split
    · exact h
    · by_cases hi : i = a.1
      · rw [hi]
        exact isOpen_closeSession ..
      · rw [sessOf_closeSession_ne hi]
        exact h

/-- A crew session of the list is closed. -/
theorem isOpen_closeCrewSessions_of_mem {i : Nat} {x : Session} {l : List (Nat × Session)} (hx : (i, x) ∈ l) (hm : x.management = false)
    (d : Dev) : (sessOf (closeCrewSessions l d) i).isOpen = false := by
  induction l generalizing d with
  | nil => cases hx
  | cons a l ih =>
    rcases List.mem_cons.mp hx with rfl | hx
    · refine isOpen_closeCrewSessions_of_closed l (d := if x.management then d else closeSession i d) ?_
      rw [if_neg (by simp [hm])]
      exact isOpen_closeSession ..
    · exact ih hx _

/-- A session that the list names as management's alone keeps its record. -/
theorem sessOf_closeCrewSessions_of_management {i : Nat} {l : List (Nat × Session)} (h : ∀ x ∈ l, x.1 = i → x.2.management = true)
    (d : Dev) : sessOf (closeCrewSessions l d) i = sessOf d i := by
  induction l generalizing d with
  | nil => rfl
  | cons a l ih =>
    refine (ih (fun x hx => h x (List.mem_cons_of_mem a hx)) _).trans ?_
    dsimp only
    split
    · rfl
    · rename_i hm
      exact sessOf_closeSession_ne (fun hi => hm (h a List.mem_cons_self hi.symm)) d

/-- The entry leaves the sessions as closing those of crews does. -/
theorem sessions_enterFatal {d : Dev} (h : d.flt.fatal = false) (n : Nat) : (enterFatal n d).sessions = (fatalClosed n d).sessions := by
  rw [enterFatal_eq h, sessions_raiseIbi, sessions_fatalSaved]
  exact (congrArg Dev.sessions (offNote_ftRecord n _) :)

theorem sessions_fatalFlag (n : Nat) (d : Dev) : (fatalFlag n (fatalNotice n d)).sessions = d.sessions := by
  refine view_ite Dev.sessions ?_ rfl
  rw [sendPkt_eq]

/-- Settles O26: the rows that enter, and the entry by its parts. -/
theorem fatalEventsEnterFatal : Obligations.FatalEventsEnterFatal := by
  unfold Obligations.FatalEventsEnterFatal
  refine ⟨fun s => ⟨rfl, rfl, rfl, rfl, rfl, rfl⟩, fun src d h => enterFatal_of_fatal h src, fun src d h => ?_⟩
  have hview := ftView_enterFatal h src
  have hopen : openSessions (fatalFlag src (fatalNotice src d)) = openSessions d := by
    unfold openSessions
    rw [sessions_fatalFlag]
  refine ⟨congrArg (·.1) hview, congrArg (·.2.1) hview, congrArg (·.2.2) hview, mem_enterFatal .., regions_enterFatal .., fun i ho hm => ?_,
    fun i hall => ?_⟩
  · rw [sessOf_congr (sessions_enterFatal h src)]
    cases hg : tGet? d.sessions i with
    | none => rw [sessOf, hg] at ho; cases ho
    | some x =>
      rw [sessOf, hg] at ho hm
      refine isOpen_closeCrewSessions_of_mem (x := x) ?_ hm _
      rw [hopen]
      exact List.mem_filter.mpr ⟨mem_of_tGet? hg, ho⟩
  · rw [sessOf_congr (sessions_enterFatal h src)]
    refine (sessOf_closeCrewSessions_of_management (fun x hx hi => ?_) _).trans (sessOf_congr (sessions_fatalFlag ..) i)
    rw [hopen] at hx
    exact hall x (List.mem_filter.mp hx).1 hi

/-- Settles O30: the two causes, and what the controller does with the interrupt. -/
theorem inBandInterrupts : Obligations.InBandInterrupts := by
  unfold Obligations.InBandInterrupts
  refine ⟨fun src d h => ?_, fun d => ⟨?_, ibi_raiseIbi 2 _⟩, fun b s ha hb => ⟨?_, ?_, next_onDev (if_pos ha)⟩⟩
  · rw [enterFatal_eq h, ibi_raiseIbi, side_before_ibi]
  · exact view_ite (fun d : Dev => d.power.serving) rfl rfl
  · refine next_onDev ?_
    simp only [ibiRetry, hb, if_true]
    exact if_pos ha
  · refine next_onDev ?_
    simp only [ibiRetry, hb, Bool.false_eq_true, if_false]

/-- Settles O58: a step is the command at the front run on the state with the queue's rest. -/
theorem stepRunsFront : Obligations.StepRunsFront := by
  unfold Obligations.StepRunsFront
  refine ⟨fun c rest s => rfl, fun s h => ?_⟩
  unfold step
  rw [h]

end Sys2Proof.Machine
end

section
/-! Snapshots (R382 to R384), and the errors of lines and arrays (R367, R368, R370). -/

namespace Sys2Proof.Machine

/-! ### The latch -/

/-- While a snapshot is held a trigger other than an FT's only counts (R383). -/
theorem latchSnap_of_held {s : State} {source : Nat} (origin : Nat × Nat) (cycle : Option Nat) (hf : s.snap.frozen = true)
    (hs : source ≠ 4) : latchSnap source origin cycle s = { s with snap := { s.snap with missed := s.snap.missed + 1 } } :=
  if_pos ⟨hf, hs⟩

/-- What a latch holds: the device state of the moment, but for the free values drawn (R382). -/
structure Latched (source : Nat) (s u : State) : Prop where
  frozen : u.snap.frozen = true
  source : u.snap.source = source
  stroke : u.snap.stroke = s.dev.stk.number
  missed : u.snap.missed = s.snap.missed
  latched : ∃ k, u.snap.latched = some { s.dev with draws := k }

/-- With none held, or for an FT, a trigger latches (R382, R383). -/
theorem latchSnap_latches {s : State} {source : Nat} (origin : Nat × Nat) (cycle : Option Nat) (h : s.snap.frozen = false ∨ source = 4) :
    Latched source s (latchSnap source origin cycle s) := by
  have hnot : ¬(s.snap.frozen = true ∧ source ≠ 4) := by rcases h with h | h <;> simp [h]
  unfold latchSnap
  rw [if_neg hnot]
  cases cycle with
  | none => exact ⟨rfl, rfl, rfl, rfl, _, rfl⟩
  | some c => exact ⟨rfl, rfl, rfl, rfl, _, rfl⟩

/-! ### SNAPSHOT -/

/-- SNAPSHOT NOW with none held latches and completes with the stroke and the cycle (R384). -/
theorem snapshotBody_now {q : QCmd} {t : State} (hm : pNat q.cmd 0 1 = 0) (ht : pNat q.cmd 8 8 = 0) (hf : t.snap.frozen = false) :
    snapshotBody q t =
      let u := latchSnap 1 (snapOrigin q) none t
      { u with dev := complete q stOk [u.snap.stroke % 2 ^ 32, u.snap.cycle] [] u.dev } := by
  unfold snapshotBody
  dsimp only
  rw [if_neg (by omega), if_pos hm, if_neg (by simp [hf])]

/-- SNAPSHOT AT, at least two strokes ahead and with none armed, arms the named trigger (R384). -/
theorem snapshotBody_at {q : QCmd} {t : State} (hm : pNat q.cmd 0 1 = 1) (ht : q.stamp + 2 ≤ pNat q.cmd 8 8) (ha : t.snap.armedAt = none) :
    snapshotBody q t = { t with
      dev := complete q stOk [] [] t.dev, snap := { t.snap with armedAt := some (pNat q.cmd 8 8), armedBy := snapOrigin q } } := by
  unfold snapshotBody
  dsimp only
  rw [if_neg (by omega), if_neg (by omega), if_pos hm, if_neg (by omega), if_neg (by simp [ha])]
  rfl

/-- SNAPSHOT DISARM disarms it (R384). -/
theorem snapshotBody_disarm {q : QCmd} {t : State} (hm : pNat q.cmd 0 1 = 2) (ht : pNat q.cmd 8 8 = 0) :
    snapshotBody q t = { t with dev := complete q stOk [] [] t.dev, snap := { t.snap with armedAt := none } } := by
  unfold snapshotBody
  dsimp only
  rw [if_neg (by omega), if_neg (by omega), if_neg (by omega)]
  rfl

/-! ### The named trigger and the pin -/

theorem snapTrigger_of_due {s : State} {k : Nat} (ha : s.snap.armedAt = some k) (hk : k ≤ s.dev.stk.number + 1) :
    snapTrigger s =
      let u := latchSnap 2 s.snap.armedBy (some 0) s
      { u with snap := { u.snap with armedAt := none } } := by
  unfold snapTrigger
  rw [ha]
  exact if_pos hk

/-- A falling edge on SNAP_IN while it serves and is enabled (R383, R421, R451). -/
theorem snapPin_of_enabled {s : State} {cycle : Nat} (hp : s.dev.power.phase = 9)
    (he : bitAt (regRaw (setWire 832 true (setWire 832 false s.dev)) 0x130000) 0 = true) :
    snapPin cycle s = latchSnap 3 (3, 3) (some cycle) { s with dev := setWire 832 true (setWire 832 false s.dev) } := by
  unfold snapPin
  rw [if_neg (by simp [hp])]
  dsimp only
  rw [if_neg (by simp [he])]

/-- Settles O28: the latch, the three modes of SNAPSHOT, the named trigger and the pin. -/
theorem snapshotsLatch : Obligations.SnapshotsLatch := by
  unfold Obligations.SnapshotsLatch
  refine ⟨fun source origin cycle s h => ?_, fun source origin cycle s hf hs => latchSnap_of_held origin cycle hf hs,
    fun c s q t hb hm ht hf => ?_, fun c s q t hb hm ht ha => ?_, fun c s q t hb hm ht => ?_, fun k s ha hk => ?_,
    fun cycle s hp he => ?_⟩
  · have hl := latchSnap_latches origin cycle h
    have hoff := offSnap_latchSnap source origin cycle s
    exact ⟨hl.frozen, hl.source, hl.stroke, hl.missed, hl.latched, (congrArg Dev.mem hoff :), (congrArg Dev.regs hoff :), latchSnap_nv ..⟩
  · exact next_settle_of_begins hb (snapshotBody_now hm ht hf)
  · exact next_settle_of_begins hb (snapshotBody_at hm ht ha)
  · exact next_settle_of_begins hb (snapshotBody_disarm hm ht)
  · exact congrArg Host.Outcome.next (snapTrigger_of_due ha hk)
  · exact congrArg Host.Outcome.next (snapPin_of_enabled hp he)

/-! ### Lines and arrays -/

theorem isPoisoned_poisonLine (line : Nat) (d : Dev) : isPoisoned (poisonLine line d) line = true := by
  simp only [isPoisoned, poisonLine, addTo, List.contains_iff_mem]
  split
  · assumption
  · exact List.mem_append_right _ (List.mem_singleton_self line)

/-- An uncorrectable line of no paired region is poisoned, with a UC record (R367). -/
theorem lineUncorrectable_of_unpaired {d : Dev} {line : Nat} (h : ((regionAt d (line * 128)).getD {}).paired = false) :
    lineUncorrectable line d = faultAt 2 0x01 stPoisoned (0x2000 + stackOf (poisonLine line d) (line * 128)) 1 (line * 128)
      (poisonLine line d) := by
  unfold lineUncorrectable
  dsimp only
  rw [if_neg (by simp [h])]

/-- Settles O27: a patrol read by the number of wrong symbols, a double-bit error by its array. -/
theorem lineAndArrayErrors : Obligations.LineAndArrayErrors := by
  unfold Obligations.LineAndArrayErrors
  refine ⟨fun line s => ⟨rfl, rfl⟩, fun line k s hk => ⟨?_, isPoisoned_poisonLine .., lineUncorrectable_of_unpaired⟩,
    fun line s => ⟨rfl, rfl, rfl, rfl⟩, fun die c sg tile core crew block item r s => ⟨rfl, rfl, rfl, rfl, rfl⟩⟩
  exact next_onDev ((if_neg (by omega)).trans (if_neg (by omega)))

end Sys2Proof.Machine
end

section
/-! The I3C target and the provisioning port (R449, R455 to R459). -/

namespace Sys2Proof.Machine

/-! ### The I3C target -/

theorem i3cAnswer_of_aux {d : Dev} (h : d.pins.aux = true) (l : List Byte) :
    i3cAnswer l d = { d with side := { d.side with sent := d.side.sent ++ [l] } } := if_pos h

/-- A write of another length than one byte is ignored (R455). -/
theorem i3cWrite_of_length {l : List Byte} (h : l.length ≠ 1) (d : Dev) : i3cWrite l d = d := by
  match l with
  | [] => rfl
  | [b] => exact absurd rfl h
  | _ :: _ :: _ => rfl

/-- A read by index sends the value at the index and moves the index on (R455). -/
theorem i3cRead_of_aux {d : Dev} (h : d.pins.aux = true) :
    let v := telemetry d d.side.index
    i3cRead d = { d with side := { d.side with index := (d.side.index + 1) % 256, sent := d.side.sent ++ [toLe v.2 v.1] } } := by
  unfold i3cRead
  rw [if_neg (by simp [h])]
  exact if_pos h

/-- A target without a dynamic address takes one; one that holds one keeps it (R455). -/
theorem takeDynamic_of_free {d : Dev} (h : d.pins.aux = true) (hd : d.side.dynamic = none) (a : Nat) :
    takeDynamic a d = { d with side := { d.side with dynamic := some (a % 128) } } :=
  (if_pos (by rw [hd]; rfl)).trans (if_pos h)

theorem takeDynamic_of_held {d : Dev} {b : Nat} (hd : d.side.dynamic = some b) (a : Nat) : takeDynamic a d = d :=
  if_neg (by rw [hd]; exact Bool.false_ne_true)

theorem auxRise_of_absent {d : Dev} (h : d.pins.aux = false) (slot : Nat) :
    auxRise slot d = { d with pins := { d.pins with aux := true, slot := slot % 32 }, side := {} } := if_neg (by simp [h])

/-- Settles O29: the supply, the token, the transfers by index and the common command codes. -/
theorem sidebandTarget : Obligations.SidebandTarget := by
  unfold Obligations.SidebandTarget
  refine ⟨⟨fun slot s h => next_onDev (auxRise_of_absent h slot), fun s => rfl, fun s => ⟨rfl, rfl, rfl⟩⟩,
    ⟨fun b s h => next_onDev (if_pos h), fun l s hl => next_onDev (i3cWrite_of_length hl _), fun s h => next_onDev (i3cRead_of_aux h),
      fun d => ⟨rfl, rfl, rfl⟩⟩,
    ⟨fun s h => ⟨next_onDev (if_pos h), next_onDev (if_pos h), next_onDev (if_pos h)⟩,
      fun a s h hd => ⟨next_onDev (takeDynamic_of_free h hd a), next_onDev (takeDynamic_of_free h hd a)⟩,
      fun a b s hd => ⟨next_onDev (takeDynamic_of_held hd a), next_onDev (takeDynamic_of_held hd a)⟩, fun s h => ?_⟩⟩
  refine ⟨⟨_, by simp, next_onDev (i3cAnswer_of_aux h _)⟩, ⟨_, next_onDev (i3cAnswer_of_aux h _)⟩,
    ⟨_, next_onDev (i3cAnswer_of_aux h _)⟩,
    ⟨(drawBytes 2 s.dev).1, (drawBytes 2 s.dev).2.draws, by simp [drawBytes], ?_⟩⟩
  exact next_onDev (i3cAnswer_of_aux (d := (drawBytes 2 s.dev).2) h _)

/-! ### The area of bank A -/

/-- A byte of bytes programmed: those of the step are the conjunction of the old and the new, and every other stays (Table 17-8). -/
theorem getD_programBytes (old new : List Byte) (a i : Nat) : (programBytes old a new).getD i 0xFF =
    if a ≤ i ∧ i < a + new.length then old.getD i 0xFF &&& new.getD (i - a) 0 else old.getD i 0xFF := by
  have hhead : (old.take a ++ List.replicate (a - old.length) (0xFF : Byte)).length = a := by
    simp only [List.length_append, List.length_take, List.length_replicate]
    omega
  have hmid (f : Nat → Byte) : ((List.range new.length).map f).length = new.length := by simp
  unfold programBytes
  rcases lt_or_ge i a with hlo | hlo
  · rw [if_neg (by omega), List.append_assoc, List.getD_append _ _ _ _ (by rw [hhead]; exact hlo)]
    rcases lt_or_ge i old.length with hold | hold
    · rw [List.getD_append _ _ _ _ (by rw [List.length_take]; omega)]
      simp [List.getD_eq_getElem?_getD, hlo]
    · rw [List.getD_append_right _ _ _ _ (by rw [List.length_take]; omega), List.getD_eq_default old _ hold]
      rw [List.getD_replicate]
      rw [List.length_take]; omega
  · rcases lt_or_ge i (a + new.length) with hhi | hhi
    · rw [if_pos ⟨hlo, hhi⟩, List.append_assoc, List.getD_append_right _ _ _ _ (by rw [hhead]; exact hlo), hhead,
        List.getD_append _ _ _ _ (by rw [hmid]; omega)]
      simp [List.getD_eq_getElem?_getD, show i - a < new.length by omega, Nat.add_sub_cancel' hlo]
    · have hlen : (old.take a ++ List.replicate (a - old.length) (0xFF : Byte)
          ++ (List.range new.length).map fun i => old.getD (a + i) 0xFF &&& new.getD i 0xFF).length = a + new.length := by
        rw [List.length_append, hhead, hmid]
      rw [if_neg (by omega), List.getD_append_right _ _ _ _ (by rw [hlen]; exact hhi), hlen]
      simp [List.getD_eq_getElem?_getD, Nat.add_sub_cancel' hhi]

/-- The area written is what its bytes read as. -/
theorem areaByte_setArea (l : List Byte) (d : Dev) (i : Nat) : areaByte (setArea l d) i = l.getD i 0xFF := rfl

theorem provReady_of_open {d : Dev} (ha : d.pins.aux = true) (hp : d.pins.powerEn = false) (hb : d.side.busy = false) :
    provReady d = true := by simp [provReady, provOpen, ha, hp, hb]

theorem provOpen_of_powered {d : Dev} (hp : d.pins.powerEn = true) : provOpen d = false := by simp [provOpen, hp]

/-- What may not be written stays: PROGRAM and ERASE change nothing (R457, R458). -/
theorem provProgram_of_unwritable {d : Dev} (h : provWritable d = false) (a : Nat) (l : List Byte) : provProgram a l d = d :=
  if_neg (by simp [h])

theorem provErase_of_unwritable {d : Dev} (h : provWritable d = false) : provErase d = d := if_neg (by simp [h])

theorem provWritable_of_locked {d : Dev} (h : d.banks.owner.isSome = true) : provWritable d = false := by
  simp [provWritable, provLocked, h]

/-- The end of a PROGRAM or ERASE that held no phase (R459). -/
theorem provEnd_of_unheld {d : Dev} (h : d.power.phaseHeld = false) : provEnd d = { d with side := { d.side with busy := false } } := by
  have hp : { d.power with phaseHeld := false } = d.power := by rw [← h]
  unfold provEnd
  dsimp only
  rw [h, hp, Bool.false_and, Bool.false_and, if_neg Bool.false_ne_true]

/-- The end of one that held phase 1 begins it (R459). -/
theorem provEnd_of_held {d : Dev} (h : d.power.phaseHeld = true) (hg : d.pins.pwrGood = true) (h0 : inPhase d 0 = true) :
    provEnd d = toPhase 1 { d with side := { d.side with busy := false }, power := { d.power with phaseHeld := false } } :=
  if_pos (by simp [h, hg, h0])

/-- Settles O31: the port open, powered, locked, and at the end of what it does. -/
theorem provisioningPort : Obligations.ProvisioningPort := by
  unfold Obligations.ProvisioningPort
  refine ⟨fun s ha hp => next_onDev (if_pos (by simp [provOpen, ha, hp])), fun a n s ha hp hb => ?_,
    fun a l s ha hp hb hw ho h1 h2 h3 => ?_, fun s ha hp hb hw ho => ?_, fun a l n s hp => ?_, fun a l s ho => ?_,
    fun s hh hb => next_onDev (provEnd_of_unheld hh), fun s hh hg h0 => next_onDev (provEnd_of_held hh hg h0)⟩
  · have hr := provReady_of_open ha hp hb
    exact ⟨next_onDev (if_pos hr), next_onDev (if_pos hr)⟩
  · have hr : provWritable s.dev = true := by simp [provWritable, provReady_of_open ha hp hb, hw, provLocked, ho]
    refine ⟨_, next_onDev (if_pos (by simp [hr, h1, h2, areaBytes, h3])), rfl, fun i => ?_, rfl, rfl, rfl, rfl⟩
    exact (areaByte_setArea ..).trans (getD_programBytes ..)
  · have hr : provWritable s.dev = true := by simp [provWritable, provReady_of_open ha hp hb, hw, provLocked, ho]
    exact ⟨_, next_onDev (if_pos hr), rfl, fun i => areaByte_setArea [] _ i⟩
  · have ho := provOpen_of_powered hp
    have hr : provReady s.dev = false := by simp [provReady, ho]
    have hw : provWritable s.dev = false := by simp [provWritable, hr]
    exact ⟨next_onDev (if_neg (by simp [ho])), next_onDev (if_neg (by simp [hr])), next_onDev (if_neg (by simp [hr])),
      next_onDev (provProgram_of_unwritable hw a l), next_onDev (provErase_of_unwritable hw)⟩
  · have hw := provWritable_of_locked ho
    exact ⟨next_onDev (provProgram_of_unwritable hw a l), next_onDev (provErase_of_unwritable hw)⟩

end Sys2Proof.Machine
end

section
/-! Power, resets, the cluster domain of a die, the clock and the level sources (R433, R440, R442, R445). -/

namespace Sys2Proof.Machine

/-! ### Power cycles and module resets -/

/-- The record of a reset changes nothing but the log (R440). -/
theorem logReset_relogs (o : Nat × Nat) (d : Dev) : ∃ l, logReset o d = relog l d := ⟨_, rfl⟩

/-- POWER_EN rising with AUX_3V3 present and the input in range (R433). -/
theorem powerRise_of_ready {d : Dev} (ha : d.pins.aux = true) (hp : d.pins.powerEn = false) (hi : d.pins.inputOk = true) :
    ∃ l, powerRise d = relog l { d with
      pins := { d.pins with powerEn := true }, power := { d.power with on := true, phase := 0, phaseHeld := d.side.busy } } := by
  unfold powerRise
  dsimp only
  rw [if_neg (by simp [ha, hp]), if_neg (by simp [hi])]
  exact logReset_relogs ..

/-- What stays of a package without power (R433, Table 16-4). -/
structure Unpowered (s t : State) : Prop where
  off : t.dev.power.on = false
  released : t.dev.pins.pwrGood = false
  sessions : t.dev.sessions = []
  queues : t.dev.queues = []
  jobs : t.dev.jobs = []
  mem : t.dev.mem = s.dev.mem.filter fun c => addrSpace c.1 == 1
  regions : ∀ r x, (r, x) ∈ t.dev.regions → addrSpace (r * 2 ^ 21) = 1
  snap : t.snap = {}
  nv : t.nv = s.nv
  pending : t.pending = s.pending

/-- Of the regions kept without power all lie in the sealed tier. -/
theorem sealed_of_mem_keptRegions {d : Dev} {r : Nat} {x : Region} (h : (r, x) ∈ keptRegions false d) : addrSpace (r * 2 ^ 21) = 1 := by
  obtain ⟨⟨k, y⟩, hy, he⟩ := List.mem_map.mp h
  obtain ⟨-, hk⟩ := List.mem_filter.mp hy
  have hsealed : sealedRegion k = true := by simpa using (Bool.and_eq_true_iff.mp hk).1
  rw [if_pos hsealed] at he
  rw [← (Prod.mk.inj he).1]
  exact beq_iff_eq.mp hsealed

/-- The package unpowered from a device that holds the memory of another. -/
theorem unpowered_powerDown {s : State} {d : Dev} (hm : d.mem = s.dev.mem) : Unpowered s (powerDown { s with dev := d }) where
  off := rfl
  released := rfl
  sessions := rfl
  queues := rfl
  jobs := rfl
  mem := congrArg (List.filter fun c : Host.Cell => addrSpace c.1 == 1) hm
  regions := fun _ _ h => sealed_of_mem_keptRegions h
  snap := rfl
  nv := rfl
  pending := rfl

theorem mem_powerNotice (d : Dev) : (powerNotice d).mem = d.mem := by
  unfold powerNotice sendPair
  split
  · rfl
  · rw [sendPkt_eq]

/-- POWER_EN falls while the package has power (R433). -/
theorem powerFall_of_on {s : State} (h : s.dev.power.on = true) : Unpowered s (powerFall s) := by
  unfold powerFall
  dsimp only
  rw [if_neg (by simp [h])]
  exact unpowered_powerDown (mem_powerNotice _)

/-- The input leaves its range while the package has power (R433). -/
theorem inputFails_of_on {s : State} (h : s.dev.power.on = true) (vin : Nat) : Unpowered s (inputFails vin s) := by
  unfold inputFails
  dsimp only
  rw [if_neg (by simp [h])]
  exact unpowered_powerDown (mem_enterFatal _ _)

/-- What a module reset keeps (R440, Table 16-4). -/
structure Restarted (s t : State) : Prop where
  on : t.dev.power.on = true
  phase : t.dev.power.phase = 1
  serving : t.dev.power.serving = false
  sessions : t.dev.sessions = []
  queues : t.dev.queues = []
  jobs : t.dev.jobs = []
  mem : t.dev.mem = s.dev.mem
  poison : t.dev.poison = s.dev.poison
  regions : ∀ r x, (r, x) ∈ s.dev.regions → x.state ≠ .reserved → ∃ y, (r, y) ∈ t.dev.regions ∧ { y with lost := x.lost } = x
  crews : ∀ n x, (n, x) ∈ t.dev.crews → x = { gen := x.gen }
  snap : t.snap = {}
  nv : t.nv = s.nv

/-- A region that is no reservation is kept in a module reset; one of the sealed tier is read again. -/
theorem mem_keptRegions {d : Dev} {r : Nat} {x : Region} (h : (r, x) ∈ d.regions) (hx : x.state ≠ .reserved) :
    ∃ y, (r, y) ∈ keptRegions true d ∧ { y with lost := x.lost } = x := by
  have hf : (r, x) ∈ d.regions.filter fun r => (true || sealedRegion r.1) && r.2.state != .reserved :=
    List.mem_filter.mpr ⟨h, by simpa using hx⟩
  cases hs : sealedRegion r with
  | true => exact ⟨{ x with lost := false }, List.mem_map.mpr ⟨_, hf, by simp [hs]⟩, rfl⟩
  | false => exact ⟨x, List.mem_map.mpr ⟨_, hf, by simp [hs]⟩, rfl⟩

/-- A crew after a reset is its generation alone. -/
theorem crew_of_mem_keptDev {w : Bool} {d : Dev} {n : Nat} {x : Crew} (h : (n, x) ∈ (keptDev w d).crews) : x = { gen := x.gen } := by
  obtain ⟨p, -, hp⟩ := List.mem_map.mp h
  rw [← (Prod.mk.inj hp).2]

/-- A module reset from a device that holds the memory, the poison and the regions of another. -/
theorem restarted_keptDev {s : State} {d : Dev} (hm : d.mem = s.dev.mem) (hp : d.poison = s.dev.poison)
    (hr : d.regions = s.dev.regions) {p : List Instr} : Restarted s { nv := s.nv, dev := keptDev true d, snap := {}, pending := p } where
  on := rfl
  phase := rfl
  serving := rfl
  sessions := rfl
  queues := rfl
  jobs := rfl
  mem := (List.filter_true d.mem).trans hm
  poison := (List.filter_true d.poison).trans hp
  regions := fun _ _ h hx => mem_keptRegions (hr ▸ h) hx
  crews := fun _ _ h => crew_of_mem_keptDev h
  snap := rfl
  nv := rfl

/-- What a reset that the fatal state refuses leaves (R380). -/
structure Refused (s t : State) : Prop where
  mem : t.dev.mem = s.dev.mem
  regions : t.dev.regions = s.dev.regions
  sessions : t.dev.sessions = s.dev.sessions
  power : t.dev.power = s.dev.power
  flt : t.dev.flt = s.dev.flt
  nv : t.nv = s.nv

theorem poison_powerNotice (d : Dev) : (powerNotice d).poison = d.poison := by
  unfold powerNotice sendPair
  split
  · rfl
  · rw [sendPkt_eq]

theorem regions_powerNotice (d : Dev) : (powerNotice d).regions = d.regions := by
  unfold powerNotice sendPair
  split
  · rfl
  · rw [sendPkt_eq]

/-- A module reset outside the fatal state, and in it (R380, R440). -/
theorem moduleReset_cases {s : State} (o : Nat × Nat) (hon : s.dev.power.on = true) (hg : s.dev.pins.pwrGood = true) :
    (s.dev.flt.fatal = false → Restarted s (moduleReset o s)) ∧ (s.dev.flt.fatal = true → Refused s (moduleReset o s)) := by
  unfold moduleReset
  rw [if_neg (by simp [hon, hg])]
  dsimp only
  refine ⟨fun hf => ?_, fun hf => ?_⟩
  · rw [if_neg (by simp [hf])]
    exact restarted_keptDev (s := s) (mem_powerNotice (logReset o s.dev)) (poison_powerNotice _) (regions_powerNotice _)
  · rw [if_pos hf]
    exact ⟨rfl, rfl, rfl, rfl, rfl, rfl⟩

/-- WARM_RESET_N leaves the device what it was, its own source apart, when the module resets (R451). -/
theorem offIcu_warm (d : Dev) : (setWire 833 true (setWire 833 false d)).offIcu = d.offIcu :=
  (offIcu_setWire ..).trans (offIcu_setWire ..)

/-- A warm reset, and a management session's write, is a module reset of what differs in the controller alone. -/
theorem reset_cases {i : Instr} {s : State}
    (hi : (i = .warmReset ∧ s.dev.pins.powerEn = true) ∨ ∃ who, i = .pwrResetModule who ∧ isManager s.dev who = true) :
    ∃ o d, d.offIcu = s.dev.offIcu ∧ exec i s = .next (moduleReset o { s with dev := d }) := by
  rcases hi with ⟨rfl, hp⟩ | ⟨who, rfl, hw⟩
  · exact ⟨(3, 2), _, offIcu_warm s.dev, congrArg Host.Outcome.next (if_neg (by simp [hp]))⟩
  · exact ⟨writerOrigin who, s.dev, rfl, congrArg Host.Outcome.next (if_pos hw)⟩

/-- Settles O32: the rise, the two ways down, the loss of the reference, and the two ways to reset. -/
theorem powerPinsAndResets : Obligations.PowerPinsAndResets := by
  unfold Obligations.PowerPinsAndResets
  refine ⟨fun s ha hp hi => ?_, fun i s hi hon => ?_, fun s hon => next_onDev (if_pos hon), fun i s hi hon hg => ?_⟩
  · obtain ⟨l, hl⟩ := powerRise_of_ready ha hp hi
    exact ⟨l, next_onDev hl⟩
  · obtain ⟨t, ht, h⟩ : ∃ t, exec i s = .next t ∧ Unpowered s t := by
      rcases hi with rfl | ⟨v, rfl⟩
      · exact ⟨_, rfl, powerFall_of_on hon⟩
      · exact ⟨_, rfl, inputFails_of_on hon v⟩
    exact ⟨t, ht, h.off, h.released, h.sessions, h.queues, h.jobs, h.mem, h.regions, h.snap, h.nv, h.pending⟩
  · obtain ⟨o, d, hd, hx⟩ := reset_cases hi
    have hpower : d.power = s.dev.power := (congrArg Dev.power hd :)
    have hpins : d.pins = s.dev.pins := (congrArg Dev.pins hd :)
    have hflt : d.flt = s.dev.flt := (congrArg Dev.flt hd :)
    have hmem : d.mem = s.dev.mem := (congrArg Dev.mem hd :)
    have hpoison : d.poison = s.dev.poison := (congrArg Dev.poison hd :)
    have hregions : d.regions = s.dev.regions := (congrArg Dev.regions hd :)
    have hsessions : d.sessions = s.dev.sessions := (congrArg Dev.sessions hd :)
    obtain ⟨hwarm, hfatal⟩ := moduleReset_cases (s := { s with dev := d }) o (hpower ▸ hon) (hpins ▸ hg)
    refine ⟨fun hf => ?_, fun hf => ?_⟩
    · have h := hwarm (hflt ▸ hf)
      exact ⟨_, hx, h.on, h.phase, h.serving, h.sessions, h.queues, h.jobs, h.mem.trans hmem, h.poison.trans hpoison,
        fun r x hr => h.regions r x (hregions ▸ hr), h.crews, h.snap, h.nv⟩
    · have h := hfatal (hflt ▸ hf)
      exact ⟨_, hx, h.mem.trans hmem, h.regions.trans hregions, h.sessions.trans hsessions, h.power.trans hpower, h.flt.trans hflt, h.nv⟩

/-! ### The cluster domain of a die -/

/-- A number by the field between two bits, what stands above it and what stands below. -/
theorem testBit_around (q f low lo n k : Nat) (hf : f < 2 ^ n) (hl : low < 2 ^ lo) :
    (2 ^ lo * (2 ^ n * q + f) + low).testBit k
      = if k < lo then low.testBit k else if k - lo < n then f.testBit (k - lo) else q.testBit (k - lo - n) := by
  rw [Nat.testBit_two_pow_mul_add _ hl, Nat.testBit_two_pow_mul_add _ hf]

/-- A field put into a number: its bits are the value's, and every other as before. -/
theorem bitAt_putBits {hi lo : Nat} (w v k : Nat) (h : lo ≤ hi) :
    bitAt (putBits w hi lo v) k = if lo ≤ k ∧ k ≤ hi then bitAt v (k - lo) else bitAt w k := by
  obtain ⟨n, rfl⟩ : ∃ n, hi = lo + n := ⟨hi - lo, by omega⟩
  have hn : lo + n + 1 - lo = n + 1 := by omega
  have hf := Nat.mod_lt (w / 2 ^ lo) (Nat.two_pow_pos (n + 1))
  have hg := Nat.mod_lt v (Nat.two_pow_pos (n + 1))
  have hl := Nat.mod_lt w (Nat.two_pow_pos lo)
  have hw : w = 2 ^ lo * (2 ^ (n + 1) * (w / 2 ^ lo / 2 ^ (n + 1)) + w / 2 ^ lo % 2 ^ (n + 1)) + w % 2 ^ lo := by
    rw [Nat.div_add_mod, Nat.div_add_mod]
  have hput : putBits w (lo + n) lo v
      = 2 ^ lo * (2 ^ (n + 1) * (w / 2 ^ lo / 2 ^ (n + 1)) + v % 2 ^ (n + 1)) + w % 2 ^ lo := by
    simp only [putBits, bitsOf, hn, Nat.mul_add, Nat.mul_comm _ (2 ^ lo)] at hw ⊢
    omega
  simp only [bitAt_eq_testBit]
  rw [hput, testBit_around _ _ _ _ _ _ hg hl]
  conv_rhs => rw [hw]
  rw [testBit_around _ _ _ _ _ _ hf hl, Nat.testBit_mod_two_pow]
  by_cases h1 : k < lo
  · rw [if_pos h1, if_neg (by omega), if_pos h1]
  · by_cases h2 : k - lo < n + 1
    · rw [if_neg h1, if_pos h2, if_pos (by omega)]
      simp [h2]
    · rw [if_neg h1, if_neg h2, if_neg (by omega), if_neg h1, if_neg h2]

/-- A field of a number, bit by bit. -/
theorem bitAt_bitsOf (w hi lo k : Nat) : bitAt (bitsOf w hi lo) k = (decide (k < hi + 1 - lo) && bitAt w (lo + k)) := by
  simp only [bitAt_eq_testBit, bitsOf, Nat.testBit_mod_two_pow, Nat.testBit_div_two_pow, Nat.add_comm]

/-- The 64 bits of a die set from another mask: those of its cores are the other's, the rest as before. -/
theorem bitAt_dieMask (die old new k : Nat) : bitAt (dieMask die old new) k = if k / 64 = die then bitAt new k else bitAt old k := by
  rw [dieMask, bitAt_putBits _ _ _ (by omega), bitAt_bitsOf]
  by_cases h : k / 64 = die
  · rw [if_pos (by omega), if_pos h, show 64 * die + (k - 64 * die) = k by omega]
    simp
    omega
  · rw [if_neg (by omega), if_neg h]

/-- A number is what a mask keeps of it and what the mask clears. -/
theorem and_add_ldiff (n m : Nat) : (n &&& m) + Nat.ldiff n m = n := by
  induction n using Nat.binaryRec generalizing m with
  | zero => simp [Nat.ldiff]
  | bit b n ih =>
    rw [← Nat.bit_bodd_div2 m, Nat.land_bit, Nat.ldiff_bit]
    have := ih m.div2
    cases b <;> cases m.bodd <;> simp only [Nat.bit, cond_true, cond_false, Bool.and_true, Bool.and_false, Bool.not_true, Bool.not_false] <;>
      omega

/-- Bits of a number cleared by a mask. -/
theorem bitAt_sub_and (n m k : Nat) : bitAt (n - (n &&& m)) k = (bitAt n k && !bitAt m k) := by
  have h : n - (n &&& m) = Nat.ldiff n m := by
    have := and_add_ldiff n m
    omega
  simp only [bitAt_eq_testBit, h, Nat.testBit_ldiff]

/-- The bits of a mask of 128 cores below its width. -/
theorem bitAt_mod_width {m k : Nat} (h : k < 128) : bitAt (m % 2 ^ 128) k = bitAt m k := by
  rw [bitAt_eq_testBit, bitAt_eq_testBit, Nat.testBit_mod_two_pow, decide_eq_true h, Bool.true_and]

/-- A die's cluster domain may be reset by a manager while no crew's core set touches it; any other write changes nothing (R442). -/
theorem dieResetWrite_of_free {d : Dev} {who : Writer} {die : Nat} (hw : isManager d who = true) (hd : die < 2) (hu : dieInUse d die = false) :
    ∃ l, (dieResetWrite who die d).2 = relog l (dieReset die d) := by
  unfold dieResetWrite
  rw [if_neg (by simp [hw, hu]; omega)]
  exact ⟨_, rfl⟩

theorem dieResetWrite_of_refused {d : Dev} {who : Writer} {die : Nat}
    (h : isManager d who = false ∨ 2 ≤ die ∨ dieInUse d die = true) : dieResetWrite who die d = (stOkPartial, d) := by
  unfold dieResetWrite
  rw [if_pos (by simpa using h)]

/-- The scratchpads of the die read zero after its reset (R442). -/
theorem scratch_dieReset {d : Dev} {core off : Nat} (ho : off < 2 ^ 21) :
    memByte (dieReset (core / 64) d).scratch (scratchAddr core off) = 0#8 := by
  refine memByte_memClear_in _ ?_ ?_
  · simp only [scratchAddr]
    omega
  · simp only [scratchAddr]
    omega

/-- The end of a die's cluster reset (R442). -/
theorem clusterResetEnd_of_resetting {d : Dev} {die : Nat} (h : die ∈ d.power.dieResetting) (passed : Nat) :
    let e := clusterResetEnd die passed d
    e.power.dieResetting = d.power.dieResetting.filter (· != die) ∧ e.mem = d.mem
      ∧ e.cfg.passed = dieMask die d.cfg.passed passed % 2 ^ 128
      ∧ e.flt.retired = dieMask die d.flt.retired (d.flt.retired - (d.flt.retired &&& passed)) := by
  unfold clusterResetEnd
  rw [if_neg (by simpa using h)]
  exact ⟨rfl, rfl, rfl, rfl⟩

/-! ### The clock and the level sources -/

/-- The clock after a millisecond (R445). -/
theorem nextClock_cases (d : Dev) (x : Sensors) :
    let temp := cfgField d 0x140038 7 0
    let limit := cfgField d 0x140038 47 32
    (x.d0 ≥ temp ∨ x.d1 ≥ temp ∨ x.watts > limit → nextClock d x = max 400 (d.power.clock - 50))
    ∧ (x.d0 < temp → x.d1 < temp → x.watts ≤ limit → x.d0 + 5 < temp → x.d1 + 5 < temp → x.watts + 50 < limit →
        nextClock d x = min 850 (d.power.clock + 50))
    ∧ (x.d0 < temp → x.d1 < temp → x.watts ≤ limit → (temp ≤ x.d0 + 5 ∨ temp ≤ x.d1 + 5 ∨ limit ≤ x.watts + 50) →
        nextClock d x = d.power.clock) := by
  unfold nextClock
  dsimp only
  refine ⟨fun h => ?_, fun h1 h2 h3 h4 h5 h6 => ?_, fun h1 h2 h3 h => ?_⟩
  · rw [if_pos (by omega)]
  · rw [if_neg (by omega), if_pos (by omega)]
  · rw [if_neg (by omega), if_neg (by omega)]

/-- The device with a millisecond's readings shown and the clock moved, but for ENG_CLOCK (R445, R446). -/
def metered (x : Sensors) (d : Dev) : Dev :=
  { (drawNat d).2 with power := { d.power with
      clock := nextClock d x, d0 := x.d0 % 256, d1 := x.d1 % 256, powerW := (drawNat d).1 % 65536
      vin := x.vin % 65536, iin := x.iin % 65536, pin := x.watts % 65536 } }

theorem throttleStep_of_on {d : Dev} (h : d.power.on = true) (x : Sensors) :
    throttleStep x d = setField 0xB0028 9 0 (nextClock d x) (metered x d) := if_neg (by simp [h])

/-- A field of ten bits at the foot of a register that was given a value reads as its low bits. -/
theorem bitsOf_setField_low (o v : Nat) (d : Dev) : bitsOf (regRaw (setField o 9 0 v d) o) 9 0 = v % 1024 := by
  simp only [setField, regRaw_setReg_self, putBits, bitsOf]
  omega

theorem regRaw_setField_ne {o x : Nat} (h : x ≠ o) (hi lo v : Nat) (d : Dev) : regRaw (setField o hi lo v d) x = regRaw d x :=
  regRaw_setReg_ne _ _ h

theorem inputWarning_eq (outside : Bool) (d : Dev) :
    inputWarning outside d = setWire 836 outside { d with pins := { d.pins with inputOk := d.pins.inputOk || !outside } } := by
  cases outside with
  | false => simp [inputWarning]
  | true => simp [inputWarning]

/-- Settles O35: the clock, and each level source by its wire. -/
theorem clockAndLevelSources : Obligations.ClockAndLevelSources := by
  unfold Obligations.ClockAndLevelSources
  refine ⟨fun x s hon => ?_, fun die above s hd => next_onDev (if_pos hd), fun outside s => next_onDev (inputWarning_eq ..),
    fun s => ⟨rfl, rfl⟩, fun n lvl d hn hr => ?_⟩
  · obtain ⟨hdown, hup, hstay⟩ := nextClock_cases s.dev x
    exact ⟨_, next_onDev (throttleStep_of_on hon x), hdown, hup, hstay, bitsOf_setField_low .., rfl, rfl, rfl, rfl, rfl,
      fun o ho => regRaw_setField_ne ho ..⟩
  · rw [setWire_of_native lvl hn hr]
    exact ⟨srcOf_setSrc_self .., fun k hk => srcOf_setSrc_ne _ _ _ _ hk⟩

end Sys2Proof.Machine

namespace Sys2Proof
open Machine

/-- Settles O33: the write accepted and refused, and the end bit by bit. -/
theorem dieReset : Obligations.DieReset := by
  unfold Obligations.DieReset
  refine ⟨fun who die s hw hd hu => ?_, fun who die s h => ?_, fun die passed s hd h => ?_⟩
  · obtain ⟨l, hl⟩ := dieResetWrite_of_free hw hd hu
    refine ⟨_, next_onDev hl, fun core off hc _ ho => ?_, rfl, rfl, rfl, rfl, rfl, rfl, ?_⟩
    · subst hc
      exact scratch_dieReset ho
    · show die ∈ addTo s.dev.power.dieResetting die
      unfold addTo
      split
      · assumption
      · exact List.mem_append_right _ (List.mem_singleton_self die)
  · have hr := dieResetWrite_of_refused h
    exact ⟨next_onDev (congrArg Prod.snd hr), congrArg Prod.fst hr⟩
  · obtain ⟨hres, hmem, hpass, hret⟩ := clusterResetEnd_of_resetting h passed
    refine ⟨_, next_onDev rfl, ?_, hmem, fun k hk hin => ?_, fun k hk hout => ?_, fun k hk => ?_⟩
    · rw [hres]
      simp
    · rw [hpass, bitAt_mod_width hk, bitAt_dieMask, if_pos hin]
    · rw [hpass, bitAt_mod_width hk, bitAt_dieMask, if_neg hout]
    · rw [hret, bitAt_dieMask, bitAt_sub_and]
      by_cases hin : k / 64 = die <;> simp [hin]

end Sys2Proof
end

section
/-! Changes of a vector index, its filters and MERGE (R315 to R317, R324, R325, R328). -/

namespace Sys2Proof.Machine

/-! ### Records -/

@[simp] theorem indexOf_setIndex_self (i : Nat) (x : Index) (d : Dev) : indexOf (setIndex i x d) i = x := by
  simp [indexOf, setIndex]

theorem indexOf_setIndex_ne {i k : Nat} (h : k ≠ i) (x : Index) (d : Dev) : indexOf (setIndex i x d) k = indexOf d k := by
  simp [indexOf, setIndex, tGet?_tSet_ne _ _ h]

/-! ### INSERT and DELETE -/

/-- What an INSERT reads: its vector, where that is not inline (R315). -/
def insertSpan (g : IndexDesc) (c : Cmd) : Span :=
  if bitAt (pNat c 2 1) 0 then (0, 0, 0) else (pNat c 8 8, g.dim * vfmtBytes g.vfmt, pNat c 16 5)

/-- The bytes of an INSERT's vector: inline in its command, or as they were read. -/
def insertBytes (g : IndexDesc) (c : Cmd) (x : List (List Part)) : List Byte :=
  if bitAt (pNat c 2 1) 0 then slice c.params 32 (g.dim * vfmtBytes g.vfmt) else spanBytes (x.getD 0 [])

/-- What a side list stores of a vector: itself, or under COSINE its normalised form (R315). -/
def storedVector (g : IndexDesc) (n0 : Nat) (v : List Byte) : List Byte :=
  if g.metric = 2 then encodeArray g.vfmt ((normalise n0 ((decodeArray g.vfmt g.dim v).map toF32)).map f32Val) else v

section Insert
variable {q : QCmd} {d e : Dev} (hpass : changeCheck (pruneSide (pNat q.cmd 0 1) d) q = none)
include hpass

theorem insertBody_of_unread
    (h : fetch q [insertSpan (indexOf (pruneSide (pNat q.cmd 0 1) d) (pNat q.cmd 0 1)).desc q.cmd] (pruneSide (pNat q.cmd 0 1) d) = (none, e)) :
    insertBody q d = e := by
  unfold insertSpan at h
  simp only [insertBody, hpass, h]

variable {x : List (List Part)}
  (h : fetch q [insertSpan (indexOf (pruneSide (pNat q.cmd 0 1) d) (pNat q.cmd 0 1)).desc q.cmd] (pruneSide (pNat q.cmd 0 1) d) = (some x, e))
include h

theorem insertBody_of_bad (hbad : spansBad x ≠ stOk) : insertBody q d = completeSt q (spansBad x) e := by
  unfold insertSpan at h
  simp only [insertBody, hpass, h, if_pos hbad]

/-- An INSERT whose vector has been read is appended (R315, R316). -/
theorem insertBody_of_read (hok : spansBad x = stOk) :
    let g := (indexOf (pruneSide (pNat q.cmd 0 1) d) (pNat q.cmd 0 1)).desc
    insertBody q d = appendSide q (pNat q.cmd 0 1) false (storedVector g e.draws (insertBytes g q.cmd x)) { e with draws := e.draws + 1 } := by
  unfold insertSpan at h
  simp only [insertBody, hpass, h, hok, ne_eq, not_true, if_false]
  rfl

end Insert

theorem deleteBody_of_passes {q : QCmd} {d : Dev} (hpass : changeCheck (pruneSide (pNat q.cmd 0 1) d) q = none) :
    deleteBody q d = appendSide q (pNat q.cmd 0 1) true [] (pruneSide (pNat q.cmd 0 1) d) := by
  simp only [deleteBody, hpass]

/-- An index with one entry more behind those of its side list (R316). -/
def Index.appended (x : Index) (stroke ordinal : Nat) (isDelete : Bool) : Index :=
  { x with
    sideNext := x.sideNext + 1
    sideList := x.sideList ++ [{ slot := x.sideNext % max 1 x.desc.sideSlots, publish := stroke, ordinal, isDelete }] }

/-! ### Filters -/

/-- The filter that a FILTER_SET leaves in a slot (R324). -/
def filterSet (c : Cmd) (f : Filter) : Filter :=
  { bound := pNat c 2 1 == 0, gen := nextGen8 f.gen, bitmap := if pNat c 2 1 == 0 then pNat c 8 8 else 0 }

/-- The index with that filter. -/
def Index.filtered (x : Index) (c : Cmd) : Index :=
  { x with filters := tSet x.filters (pNat c 3 1) (filterSet c ((tGet? x.filters (pNat c 3 1)).getD {})) }

theorem filterBody_of_passes {q : QCmd} {d : Dev} (h : filterCheck d q = none) :
    filterBody q d = complete q stOk
      [nextGen8 ((tGet? (indexOf d (pNat q.cmd 0 1)).filters (pNat q.cmd 3 1)).getD {}).gen, d.stk.number % 2 ^ 32] []
      (setIndex (pNat q.cmd 0 1) ((indexOf d (pNat q.cmd 0 1)).filtered q.cmd) d) := by
  simp only [filterBody, h]
  rfl

/-! ### MERGE -/

/-- What a MERGE reads: its descriptor, but for a DETACH (R325). -/
def mergeSpan (c : Cmd) : Span := if pNat c 0 1 = 2 then (0, 0, 0) else (pNat c 8 8, 128, pNat c 16 5)

section Merge
variable {q : QCmd} {d e : Dev} {x : List (List Part)} (hpass : mergeCheck d q = none) (h : fetch q [mergeSpan q.cmd] d = (some x, e))
  (hok : spansBad x = stOk)
include hpass h hok

theorem mergeBody_of_late {st : Nat} (hl : mergeLate e q (spanBytes (x.getD 0 [])) = some st) : mergeBody q d = completeSt q st e := by
  unfold mergeSpan at h
  simp only [mergeBody, hpass, h, hok, ne_eq, not_true, if_false, hl]

/-- A MERGE that passes its checks starts a long operation that keeps the descriptor; a FOLD marks its index (R325). -/
theorem mergeBody_of_passes (hl : mergeLate e q (spanBytes (x.getD 0 [])) = none) : mergeBody q d =
    let i := if pNat q.cmd 0 1 = 0 then 64 else pNat q.cmd 1 1
    startOp q { first := i, words := [leNat (spanBytes (x.getD 0 []))] }
      (if pNat q.cmd 0 1 = 1 then setIndex i { indexOf e i with state := 2 } e else e) := by
  unfold mergeSpan at h
  simp only [mergeBody, hpass, h, hok, ne_eq, not_true, if_false, hl]

end Merge

/-! ### A detached index -/

theorem indexFree_of_bound {i : Nat} {d : Dev} (h : (indexOf d i).state ≠ 3 ∨ searchesOn d i ≠ []) : indexFree i d = d :=
  if_pos (h.imp_right fun hs => by simpa using hs)

/-- The device with a detached index absent at a bumped generation, and the change logged (R328). -/
def indexFreed (i : Nat) (q : QCmd) (d : Dev) : Dev :=
  let x := indexOf d i
  let g := nextGen8 x.gen
  logCmd q x.crew 9 (i + g * 256) x.gen g (setIndex i { gen := g } d)

theorem indexFreed_eq (i : Nat) (q : QCmd) (d : Dev) :
    ∃ l, indexFreed i q d = relog l (setIndex i { gen := nextGen8 (indexOf d i).gen } d) := by
  unfold indexFreed logCmd
  dsimp only
  split
  · exact ⟨d.log, rfl⟩
  · exact ⟨_, rfl⟩

theorem indexFree_of_free {i : Nat} {d : Dev} {l : Nat × LongOp} (h3 : (indexOf d i).state = 3) (hs : searchesOn d i = [])
    (hl : ((liveOps d).find? fun l => l.2.opcode == 0x504 && l.2.first == i && l.2.committed) = some l) :
    indexFree i d = endOp l.1 stOk [] (indexFreed i l.2.q d) := by
  have hl' : ((liveOps (setIndex i { gen := nextGen8 (indexOf d i).gen } d)).find? fun l =>
      l.2.opcode == 0x504 && l.2.first == i && l.2.committed) = some l := hl
  unfold indexFree
  dsimp only
  rw [if_neg (by simp [h3, hs]), hl']
  rfl

/-- Settles O45: each row by its checks and what it reads; an entry appended; and a detached index by the searches on it. -/
theorem indexChangesFiltersAndMerges : Obligations.IndexChangesFiltersAndMerges := by
  unfold Obligations.IndexChangesFiltersAndMerges
  refine ⟨fun c s q t l e hb => ?_, fun c s q t hb hp => next_ends_of_begins hb (deleteBody_of_passes hp), fun q i del v d => ?_,
    fun op r c s q t hr hb hop hp => ?_, fun op r c s q t l e hr hb hop hp hf hok => ?_, fun i s h => next_onDev (indexFree_of_bound h),
    fun i l s h3 hs hl => ?_⟩
  · intro i d hp g n il hf
    refine ⟨fun hl => ?_, fun x hl => ⟨fun hbad => ?_, fun hok => ?_⟩⟩
    · subst hl
      exact next_ends_of_begins hb (insertBody_of_unread hp hf)
    · subst hl
      exact next_ends_of_begins hb (insertBody_of_bad hp hf hbad)
    · subst hl
      exact next_ends_of_begins hb (insertBody_of_read hp hf hok)
  · exact ⟨setIndex i ((indexOf d i).appended d.stk.number (pNat q.cmd 4 4) del) d, rfl, indexOf_setIndex_self ..,
      fun k hk => indexOf_setIndex_ne hk .., rfl, rfl, rfl⟩
  · intro i f g
    refine ⟨setIndex i ((indexOf t.dev i).filtered q.cmd) t.dev, ?_, ?_, fun k hk => ?_, fun k hk => indexOf_setIndex_ne hk .., rfl⟩
    · rcases hr with ⟨rfl, rfl⟩ | ⟨rfl, rfl⟩ <;> exact next_ends_of_begins hb (filterBody_of_passes hp)
    · rw [indexOf_setIndex_self, Index.filtered, tGet?_tSet_self, filterSet, hop]
      simp only [beq_iff_eq]
      rfl
    · rw [indexOf_setIndex_self, Index.filtered, tGet?_tSet_ne _ _ hk]
  · have hspan : (if op = 2 then ((0, 0, 0) : Span) else (pNat q.cmd 8 8, 128, pNat q.cmd 16 5)) = mergeSpan q.cmd := by
      rw [← hop]; rfl
    rw [hspan] at hf
    intro b
    refine ⟨fun st hl => ?_, fun hl => ?_⟩
    · have hbody := mergeBody_of_late hp hf hok hl
      rcases hr with ⟨rfl, rfl⟩ | ⟨rfl, rfl⟩ | ⟨rfl, rfl⟩ <;> exact next_ends_of_begins hb hbody
    · have hbody := mergeBody_of_passes hp hf hok hl
      rw [hop] at hbody
      rcases hr with ⟨rfl, rfl⟩ | ⟨rfl, rfl⟩ | ⟨rfl, rfl⟩ <;> exact next_ends_of_begins hb hbody
  · obtain ⟨g, hg⟩ := indexFreed_eq i l.2.q s.dev
    refine ⟨_, next_onDev (indexFree_of_free h3 hs hl), ?_⟩
    rw [hg]
    exact ⟨indexOf_setIndex_self .., fun k hk => indexOf_setIndex_ne hk .., rfl, rfl⟩

end Sys2Proof.Machine
end

section
/-! SEARCH and its list scans (R317 to R324). -/

namespace Sys2Proof.Machine

/-! ### A SEARCH started -/

/-- A SEARCH as it is entered (R317, R320, R324): the index version, the filter's bitmap and the changes visible in its stroke. -/
def searchEntry (q : QCmd) (d : Dev) : Search :=
  let x := indexOf d (pNat q.cmd 0 1)
  { q, crew := q.cmd.crew, index := pNat q.cmd 0 1, desc := x.desc, start := d.stk.number
    bitmap := if bitAt (pNat q.cmd 2 1) 1 then some ((tGet? x.filters (pNat q.cmd 9 1)).getD {}).bitmap else none
    side := x.sideList.filter fun e => e.retired.isNone && decide (e.publish < d.stk.number) }

/-- The device with the SEARCH entered and counted. -/
def searchEntered (q : QCmd) (d : Dev) : Dev :=
  bumpReg (0xE8000 + 0x10 * q.cmd.crew) 63 0 1
    (bumpReg 0xE0008 63 32 1 { d with searches := tSet d.searches q.id (searchEntry q d) })

/-- The visible inserts of a SEARCH that nothing later replaces (R317, R318). -/
def visibleInserts (s : Search) : List SideEntry := s.side.filter fun e => latest s.side e.ordinal == some e && !e.isDelete

/-- What a SEARCH reads first: its query, the centroids and the visible inserts (R321). -/
def searchReads (q : QCmd) (s : Search) (u : Dev) : List Span :=
  [if bitAt (pNat q.cmd 2 1) 0 then (0, 0, 0) else (pNat q.cmd 16 8, queryBytes s.desc q.cmd, pNat q.cmd 24 5),
    (s.desc.centroids, s.desc.nlist * s.desc.dim * 2, devKey u s.desc.centroids)]
    ++ (visibleInserts s).map fun e =>
      (sideAddr s.desc e.slot + 16, s.desc.dim * vfmtBytes s.desc.vfmt, devKey u (sideAddr s.desc e.slot))

/-- A SEARCH's query from what it has read, normalised under COSINE. -/
def searchQuery (q : QCmd) (g : IndexDesc) (n0 : Nat) (z : List (List Part)) : List (BitVec 32) :=
  let qb := if bitAt (pNat q.cmd 2 1) 0 then slice q.cmd.params 64 (queryBytes g q.cmd) else spanBytes (z.getD 0 [])
  let qv := (decodeArray (pNat q.cmd 3 1) g.dim qb).map toF32
  if g.metric = 2 then normalise n0 qv else qv

/-- The lists that a SEARCH visits: its NPROBE nearest, sums drawn from n0 on (R321). -/
def probed (s : Search) (n0 : Nat) (cents : List Byte) : List Nat :=
  ((sortBy (fun p : Nat × BitVec 32 => f32Key p.2)
    (((List.range s.desc.nlist).zip (centroidRows s.desc cents)).map fun r =>
      (r.1, exactDist s.desc.metric (n0 + r.1)
        ((decodeArray 1 s.desc.dim (encodeArray 1 (s.query.map f32Val))).map toF32) r.2))).take (pNat s.q.cmd 6 2)).map (·.1)

/-- The coarse stage leaves the SEARCH waiting for a scan of its nearest lists, and memory as it was (R321). -/
theorem coarse_spec (id : Nat) (s : Search) (cents : List Byte) (vecs : List (List Byte)) (d : Dev) :
    ∃ w, tGet? (coarse id s cents vecs d).searches id = some w ∧ w.stage = 1 ∧ w.start = s.start ∧ w.desc = s.desc ∧ w.side = s.side
      ∧ w.bitmap = s.bitmap ∧ w.query = s.query ∧ w.visits = probed s d.draws cents ∧ (coarse id s cents vecs d).mem = d.mem :=
  ⟨_, tGet?_tSet_self .., rfl, rfl, rfl, rfl, rfl, rfl, rfl, rfl⟩

section Run
variable {q : QCmd} {d e : Dev} (hnew : tGet? d.searches q.id = none)
include hnew

theorem searchRun_of_unread (h : fetch q (searchReads q (searchEntry q d) (searchEntered q d)) (searchEntered q d) = (none, e)) :
    searchRun q d = e := by
  unfold searchReads visibleInserts searchEntered searchEntry at h
  dsimp only at h
  simp only [searchRun, hnew, h]

variable {z : List (List Part)}
  (h : fetch q (searchReads q (searchEntry q d) (searchEntered q d)) (searchEntered q d) = (some z, e))
include h

/-- What a SEARCH cannot read ends it with that status and no results (R321). -/
theorem searchRun_of_bad (hbad : spansBad z ≠ stOk) :
    searchRun q d = searchWrite q d.stk.number (spansBad z) 0 [] { e with searches := tDel e.searches q.id } := by
  unfold searchReads visibleInserts searchEntered searchEntry at h
  dsimp only at h
  simp only [searchRun, hnew, h, if_pos hbad]

/-- A SEARCH that has read all of it runs its coarse stage (R321). -/
theorem searchRun_of_read (hok : spansBad z = stOk) : searchRun q d =
    coarse q.id { searchEntry q d with query := searchQuery q (searchEntry q d).desc e.draws z } (spanBytes (z.getD 1 []))
      ((z.drop 2).map spanBytes) { e with draws := e.draws + 1 } := by
  unfold searchReads visibleInserts searchEntered searchEntry at h
  dsimp only at h
  simp only [searchRun, hnew, h, hok, ne_eq, not_true, if_false]
  rfl

end Run

theorem searchBody_of_room {q : QCmd} {d : Dev} (hnew : tGet? d.searches q.id = none) (hp : searchCheck d q = none)
    (hroom : d.searches.length < 16384) : searchBody q d = searchRun q d := by
  simp only [searchBody, hnew, hp, Option.isSome_none, Bool.false_eq_true, if_false]
  exact if_neg (by omega)

/-! ### A list scan -/

theorem listScan_of_midwindow {i : Nat} {d : Dev} (h : d.stk.number % max 1 (cfgField d 0xE0000 3 0) ≠ 0) : listScan i d = d :=
  if_pos h

/-- Of one query due no visit is shared (R321). -/
theorem visitShared_of_one (g : IndexDesc) (y : Search) (l : Nat) : visitShared g [y] l 0 = false := by
  have hone : ([y].filter fun s => s.visits.contains l).length ≤ 1 := List.length_filter_le _ [y]
  simp only [visitShared, Nat.zero_div, Nat.zero_mul, Nat.sub_zero, decide_eq_false_iff_not]
  omega

/-- A scan at the end of a window with one SEARCH due and no line held by an agent finishes that SEARCH on a device whose scans have
been counted (R321). -/
theorem listScan_of_one {i id : Nat} {y : Search} {d : Dev} (hw : d.stk.number % max 1 (cfgField d 0xE0000 3 0) = 0) (hd : d.dir = [])
    (hdue : ((searchesOn d i).filter fun x => x.2.stage == 1 && decide (x.2.start < d.stk.number)) = [(id, y)]) :
    ∃ e, listScan i d = finishSearch id 0 y e ∧ e.mem = d.mem ∧ e.indexes = d.indexes ∧ e.searches = d.searches := by
  have hshared : ((y.visits.filter fun l => visitShared y.desc [y] l 0).length : Nat) = 0 := by
    simp only [visitShared_of_one, List.filter_false, List.length_nil]
  unfold listScan
  dsimp only
  rw [if_neg (by simpa using hw), hdue, recallRanges_of_no_dir hd]
  simp only [Bool.not_true, Bool.false_eq_true, if_false, List.map_cons, List.map_nil, List.head?_cons, Option.map_some, Option.getD_some,
    List.length_cons, List.length_nil, Nat.zero_add, List.range_one, List.zip_cons_cons, List.zip_nil_left, List.take_zero,
    List.filter_nil, hshared, List.foldl_cons, List.foldl_nil]
  exact ⟨_, rfl, rfl, rfl, rfl⟩

/-! ### A SEARCH finished -/

/-- The lists of a SEARCH scanned one after another, sums drawn on from one to the next. -/
def scanned (d : Dev) (y : Search) : List Cand :=
  let t := distTable y.desc d.draws (memRead d.mem y.desc.codebook (1024 * y.desc.dim)) y.query
  (y.visits.map fun l => listItems d y.desc l).foldl
    (fun a l => a ++ scanList d y (d.draws + 256 * y.desc.m + a.length) t l.1) []

theorem countIgnored_frame (i n : Nat) (d : Dev) :
    ∃ x, countIgnored i n d = { d with indexes := x } := by
  unfold countIgnored
  split
  · exact ⟨d.indexes, rfl⟩
  · exact ⟨_, rfl⟩

/-- The device with a SEARCH's scans drawn and its ignored entries counted, and the SEARCH gone. -/
def searchLeft (id : Nat) (y : Search) (d : Dev) : Dev :=
  let e := countIgnored y.index ((y.visits.map fun l => listItems d y.desc l).foldl (fun a l => a + l.2) 0)
    { d with draws := d.draws + 256 * y.desc.m + (scanned d y).length }
  { e with searches := tDel e.searches id }

theorem searchLeft_frame (id : Nat) (y : Search) (d : Dev) : ∃ n x, searchLeft id y d =
    { d with draws := n, indexes := x, searches := tDel d.searches id } := by
  obtain ⟨x, hx⟩ := countIgnored_frame y.index ((y.visits.map fun l => listItems d y.desc l).foldl (fun a l => a + l.2) 0)
    { d with draws := d.draws + 256 * y.desc.m + (scanned d y).length }
  refine ⟨d.draws + 256 * y.desc.m + (scanned d y).length, x, ?_⟩
  unfold searchLeft
  rw [hx]

/-- A SEARCH without hops that finishes: its results are the K best of its candidates and of what its lists held (R322, R323), and
poisoned data ends it with none. -/
theorem finishSearch_of_no_hops (id shared : Nat) (y : Search) (d : Dev) (h : pNat y.q.cmd 8 1 = 0) :
    finishSearch id shared y d =
      if y.visits.any (listPoisoned d y.desc) || poisonIn d y.desc.codebook (1024 * y.desc.dim) then
        searchWrite y.q y.start stPoisoned shared [] (searchLeft id y d)
      else searchWrite y.q y.start stOk shared
        (((sortBy Cand.key (y.cands ++ scanned d y)).filter (·.returnable)).take (pNat y.q.cmd 4 2)) (searchLeft id y d) := by
  unfold finishSearch
  dsimp only
  rw [if_pos h, Bool.or_false]
  rfl

/-- What a scan returns of an item: not tombstoned, allowed by the filter, and a number (R318, R324). -/
theorem returnable_of_mem_scanList {d : Dev} {y : Search} {n0 : Nat} {t : List (List (BitVec 32))} {items : List (Nat × List Byte)}
    {x : Cand} (hx : x ∈ scanList d y n0 t items) :
    x.returnable = (!tombstoned y x.ordinal && allowed d y.bitmap x.ordinal && !isNanF32 x.dist) := by
  obtain ⟨p, -, rfl⟩ := List.mem_map.mp hx
  rfl

/-- Settles O46: a SEARCH by what it reads, a scan by its window, and a SEARCH finished. -/
theorem searchesAndListScans : Obligations.SearchesAndListScans := by
  unfold Obligations.SearchesAndListScans
  refine ⟨fun c s q t hb hnew hp hroom => ?_, fun i s h => next_onDev (listScan_of_midwindow h), fun i id y s hw hd hdue => ?_,
    fun id shared y d h => ?_, fun d y n0 t items x hx => returnable_of_mem_scanList hx⟩
  · refine ⟨searchRun q t.dev, searchEntered q t.dev, next_ends_of_begins hb (searchBody_of_room hnew hp hroom), tGet?_tSet_self .., rfl, rfl,
      fun l e hf => ⟨fun hl => ?_, fun z hl => ?_⟩⟩
    · subst hl
      exact searchRun_of_unread hnew hf
    · subst hl
      refine ⟨fun hbad => searchRun_of_bad hnew hf hbad, fun hok => ?_⟩
      rw [searchRun_of_read hnew hf hok]
      obtain ⟨w, hw, h1, h2, h3, h4, h5, h6, h7, h8⟩ := coarse_spec q.id
        { searchEntry q t.dev with query := searchQuery q (searchEntry q t.dev).desc e.draws z } (spanBytes (z.getD 1 []))
        ((z.drop 2).map spanBytes) { e with draws := e.draws + 1 }
      refine ⟨w, hw, h1, h2, h3, h4, h5, h8, e.draws + 1, ?_⟩
      rw [h6, h7]
      rfl
  · obtain ⟨e, he, h1, h2, h3⟩ := listScan_of_one hw hd hdue
    exact ⟨e, next_onDev he, h1, h2, h3⟩
  · obtain ⟨n, x, hleft⟩ := searchLeft_frame id y d
    refine ⟨searchLeft id y d, ?_, ?_, ?_, ?_, finishSearch_of_no_hops id shared y d h⟩
    · rw [hleft]
    · rw [hleft]
      exact tGet?_tDel_self ..
    · rw [hleft]
    · rw [hleft]

end Sys2Proof.Machine
end

section
/-! Attestation, import keys and key slots (R339, R345 to R350). -/

namespace Sys2Proof.Machine

/-! ### ATTEST -/

/-- The leaves that no report of the open batch holds (R345). -/
def freeLeaves (d : Dev) : List Nat := (List.range 256).filter fun i => d.attest.all fun r => r.leaf != i

/-- While the batch is not full a leaf is free: fewer reports than leaves hold none of them all. -/
theorem freeLeaves_ne_nil {d : Dev} (h : d.attest.length < 256) : freeLeaves d ≠ [] := by
  intro hnil
  have hsub : List.range 256 ⊆ d.attest.map (·.leaf) := by
    intro i hi
    by_contra hnot
    have hfree : i ∈ freeLeaves d := by
      refine List.mem_filter.mpr ⟨hi, List.all_eq_true.mpr fun r hr => ?_⟩
      simp only [bne_iff_ne]
      exact fun hl => hnot (List.mem_map.mpr ⟨r, hr, hl⟩)
    rw [hnil] at hfree
    cases hfree
  have hlen := (List.nodup_range.subperm hsub).length_le
  rw [List.length_range, List.length_map] at hlen
  omega

/-- The free leaf that a report is given, by a free number (R345). -/
def leafFor (f : Nat) (d : Dev) : Nat := (freeLeaves d).getD (f % (freeLeaves d).length) 0

/-- It is one of the 256, and no report of the batch holds it. -/
theorem leafFor_spec {d : Dev} (h : d.attest.length < 256) (f : Nat) : leafFor f d < 256 ∧ ∀ x ∈ d.attest, x.leaf ≠ leafFor f d := by
  have hpos := List.length_pos_iff.mpr (freeLeaves_ne_nil h)
  have hlt := Nat.mod_lt f hpos
  have hmem : leafFor f d ∈ freeLeaves d := by
    rw [leafFor, List.getD_eq_getElem _ _ hlt]
    exact List.getElem_mem hlt
  obtain ⟨hrange, hall⟩ := List.mem_filter.mp hmem
  exact ⟨List.mem_range.mp hrange, fun x hx => by simpa using List.all_eq_true.mp hall x hx⟩

theorem attestBody_of_no_leaf {q : QCmd} {s : State} (h : lmsLeft s.dev = 0) :
    attestBody q s = { s with dev := completeSt q stDeviceFault s.dev } := if_pos h

/-- The owner of the import key that an ATTEST makes (R347). -/
def importOwner (d : Dev) (q : QCmd) : Option Nat := if fromManagement d q then none else some q.cmd.crew

/-- The import key that an ATTEST makes: live and not yet signed (R347). -/
def madeImport (d : Dev) (q : QCmd) : ImportKey :=
  { gen := nextGen8 ((tGet? d.importKeys (importIndex d)).getD {}).gen, live := true, made := (freshId d).1
    owner := importOwner d q, draw := (freshId d).2.draws }

/-- The device once that key is made and the report's leaf is drawn. -/
def attesting (q : QCmd) (d : Dev) : Nat × Dev := drawNat (newImport (importOwner d q) d).2.2

/-- The report that an ATTEST adds to the open batch (R345). -/
def attestReport (q : QCmd) (d : Dev) : Report :=
  { q, body := toLe 1 (b2n (fromManagement d q)) ++ toLe 16 (newImport (importOwner d q) d).2.1
    import_ := (newImport (importOwner d q) d).1, leaf := leafFor (attesting q d).1 (attesting q d).2 }

/-- An ATTEST with a leaf left adds its report to a batch that does not become full (R345). -/
theorem attestBody_of_leaf {q : QCmd} {s : State} (h : lmsLeft s.dev ≠ 0) (hroom : s.dev.attest.length < 255) :
    attestBody q s = { s with dev := { (attesting q s.dev).2 with
      attest := s.dev.attest ++ [attestReport q s.dev], attestFrom := some (s.dev.attestFrom.getD s.dev.stk.number) } } := by
  have hlen : ¬(s.dev.attest ++ [attestReport q s.dev]).length ≥ 256 := by
    rw [List.length_append, List.length_singleton]
    omega
  unfold attestBody
  rw [if_neg h]
  exact if_neg hlen

theorem attesting_importKeys (q : QCmd) (d : Dev) :
    (attesting q d).2.importKeys = tSet d.importKeys (importIndex d) (madeImport d q) := rfl

/-! ### A batch closed -/

theorem attestClose_of_empty {s : State} (h : s.dev.attest = []) : attestClose s = s :=
  if_pos (by rw [h]; rfl)

theorem attestClose_of_no_leaf {s : State} (h : s.dev.attest ≠ []) (hl : lmsLeft s.dev = 0) : attestClose s =
    { s with dev := s.dev.attest.foldl (fun d r => completeSt r.q stDeviceFault d) { s.dev with attest := [], attestFrom := none } } := by
  unfold attestClose
  rw [if_neg (by simpa using h), if_pos hl]

/-- The device without what the reports of a batch change as they are sent: the import keys, and what a completion may change. -/
def Dev.offReports (d : Dev) : Dev := { d.offDone with importKeys := [] }

theorem offReports_complete (q : QCmd) (st : Nat) (w : List Nat) (b : List Byte) (d : Dev) :
    (complete q st w b d).offReports = d.offReports := by
  unfold Dev.offReports
  rw [offDone_complete]

theorem offReports_sendReports (leaves : List (List Byte)) (sig lms : List Byte) (rs : List Report) (d : Dev) :
    (sendReports leaves sig lms rs d).offReports = d.offReports := by
  induction rs generalizing d with
  | nil => rfl
  | cons r rs ih =>
    unfold sendReports
    exact (ih _).trans (offReports_complete ..)

/-- A batch with a leaf left spends it and is empty (R339, R345). -/
theorem attestClose_of_leaf {s : State} (h : s.dev.attest ≠ []) (hl : lmsLeft s.dev ≠ 0) :
    (attestClose s).dev.attest = [] ∧ (attestClose s).dev.regions = s.dev.regions ∧ (attestClose s).dev.crews = s.dev.crews
      ∧ (attestClose s).nv = { s.nv with lmsStored := max s.nv.lmsStored ((2 ^ 20 - lmsLeft s.dev) / 1024 * 1024 + 1024) } := by
  unfold attestClose
  rw [if_neg (by simpa using h), if_neg hl]
  dsimp only
  refine ⟨?_, ?_, ?_, rfl⟩
  · exact (congrArg Dev.attest (offReports_sendReports ..) :)
  · exact (congrArg Dev.regions (offReports_sendReports ..) :)
  · exact (congrArg Dev.crews (offReports_sendReports ..) :)

/-! ### Import keys -/

/-- A signed import key expires, an unsigned one does not (R347). -/
theorem importExpire_spec {i : Nat} {d : Dev} {k : ImportKey} (h : tGet? d.importKeys i = some k) :
    tGet? (importExpire i d).importKeys i = some { k with live := k.live && !k.signed } := by
  rw [importExpire, tGet?_tMod, if_pos rfl, h]
  cases k with
  | mk gen live made owner draw signed report => cases live <;> cases signed <;> rfl

/-- A key used up names no import key any more (R349). -/
theorem importKey_of_used {d e : Dev} {id : Nat} (h : e.importKeys = tMod d.importKeys (id % 256) fun k => { k with live := false }) :
    importKey e id = none := by
  unfold importKey
  split
  · rfl
  · rw [h, tGet?_tMod, if_pos rfl]
    cases tGet? d.importKeys (id % 256) <;> rfl

/-! ### Key slots -/

/-- A slot given a key at its next generation, and the change logged. -/
def slotFilled (q : QCmd) (i : Nat) (k : KeySlot) (d : Dev) : Dev :=
  let g := nextGen8 (keySlot d i).gen
  logCmd q q.cmd.crew 6 (i + g * 256) (keySlot d i).gen g
    { d with keySlots := tSet d.keySlots i { k with gen := g, crew := q.cmd.crew } }

theorem fillSlot_eq (q : QCmd) (i : Nat) (k : KeySlot) (d : Dev) :
    fillSlot q i k d = complete q stOk [i + nextGen8 (keySlot d i).gen * 256] [] (slotFilled q i k d) := rfl

theorem slotFilled_spec (q : QCmd) (i : Nat) (k : KeySlot) (d : Dev) :
    keySlot (slotFilled q i k d) i = { k with gen := nextGen8 (keySlot d i).gen, crew := q.cmd.crew }
      ∧ (∀ n, n ≠ i → keySlot (slotFilled q i k d) n = keySlot d n) ∧ (slotFilled q i k d).importKeys = d.importKeys := by
  unfold slotFilled
  dsimp only
  rw [logCmd_eq]
  refine ⟨?_, fun n hn => ?_, rfl⟩
  · simp [keySlot]
  · simp [keySlot, tGet?_tSet_ne _ _ hn]

/-- The device with an import key used up (R349 step 5). -/
def importUsed (id : Nat) (d : Dev) : Dev := { d with importKeys := tMod d.importKeys (id % 256) fun k => { k with live := false } }

/-- What a wrapped key opens to under the import key that its IMPORT_ID names (R349). -/
def unwrapped (d : Dev) (c : Cmd) : Option (BitVec 256) :=
  let k := (importKey d (pNat c 4 4)).getD {}
  Config.unwrapKey k.draw (pNat c 4 4) (slice c.params 8 16) (slice c.params 24 96) (slice c.params 120 40) k.report

section Import
variable {q : QCmd} {d : Dev} (hpass : keyImportCheck d q = none)
include hpass

theorem keyImportBody_of_credential (h2 : pNat q.cmd 1 1 = 2) : keyImportBody q d = fillSlot q (pNat q.cmd 0 1)
    { use := 2, keyId := (digest (slice q.cmd.params 24 96)).take 16, key := slice q.cmd.params 24 96 } d := by
  simp only [keyImportBody, hpass, h2, if_true]

variable (h1 : pNat q.cmd 1 1 = 1)
include h1

theorem keyImportBody_of_closed (hv : unwrapped d q.cmd = none) :
    keyImportBody q d = completeSt q stAuthFailed (importUsed (pNat q.cmd 4 4) d) := by
  unfold unwrapped at hv
  dsimp only at hv
  simp only [keyImportBody, hpass, h1, Nat.reduceEqDiff, if_false, hv]
  rfl

theorem keyImportBody_of_opened {v : BitVec 256} (hv : unwrapped d q.cmd = some v) : keyImportBody q d =
    fillSlot q (pNat q.cmd 0 1) { use := 1, keyId := slice q.cmd.params 8 16, key := toLe 32 v.toNat } (importUsed (pNat q.cmd 4 4) d) := by
  unfold unwrapped at hv
  dsimp only at hv
  simp only [keyImportBody, hpass, h1, Nat.reduceEqDiff, if_false, hv]
  rfl

end Import

theorem freeKeySlot_spec (i : Nat) (d : Dev) : keySlot (freeKeySlot i d) i = { gen := nextGen8 (keySlot d i).gen }
    ∧ (∀ n, n ≠ i → keySlot (freeKeySlot i d) n = keySlot d n) ∧ (freeKeySlot i d).sessions = d.sessions
    ∧ (freeKeySlot i d).mem = d.mem := by
  unfold freeKeySlot
  dsimp only
  rw [logDev_eq]
  refine ⟨?_, fun n hn => ?_, rfl, rfl⟩
  · simp [keySlot]
  · simp [keySlot, tGet?_tSet_ne _ _ hn]

theorem keyRetireBody_of_stale {q : QCmd} {d : Dev}
    (h : (keySlot d (pNat q.cmd 0 1)).use = 0 ∨ (keySlot d (pNat q.cmd 0 1)).gen ≠ pNat q.cmd 1 1) :
    keyRetireBody q d = completeSt q stStale d := if_pos h

/-- A KEY_RETIRE that passes its checks completes, and then closes the credential's sessions (R350). -/
theorem keyRetireBody_of_passes {q : QCmd} {d : Dev} (hu : (keySlot d (pNat q.cmd 0 1)).use ≠ 0)
    (hg : (keySlot d (pNat q.cmd 0 1)).gen = pNat q.cmd 1 1) (hc : (keySlot d (pNat q.cmd 0 1)).crew = q.cmd.crew)
    (hn : slotNamed d (pNat q.cmd 0 1) = false) :
    let k := keySlot d (pNat q.cmd 0 1)
    let ss := if k.use = 2 then credSessions d k.crew (pNat q.cmd 0 1) else []
    keyRetireBody q d = ss.foldl (fun d j => closeSession j d) (complete q stOk [ss.length] [] (freeKeySlot (pNat q.cmd 0 1) d)) := by
  unfold keyRetireBody
  dsimp only
  rw [if_neg (by omega), if_neg (by simp [hc]), if_neg (by simp [hn])]

/-- Settles O47: ATTEST by the leaves left, the close of a batch, and each row of the import keys and the slots. -/
theorem attestationAndKeys : Obligations.AttestationAndKeys := by
  unfold Obligations.AttestationAndKeys
  refine ⟨fun c s q t hb => ⟨fun h => ?_, fun h hroom => ?_⟩, fun s => ⟨fun h => ?_, fun h hl => ?_, fun h hl => ?_⟩, fun i k s h => ?_,
    fun c s q t hb hp => ?_, fun c s q t hb => ?_⟩
  · exact next_settle_of_begins hb (attestBody_of_no_leaf h)
  · obtain ⟨hlt, hfree⟩ := leafFor_spec (d := (attesting q t.dev).2) (show t.dev.attest.length < 256 by omega) (attesting q t.dev).1
    refine ⟨_, attestReport q t.dev, next_settle_of_begins hb (attestBody_of_leaf h hroom), rfl, rfl, hlt, hfree, ⟨madeImport t.dev q, ?_⟩,
      fun i hi => ?_, rfl⟩
    · exact ⟨(congrArg (tGet? · _) (attesting_importKeys q t.dev)).trans (tGet?_tSet_self ..), rfl, rfl, rfl⟩
    · exact (congrArg (tGet? · _) (attesting_importKeys q t.dev)).trans (tGet?_tSet_ne _ _ hi)
  · exact congrArg (fun u => Host.Outcome.next (settle u)) (attestClose_of_empty h)
  · exact congrArg (fun u => Host.Outcome.next (settle u)) (attestClose_of_no_leaf h hl)
  · obtain ⟨hattest, hregions, hcrews, hnv⟩ := attestClose_of_leaf h hl
    refine ⟨attestClose s, rfl, hattest, ?_, ?_, ?_, hregions, hcrews⟩
    · rw [hnv]
      exact Nat.le_max_left ..
    · rw [hnv]
      exact Nat.lt_of_lt_of_le (by omega) (Nat.le_max_right ..)
    · rw [hnv]
  · exact ⟨_, next_onDev rfl, importExpire_spec h, rfl⟩
  · intro i pub g
    refine ⟨fun h2 => ?_, fun h1 => ?_⟩
    · obtain ⟨hself, hother, himport⟩ := slotFilled_spec q i { use := 2, keyId := (digest pub).take 16, key := pub } t.dev
      exact ⟨_, next_ends_of_begins hb ((keyImportBody_of_credential hp h2).trans (fillSlot_eq ..)), hself, hother, himport⟩
    · intro id k v
      cases hv : unwrapped t.dev q.cmd with
      | none =>
        refine ⟨importUsed id t.dev, importKey_of_used rfl, fun _ => ⟨?_, rfl⟩, fun x hx => ?_⟩
        · exact next_ends_of_begins hb (keyImportBody_of_closed hp h1 hv)
        · exact absurd (hv.symm.trans hx) (by simp)
      | some x =>
        obtain ⟨hself, hother, himport⟩ := slotFilled_spec q i
          { use := 1, keyId := slice q.cmd.params 8 16, key := toLe 32 x.toNat } (importUsed id t.dev)
        refine ⟨slotFilled q i _ (importUsed id t.dev), importKey_of_used himport, fun hn => ?_, fun y hy => ?_⟩
        · exact absurd (hv.symm.trans hn) (by simp)
        · obtain rfl : x = y := Option.some.inj (hv.symm.trans hy)
          exact ⟨next_ends_of_begins hb ((keyImportBody_of_opened hp h1 hv).trans (fillSlot_eq ..)), hself, hother⟩
  · intro i k
    refine ⟨fun h => next_ends_of_begins hb (keyRetireBody_of_stale h), fun hu hg hc hn => ?_⟩
    obtain ⟨hself, hother, hsess, hmem⟩ := freeKeySlot_spec i t.dev
    exact ⟨freeKeySlot i t.dev, next_ends_of_begins hb (keyRetireBody_of_passes hu hg hc hn), hself, hother, hsess, hmem⟩

end Sys2Proof.Machine
end

section
/-! The witness asked, its answer judged, and joining, leaving and expulsion (O51). -/

namespace Sys2Proof.Machine

/-! ### Asking the witness -/

section PairTo
variable (st : Nat) (d : Dev)

@[simp] theorem pairTo_fabTx : (pairTo st d).fabTx = d.fabTx := pairTo_frame st d Dev.fabTx (fun _ => rfl) fun _ => rfl
@[simp] theorem pairTo_crews : (pairTo st d).crews = d.crews := pairTo_frame st d Dev.crews (fun _ => rfl) fun _ => rfl

end PairTo

/-- An ask outside the fatal state is sent, and its answer is then awaited (R398). -/
theorem asked_askWitness {d : Dev} (hf : d.flt.fatal = false) (holder who : Nat) : Asked holder who d (askWitness holder who d) := by
  let e : Dev := { d with pair := { d.pair with askHolder := holder } }
  obtain ⟨hpkt, hpair⟩ := witnessCas_sends (d := e) hf (witnessWord d.pair.epoch holder) (witnessWord (d.pair.epoch + 1) who)
  refine ⟨(congrArg Pair.askHolder hpair :), (congrArg Pair.askedAt hpair :), _, hpkt, (congrArg Pair.asking hpair :), rfl, rfl, rfl⟩

/-- Who is asked what depends on the module, the witness's registers, the stroke and the epoch. -/
theorem asked_of_standing {holder who : Nat} {d d' e : Dev} (h : Asked holder who d e) (hstk : d.stk = d'.stk) (hregs : d.regs = d'.regs)
    (hcfg : d.cfg = d'.cfg) (hepoch : d.pair.epoch = d'.pair.epoch) : Asked holder who d' e := by
  simpa only [Asked, ownModule, regRaw_congr hregs, hstk, hcfg, hepoch] using h

/-- A change of the pair's state after an ask. -/
theorem asked_pairTo {holder who : Nat} {d e : Dev} (h : Asked holder who d e) (st : Nat) : Asked holder who d (pairTo st e) := by
  simpa only [Asked, pairTo_pair, pairTo_fabTx] using h

/-- An ask changes the tags, what leaves on the fabric and the pair's record of the ask alone. -/
theorem askWitness_eq (holder who : Nat) (d : Dev) : ∃ n tx p,
    askWitness holder who d = { d with nextTag := n, fabTx := tx, pair := p }
      ∧ p = { d.pair with askHolder := holder, asking := p.asking, askedAt := d.stk.number } := by
  unfold askWitness
  rw [witnessCas_eq, sendPkt_eq]
  exact ⟨_, _, _, rfl, rfl⟩

/-! ### Heartbeats and limits -/

/-- A valid HEARTBEAT taken by a member (R396): the missed strokes it clears, and what the mirror learns from it. -/
def heartbeatHeard (h : Heartbeat) (d : Dev) : Dev := { d with pair := { d.pair with
  heard := if h.stroke = d.stk.number then true else d.pair.heard
  missed := if h.stroke = d.stk.number then 0 else d.pair.missed
  answered := if mirrorListens d then max d.pair.answered h.answered else d.pair.answered } }

section Heartbeat
variable {h : Heartbeat} {d : Dev} (he : h.epoch = d.pair.epoch) (hp : h.port ∈ pairPorts d)
include he hp

theorem heartbeatIn_of_left (hst : d.pair.state = 4) (hh : h.state = 0) : heartbeatIn h d = enterSolo d := by
  simp [heartbeatIn, he, hst, hh, hp]

theorem heartbeatIn_of_valid (hst : d.pair.state ≠ 0) (hh : ¬(h.state = 0 ∧ d.pair.state = 4)) : heartbeatIn h d =
    if d.pair.state = 3 ∧ h.state = 4 then pairTo 5 (heartbeatHeard h d) else heartbeatHeard h d := by
  have hgo : ¬(d.pair.state = 0 ∨ h.epoch ≠ d.pair.epoch ∨ (!(pairPorts d).contains h.port) = true) := by simp [he, hst, hp]
  unfold heartbeatIn heartbeatHeard mirrorListens
  rw [if_neg hgo, if_neg hh]
  by_cases hs : h.stroke = d.stk.number
  · by_cases hl : d.pair.state = 3 ∨ d.pair.state = 5 <;>
      simp only [hs, hl, if_true, if_false, decide_true, decide_false, Bool.false_eq_true]
  · by_cases hl : d.pair.state = 3 ∨ d.pair.state = 5 <;>
      simp only [hs, hl, if_true, if_false, decide_true, decide_false, Bool.false_eq_true]

end Heartbeat

/-- HEARTBEAT (R396). -/
theorem heartbeat_by_state {h : Heartbeat} {s : State} (he : h.epoch = s.dev.pair.epoch) (hp : h.port ∈ pairPorts s.dev) :
    (s.dev.pair.state ≠ 0 → ¬(h.state = 0 ∧ s.dev.pair.state = 4) →
      ∃ d, exec (.heartbeat h) s = .next (ends d s)
        ∧ (h.stroke = s.dev.stk.number → d.pair.heard = true ∧ d.pair.missed = 0)
        ∧ (h.stroke ≠ s.dev.stk.number → d.pair.heard = s.dev.pair.heard ∧ d.pair.missed = s.dev.pair.missed)
        ∧ d.pair.state = (if s.dev.pair.state = 3 ∧ h.state = 4 then 5 else s.dev.pair.state) ∧ d.mem = s.dev.mem)
    ∧ (s.dev.pair.state = 4 → h.state = 0 → ∃ d, exec (.heartbeat h) s = .next (ends d s) ∧ d.pair.state = 6) := by
  refine ⟨fun hst hh => ?_, fun hst hh => ⟨_, next_onDev (heartbeatIn_of_left he hp hst hh), ?_⟩⟩
  · have hheard : (h.stroke = s.dev.stk.number → (heartbeatHeard h s.dev).pair.heard = true ∧ (heartbeatHeard h s.dev).pair.missed = 0)
        ∧ (h.stroke ≠ s.dev.stk.number → (heartbeatHeard h s.dev).pair.heard = s.dev.pair.heard
          ∧ (heartbeatHeard h s.dev).pair.missed = s.dev.pair.missed) :=
      ⟨fun h => ⟨if_pos h, if_pos h⟩, fun h => ⟨if_neg h, if_neg h⟩⟩
    refine ⟨_, next_onDev (heartbeatIn_of_valid he hp hst hh), ?_⟩
    split
    · rw [pairTo_pair, pairTo_mem]
      exact ⟨hheard.1, hheard.2, rfl, rfl⟩
    · exact ⟨hheard.1, hheard.2, rfl, rfl⟩
  · rw [enterSolo, pairTo_pair]

/-- What a member takes note of as it stops serving, and as it first asks as a mirror (R397). -/
def detected (d : Dev) : Dev := { d with pair := { d.pair with detectedAt := d.stk.number } }

section Limits
variable {d : Dev} (hf : d.flt.fatal = false)
include hf

/-- The serving member at its limit stops serving and asks for itself (R397). -/
theorem serveMissLimit_of_limit (hst : d.pair.state = 4) (hm : cfgField d 0x110000 7 0 - 8 ≤ d.pair.missed)
    (hx : d.pair.expelling = false) : (serveMissLimit d).pair.state = 7 ∧ (serveMissLimit d).pair.detectedAt = d.stk.number
      ∧ Asked (ownModule d) (ownModule d) d (serveMissLimit d) := by
  let e : Dev := { d with pair := { d.pair with detectedAt := d.stk.number, switching := false } }
  have hserve : serveMissLimit d = pairTo 7 (askWitness (ownModule d) (ownModule d) e) := if_pos ⟨hst, hm, by rw [hx]; rfl⟩
  obtain ⟨n, tx, p, hask, hpair⟩ := askWitness_eq (ownModule d) (ownModule d) e
  rw [hserve]
  refine ⟨?_, ?_, asked_of_standing (asked_pairTo (asked_askWitness (d := e) hf _ _) 7) rfl rfl rfl rfl⟩
  · rw [pairTo_pair]
  · rw [pairTo_pair, hask, hpair]

/-- The mirror's ask for the grant leaves its state (R397). -/
theorem askWitness_detected (holder who : Nat) : (askWitness holder who (detected d)).pair.state = d.pair.state
    ∧ Asked holder who d (askWitness holder who (detected d)) := by
  obtain ⟨n, tx, p, hask, hpair⟩ := askWitness_eq holder who (detected d)
  refine ⟨?_, asked_of_standing (asked_askWitness (d := detected d) hf _ _) rfl rfl rfl rfl⟩
  rw [hask, hpair]
  rfl

end Limits

/-- SERVE_MISS_LIMIT, MIRROR_MISS_LIMIT and FAULT_NOTICE (R395, R397, R403). -/
theorem limits_by_state {s : State} (hf : s.dev.flt.fatal = false) :
    (s.dev.pair.state = 4 → cfgField s.dev 0x110000 7 0 - 8 ≤ s.dev.pair.missed → s.dev.pair.expelling = false →
      ∃ d, exec .serveMissLimit s = .next (ends d s) ∧ d.pair.state = 7 ∧ d.pair.detectedAt = s.dev.stk.number
        ∧ Asked (ownModule s.dev) (ownModule s.dev) s.dev d)
    ∧ ((s.dev.pair.state ≠ 4 ∨ s.dev.pair.missed < cfgField s.dev 0x110000 7 0 - 8) → exec .serveMissLimit s = .next (ends s.dev s))
    ∧ (s.dev.pair.state = 5 → s.dev.pair.asking = none → s.dev.pair.expelUntil = none →
      (cfgField s.dev 0x110000 7 0 ≤ s.dev.pair.missed →
        ∃ d, exec .mirrorMissLimit s = .next (ends d s) ∧ d.pair.state = 5 ∧ Asked (partnerModule s.dev) (ownModule s.dev) s.dev d)
      ∧ (s.dev.pair.missed < cfgField s.dev 0x110000 7 0 → exec .mirrorMissLimit s = .next (ends s.dev s))
      ∧ (∀ stroke source, stroke < 2 ^ 64 → source < 256 →
        ∃ d, exec (.faultNotice stroke source) s = .next (ends d s) ∧ Asked (partnerModule s.dev) (ownModule s.dev) s.dev d))
    ∧ (s.dev.pair.state = 4 → ∀ stroke source, stroke < 2 ^ 64 → source < 256 →
        ∃ d, exec (.faultNotice stroke source) s = .next (ends d s) ∧ d.pair.state = 6) := by
  refine ⟨fun hst hm hx => ⟨_, next_onDev rfl, serveMissLimit_of_limit hf hst hm hx⟩, fun h => next_onDev (if_neg ?_),
    fun hst hask hex => ⟨fun hm => ?_, fun hm => next_onDev (if_neg ?_), fun stroke source hs hsrc => ?_⟩,
    fun hst stroke source hs hsrc => ⟨_, next_onDev ((if_pos ⟨hs, hsrc⟩).trans (if_pos hst)), ?_⟩⟩
  · omega
  · obtain ⟨hstate, hasked⟩ := askWitness_detected hf (partnerModule s.dev) (ownModule s.dev)
    exact ⟨_, next_onDev (if_pos ⟨hst, hm, by rw [hask]; rfl, by rw [hex]; rfl⟩), hstate.trans hst, hasked⟩
  · omega
  · have hgo : faultNotice s.dev = askWitness (partnerModule s.dev) (ownModule s.dev) (detected s.dev) :=
      (if_neg (by omega)).trans (if_pos ⟨hst, by rw [hask]; rfl, by rw [hex]; rfl⟩)
    exact ⟨_, next_onDev ((if_pos ⟨hs, hsrc⟩).trans hgo), (askWitness_detected hf _ _).2⟩
  · rw [enterSolo, pairTo_pair]

/-- WITNESS_ASK_RETRY (R398). -/
theorem witnessAskRetry_by_stroke {s : State} (hf : s.dev.flt.fatal = false) :
    (s.dev.pair.asking.isSome = true → s.dev.pair.askedAt + 8 ≤ s.dev.stk.number → ¬(s.dev.pair.state = 1 ∧ s.dev.pair.joinMsg = 4) →
      ∃ d, exec .witnessAskRetry s = .next (ends d s) ∧ Asked s.dev.pair.askHolder (askFor s.dev) s.dev d)
    ∧ (s.dev.pair.asking.isSome = true → s.dev.pair.askedAt + 8 ≤ s.dev.stk.number → s.dev.pair.state = 1 → s.dev.pair.joinMsg = 4 →
        exec .witnessAskRetry s =
          .next (ends (witnessCas 0 (if s.dev.cfg.role = 1 then witnessWord 1 (ownModule s.dev) else 0) s.dev) s))
    ∧ ((s.dev.pair.asking = none ∨ s.dev.stk.number < s.dev.pair.askedAt + 8) → exec .witnessAskRetry s = .next (ends s.dev s)) := by
  have hdue (ha : s.dev.pair.asking.isSome = true) (ht : s.dev.pair.askedAt + 8 ≤ s.dev.stk.number) :
      ¬((s.dev.pair.asking.isNone = true) ∨ s.dev.stk.number < s.dev.pair.askedAt + 8) := by
    rw [Option.isNone_eq_false_iff.mpr ha]
    simpa using ht
  refine ⟨fun ha ht hj => ?_, fun ha ht hst hj => ?_, fun h => next_onDev (if_pos ?_)⟩
  · exact ⟨_, next_onDev ((if_neg (hdue ha ht)).trans (if_neg hj)), asked_askWitness hf _ _⟩
  · exact next_onDev ((if_neg (hdue ha ht)).trans (if_pos ⟨hst, hj⟩))
  · exact h.imp_left Option.isNone_iff_eq_none.mpr

/-! ### What the mirror's stream leaves of the pair -/

/-- The pair's record without what the mirror's stream applies. -/
def Pair.offStream (p : Pair) : Pair := { p with applied := 0, buffer := [], regionBuffer := [], mirrored := [], owed := [] }

theorem offStream_applyMirror (p : MirrorPkt) (d : Dev) : (applyMirror p d).pair.offStream = d.pair.offStream := by
  unfold applyMirror
  dsimp only
  split
  · rw [unpoison_pair, setLine_pair]
    rfl
  · rw [unpoison_pair, setLine_pair]

theorem offStream_modMirrored (f : Tbl Region → Nat → Tbl Region) (run : List Nat) (d : Dev) :
    (modMirrored f run d).pair.offStream = d.pair.offStream := view_ite (fun d => d.pair.offStream) rfl rfl

theorem offStream_applyRegion (p : RegionPkt) (d : Dev) : (applyRegion p d).pair.offStream = d.pair.offStream := by
  unfold applyRegion
  dsimp only
  split
  · exact offStream_modMirrored ..
  · split
    · exact offStream_modMirrored ..
    · split
      · exact offStream_modMirrored ..
      · exact offStream_modMirrored ..

/-- The mirror's stream changes of the pair's record only what it applies. -/
theorem offStream_applyBuffered (fuel : Nat) (d : Dev) : (applyBuffered fuel d).pair.offStream = d.pair.offStream := by
  induction fuel generalizing d with
  | zero => rfl
  | succ fuel ih =>
    unfold applyBuffered
    dsimp only
    split
    · rw [ih, offStream_applyMirror]
      rfl
    · rw [ih, offStream_applyRegion]
      rfl
    · rfl

/-- Reconciliation goes on in the epoch in which it begins. -/
theorem reconcile_epoch (d : Dev) : (reconcile d).pair.epoch = d.pair.epoch := by
  simp only [reconcile, pairTo_pair]
  rw [view_foldl Dev.pair sendOwed_pair]
  exact (congrArg Pair.epoch (offStream_applyBuffered ..) :)

/-! ### The answer of the witness -/

/-- The witness grants what a member asked for (R398). -/
def witnessGrants (returned : Nat) (d : Dev) : Prop :=
  returned = witnessWord d.pair.epoch d.pair.askHolder ∨ returned = witnessWord (d.pair.epoch + 1) (askFor d)

/-- A member at the epoch that it was granted. -/
def atNextEpoch (d : Dev) : Dev := { d with pair := { d.pair with epoch := d.pair.epoch + 1, asking := none } }

/-- A mirror granted the epoch for an expulsion: it sends no heartbeat and waits (R408). -/
def expelWaiting (d : Dev) : Dev :=
  { atNextEpoch d with pair := { (atNextEpoch d).pair with
    noHeartbeat := true, expelUntil := some (d.stk.number + cfgField d 0x110000 7 0) } }

/-- What a member becomes once the witness has answered, but in the joining exchange (R398, Table 14-2). -/
def witnessJudged (returned : Nat) (d : Dev) : Dev :=
  if returned ≠ witnessWord d.pair.epoch d.pair.askHolder ∧ returned ≠ witnessWord (d.pair.epoch + 1) (askFor d) then enterDeposed d
  else if d.pair.state = 4 ∧ d.pair.switching then switchDone d
  else if d.pair.state = 5 ∧ d.pair.expelling then expelWaiting d
  else if d.pair.state = 5 then reconcile (atNextEpoch d)
  else if d.pair.expelling then enterSolo { atNextEpoch d with pair := { (atNextEpoch d).pair with noHeartbeat := true } }
  else enterSolo (atNextEpoch d)

theorem witnessAnswer_of_asked {returned : Nat} {s : State} (ha : s.dev.pair.asking.isSome = true)
    (hj : ¬(s.dev.pair.state = 1 ∧ s.dev.pair.joinMsg = 4)) :
    witnessAnswer returned s = { s with dev := witnessJudged returned s.dev } := by
  have hasked : ¬s.dev.pair.asking.isNone = true := by simpa [Option.isNone_iff_eq_none, Option.isSome_iff_ne_none] using ha
  unfold witnessAnswer witnessJudged
  dsimp only
  rw [if_neg hasked, if_neg hj]
  simp only [not_or]
  rfl

section Judged
variable {returned : Nat} {d : Dev}

theorem witnessJudged_of_refused (hg : ¬witnessGrants returned d) : witnessJudged returned d = enterDeposed d :=
  if_pos (not_or.mp hg)

theorem enterDeposed_state (d : Dev) : (enterDeposed d).pair.state = 9 := by
  unfold enterDeposed
  rw [pairTo_pair]

variable (hg : witnessGrants returned d)
include hg

theorem witnessJudged_of_granted : witnessJudged returned d =
    if d.pair.state = 4 ∧ d.pair.switching then switchDone d
    else if d.pair.state = 5 ∧ d.pair.expelling then expelWaiting d
    else if d.pair.state = 5 then reconcile (atNextEpoch d)
    else if d.pair.expelling then enterSolo { atNextEpoch d with pair := { (atNextEpoch d).pair with noHeartbeat := true } }
    else enterSolo (atNextEpoch d) := if_neg fun h => hg.elim h.1 h.2

theorem witnessJudged_of_switch (hst : d.pair.state = 4) (hs : d.pair.switching = true) : witnessJudged returned d = switchDone d := by
  rw [witnessJudged_of_granted hg, if_pos ⟨hst, hs⟩]

theorem witnessJudged_of_expelling (hst : d.pair.state = 5) (hx : d.pair.expelling = true) :
    witnessJudged returned d = expelWaiting d := by
  rw [witnessJudged_of_granted hg, if_neg (by omega), if_pos ⟨hst, hx⟩]

theorem witnessJudged_of_mirror (hst : d.pair.state = 5) (hx : d.pair.expelling = false) :
    witnessJudged returned d = reconcile (atNextEpoch d) := by
  rw [witnessJudged_of_granted hg, if_neg (by omega), if_neg (by simp [hx]), if_pos hst]

theorem witnessJudged_of_stopped (hst : d.pair.state = 7) : (witnessJudged returned d).pair.state = 6 := by
  rw [witnessJudged_of_granted hg, if_neg (by omega), if_neg (by omega), if_neg (by omega)]
  split <;> rw [enterSolo, pairTo_pair]

end Judged

/-- What a completion leaves of the pair's record: all but MSEQ and the waits of an access at home. -/
def Pair.offHome (p : Pair) : Pair := { p with mseq := 0, waits := [] }

theorem pair_of_offDone {d e : Dev} (h : e.offDone = d.offDone) : e.pair.offHome = d.pair.offHome := (congrArg Dev.pair h :)

theorem switchDone_state (d : Dev) : (switchDone d).pair.state = 5 := by
  have hparts (f : Dev) : (endParts waitsPair stTakeover (pairTo 5 f)).pair.state = 5 := by
    have hpair : (endParts waitsPair stTakeover (pairTo 5 f)).pair = (pairTo 5 f).pair := rfl
    rw [hpair, pairTo_pair]
  unfold switchDone
  dsimp only
  split
  · exact (congrArg Pair.state (pair_of_offDone (offDone_completeSt ..)) :).trans (hparts _)
  · exact hparts _

/-- WITNESS_ANSWER outside the joining exchange (R398, Table 14-2). -/
theorem witnessAnswer_by_state {w : WitnessAns} {s : State} (ha : s.dev.pair.asking = some (w.tag, w.tagGen))
    (hst : s.dev.pair.state ≠ 1) :
    ∃ d, exec (.witnessAnswer w) s = .next (ends d s)
      ∧ (¬witnessGrants w.returned s.dev → d.pair.state = 9)
      ∧ (witnessGrants w.returned s.dev → s.dev.pair.expelling = false → s.dev.pair.state = 5 →
          d.pair.state = 8 ∧ d.pair.epoch = s.dev.pair.epoch + 1 ∧ d.pair.buffer = [] ∧ d.pair.regionBuffer = [])
      ∧ (witnessGrants w.returned s.dev → s.dev.pair.state = 5 → s.dev.pair.expelling = true →
          d.pair.state = 5 ∧ d.pair.epoch = s.dev.pair.epoch + 1 ∧ d.pair.noHeartbeat = true
          ∧ d.pair.expelUntil = some (s.dev.stk.number + cfgField s.dev 0x110000 7 0))
      ∧ (witnessGrants w.returned s.dev → s.dev.pair.state = 7 → d.pair.state = 6)
      ∧ (witnessGrants w.returned s.dev → s.dev.pair.state = 4 → s.dev.pair.switching = true → d.pair.state = 5) := by
  have hanswer := witnessAnswer_of_asked (returned := w.returned) (s := s) (by rw [ha]; rfl) (fun h => hst h.1)
  have hexec : exec (.witnessAnswer w) s = .next (ends (witnessJudged w.returned s.dev) s) :=
    congrArg (fun t => Host.Outcome.next (settle t)) ((if_pos ha).trans hanswer)
  refine ⟨_, hexec, fun hg => ?_, fun hg hx hst => ?_, fun hg hst hx => ?_, fun hg hst => ?_, fun hg hst hs => ?_⟩
  · rw [witnessJudged_of_refused hg]
    exact enterDeposed_state _
  · obtain ⟨hstate, -, hbuffer, hregions, -⟩ := reconcile_pair (atNextEpoch s.dev)
    rw [witnessJudged_of_mirror hg hst hx]
    exact ⟨hstate, reconcile_epoch _, hbuffer, hregions⟩
  · rw [witnessJudged_of_expelling hg hst hx]
    exact ⟨hst, rfl, rfl, rfl⟩
  · exact witnessJudged_of_stopped hg hst
  · rw [witnessJudged_of_switch hg hst hs]
    exact switchDone_state _

/-! ### The end of the joining exchange -/

/-- The state, the epoch and the command that joins, as the packets of a join leave them. -/
def Dev.joining (d : Dev) : Nat × Nat × Option QCmd := (d.pair.state, d.pair.epoch, d.pair.joinBy)

theorem joining_of_offDone {d e : Dev} (h : e.offDone = d.offDone) : e.joining = d.joining := by
  have hpair := pair_of_offDone h
  exact Prod.ext (congrArg Pair.state hpair :) (Prod.ext (congrArg Pair.epoch hpair :) (congrArg Pair.joinBy hpair :))

theorem joining_sendPkt (k : OutPkt) (d : Dev) : (sendPkt k d).joining = d.joining :=
  joining_of_offDone (Dev.offDone_of_offHome (offHome_sendPkt ..))

theorem joining_sendRegion (first count op : Nat) (r : Region) (d : Dev) : (sendRegion first count op r d).joining = d.joining := by
  unfold sendRegion
  split
  · exact joining_sendPkt ..
  · rfl

theorem joining_startOp (q : QCmd) (l : LongOp) (d : Dev) : (startOp q l d).joining = d.joining := by
  unfold startOp
  split
  · exact joining_of_offDone (offDone_completeSt ..)
  · exact (joining_of_offDone (offDone_complete ..)).trans rfl

theorem joining_wakeJobs (f : Wait → Bool) (d : Dev) : (wakeJobs f d).joining = d.joining := rfl

/-- The command that joins taken from the pair's record. -/
def joinDone (d : Dev) : Dev := { d with pair := { d.pair with joinBy := none } }

/-- A PAIR_JOIN of the member that will serve goes on as a long operation (R405). -/
def joinStarts (d : Dev) : Dev := match d.pair.joinBy with
  | some q => startOp q {} (joinDone d)
  | none => d

/-- A PAIR_JOIN of the member that mirrors completes (R404). -/
def joinCompletes (d : Dev) : Dev := match d.pair.joinBy with
  | some q => completeSt q stOk (joinDone d)
  | none => d

theorem joining_of_none {d : Dev} (h : d.pair.joinBy = none) : d.joining = (d.joining.1, d.joining.2.1, none) := by
  rw [Dev.joining, h]

theorem joining_joinStarts (d : Dev) : (joinStarts d).joining = (d.joining.1, d.joining.2.1, none) := by
  unfold joinStarts
  split
  · exact joining_startOp ..
  · next h => exact joining_of_none h

theorem joining_joinCompletes (d : Dev) : (joinCompletes d).joining = (d.joining.1, d.joining.2.1, none) := by
  unfold joinCompletes
  split
  · exact joining_of_offDone (offDone_completeSt ..)
  · next h => exact joining_of_none h

theorem joining_pairTo (st : Nat) (d : Dev) : (pairTo st d).joining = (st, d.joining.2) := by
  simp only [Dev.joining, pairTo_pair]

/-- The keys of the crews with paired regions, and those regions, sent to the mirror (R404, R405). -/
def joinSends (s : State) (d : Dev) : Dev :=
  let d := (pairedCrews d).foldl (fun d c => sendCrewKey c (tGet s.nv.epochs c) d) d
  (d.regions.filter fun r => r.2.paired).foldl (fun d r => sendRegion r.1 1 1 r.2 d) d

theorem joining_joinSends (s : State) (d : Dev) : (joinSends s d).joining = d.joining := by
  have hkey (e : Dev) (c : Nat) : (sendCrewKey c (tGet s.nv.epochs c) e).joining = e.joining := joining_sendPkt ..
  have hregion (e : Dev) (r : Nat × Region) : (sendRegion r.1 1 1 r.2 e).joining = e.joining := joining_sendRegion ..
  exact (view_foldl Dev.joining hregion ..).trans (view_foldl Dev.joining hkey ..)

/-- A resynchronisation from the first paired region (R405). -/
def resyncBegun (d : Dev) : Dev := { d with pair := { d.pair with resync := true, resyncAt := some 0, resyncLast := d.pair.mseq } }

/-- The member that the record names serves (R404, R405). -/
def joinServes (s : State) (d : Dev) : Dev := wakeJobs waitsPair (joinStarts (resyncBegun (joinSends s (pairTo 2 d))))

theorem joining_joinServes (s : State) (d : Dev) : (joinServes s d).joining = (2, d.pair.epoch, none) := by
  have hbegun : (resyncBegun (joinSends s (pairTo 2 d))).joining = (2, d.joining.2) :=
    (joining_joinSends s (pairTo 2 d)).trans (joining_pairTo 2 d)
  rw [joinServes, joining_wakeJobs, joining_joinStarts, hbegun]
  rfl

/-- A bow that mirrors keeps its own table of regions; a stern has none mirrored yet. -/
def mirroredNone (d : Dev) : Dev := { d with pair := { d.pair with mirrored := if mirrorsOwn d then d.pair.mirrored else [] } }

/-- The other member mirrors (R404). -/
def joinMirrors (d : Dev) : Dev := joinCompletes (mirroredNone (pairTo 3 (putAside d)))

theorem joining_joinMirrors (d : Dev) : (joinMirrors d).joining = (3, d.pair.epoch, none) := by
  have haside : (putAside d).joining = d.joining := view_ite Dev.joining rfl rfl
  have hmirrors : (mirroredNone (pairTo 3 (putAside d))).joining = (3, d.joining.2) := by
    rw [← haside]
    exact joining_pairTo ..
  rw [joinMirrors, joining_joinCompletes, hmirrors]
  rfl

/-- The epoch of the witness's record, or the first (R404). -/
def joinEpoch (returned : Nat) : Nat := if returned = 0 then 1 else returned / 2 ^ 32

/-- A member with a fresh stream, at the epoch of the witness's record, as it takes its role (R390, R404). -/
def joinFresh (returned : Nat) (s : State) : Dev := { s.dev with pair := { s.dev.pair with
  epoch := joinEpoch returned, mseq := 0, acked := 0, applied := 0, answered := 0, waits := [], buffer := [], regionBuffer := [],
  owed := [], missed := 0, asking := none, joinMsg := 0, joinTrans := [], noHeartbeat := false, keys := ownKeys s } }

/-- The member that serves by the witness's record: its holder, or the bow where there is none (R404). -/
def joinHolder (returned : Nat) (d : Dev) : Nat :=
  if returned = 0 then (if d.cfg.role = 1 then ownModule d else partnerModule d) else returned % 4096

/-- The member in the role that the witness's record gives it (R404). -/
def joinTaken (returned : Nat) (s : State) : Dev :=
  if joinHolder returned s.dev = ownModule s.dev then joinServes s (joinFresh returned s) else joinMirrors (joinFresh returned s)

theorem joinAs_eq (returned : Nat) (s : State) : joinAs returned s = { s with dev := joinTaken returned s } := by
  unfold joinAs joinTaken
  by_cases h : joinHolder returned s.dev = ownModule s.dev
  · rw [if_pos h]
    exact if_pos h
  · rw [if_neg h]
    exact if_neg h

theorem joining_joinTaken (returned : Nat) (s : State) : (joinTaken returned s).joining =
    (if joinHolder returned s.dev = ownModule s.dev then 2 else 3, joinEpoch returned, none) := by
  unfold joinTaken
  split
  · exact joining_joinServes ..
  · exact joining_joinMirrors ..

/-- WITNESS_ANSWER in the joining exchange (R404). -/
theorem witnessAnswer_of_joining {w : WitnessAns} {s : State} (ha : s.dev.pair.asking = some (w.tag, w.tagGen))
    (hst : s.dev.pair.state = 1) (hj : s.dev.pair.joinMsg = 4) :
    exec (.witnessAnswer w) s = .next (ends (joinTaken w.returned s) s) := by
  have hasked : ¬s.dev.pair.asking.isNone = true := by rw [ha]; exact Bool.false_ne_true
  have hanswer : witnessAnswer w.returned s = joinAs w.returned s := (if_neg hasked).trans (if_pos ⟨hst, hj⟩)
  exact congrArg (fun t => Host.Outcome.next (settle t)) ((if_pos ha).trans (hanswer.trans (joinAs_eq ..)))

/-! ### PAIR_JOIN -/

/-- The command that joins kept with the pair's record. -/
def joinKept (q : QCmd) (d : Dev) : Dev := { d with pair := { d.pair with joinBy := some q } }

/-- The states in which PAIR_JOIN with MODE SYNC is taken (Table 14-2). -/
def joinable (st : Nat) : Prop := st = 1 ∨ st = 6 ∨ st = 9

section Sync
variable {q : QCmd} {d : Dev} (hm : pNat q.cmd 0 1 = 0)
include hm

theorem pairJoinSyncBody_of_free (hst : joinable d.pair.state) (hj : d.pair.joinBy = none) : pairJoinSyncBody q d =
    if d.pair.state = 1 ∧ d.pair.joinMsg ≠ 0 then joinKept q d else startJoining (joinKept q d) := by
  have hgo : ¬((d.pair.state ≠ 1 ∧ d.pair.state ≠ 6 ∧ d.pair.state ≠ 9) ∨ d.pair.joinBy.isSome = true) := by
    rw [hj]
    unfold joinable at hst
    simp
    omega
  exact (if_neg (not_not.mpr hm)).trans (if_neg hgo)

theorem pairJoinSyncBody_of_busy (h : ¬joinable d.pair.state ∨ d.pair.joinBy ≠ none) : pairJoinSyncBody q d = completeSt q stBusy d := by
  have hstop : (d.pair.state ≠ 1 ∧ d.pair.state ≠ 6 ∧ d.pair.state ≠ 9) ∨ d.pair.joinBy.isSome = true := by
    rcases h with h | h
    · left
      unfold joinable at h
      omega
    · exact Or.inr (Option.isSome_iff_ne_none.mpr h)
  exact (if_neg (not_not.mpr hm)).trans (if_pos hstop)

end Sync

/-- A member in JOINING with nothing exchanged yet (R404). -/
def joinOpened (d : Dev) : Dev := pairTo 1 { d with pair := { d.pair with asking := none, joinMsg := 0, joinTrans := [] } }

theorem joinOpened_keeps (d : Dev) : (joinOpened d).pair.joinBy = d.pair.joinBy ∧ (joinOpened d).pair.state = 1
    ∧ (joinOpened d).mem = d.mem ∧ (joinOpened d).cfg = d.cfg := by
  simp only [joinOpened, pairTo_pair, pairTo_mem, pairTo_cfg, and_self]

/-- A bow that begins to join sends MSG 1 with a fresh nonce and key (R404). -/
theorem startJoining_of_bow {d : Dev} (h : d.cfg.role = 1) : ∃ n msg k, startJoining d = { joinOpened d with
      draws := n, pair := { (joinOpened d).pair with joinMsg := 1, joinTrans := msg }, fabTx := (joinOpened d).fabTx ++ [k] }
    ∧ k.kind = 0x95 := by
  obtain ⟨-, -, -, hcfg⟩ := joinOpened_keeps d
  have hrole : (joinOpened d).cfg.role = 1 := by rw [hcfg, h]
  exact ⟨_, _, _, (if_pos hrole).trans (sendPair_of_ctl (by decide) _ _), rfl⟩

theorem startJoining_of_other {d : Dev} (h : d.cfg.role ≠ 1) : startJoining d = joinOpened d := by
  obtain ⟨-, -, -, hcfg⟩ := joinOpened_keeps d
  exact if_neg (show ¬(joinOpened d).cfg.role = 1 by rw [hcfg]; exact h)

/-- A member that begins to join is JOINING and keeps its command and memory; a bow sends MSG 1 (R404). -/
theorem startJoining_spec (d : Dev) : (startJoining d).pair.joinBy = d.pair.joinBy ∧ (startJoining d).pair.state = 1
    ∧ (startJoining d).mem = d.mem
    ∧ (d.cfg.role = 1 → (startJoining d).pair.joinMsg = 1 ∧ ∃ k ∈ (startJoining d).fabTx, k.kind = 0x95) := by
  obtain ⟨hby, hstate, hmem, -⟩ := joinOpened_keeps d
  by_cases h : d.cfg.role = 1
  · obtain ⟨n, msg, k, hstart, hk⟩ := startJoining_of_bow h
    rw [hstart]
    exact ⟨hby, hstate, hmem, fun _ => ⟨rfl, k, List.mem_append_right _ List.mem_cons_self, hk⟩⟩
  · rw [startJoining_of_other h]
    exact ⟨hby, hstate, hmem, fun hrole => absurd hrole h⟩

/-- PAIR_JOIN with MODE SYNC (R404, R405). -/
theorem pairJoinSync_by_state {c : Cmd} {s t : State} {q : QCmd} (hb : begins 0x0803 (withByte c 0 0) s = some (q, t))
    (hm : pNat q.cmd 0 1 = 0) :
    ((t.dev.pair.state = 1 ∨ t.dev.pair.state = 6 ∨ t.dev.pair.state = 9) → t.dev.pair.joinBy = none →
      ∃ d, exec (.pairJoinSync c) s = .next (ends d t) ∧ d.pair.joinBy = some q ∧ d.pair.state = 1 ∧ d.mem = t.dev.mem
        ∧ (t.dev.cfg.role = 1 → (t.dev.pair.state ≠ 1 ∨ t.dev.pair.joinMsg = 0) →
            d.pair.joinMsg = 1 ∧ ∃ k ∈ d.fabTx, k.kind = 0x95))
    ∧ ((t.dev.pair.state ≠ 1 ∧ t.dev.pair.state ≠ 6 ∧ t.dev.pair.state ≠ 9 ∨ t.dev.pair.joinBy ≠ none) →
        exec (.pairJoinSync c) s = .next (replied q stBusy [] [] t.dev t)) := by
  refine ⟨fun hst hj => ⟨_, next_ends_of_begins hb (pairJoinSyncBody_of_free hm hst hj), ?_⟩, fun h => ?_⟩
  · split
    · next hopen => exact ⟨rfl, hopen.1, rfl, fun _ h => absurd h (by tauto)⟩
    · obtain ⟨hby, hstate, hmem, hmsg⟩ := startJoining_spec (joinKept q t.dev)
      exact ⟨hby, hstate, hmem, fun hrole _ => hmsg hrole⟩
  · exact next_ends_of_begins hb (pairJoinSyncBody_of_busy hm (h.imp_left fun h => by unfold joinable; tauto))

/-- PAIR_JOIN with MODE SWITCH (R406). -/
theorem pairJoinSwitch_by_state {c : Cmd} {s t : State} {q : QCmd} (hb : begins 0x0803 (withByte c 0 1) s = some (q, t)) :
    (t.dev.pair.state = 4 → t.dev.pair.switching = false → t.dev.pair.expelling = false →
      ∃ d, exec (.pairJoinSwitch c) s = .next (ends d t) ∧ d.pair.switching = true ∧ d.pair.joinBy = some q ∧ d.mem = t.dev.mem
        ∧ (t.dev.pair.waits = [] → t.dev.pair.asking = none → t.dev.flt.fatal = false →
            Asked (ownModule t.dev) (partnerModule t.dev) t.dev d))
    ∧ ((t.dev.pair.state ≠ 4 ∨ t.dev.pair.switching = true ∨ t.dev.pair.expelling = true) →
        exec (.pairJoinSwitch c) s = .next (replied q stBusy [] [] t.dev t)) := by
  refine ⟨fun hst hs hx => ?_, fun h => next_ends_of_begins hb (if_pos h)⟩
  let e : Dev := { t.dev with pair := { t.dev.pair with switching := true, joinBy := some q } }
  have hbody : pairJoinSwitchBody q t.dev = switchAsk e := if_neg (by simp [hst, hs, hx])
  refine ⟨switchAsk e, next_ends_of_begins hb hbody, ?_⟩
  by_cases hask : e.pair.state = 4 ∧ e.pair.switching = true ∧ e.pair.asking.isNone = true ∧ e.pair.waits.isEmpty = true
  · have hsent : switchAsk e = askWitness (ownModule e) (partnerModule e) e := if_pos hask
    obtain ⟨n, tx, p, heq, hpair⟩ := askWitness_eq (ownModule e) (partnerModule e) e
    rw [hsent]
    refine ⟨?_, ?_, ?_, fun _ _ hf => asked_of_standing (asked_askWitness (d := e) hf _ _) rfl rfl rfl rfl⟩
    all_goals rw [heq]
    · rw [hpair]
    · rw [hpair]
  · have hwait : switchAsk e = e := if_neg hask
    rw [hwait]
    refine ⟨rfl, rfl, rfl, fun hw ha _ => absurd ⟨hst, rfl, ?_, ?_⟩ hask⟩
    · exact Option.isNone_iff_eq_none.mpr ha
    · exact List.isEmpty_iff.mpr hw

/-! ### PAIR_LEAVE -/

/-- The quota of one region given back to a crew. -/
def unchargeOne (d : Dev) (crew : Nat) : Dev := modCrew crew (fun c => { c with dramUsed := c.dramUsed - 1 }) d

theorem dramUsed_unchargeOne (d : Dev) (crew n : Nat) :
    (crewOf (unchargeOne d crew) n).dramUsed = (crewOf d n).dramUsed - if crew = n then 1 else 0 := by
  unfold crewOf unchargeOne modCrew
  dsimp only
  rw [tGet?_tMod]
  by_cases h : n = crew
  · subst h
    cases tGet? d.crews n <;> simp
  · simp [h, Ne.symm h]

/-- The charges of mirrored regions released, in their order. -/
theorem dramUsed_released (l : List (Nat × Region)) (d : Dev) (n : Nat) :
    (crewOf (l.foldl (fun d r => unchargeOne d r.2.crew) d) n).dramUsed
      = (crewOf d n).dramUsed - (l.filter fun r => r.2.crew == n).length := by
  induction l generalizing d with
  | nil => rfl
  | cons r l ih =>
    rw [List.foldl_cons, ih, dramUsed_unchargeOne, List.filter_cons]
    by_cases h : r.2.crew = n
    · simp only [h, if_true, beq_self_eq_true, List.length_cons]
      omega
    · simp [h]

/-- The charges of mirrored regions released change the crews alone. -/
theorem released_eq (l : List (Nat × Region)) (d : Dev) : ∃ cs, l.foldl (fun d r => unchargeOne d r.2.crew) d = { d with crews := cs } := by
  induction l generalizing d with
  | nil => exact ⟨_, rfl⟩
  | cons r l ih =>
    obtain ⟨cs, h⟩ := ih (unchargeOne d r.2.crew)
    exact ⟨cs, by rw [List.foldl_cons, h]; rfl⟩

/-- A member's last HEARTBEAT, on one port. -/
def lastHeartbeat (d : Dev) (port : Nat) : Dev := sendPairPort port 0x90 (heartbeatBody d 0) d

/-- HEARTBEATs on some ports change only what leaves on the fabric, and leave on each. -/
theorem lastHeartbeats_eq (l : List Nat) (d : Dev) : ∃ tx, l.foldl lastHeartbeat d = { d with fabTx := tx }
    ∧ (∀ k ∈ d.fabTx, k ∈ tx) ∧ ∀ p ∈ l, ∃ k ∈ tx, k.kind = 0x90 ∧ k.port = some p := by
  induction l generalizing d with
  | nil => exact ⟨d.fabTx, rfl, fun _ hk => hk, fun _ hp => absurd hp List.not_mem_nil⟩
  | cons p l ih =>
    obtain ⟨k, hsent, hkind, hport⟩ : ∃ k, lastHeartbeat d p = { d with fabTx := d.fabTx ++ [k] } ∧ k.kind = 0x90 ∧ k.port = some p :=
      ⟨_, sendPkt_of_ctl (Nat.le_of_ble_eq_true rfl) _, rfl, rfl⟩
    obtain ⟨tx, hrest, hkeep, hall⟩ := ih (lastHeartbeat d p)
    rw [hsent] at hrest hkeep
    refine ⟨tx, by rw [List.foldl_cons, hsent, hrest], fun x hx => hkeep x (List.mem_append_left _ hx), fun x hx => ?_⟩
    rcases List.mem_cons.mp hx with rfl | hx
    · exact ⟨k, hkeep k (List.mem_append_right _ List.mem_cons_self), hkind, hport⟩
    · exact hall x hx

/-- A member that has left: its charges are released, its last HEARTBEATs sent and its mirrored regions dropped (R405). -/
def pairLeft (d : Dev) : Dev :=
  let e := d.pair.mirrored.foldl (fun d r => unchargeOne d r.2.crew) d
  let f := (pairPorts e).foldl lastHeartbeat e
  pairTo 0 { f with pair := { f.pair with mirrored := [], buffer := [], regionBuffer := [], owed := [] } }

theorem pairLeft_spec (d : Dev) : (pairLeft d).pair.state = 0 ∧ (pairLeft d).pair.mirrored = [] ∧ (pairLeft d).mem = d.mem
    ∧ (∀ n, (crewOf (pairLeft d) n).dramUsed = (crewOf d n).dramUsed - (d.pair.mirrored.filter fun r => r.2.crew == n).length)
    ∧ ∀ p ∈ pairPorts d, ∃ k ∈ (pairLeft d).fabTx, k.kind = 0x90 ∧ k.port = some p := by
  have hcrews (n : Nat) := dramUsed_released d.pair.mirrored d n
  obtain ⟨cs, hreleased⟩ := released_eq d.pair.mirrored d
  obtain ⟨tx, hsent, -, hall⟩ := lastHeartbeats_eq (pairPorts d) { d with crews := cs }
  have hports : pairPorts { d with crews := cs } = pairPorts d := rfl
  have hleft : pairLeft d = pairTo 0 { d with
      crews := cs, fabTx := tx, pair := { d.pair with mirrored := [], buffer := [], regionBuffer := [], owed := [] } } := by
    unfold pairLeft
    dsimp only
    rw [hreleased, hports, hsent]
  rw [hreleased] at hcrews
  rw [hleft, pairTo_pair, pairTo_mem, pairTo_fabTx]
  refine ⟨rfl, rfl, rfl, fun n => ?_, hall⟩
  rw [← hcrews n, crewOf, crewOf, pairTo_crews]

/-- PAIR_LEAVE (R405). -/
theorem pairLeave_by_state {c : Cmd} {s t : State} {q : QCmd} (hb : begins 0x0804 c s = some (q, t)) (hm : pNat q.cmd 0 1 = 0) :
    (t.dev.pair.state = 5 → t.dev.pair.expelUntil = none → t.dev.pair.asking = none →
      exec (.pairLeave c) s = .next (replied q stOk [] [] (pairLeft t.dev) t))
    ∧ ((t.dev.pair.state ≠ 5 ∨ t.dev.pair.expelUntil ≠ none ∨ t.dev.pair.asking ≠ none) →
        exec (.pairLeave c) s = .next (replied q stBusy [] [] t.dev t)) := by
  refine ⟨fun hst hex ha => next_ends_of_begins hb ((if_neg (not_not.mpr hm)).trans (if_neg ?_)),
    fun h => next_ends_of_begins hb ((if_neg (not_not.mpr hm)).trans (if_pos ?_))⟩
  · simp [hst, hex, ha]
  · exact h.imp_right (Or.imp Option.isSome_iff_ne_none.mpr Option.isSome_iff_ne_none.mpr)

/-! ### EXPEL -/

/-- The device once an expulsion that passes its checks has been logged and answered (R407). -/
def expelAnswered (q : QCmd) (s : State) : Dev :=
  let o := routeOrigin q.cmd.crew q.cmd.route
  completeSt q stOk (setField 0x110050 31 0 (s.nv.expelNext + 1)
    (logChange o.1 o.2 0x8000 0x0A (pNat q.cmd 12 2) true (val8 s.nv.expelNext) (slice q.cmd.params 0 64) s.dev))

theorem expelBody_of_refused {q : QCmd} {s : State} {st : Nat} (h : expelCheck s q.cmd = some st) :
    expelBody q s = { s with dev := completeSt q st s.dev } := by
  simp only [expelBody, h]

theorem expelBody_of_sound {q : QCmd} {s : State} (h : expelCheck s q.cmd = none) : expelBody q s =
    { s with nv := { s.nv with expelNext := s.nv.expelNext + 1 }, dev := expelAct (pNat q.cmd 12 2) (expelAnswered q s) } := by
  simp only [expelBody, h]
  rfl

/-- An expulsion of this module ends in the fatal state (R408). -/
theorem fatal_expelAct {target : Nat} {d : Dev} (h : target = ownModule d) : (expelAct target d).flt.fatal = true := by
  rw [expelAct, if_pos h]
  exact enterFatal_fatal ..

theorem ownModule_expelAnswered (q : QCmd) (s : State) : ownModule (expelAnswered q s) = ownModule s.dev := by
  have hcfg : (expelAnswered q s).cfg = s.dev.cfg := by
    unfold expelAnswered
    dsimp only
    exact (congrArg Dev.cfg (offDone_completeSt ..) :)
  rw [ownModule, hcfg]
  rfl

/-- What the checks of EXPEL leave: the number is the next one, its stroke has not passed, and three managers have signed (R407). -/
theorem votes_of_expelCheck {s : State} {c : Cmd} (h : expelCheck s c = none) : pNat c 16 8 = s.nv.expelNext % 2 ^ 32
    ∧ s.dev.stk.number ≤ pNat c 24 8 ∧ 3 ≤ (expelVotes s.dev c).length := by
  unfold expelCheck at h
  dsimp only at h
  split at h
  · cases h
  · split at h
    · cases h
    · split at h
      · cases h
      · omega

/-- EXPEL (R407, R408). -/
theorem expel_by_check {c : Cmd} {s t : State} {q : QCmd} (hb : begins 0x0805 c s = some (q, t)) :
    (∀ st, expelCheck t q.cmd = some st → exec (.expel c) s = .next (replied q st [] [] t.dev t))
    ∧ (expelCheck t q.cmd = none → ∃ d, exec (.expel c) s = .next (ends d { t with nv := { t.nv with expelNext := t.nv.expelNext + 1 } })
        ∧ (pNat q.cmd 12 2 = ownModule t.dev → d.flt.fatal = true)) := by
  refine ⟨fun st h => next_settle_of_begins hb (expelBody_of_refused h),
    fun h => ⟨_, next_settle_of_begins hb (expelBody_of_sound h), fun htarget => fatal_expelAct ?_⟩⟩
  rw [ownModule_expelAnswered, htarget]

/-- Settles O51: each row by the equation of its meaning in the case named, and what that device holds. -/
theorem heartbeatWitnessAndExpulsion : Obligations.HeartbeatWitnessAndExpulsion := by
  unfold Obligations.HeartbeatWitnessAndExpulsion
  refine ⟨fun h s => ⟨fun he => next_onDev (if_pos (Or.inr (Or.inl he))), fun hst he hp hh => (heartbeat_by_state he hp).1 hst hh,
      fun hst he hp hh => (heartbeat_by_state he hp).2 hst hh⟩, fun s hf => ?_,
    fun w s => ⟨fun ha => ?_, fun ha hst => ?_, fun ha hst hj => ?_⟩,
    fun c s q t hb hm => pairJoinSync_by_state hb hm, fun c s q t hb => pairJoinSwitch_by_state hb, fun c s q t hb hm => ?_,
    fun c s q t hb => ?_⟩
  · obtain ⟨hserve, hserveEarly, hmirror, hnotice⟩ := limits_by_state hf
    obtain ⟨hretry, hretryJoin, hretryEarly⟩ := witnessAskRetry_by_stroke hf
    exact ⟨hserve, hserveEarly, hmirror, hnotice, hretry, hretryJoin, hretryEarly⟩
  · exact congrArg (fun t => Host.Outcome.next (settle t)) (if_neg ha)
  · exact witnessAnswer_by_state ha hst
  · have hjoining := joining_joinTaken w.returned s
    exact ⟨_, witnessAnswer_of_joining ha hst hj, (congrArg Prod.fst hjoining :), (congrArg (fun x => x.2.1) hjoining :),
      (congrArg (fun x => x.2.2) hjoining :)⟩
  · obtain ⟨hleft, hbusy⟩ := pairLeave_by_state hb hm
    exact ⟨fun hst hex ha => ⟨_, hleft hst hex ha, pairLeft_spec t.dev⟩, hbusy⟩
  · obtain ⟨hrefused, hsound⟩ := expel_by_check hb
    exact ⟨hrefused, hsound, votes_of_expelCheck⟩

end Sys2Proof.Machine
end

section
/-! The anchor records of the pools (O52): the core word judged by Table 14-10, and the two CASes that read and change it (R411). -/

namespace Sys2Proof.Machine

/-! ### Core words -/

/-- The number that bytes spell has those bytes. -/
theorem toLe_leNat (l : List Byte) : toLe l.length (leNat l) = l := by
  induction l with
  | nil => rfl
  | cons b l ih =>
    have hb := b.isLt
    have hbyte : BitVec.ofNat 8 (b.toNat + 256 * leNat l) = b := BitVec.eq_of_toNat_eq (by simp only [BitVec.toNat_ofNat]; omega)
    have hrest : (b.toNat + 256 * leNat l) / 256 = leNat l := by omega
    rw [List.length_cons, leNat, toLe, hbyte, hrest, ih]

/-- A core word whose fields fit spells them (Table 14-8). -/
theorem parseAnchor_word {a : Anchor} (hlease : a.lease < 2 ^ 32) (htag : a.rtag < 2 ^ 30) (hphase : a.phase < 4)
    (htarget : a.target < 2 ^ 16) (howner : a.owner < 2 ^ 16) (hepoch : a.epoch < 2 ^ 32) : parseAnchor a.word = a := by
  cases a
  simp only [parseAnchor, Anchor.word, bitsOf, Anchor.mk.injEq] at *
  refine ⟨?_, ?_, ?_, ?_, ?_, ?_⟩ <;> omega

/-- Whether the caller of an anchor operation is the owner that a core word names. -/
def anchorMine (c : Cmd) (w : Nat) : Prop :=
  (parseAnchor w).rtag = anchorCrc (pNat c 24 8) / 2 ^ 34 ∧ (parseAnchor w).owner = pNat c 2 2

/-- An operation of an owner by anyone else is refused (Table 14-10). -/
theorem anchorJudge_of_stranger {c : Cmd} {w : Nat} (hop : pNat c 0 1 ∈ [2, 3, 5, 6]) (hm : ¬anchorMine c w) (stroke : Nat) :
    anchorJudge c stroke w = (0x30, none) := by
  unfold anchorMine at hm
  simp only [List.mem_cons, List.not_mem_nil, or_false] at hop
  rcases hop with h | h | h | h <;> simp only [anchorJudge, h, hm, not_false_iff, if_true]

/-- An operation that names an epoch makes no word of a record at another one (Table 14-10). -/
theorem anchorJudge_of_epoch {c : Cmd} {w : Nat} (hlow : 2 ≤ pNat c 0 1) (hhigh : pNat c 0 1 ≤ 6)
    (he : (parseAnchor w).epoch ≠ pNat c 36 4) (stroke : Nat) : (anchorJudge c stroke w).2 = none := by
  have hop : pNat c 0 1 = 2 ∨ pNat c 0 1 = 3 ∨ pNat c 0 1 = 4 ∨ pNat c 0 1 = 5 ∨ pNat c 0 1 = 6 := by omega
  rcases hop with h | h | h | h | h
  case inr.inr.inl =>
    simp only [anchorJudge, h, he, not_false_iff, if_true]
    split <;> rfl
  all_goals
    by_cases hm : anchorMine c w
    · unfold anchorMine at hm
      simp only [anchorJudge, h, hm, he, and_self, not_true, not_false_iff, if_true, if_false]
    · rw [anchorJudge_of_stranger (by simp [h]) hm]

section Judge
variable {c : Cmd} {w stroke : Nat}

/-- The record that makes a pool the owner at the next epoch, with a lease from a stroke (Table 14-10). -/
def anchorOwn (c : Cmd) (stroke w : Nat) : Anchor :=
  { lease := (stroke + pNat c 32 4) % 2 ^ 32, rtag := anchorCrc (pNat c 24 8) / 2 ^ 34, phase := 1, owner := pNat c 2 2,
    epoch := ((parseAnchor w).epoch + 1) % 2 ^ 32 }

theorem anchorJudge_of_free (h : pNat c 0 1 = 1) (hfree : (parseAnchor w).phase = 0) :
    anchorJudge c stroke w = (0, some (anchorOwn c stroke w).word) := by
  simp only [anchorJudge, h, hfree, if_true, anchorOwn]

theorem anchorJudge_of_held (h : pNat c 0 1 = 1) (hheld : (parseAnchor w).phase ≠ 0) : (anchorJudge c stroke w).2 = none := by
  simp only [anchorJudge, h, hheld, if_false]
  split
  · rfl
  · split
    · rfl
    · split <;> rfl

section Owner
variable (hm : anchorMine c w) (he : (parseAnchor w).epoch = pNat c 36 4)
include hm he

theorem anchorJudge_of_release (h : pNat c 0 1 = 6) :
    anchorJudge c stroke w = (0, some { epoch := (anchorOwn c stroke w).epoch : Anchor }.word) := by
  unfold anchorMine at hm
  simp only [anchorJudge, h, hm, he, and_self, not_true, if_false, anchorOwn]

variable (hx : (parseAnchor w).expired stroke = false)
include hx

theorem anchorJudge_of_renew (h : pNat c 0 1 = 2) : anchorJudge c stroke w =
    (0, some { parseAnchor w with lease := (anchorOwn c stroke w).lease, epoch := (anchorOwn c stroke w).epoch }.word) := by
  unfold anchorMine at hm
  simp only [anchorJudge, h, hm, he, hx, and_self, not_true, if_false, Bool.false_eq_true, anchorOwn]

theorem anchorJudge_of_offer (h : pNat c 0 1 = 3) (hp : (parseAnchor w).phase = 1) : anchorJudge c stroke w =
    (0, some { parseAnchor w with phase := 2, target := pNat c 4 2, epoch := (anchorOwn c stroke w).epoch }.word) := by
  unfold anchorMine at hm
  simp only [anchorJudge, h, hm, he, hx, hp, and_self, not_true, if_false, Bool.false_eq_true, ne_eq, anchorOwn]

theorem anchorJudge_of_abort (h : pNat c 0 1 = 5) (hp : (parseAnchor w).phase = 2) : anchorJudge c stroke w =
    (0, some { parseAnchor w with phase := 1, target := 0, epoch := (anchorOwn c stroke w).epoch }.word) := by
  unfold anchorMine at hm
  simp only [anchorJudge, h, hm, he, hx, hp, and_self, not_true, if_false, Bool.false_eq_true, ne_eq, anchorOwn]

end Owner

section Tag
variable (ht : (parseAnchor w).rtag = anchorCrc (pNat c 24 8) / 2 ^ 34)
include ht

theorem anchorJudge_of_accept (h : pNat c 0 1 = 4) (hp : (parseAnchor w).phase = 2) (htarget : (parseAnchor w).target = pNat c 2 2)
    (he : (parseAnchor w).epoch = pNat c 36 4) : anchorJudge c stroke w = (0, some (anchorOwn c stroke w).word) := by
  simp only [anchorJudge, h, ht, hp, htarget, he, and_self, not_true, if_false, anchorOwn]

theorem anchorJudge_of_take (h : pNat c 0 1 = 7) (hp : (parseAnchor w).phase ≠ 0) : anchorJudge c stroke w =
    if (parseAnchor w).expired stroke then (0, some (anchorOwn c stroke w).word) else (0x30, none) := by
  have hheld : ¬¬((parseAnchor w).rtag = anchorCrc (pNat c 24 8) / 2 ^ 34 ∧ (parseAnchor w).phase ≠ 0) := not_not.mpr ⟨ht, hp⟩
  simp only [anchorJudge, h]
  rw [if_neg hheld]
  cases (parseAnchor w).expired stroke <;> rfl

end Tag

end Judge

/-! ### The address of a record -/

/-- A record of a request that passes the checks begins a line (R409, Table 14-9). -/
theorem anchorAddr_mod {c : Cmd} (hc : ownerCheck c = none) : anchorAddr c % 128 = 0 := by
  have hbase : pNat c 8 8 % 4096 = 0 := by
    by_contra h
    have hrefused : aligned (pNat c 8 8) 4096 = false := by simpa [aligned] using h
    simp [ownerCheck, hrefused] at hc
  unfold anchorAddr
  omega

/-- Nothing stands in the way of an access anywhere in a plain line. -/
theorem plain_of_line {d : Dev} {a b key : Nat} (h : Plain d a key) (hl : lineOf b = lineOf a) : Plain d b key := by
  have hmod : addrModule b = addrModule a := by simp only [addrModule, bitsOf, lineOf] at *; omega
  have hspace : addrSpace b = addrSpace a := by simp only [addrSpace, bitsOf, lineOf] at *; omega
  have hregion : regionNo b = regionNo a := by simp only [regionNo, lineOf] at *; omega
  have hhome : homedHere d b = homedHere d a := by simp only [homedHere, regionAt, routeModule, hmod, hregion]
  have hrow : rowFenced d b = rowFenced d a := by simp only [rowFenced, hl]
  simpa only [Plain, hhome, hspace, hrow, hl, regionAt, hregion] using h

/-! ### The device's own writes -/

/-- A write of the device itself to a plain line is stored, but its access is not counted (R143, R217). -/
theorem performPart_of_deviceWrite {d : Dev} {p : Part} (h : Plain d p.addr p.key) (hp : p.Fits d) (ha : p.act = .write) (jid : Nat)
    (last : Bool) : (performPart jid .device last p d).1 = p.storedIn d
      ∧ (performPart jid .device last p d).2.mem = (storePart p d).mem := by
  obtain ⟨-, -, ⟨r, hr, -, -, -, hpaired, -⟩, -, -, -, -, hpoison, hmirror⟩ := h
  have hreg : ((regionAt d p.addr).getD {}).paired = false := by rw [hr]; exact hpaired
  have happ := apply_of_fits hp
  simp only [ha] at happ
  rw [mem_storePart]
  constructor
  · simp [performPart, hpoison, hmirror, hreg, ha, Part.storedIn, Part.keeps, Part.fin]
  · simp only [performPart, hpoison, hmirror, hreg, happ, ha, Bool.false_eq_true, false_and, if_false]
    exact view_ite Dev.mem (poisonLine_mem ..) (view_ite Dev.mem (unpoison_mem ..) rfl)

/-- What memory is after a write or an atomic depends on memory before it alone. -/
theorem mem_storePart_congr {d e : Dev} (h : e.mem = d.mem) (p : Part) : (storePart p e).mem = (storePart p d).mem := by
  rw [mem_storePart, mem_storePart, mem_setLine, mem_setLine, lineData, lineData, Part.stores, Part.stores, h]

/-- A write of the device itself to a plain line has been stored once it is tried. -/
theorem tryParts_of_deviceWrite {jid r n k : Nat} {p : Part} {d : Dev} (h : Plain d p.addr p.key) (hp : p.Fits d) (hs : p.state = .todo)
    (ha : p.act = .write) : (tryParts jid .device r n k [p] d).1 = [(p.begun d).storedIn d]
      ∧ (tryParts jid .device r n k [p] d).2.mem = (storePart p d).mem := by
  obtain ⟨hpart, hmem⟩ := performPart_of_deviceWrite (p := p.begun d) h ⟨hp.pos, hp.line, hp.change, hp.stores⟩ ha jid (k + 1 == n)
  have htry := homeTry_performs (p := { p with since := if p.since = 0 then d.stk.number else p.since }) h jid .device (k + 1 == n)
  cases p
  cases hs
  simp only [tryParts, h.1, if_true]
  rw [htry]
  exact ⟨congrArg (fun x => [x]) hpart, hmem⟩

/-- A write of the device itself within a plain line is stored at once. -/
theorem mem_deviceWrite_of_plain {d : Dev} {a key : Nat} {data : List Byte} (h : Plain d a key) (hn : 0 < data.length)
    (hl : lineOf (a + data.length - 1) = lineOf a) :
    (deviceWrite a key data d).mem = (storePart { addr := a, len := data.length, key, act := .write, data } d).mem := by
  let p : Part := { addr := a, len := data.length, key, act := .write, data }
  have hsplit : splitParts a data.length key .write data = [p] := by rw [splitParts_of_line hn hl, List.take_length]
  obtain ⟨hparts, hmem⟩ := tryParts_of_deviceWrite (jid := d.nextId) (r := unitId (ownModule d) 3) (n := 1) (k := 0) (p := p)
    (d := (freshId d).2) h ⟨hn, mod_add_le_of_line hl, Act.noConfusion, rfl⟩ rfl rfl
  have hdone : (tryParts d.nextId .device (unitId (ownModule d) 3) 1 0 [p] (freshId d).2).1.all Part.done = true := by
    rw [hparts]
    rfl
  have hstored := hmem.trans (mem_storePart_congr (e := (freshId d).2) (d := d) rfl p)
  unfold deviceWrite
  rw [hsplit]
  exact (congrArg Dev.mem (if_pos hdone)).trans hstored

/-- A part that is not marked changes of a device whose line is not poisoned memory and the counters alone. -/
theorem storePart_eq_of_clean {d : Dev} {p : Part} (hp : p.poisoned = false) (h : isPoisoned d (lineOf p.addr) = false) :
    ∃ m n, storePart p d = { d with mem := m, counters := n } := by
  obtain ⟨m, n, hstore⟩ := storePart_eq p d
  have hkept := (congrArg Dev.poison hstore).symm.trans (poison_storePart hp h)
  dsimp only at hkept
  exact ⟨m, n, hstore.trans (by rw [hkept])⟩

/-! ### The two CASes -/

/-- The CAS by which the core word of a command's record is read and changed (R411). -/
def ownerCas (c : Cmd) (compare operand : Nat) : Part :=
  { addr := anchorAddr c, len := 16, key := pNat c 16 5, act := .atomic 9 16 operand compare }

/-- The CASes of a command that have ended, kept with it. -/
def keepGot (q : QCmd) (ps : List Part) (d : Dev) : Dev := { d with got := tSet d.got q.id ps }

theorem keepGot_mem (q : QCmd) (ps : List Part) (d : Dev) : (keepGot q ps d).mem = d.mem := rfl

/-- The device once a command's CAS has acted on its record. -/
def ownerAsked (q : QCmd) (compare operand : Nat) (d : Dev) : Dev :=
  let p := ownerCas q.cmd compare operand
  let e := (freshId d).2
  keepGot q (tGet d.got q.id ++ [(p.begun e).storedIn e]) (storePart p e)

/-- The device once a command is done with its record. -/
def ownerDone (q : QCmd) (d : Dev) : Dev := { d with got := tDel d.got q.id }

/-- The core word that memory holds for a command. -/
def coreWord (c : Cmd) (d : Dev) : Nat := leNat (memRead d.mem (anchorAddr c) 16)

theorem ownerCas_fits {c : Cmd} (hc : ownerCheck c = none) (compare operand : Nat) (d : Dev) : (ownerCas c compare operand).Fits d := by
  have := anchorAddr_mod hc
  exact ⟨Nat.succ_pos 15, by simp only [ownerCas]; omega, Act.noConfusion, length_toLe ..⟩

/-- What a CAS puts into a record. -/
theorem stores_ownerCas (c : Cmd) (compare operand : Nat) (d : Dev) : (ownerCas c compare operand).stores d =
    toLe 16 (if coreWord c d = compare then operand else coreWord c d) := rfl

section Asked
variable (q : QCmd) (compare operand : Nat) (d : Dev)

/-- A CAS that has ended stands behind those before it, and gave the word that memory held. -/
theorem tGet_ownerAsked : ∃ p, tGet (ownerAsked q compare operand d).got q.id = tGet d.got q.id ++ [p]
    ∧ p.act = .atomic 9 16 operand compare ∧ p.status = stOk ∧ leNat p.data = coreWord q.cmd d := by
  refine ⟨_, tGet_tSet_self .., rfl, rfl, ?_⟩
  have hlt := leNat_lt (memRead d.mem (anchorAddr q.cmd) 16)
  rw [length_memRead] at hlt
  exact leNat_toLe 16 hlt

theorem mem_ownerAsked : (ownerAsked q compare operand d).mem = (storePart (ownerCas q.cmd compare operand) d).mem := by
  have hfresh := mem_storePart_congr (d := d) (e := (freshId d).2) rfl (ownerCas q.cmd compare operand)
  unfold ownerAsked
  dsimp only
  rw [keepGot_mem, hfresh]

/-- A CAS of a record on a plain line changes memory, its page's counter and what is kept with the command alone. -/
theorem ownerAsked_eq (h : Plain d (anchorAddr q.cmd) (pNat q.cmd 16 5)) : ∃ i m n g,
    ownerAsked q compare operand d = { d with nextId := i, mem := m, counters := n, got := g } := by
  obtain ⟨-, -, -, -, -, -, -, hpoison, -⟩ := h
  obtain ⟨m, n, hstore⟩ := storePart_eq_of_clean (d := (freshId d).2) (p := ownerCas q.cmd compare operand) rfl hpoison
  unfold ownerAsked keepGot
  dsimp only
  rw [hstore]
  exact ⟨_, _, _, _, rfl⟩

end Asked

/-- A CAS of a record leaves what stands in a line's way as it was. -/
theorem plain_ownerAsked {q : QCmd} {d : Dev} (compare operand : Nat) (h : Plain d (anchorAddr q.cmd) (pNat q.cmd 16 5)) :
    Plain (ownerAsked q compare operand d) (anchorAddr q.cmd) (pNat q.cmd 16 5) := by
  obtain ⟨i, m, n, g, hasked⟩ := ownerAsked_eq q compare operand d h
  rw [hasked]
  exact h

/-- Bytes that two memories share read the same. -/
theorem memRead_congr {m m' : List Host.Cell} {a n : Nat} (h : ∀ x, a ≤ x → x < a + n → memByte m x = memByte m' x) :
    memRead m a n = memRead m' a n := by
  refine List.map_congr_left fun i hi => h _ (Nat.le_add_right ..) ?_
  have := List.mem_range.mp hi
  omega

/-! ### A command's run -/

/-- A CAS of a command's record issued behind those that have ended, and the command's run with what it gave, or left waiting for
it (R411). -/
def ownerIssue (q : QCmd) (n : Nat) (l : List Part) (compare operand : Nat) (d : Dev) : Dev :=
  let x := tryParts d.nextId (.command q) (unitId (ownModule d) 3) 1 0 [ownerCas q.cmd compare operand] (freshId d).2
  if x.1.all Part.done then ownerRun q n (keepGot q (l ++ x.1) x.2)
  else setJob d.nextId { owner := .command q, crew := q.cmd.crew, requester := unitId (ownModule x.2) 3, stamp := x.2.stk.number,
                         parts := x.1, goal := .retry, ready := false } x.2

section Run
variable {q : QCmd} {d : Dev} {n : Nat}

/-- A CAS of a record on a plain line ends at once, and the command goes on. -/
theorem ownerIssue_of_plain (hc : ownerCheck q.cmd = none) (hplain : Plain d (anchorAddr q.cmd) (pNat q.cmd 16 5)) (compare operand : Nat) :
    ownerIssue q n (tGet d.got q.id) compare operand d = ownerRun q n (ownerAsked q compare operand d) := by
  unfold ownerIssue
  rw [tryParts_of_store (d := (freshId d).2) (p := ownerCas q.cmd compare operand) hplain (ownerCas_fits hc compare operand _) rfl
    Owner.noConfusion]
  rfl

/-- A command with no CAS ended yet reads its core word by a CAS of zeros (R411). -/
theorem ownerRun_of_fresh (hg : tGet d.got q.id = []) : ownerRun q (n + 1) d = ownerIssue q n (tGet d.got q.id) 0 0 d := by
  rw [ownerRun, hg]
  rfl

/-- A command whose last CAS, of those that have ended, succeeded: it is done where that CAS changed the word; else the word that
stands is judged. -/
theorem ownerRun_of_cas {l : List Part} {p : Part} {compare operand st : Nat} {new : Option Nat} (hg : tGet d.got q.id = l ++ [p])
    (ha : p.act = .atomic 9 16 operand compare) (hst : p.status = stOk)
    (hj : anchorJudge q.cmd d.stk.number (leNat p.data) = (st, new)) : ownerRun q (n + 1) d =
      if 0 < l.length ∧ leNat p.data = compare then
        complete q stOk (anchorWords operand) [] (ownerDone q
          (if pNat q.cmd 0 1 = 1 ∨ pNat q.cmd 0 1 = 7 then
            deviceWrite (anchorAddr q.cmd + 16) (pNat q.cmd 16 5) (slice q.cmd.params 24 8) d else d))
      else new.elim (complete q st (anchorWords (leNat p.data)) [] (ownerDone q d)) fun w =>
        if 3 < l.length then complete q stBusy (anchorWords (leNat p.data)) [] (ownerDone q d)
        else ownerIssue q n (tGet d.got q.id) (leNat p.data) w d := by
  have hlast : (l ++ [p]).getLast? = some p := List.getLast?_concat
  have hlen : (l ++ [p]).length = l.length + 1 := by simp
  have hgood : ¬(!stSuccess p.status) = true := by rw [hst]; decide
  rw [ownerRun, hg, hlast]
  dsimp only
  rw [ha]
  dsimp only
  rw [if_neg hgood, hlen, hj]
  simp only [gt_iff_lt, Nat.succ_lt_succ_iff]
  cases new <;> rfl

end Run

/-! ### What a command leaves of memory -/

/-- The device once a command's CAS of zeros has read its core word, and once a second has put a word in its place. -/
def ownerChanged (q : QCmd) (w : Nat) (d : Dev) : Dev := ownerAsked q (coreWord q.cmd d) w (ownerAsked q 0 0 d)

/-- The request identifier stored behind the word that a CLAIM or a TAKE makes (R411). -/
def storeReq (q : QCmd) (d : Dev) : Dev :=
  if pNat q.cmd 0 1 = 1 ∨ pNat q.cmd 0 1 = 7 then
    deviceWrite (anchorAddr q.cmd + 16) (pNat q.cmd 16 5) (slice q.cmd.params 24 8) d else d

section Outcome
variable {q : QCmd} {d : Dev} (hc : ownerCheck q.cmd = none)
include hc

/-- The CAS of zeros leaves every byte as it was. -/
theorem memByte_ownerAsked_zeros (hm : Memory.wf d.mem = true) (a : Nat) :
    memByte (ownerAsked q 0 0 d).mem a = memByte d.mem a := by
  have hstores : (ownerCas q.cmd 0 0).stores d = memRead d.mem (anchorAddr q.cmd) 16 := by
    have hword : (if coreWord q.cmd d = 0 then 0 else coreWord q.cmd d) = coreWord q.cmd d := by
      split <;> omega
    have hbytes := toLe_leNat (memRead d.mem (anchorAddr q.cmd) 16)
    rw [length_memRead] at hbytes
    rw [stores_ownerCas, hword]
    exact hbytes
  rw [mem_ownerAsked, memByte_storePart (ownerCas_fits hc 0 0 d) hm, hstores]
  split
  · next h =>
    obtain ⟨hlow, hhigh⟩ : anchorAddr q.cmd ≤ a ∧ a < anchorAddr q.cmd + 16 := h
    have hin : a - anchorAddr q.cmd < 16 := by omega
    have hback : anchorAddr q.cmd + (a - anchorAddr q.cmd) = a := by omega
    simp [memRead, ownerCas, hin, hback]
  · rfl

theorem coreWord_ownerAsked_zeros (hm : Memory.wf d.mem = true) : coreWord q.cmd (ownerAsked q 0 0 d) = coreWord q.cmd d := by
  simp only [coreWord, memRead, memByte_ownerAsked_zeros hc hm]

variable (hg : tGet? d.got q.id = none)
include hg

/-- The word read by the CAS of zeros is judged at the stroke of the command. -/
theorem ownerRun_of_read (hplain : Plain d (anchorAddr q.cmd) (pNat q.cmd 16 5)) {st : Nat} {new : Option Nat}
    (hj : anchorJudge q.cmd d.stk.number (coreWord q.cmd d) = (st, new)) :
    ownerRun q 7 d = new.elim (complete q st (anchorWords (coreWord q.cmd d)) [] (ownerDone q (ownerAsked q 0 0 d))) fun w =>
      ownerRun q 5 (ownerChanged q w d) := by
  have hnone : tGet d.got q.id = [] := by rw [tGet, hg]; rfl
  obtain ⟨p, hgot, hact, hstatus, hword⟩ := tGet_ownerAsked q 0 0 d
  obtain ⟨i, m, n, g, hasked⟩ := ownerAsked_eq q 0 0 d hplain
  have hstk : (ownerAsked q 0 0 d).stk = d.stk := by rw [hasked]
  rw [hnone] at hgot
  rw [← hword, ← hstk] at hj
  rw [ownerRun_of_fresh hnone, ownerIssue_of_plain hc hplain, ownerRun_of_cas hgot hact hstatus hj, hword]
  cases new with
  | none => rfl
  | some w => exact ownerIssue_of_plain hc (plain_ownerAsked 0 0 hplain) ..

/-- Where Table 14-10 makes a new word, the second CAS finds the word that was judged, and the command completes with the new one. -/
theorem ownerRun_of_changed (hm : Memory.wf d.mem = true) (w : Nat) : ownerRun q 5 (ownerChanged q w d) =
    complete q stOk (anchorWords w) [] (ownerDone q (storeReq q (ownerChanged q w d))) := by
  have hnone : tGet d.got q.id = [] := by rw [tGet, hg]; rfl
  obtain ⟨p, hfirst, -, -, -⟩ := tGet_ownerAsked q 0 0 d
  obtain ⟨x, hgot, hact, hstatus, hword⟩ := tGet_ownerAsked q (coreWord q.cmd d) w (ownerAsked q 0 0 d)
  rw [hfirst, hnone] at hgot
  rw [coreWord_ownerAsked_zeros hc hm] at hword
  exact (ownerRun_of_cas hgot hact hstatus rfl).trans (if_pos ⟨Nat.one_pos, hword⟩)

end Outcome

theorem wf_ownerAsked {d : Dev} (hm : Memory.wf d.mem = true) (q : QCmd) (compare operand : Nat) :
    Memory.wf (ownerAsked q compare operand d).mem = true := by
  rw [mem_ownerAsked]
  exact wf_storePart hm _

section Changed
variable {q : QCmd} {d : Dev} (hc : ownerCheck q.cmd = none) (hm : Memory.wf d.mem = true) (w : Nat)
include hc hm

/-- The second CAS puts the new word in the record's place. -/
theorem memRead_ownerChanged : memRead (ownerChanged q w d).mem (anchorAddr q.cmd) 16 = toLe 16 w := by
  have hstores : (ownerCas q.cmd (coreWord q.cmd d) w).stores (ownerAsked q 0 0 d) = toLe 16 w := by
    rw [stores_ownerCas, if_pos (coreWord_ownerAsked_zeros hc hm)]
  rw [ownerChanged, mem_ownerAsked, ← hstores]
  exact memRead_storePart (ownerCas_fits hc _ w (ownerAsked q 0 0 d)) (wf_ownerAsked hm q 0 0)

/-- The CASes change no byte beyond the core word. -/
theorem memByte_ownerChanged_out {a : Nat} (ha : a < anchorAddr q.cmd ∨ anchorAddr q.cmd + 16 ≤ a) :
    memByte (ownerChanged q w d).mem a = memByte d.mem a := by
  rw [ownerChanged, mem_ownerAsked, memByte_storePart_out (ownerCas_fits hc _ w _) (wf_ownerAsked hm q 0 0) ha,
    memByte_ownerAsked_zeros hc hm]

end Changed

theorem storeReq_of_other {q : QCmd} (h : ¬(pNat q.cmd 0 1 = 1 ∨ pNat q.cmd 0 1 = 7)) (d : Dev) : storeReq q d = d := if_neg h

/-- The write of a request identifier behind its core word. -/
def reqStore (c : Cmd) : Part :=
  { addr := anchorAddr c + 16, len := 8, key := pNat c 16 5, act := .write, data := slice c.params 24 8 }

theorem reqStore_fits {c : Cmd} (hc : ownerCheck c = none) (d : Dev) : (reqStore c).Fits d := by
  have := anchorAddr_mod hc
  exact ⟨Nat.succ_pos 7, by simp only [reqStore]; omega, Act.noConfusion, List.length_map _ |>.trans List.length_range⟩

/-- A CLAIM and a TAKE store the request identifier behind the core word. -/
theorem mem_storeReq {q : QCmd} {d : Dev} (hc : ownerCheck q.cmd = none) (hplain : Plain d (anchorAddr q.cmd) (pNat q.cmd 16 5))
    (h : pNat q.cmd 0 1 = 1 ∨ pNat q.cmd 0 1 = 7) : (storeReq q d).mem = (storePart (reqStore q.cmd) d).mem := by
  have hmod := anchorAddr_mod hc
  have hlen : (slice q.cmd.params 24 8).length = 8 := List.length_map _ |>.trans List.length_range
  have hline : lineOf (anchorAddr q.cmd + 16) = lineOf (anchorAddr q.cmd) := by simp only [lineOf]; omega
  have hstored := mem_deviceWrite_of_plain (plain_of_line hplain hline) (by rw [hlen]; decide)
    (by rw [hlen]; simp only [lineOf]; omega : lineOf (anchorAddr q.cmd + 16 + (slice q.cmd.params 24 8).length - 1) = _)
  rw [hlen] at hstored
  rw [storeReq, if_pos h]
  exact hstored

/-! ### The rows -/

/-- The eight rows of OWNER_HANDOFF differ in the OP that they set alone (Table 14-9). -/
theorem exec_owner {i : Cmd → Instr} {op : Nat}
    (hi : (i = .ownerQuery ∧ op = 0) ∨ (i = .ownerClaim ∧ op = 1) ∨ (i = .ownerRenew ∧ op = 2) ∨ (i = .ownerOffer ∧ op = 3)
      ∨ (i = .ownerAccept ∧ op = 4) ∨ (i = .ownerAbort ∧ op = 5) ∨ (i = .ownerRelease ∧ op = 6) ∨ (i = .ownerTake ∧ op = 7))
    (c : Cmd) (s : State) : exec (i c) s = .next (runRow 0x0806 (withByte c 0 op) (devBody ownerBody) s) := by
  rcases hi with ⟨rfl, rfl⟩ | ⟨rfl, rfl⟩ | ⟨rfl, rfl⟩ | ⟨rfl, rfl⟩ | ⟨rfl, rfl⟩ | ⟨rfl, rfl⟩ | ⟨rfl, rfl⟩ | ⟨rfl, rfl⟩ <;> rfl

theorem ownerBody_of_refused {q : QCmd} {d : Dev} {st : Nat} (hc : ownerCheck q.cmd = some st) : ownerBody q d = completeSt q st d := by
  simp only [ownerBody, hc]

theorem ownerBody_of_sound {q : QCmd} {d : Dev} (hc : ownerCheck q.cmd = none) : ownerBody q d = ownerRun q 7 d := by
  simp only [ownerBody, hc]

/-- Whether an operation stores its request identifier: a CLAIM or a TAKE. -/
def storesReq (c : Cmd) : Prop := pNat c 0 1 = 1 ∨ pNat c 0 1 = 7

/-- Storing the request identifier, where the operation does, changes its eight bytes alone. -/
theorem storeReq_effect {q : QCmd} {d : Dev} (hc : ownerCheck q.cmd = none) (hm : Memory.wf d.mem = true)
    (hplain : Plain d (anchorAddr q.cmd) (pNat q.cmd 16 5)) :
    (storesReq q.cmd → memRead (storeReq q d).mem (anchorAddr q.cmd + 16) 8 = slice q.cmd.params 24 8)
      ∧ ∀ x, (x < anchorAddr q.cmd + 16 ∨ anchorAddr q.cmd + 24 ≤ x ∨ ¬storesReq q.cmd) →
        memByte (storeReq q d).mem x = memByte d.mem x := by
  by_cases hn : storesReq q.cmd
  · rw [mem_storeReq hc hplain hn]
    refine ⟨fun _ => memRead_storePart (reqStore_fits hc d) hm, fun x hx => memByte_storePart_out (reqStore_fits hc d) hm ?_⟩
    rcases hx with h | h | h
    · exact Or.inl h
    · exact Or.inr h
    · exact absurd hn h
  · rw [storeReq_of_other hn]
    exact ⟨fun h => absurd h hn, fun x _ => rfl⟩

/-- What the record and the rest of memory hold once a new word has been made. -/
theorem mem_of_changed {q : QCmd} {d : Dev} (hc : ownerCheck q.cmd = none) (hm : Memory.wf d.mem = true)
    (hplain : Plain d (anchorAddr q.cmd) (pNat q.cmd 16 5)) (w : Nat) :
    memRead (storeReq q (ownerChanged q w d)).mem (anchorAddr q.cmd) 16 = toLe 16 w
      ∧ (storesReq q.cmd → memRead (storeReq q (ownerChanged q w d)).mem (anchorAddr q.cmd + 16) 8 = slice q.cmd.params 24 8)
      ∧ ∀ x, (x < anchorAddr q.cmd ∨ anchorAddr q.cmd + 24 ≤ x ∨ anchorAddr q.cmd + 16 ≤ x ∧ ¬storesReq q.cmd) →
        memByte (storeReq q (ownerChanged q w d)).mem x = memByte d.mem x := by
  have hwf : Memory.wf (ownerChanged q w d).mem = true := wf_ownerAsked (wf_ownerAsked hm q 0 0) q _ w
  have hword := memRead_ownerChanged hc hm w
  have hkept {x : Nat} := memByte_ownerChanged_out (a := x) hc hm w
  obtain ⟨hreq, hout⟩ := storeReq_effect hc hwf (plain_ownerAsked _ w (plain_ownerAsked 0 0 hplain))
  refine ⟨?_, hreq, fun x hx => ?_⟩
  · rw [← hword]
    exact memRead_congr fun x _ hx => hout x (Or.inl hx)
  · rcases hx with h | h | ⟨h, hn⟩
    · exact (hout x (Or.inl (Nat.lt_add_right 16 h))).trans (hkept (Or.inl h))
    · exact (hout x (Or.inr (Or.inl h))).trans (hkept (Or.inr (Nat.le_trans (Nat.add_le_add_left (by decide) _) h)))
    · exact (hout x (Or.inr (Or.inr hn))).trans (hkept (Or.inr h))

theorem ownerDone_mem (q : QCmd) (d : Dev) : (ownerDone q d).mem = d.mem := rfl

/-- Settles O52: the word is judged as the CAS of zeros read it and changed by a second CAS; the clauses on Table 14-10 case by case. -/
theorem anchorRecords : Obligations.AnchorRecords := by
  unfold Obligations.AnchorRecords
  refine ⟨fun i op c s q t hi hb hop => ⟨fun st hc => ?_, fun hc hm hplain hg => ⟨fun st hj => ?_, fun st w hj => ?_⟩⟩,
    fun c stroke w => ?_⟩
  · rw [exec_owner hi]
    exact next_ends_of_begins hb (ownerBody_of_refused hc)
  · have hrun := ownerRun_of_read hc hg hplain hj
    refine ⟨ownerDone q (ownerAsked q 0 0 t.dev), ?_, ?_⟩
    · rw [exec_owner hi]
      exact next_ends_of_begins hb ((ownerBody_of_sound hc).trans hrun)
    · rw [ownerDone_mem]
      exact memByte_ownerAsked_zeros hc hm
  · have hrun := (ownerRun_of_read hc hg hplain hj).trans (ownerRun_of_changed hc hg hm w)
    obtain ⟨hword, hreq, hout⟩ := mem_of_changed hc hm hplain w
    rw [storesReq, hop] at hreq hout
    refine ⟨ownerDone q (storeReq q (ownerChanged q w t.dev)), ?_, ?_⟩
    · rw [exec_owner hi]
      exact next_ends_of_begins hb ((ownerBody_of_sound hc).trans hrun)
    · rw [ownerDone_mem]
      exact ⟨hword, hreq, fun a ha => hout a (by tauto)⟩
  · intro a tag mine own
    have hlow (v : Nat) : v % 2 ^ 32 < 2 ^ 32 := Nat.mod_lt _ (by decide)
    refine ⟨fun h => ?_, fun h hfree => ?_, fun h hheld => ?_, fun hl hh he => anchorJudge_of_epoch hl hh he stroke,
      fun h hm => anchorJudge_of_stranger h hm stroke, fun h hm he hx => ?_, fun h hm he hx hp => ?_, fun h ht hp htarget he => ?_,
      fun h hm he hx hp => ?_, fun h hm he => ?_, fun h ht hp => ?_, fun ⟨hlease, htag, howner⟩ => ?_⟩
    · simp only [anchorJudge, h]
    · exact anchorJudge_of_free h hfree
    · exact anchorJudge_of_held h hheld
    · exact anchorJudge_of_renew hm he hx h
    · exact anchorJudge_of_offer hm he hx h hp
    · exact anchorJudge_of_accept ht h hp htarget he
    · exact anchorJudge_of_abort hm he hx h hp
    · exact anchorJudge_of_release hm he h
    · exact anchorJudge_of_take ht h hp
    · exact parseAnchor_word hlease htag (Nat.lt_of_sub_pos (by decide : 0 < 4 - 1)) (Nat.two_pow_pos 16) howner (hlow _)

end Sys2Proof.Machine
end

section
/-! The mirror's stream (O49): line and region changes applied in MSEQ order, their acknowledgement, and the repair of a line
(R367, R389 to R393). -/

namespace Sys2Proof.Machine

/-! ### Lines -/

/-- A line's bytes are what memory holds of it. -/
theorem lineData_congr {d e : Dev} {line : Nat} (h : ∀ x, lineOf x = line → memByte e.mem x = memByte d.mem x) :
    lineData e line = lineData d line :=
  memRead_congr fun x hlow hhigh => h x (by simp only [lineOf]; omega)

section SetLine
variable {d : Dev} (hm : Memory.wf d.mem = true) (l : Nat) (b : List Byte)
include hm

theorem lineData_setLine_self : lineData (setLine l b d) l = slice b 0 128 := by
  have hread := memRead_memWrite d.mem (l * 128) (slice b 0 128) hm
  rw [slice, List.length_map, List.length_range] at hread
  rw [lineData, mem_setLine]
  exact hread

theorem memByte_setLine_ne {x : Nat} (hx : lineOf x ≠ l) : memByte (setLine l b d).mem x = memByte d.mem x := by
  have hlen : (slice b 0 128).length = 128 := by rw [slice, List.length_map, List.length_range]
  have hbyte := memByte_setLine hm (l := l) hlen x
  rw [mem_setLine, slice_whole hlen, ← mem_setLine, if_neg hx] at hbyte
  exact hbyte

end SetLine

/-! ### Line changes -/

/-- The bytes of a line change: deciphered where CIPHER is set (R393). -/
def mirrorLine (p : MirrorPkt) (d : Dev) : List Byte :=
  if bitAt p.kind 6 then toLe 128 (Config.xtsDecrypt (tGet d.pair.keys ((mirroredAt d p.addr).getD {}).crew) p.addr
    ((mirroredAt d p.addr).getD {}).dgen p.line).toNat else p.line

/-- A member that owes more responses than it did. -/
def owing (l : List Owed) (d : Dev) : Dev := { d with pair := { d.pair with owed := d.pair.owed ++ l } }

/-- The response that a line change leaves owed. -/
def owedOf (p : MirrorPkt) : Owed :=
  { mseq := p.mseq, requester := p.requester, tag := p.tag, tagGen := p.tagGen, kind := p.kind % 8, old := p.old }

theorem applyMirror_eq_ite (p : MirrorPkt) (d : Dev) : applyMirror p d =
    if bitAt p.kind 7 ∧ p.requester ≠ 0 then
      owing [owedOf p] (unpoison (lineOf p.addr) (setLine (lineOf p.addr) (mirrorLine p d) d))
    else unpoison (lineOf p.addr) (setLine (lineOf p.addr) (mirrorLine p d) d) := rfl

/-- What is said of a line with its new bytes and without its mark is said of a line change applied, but of what is owed. -/
theorem applyMirror_view {β : Type} (g : Dev → β) (howing : ∀ l e, g (owing l e) = g e) (p : MirrorPkt) (d : Dev) :
    g (applyMirror p d) = g (unpoison (lineOf p.addr) (setLine (lineOf p.addr) (mirrorLine p d) d)) := by
  rw [applyMirror_eq_ite]
  exact view_ite g (howing _ _) rfl

section Apply
variable (p : MirrorPkt) (d : Dev)

theorem applyMirror_mem : (applyMirror p d).mem = (setLine (lineOf p.addr) (mirrorLine p d) d).mem :=
  (applyMirror_view Dev.mem (fun _ _ => rfl) p d).trans (unpoison_mem ..)

theorem applyMirror_regions : (applyMirror p d).regions = d.regions :=
  (applyMirror_view Dev.regions (fun _ _ => rfl) p d).trans ((unpoison_regions ..).trans (setLine_regions ..))

theorem applyMirror_regs : (applyMirror p d).regs = d.regs :=
  (applyMirror_view Dev.regs (fun _ _ => rfl) p d).trans ((unpoison_regs ..).trans (setLine_regs ..))

theorem applyMirror_poison : (applyMirror p d).poison = d.poison.filter (· != lineOf p.addr) := by
  refine (applyMirror_view Dev.poison (fun _ _ => rfl) p d).trans ?_
  rw [unpoison, setLine_poison]

end Apply

/-- What a line change leaves: its line holds it and is marked no longer, and every other byte is as before (R391, R393). -/
theorem applyMirror_effect {p : MirrorPkt} {d : Dev} (hm : Memory.wf d.mem = true) (hp : p.line.length = 128) :
    lineData (applyMirror p d) (lineOf p.addr) = mirrorLine p d ∧ isPoisoned (applyMirror p d) (lineOf p.addr) = false
      ∧ ∀ x, lineOf x ≠ lineOf p.addr → memByte (applyMirror p d).mem x = memByte d.mem x := by
  have hlen : (mirrorLine p d).length = 128 := by
    unfold mirrorLine
    split
    · exact length_toLe ..
    · exact hp
  have hline := lineData_setLine_self hm (lineOf p.addr) (mirrorLine p d)
  rw [slice_whole hlen, lineData] at hline
  refine ⟨?_, ?_, fun x hx => ?_⟩
  · rw [lineData, applyMirror_mem, hline]
  · simp [isPoisoned, applyMirror_poison]
  · rw [applyMirror_mem]
    exact memByte_setLine_ne hm _ _ hx

/-! ### The stream -/

/-- A line change kept until its turn in MSEQ order. -/
def mirrorHeld (p : MirrorPkt) (d : Dev) : Dev :=
  { d with pair := { d.pair with mseq := max d.pair.mseq p.mseq, buffer := tSet d.pair.buffer p.mseq p } }

/-- A region change kept until its turn in MSEQ order. -/
def regionHeld (p : RegionPkt) (d : Dev) : Dev :=
  { d with pair := { d.pair with mseq := max d.pair.mseq p.mseq, regionBuffer := tSet d.pair.regionBuffer p.mseq p } }

/-- The line change that is next taken from the buffer. -/
def mirrorNext (d : Dev) : Dev :=
  { d with pair := { d.pair with applied := d.pair.applied + 1, buffer := tDel d.pair.buffer (d.pair.applied + 1) } }

/-- The region change that is next taken from the buffer. -/
def regionNext (d : Dev) : Dev :=
  { d with pair := { d.pair with applied := d.pair.applied + 1, regionBuffer := tDel d.pair.regionBuffer (d.pair.applied + 1) } }

/-- Nothing that is buffered is next. -/
def AtGap (d : Dev) : Prop :=
  tGet? d.pair.buffer (d.pair.applied + 1) = none ∧ tGet? d.pair.regionBuffer (d.pair.applied + 1) = none

theorem applyBuffered_of_gap {d : Dev} (h : AtGap d) (n : Nat) : applyBuffered n d = d := by
  obtain ⟨hline, hregion⟩ := h
  cases n with
  | zero => rfl
  | succ n => simp only [applyBuffered, hline, hregion]

theorem applyBuffered_of_line {d : Dev} {p : MirrorPkt} (h : tGet? d.pair.buffer (d.pair.applied + 1) = some p) (n : Nat) :
    applyBuffered (n + 1) d = applyBuffered n (applyMirror p (mirrorNext d)) := by
  simp only [applyBuffered, h]
  rfl

theorem applyBuffered_of_region {d : Dev} {p : RegionPkt} (hline : tGet? d.pair.buffer (d.pair.applied + 1) = none)
    (h : tGet? d.pair.regionBuffer (d.pair.applied + 1) = some p) (n : Nat) :
    applyBuffered (n + 1) d = applyBuffered n (applyRegion p (regionNext d)) := by
  simp only [applyBuffered, hline, h]
  rfl

theorem length_pos_of_tGet? {α : Type} {t : Tbl α} {k : Nat} {v : α} (h : tGet? t k = some v) : 0 < t.length := by
  cases t with
  | nil => cases h
  | cons x t => exact Nat.succ_pos _

/-- At a gap nothing is applied and nothing acknowledged (R391). -/
theorem mirrorTake_of_gap {d : Dev} (h : AtGap d) : mirrorTake d = d := by
  unfold mirrorTake
  rw [applyBuffered_of_gap h]
  exact if_pos rfl

/-- The acknowledgement of what has been applied. -/
def ackMirror (d : Dev) : Dev := sendPair 0x91 (toLe 8 d.pair.applied) d

theorem ackMirror_eq (d : Dev) : ∃ k : OutPkt, ackMirror d = { d with fabTx := d.fabTx ++ [k] } ∧ k.kind = 0x91
    ∧ k.dest = unitId (partnerModule d) 0 ∧ k.body = toLe 8 d.pair.applied := ⟨_, sendPair_of_ctl (by decide) _ d, rfl, rfl, rfl⟩

/-- A change that brings the stream to its next gap is acknowledged (R391). -/
theorem mirrorTake_of_applied {d e : Dev} {n : Nat} (hfuel : d.pair.buffer.length + d.pair.regionBuffer.length = n + 1)
    (hstep : applyBuffered (n + 1) d = applyBuffered n e) (hgap : AtGap e) (hne : e.pair.applied ≠ d.pair.applied) :
    mirrorTake d = ackMirror e := by
  unfold mirrorTake
  dsimp only
  rw [hfuel, hstep, applyBuffered_of_gap hgap, if_neg hne]
  rfl

/-! ### MIRROR -/

/-- Where a member stands in the stream: what it has applied and what it keeps for later. -/
def Dev.stream (d : Dev) : Nat × Tbl MirrorPkt × Tbl RegionPkt := (d.pair.applied, d.pair.buffer, d.pair.regionBuffer)

theorem stream_applyMirror (p : MirrorPkt) (d : Dev) : (applyMirror p d).stream = d.stream := by
  refine (applyMirror_view Dev.stream (fun _ _ => rfl) p d).trans ?_
  simp only [Dev.stream, unpoison_pair, setLine_pair]

theorem atGap_of_stream {d : Dev} {n : Nat} {lines : Tbl MirrorPkt} {regions : Tbl RegionPkt} (h : d.stream = (n, lines, regions))
    (hlines : tGet? lines (n + 1) = none) (hregions : tGet? regions (n + 1) = none) : AtGap d := by
  cases h
  exact ⟨hlines, hregions⟩

/-- A table in which one key was set and deleted again, at another one. -/
theorem tGet?_tDel_tSet_ne {α : Type} (t : Tbl α) {k x : Nat} (v : α) (h : x ≠ k) : tGet? (tDel (tSet t k v) k) x = tGet? t x :=
  (tGet?_tDel_ne _ h).trans (tGet?_tSet_ne _ _ h)

section Mirror
variable {p : MirrorPkt} {d : Dev}

theorem mirrorIn_of_applied (h : p.mseq ≤ d.pair.applied) : mirrorIn p d = d := if_pos (Or.inr h)

variable (hl : mirrorListens d = true)
include hl

theorem mirrorIn_of_later (h : d.pair.applied < p.mseq) : mirrorIn p d = mirrorTake (mirrorHeld p d) :=
  if_neg (by rw [hl]; simpa using h)

/-- One beyond a gap is held, and nothing is applied (R391). -/
theorem mirrorIn_of_gap (h : d.pair.applied + 1 < p.mseq) (hgap : AtGap d) : mirrorIn p d = mirrorHeld p d := by
  obtain ⟨hbuffer, hregions⟩ := hgap
  rw [mirrorIn_of_later hl (Nat.lt_of_succ_lt h)]
  exact mirrorTake_of_gap (atGap_of_stream rfl ((tGet?_tSet_ne _ _ (Nat.ne_of_lt h)).trans hbuffer) hregions)

/-- One that is next is applied and acknowledged (R391). -/
theorem mirrorIn_of_next (h : p.mseq = d.pair.applied + 1) (hbuffer : tGet? d.pair.buffer (p.mseq + 1) = none)
    (hregions : tGet? d.pair.regionBuffer (p.mseq + 1) = none) :
    mirrorIn p d = ackMirror (applyMirror p (mirrorNext (mirrorHeld p d)))
      ∧ (applyMirror p (mirrorNext (mirrorHeld p d))).pair.applied = p.mseq := by
  have hnext : tGet? (mirrorHeld p d).pair.buffer ((mirrorHeld p d).pair.applied + 1) = some p := by
    have hself := tGet?_tSet_self d.pair.buffer p.mseq p
    have hat : (mirrorHeld p d).pair.applied + 1 = p.mseq := h.symm
    rw [hat]
    exact hself
  have hstream : (applyMirror p (mirrorNext (mirrorHeld p d))).stream
      = (p.mseq, tDel (tSet d.pair.buffer p.mseq p) p.mseq, d.pair.regionBuffer) := by
    have hheld : (mirrorNext (mirrorHeld p d)).stream
        = (d.pair.applied + 1, tDel (tSet d.pair.buffer p.mseq p) (d.pair.applied + 1), d.pair.regionBuffer) := rfl
    rw [stream_applyMirror, hheld, ← h]
  have happlied : (applyMirror p (mirrorNext (mirrorHeld p d))).pair.applied = p.mseq := (congrArg Prod.fst hstream :)
  obtain ⟨n, hn⟩ := Nat.exists_eq_succ_of_ne_zero
    (Nat.ne_of_gt (Nat.add_pos_left (length_pos_of_tGet? hnext) (mirrorHeld p d).pair.regionBuffer.length))
  have hgap := atGap_of_stream hstream ((tGet?_tDel_tSet_ne _ _ (Nat.succ_ne_self _)).trans hbuffer) hregions
  refine ⟨?_, happlied⟩
  rw [mirrorIn_of_later hl (h ▸ Nat.lt_succ_self _)]
  refine mirrorTake_of_applied hn (applyBuffered_of_line hnext n) hgap ?_
  rw [happlied, h]
  exact Nat.succ_ne_self _

end Mirror

/-- MIRROR (R391, R393). -/
theorem mirror_by_mseq {p : MirrorPkt} {s : State} (hl : mirrorListens s.dev = true) :
    (p.mseq ≤ s.dev.pair.applied → exec (.mirror p) s = .next (ends s.dev s))
    ∧ (s.dev.pair.applied + 1 < p.mseq → tGet? s.dev.pair.buffer (s.dev.pair.applied + 1) = none →
        tGet? s.dev.pair.regionBuffer (s.dev.pair.applied + 1) = none →
        ∃ d, exec (.mirror p) s = .next (ends d s) ∧ d.mem = s.dev.mem ∧ d.pair.applied = s.dev.pair.applied
          ∧ tGet? d.pair.buffer p.mseq = some p)
    ∧ (p.mseq = s.dev.pair.applied + 1 → tGet? s.dev.pair.buffer (p.mseq + 1) = none → tGet? s.dev.pair.regionBuffer (p.mseq + 1) = none →
        Memory.wf s.dev.mem = true → p.line.length = 128 →
        ∃ d, exec (.mirror p) s = .next (ends d s) ∧ d.pair.applied = p.mseq
          ∧ lineData d (lineOf p.addr) = mirrorLine p s.dev ∧ isPoisoned d (lineOf p.addr) = false
          ∧ (∀ a, lineOf a ≠ lineOf p.addr → memByte d.mem a = memByte s.dev.mem a) ∧ d.regions = s.dev.regions
          ∧ ∃ k ∈ d.fabTx, k.kind = 0x91 ∧ k.dest = unitId (partnerModule s.dev) 0 ∧ k.body = toLe 8 p.mseq) := by
  refine ⟨fun h => next_onDev (mirrorIn_of_applied h), fun h hb hr => ?_, fun h hb hr hm hlen => ?_⟩
  · exact ⟨mirrorHeld p s.dev, next_onDev (mirrorIn_of_gap hl h ⟨hb, hr⟩), rfl, rfl, tGet?_tSet_self ..⟩
  · obtain ⟨hin, happlied⟩ := mirrorIn_of_next hl h hb hr
    obtain ⟨hline, hpoison, hout⟩ := applyMirror_effect (d := mirrorNext (mirrorHeld p s.dev)) hm hlen
    have hregions := applyMirror_regions p (mirrorNext (mirrorHeld p s.dev))
    have hregs := applyMirror_regs p (mirrorNext (mirrorHeld p s.dev))
    have hsame : mirrorLine p (mirrorNext (mirrorHeld p s.dev)) = mirrorLine p s.dev := rfl
    obtain ⟨k, hack, hkind, hdest, hbody⟩ := ackMirror_eq (applyMirror p (mirrorNext (mirrorHeld p s.dev)))
    rw [hsame] at hline
    rw [partnerModule_congr hregs] at hdest
    rw [happlied] at hbody
    refine ⟨_, next_onDev hin, ?_⟩
    rw [hack]
    exact ⟨happlied, hline, hpoison, hout, hregions, k, List.mem_append_right _ List.mem_cons_self, hkind, hdest, hbody⟩

/-! ### Tables changed key by key -/

/-- A change of one key's value in a table: every other key keeps its own, and its own becomes g of what it was. -/
structure KeyChange (α : Type) (f : Tbl α → Nat → Tbl α) (g : Option α → Option α) : Prop where
  self : ∀ t k, tGet? (f t k) k = g (tGet? t k)
  other : ∀ t k r, r ≠ k → tGet? (f t k) r = tGet? t r

section Keys
variable {α : Type} {f : Tbl α → Nat → Tbl α} {g : Option α → Option α} (h : KeyChange α f g)
include h

theorem tGet?_foldl_out {r : Nat} (run : List Nat) (hr : r ∉ run) (t : Tbl α) : tGet? (run.foldl f t) r = tGet? t r := by
  induction run generalizing t with
  | nil => rfl
  | cons k run ih =>
    obtain ⟨hk, hrun⟩ := not_or.mp (List.mem_cons.not.mp hr)
    rw [List.foldl_cons, ih hrun, h.other t k r hk]

theorem tGet?_foldl_in {r : Nat} (run : List Nat) (hd : run.Nodup) (hr : r ∈ run) (t : Tbl α) :
    tGet? (run.foldl f t) r = g (tGet? t r) := by
  induction run generalizing t with
  | nil => cases hr
  | cons k run ih =>
    obtain ⟨hk, hrest⟩ := List.nodup_cons.mp hd
    rw [List.foldl_cons]
    rcases List.mem_cons.mp hr with rfl | hr
    · rw [tGet?_foldl_out h run hk, h.self]
    · have hne : r ≠ k := fun e => hk (e ▸ hr)
      rw [ih hrest hr, h.other t k r hne]

end Keys

theorem keyChange_tSet {α : Type} (v : α) : KeyChange α (fun t k => tSet t k v) (fun _ => some v) :=
  ⟨fun _ _ => tGet?_tSet_self .., fun _ _ _ h => tGet?_tSet_ne _ _ h⟩

theorem keyChange_tMod {α : Type} (f : α → α) : KeyChange α (fun t k => tMod t k f) (Option.map f) :=
  ⟨fun _ _ => (tGet?_tMod ..).trans (if_pos rfl), fun _ _ _ h => (tGet?_tMod ..).trans (if_neg h)⟩

theorem keyChange_tDel {α : Type} : KeyChange α tDel (fun _ => none) :=
  ⟨fun _ _ => tGet?_tDel_self .., fun _ _ _ h => tGet?_tDel_ne _ h⟩

theorem nodup_regionRun (first count : Nat) : (regionRun first count).Nodup :=
  List.nodup_range.map fun _ _ h => Nat.add_left_cancel h

/-! ### Region changes -/

/-- The table of the regions that a member mirrors. -/
def mirroredTbl (d : Dev) : Tbl Region := if mirrorsOwn d then d.regions else d.pair.mirrored

theorem mirroredAt_region (d : Dev) (r : Nat) : mirroredAt d (r * 2 ^ 21) = tGet? (mirroredTbl d) r := by
  have hno : regionNo (r * 2 ^ 21) = r := Nat.mul_div_cancel r (Nat.two_pow_pos 21)
  unfold mirroredAt mirroredTbl regionAt
  rw [hno]
  split <;> rfl

theorem mirroredTbl_modMirrored (f : Tbl Region → Nat → Tbl Region) (run : List Nat) (d : Dev) :
    mirroredTbl (modMirrored f run d) = run.foldl f (mirroredTbl d) := by
  by_cases h : mirrorsOwn d = true
  · have hmod : modMirrored f run d = { d with regions := run.foldl f d.regions } := if_pos h
    rw [hmod]
    exact (if_pos h).trans (congrArg (run.foldl f) (if_pos h).symm)
  · have hmod : modMirrored f run d = { d with pair := { d.pair with mirrored := run.foldl f d.pair.mirrored } } := if_neg h
    rw [hmod]
    exact (if_neg h).trans (congrArg (run.foldl f) (if_neg h).symm)

/-- The record that a registration enters (R389). -/
def regionEntered (p : RegionPkt) : Region :=
  { crew := p.crew, key := p.key, paired := true, prot := bitAt p.flags 1, revert := bitAt p.flags 2, dgen := p.dgen }

/-- What a region change makes of the record of each region of its run; a mark is a free one (Table 14-1). -/
def regionMakes (p : RegionPkt) (mark : Option (Nat × Nat)) (x : Option Region) : Option Region :=
  if p.op = 1 then some (regionEntered p)
  else if p.op = 2 then x.map fun x => { x with key := p.key, dgen := p.dgen }
  else if p.op = 3 then none
  else x.map fun x => { x with mark }

/-- What of a device a region change may change: the mirrored regions, memory, the stream, the registers and the configuration. -/
def Dev.regionView (d : Dev) : Tbl Region × List Host.Cell × (Nat × Tbl MirrorPkt × Tbl RegionPkt) × Tbl Word × Cfg :=
  (mirroredTbl d, d.mem, d.stream, d.regs, d.cfg)

theorem regionView_modMirrored (f : Tbl Region → Nat → Tbl Region) (run : List Nat) (d : Dev) :
    (modMirrored f run d).regionView = (run.foldl f (mirroredTbl d), d.regionView.2) := by
  have hrest : (modMirrored f run d).regionView.2 = d.regionView.2 := view_ite (fun e : Dev => e.regionView.2) rfl rfl
  exact Prod.ext (mirroredTbl_modMirrored f run d) hrest

/-- A region change changes the records of its run one by one, and a registration zeros its regions (R389, R390). -/
theorem applyRegion_spec (p : RegionPkt) (d : Dev) : ∃ f mark, KeyChange Region f (regionMakes p mark)
    ∧ (applyRegion p d).regionView = ((regionRun (regionNo p.first) p.count).foldl f (mirroredTbl d),
        if p.op = 1 then memClear d.mem (p.first / 2 ^ 21 * 2 ^ 21) (p.count * 2 ^ 21) else d.mem, d.regionView.2.2) := by
  unfold applyRegion
  dsimp only
  by_cases h1 : p.op = 1
  · have hmakes : regionMakes p none = fun _ => some (regionEntered p) := funext fun _ => if_pos h1
    refine ⟨fun t r => tSet t r (regionEntered p), none, hmakes ▸ keyChange_tSet _, ?_⟩
    have hview := regionView_modMirrored (fun t r => tSet t r (regionEntered p)) (regionRun (regionNo p.first) p.count) d
    have hmem := congrArg (fun v => memClear v.2.1 (p.first / 2 ^ 21 * 2 ^ 21) (p.count * 2 ^ 21)) hview
    rw [if_pos h1, if_pos h1]
    exact Prod.ext (congrArg Prod.fst hview :) (Prod.ext hmem (congrArg (fun v => v.2.2) hview :))
  · rw [if_neg h1, if_neg h1]
    by_cases h2 : p.op = 2
    · have hmakes : regionMakes p none = Option.map fun x => { x with key := p.key, dgen := p.dgen } :=
        funext fun _ => (if_neg h1).trans (if_pos h2)
      rw [if_pos h2]
      exact ⟨_, none, hmakes ▸ keyChange_tMod _, regionView_modMirrored ..⟩
    · rw [if_neg h2]
      by_cases h3 : p.op = 3
      · have hmakes : regionMakes p none = fun _ => none := funext fun _ => (if_neg h1).trans ((if_neg h2).trans (if_pos h3))
        rw [if_pos h3]
        exact ⟨tDel, none, hmakes ▸ keyChange_tDel, regionView_modMirrored tDel (regionRun (regionNo p.first) p.count) d⟩
      · let m := (drawNat d).1
        let mark := if m % 13 = 0 then none else some (m % 13 / 3 % 4, m % 3)
        have hmakes : regionMakes p mark = Option.map fun x => { x with mark } :=
          funext fun _ => (if_neg h1).trans ((if_neg h2).trans (if_neg h3))
        rw [if_neg h3]
        exact ⟨_, mark, hmakes ▸ keyChange_tMod _, regionView_modMirrored _ _ (drawNat d).2⟩

/-! ### REGION -/

section RegionRow
variable {p : RegionPkt} {d : Dev}

theorem regionIn_of_applied (h : p.mseq ≤ d.pair.applied) : regionIn p d = d := if_pos (Or.inr h)

/-- A region change that is next is applied and acknowledged (R391). -/
theorem regionIn_of_next (hl : mirrorListens d = true) (h : p.mseq = d.pair.applied + 1) (hnow : tGet? d.pair.buffer p.mseq = none)
    (hbuffer : tGet? d.pair.buffer (p.mseq + 1) = none) (hregions : tGet? d.pair.regionBuffer (p.mseq + 1) = none) :
    regionIn p d = ackMirror (applyRegion p (regionNext (regionHeld p d)))
      ∧ (applyRegion p (regionNext (regionHeld p d))).pair.applied = p.mseq := by
  have hat : (regionHeld p d).pair.applied + 1 = p.mseq := h.symm
  have hline : tGet? (regionHeld p d).pair.buffer ((regionHeld p d).pair.applied + 1) = none := by
    rw [hat]
    exact hnow
  have hnext : tGet? (regionHeld p d).pair.regionBuffer ((regionHeld p d).pair.applied + 1) = some p := by
    rw [hat]
    exact tGet?_tSet_self ..
  obtain ⟨f, mark, -, hview⟩ := applyRegion_spec p (regionNext (regionHeld p d))
  have hstream : (applyRegion p (regionNext (regionHeld p d))).stream
      = (p.mseq, d.pair.buffer, tDel (tSet d.pair.regionBuffer p.mseq p) p.mseq) := by
    have hheld : (regionNext (regionHeld p d)).stream
        = (d.pair.applied + 1, d.pair.buffer, tDel (tSet d.pair.regionBuffer p.mseq p) (d.pair.applied + 1)) := rfl
    have hkept : (applyRegion p (regionNext (regionHeld p d))).stream = (regionNext (regionHeld p d)).stream :=
      (congrArg (fun v => v.2.2.1) hview :)
    rw [hkept, hheld, ← h]
  have happlied : (applyRegion p (regionNext (regionHeld p d))).pair.applied = p.mseq := (congrArg Prod.fst hstream :)
  obtain ⟨n, hn⟩ := Nat.exists_eq_succ_of_ne_zero
    (Nat.ne_of_gt (Nat.add_pos_right (regionHeld p d).pair.buffer.length (length_pos_of_tGet? hnext)))
  have hgap := atGap_of_stream hstream hbuffer ((tGet?_tDel_tSet_ne _ _ (Nat.succ_ne_self _)).trans hregions)
  have htake : regionIn p d = mirrorTake (regionHeld p d) := if_neg (by rw [hl]; simpa using h ▸ Nat.lt_succ_self _)
  refine ⟨?_, happlied⟩
  rw [htake]
  refine mirrorTake_of_applied hn (applyBuffered_of_region hline hnext n) hgap ?_
  rw [happlied, h]
  exact Nat.succ_ne_self _

end RegionRow

/-- REGION (R389, R390). -/
theorem region_by_mseq {p : RegionPkt} {s : State} (hl : mirrorListens s.dev = true) :
    (p.mseq ≤ s.dev.pair.applied → exec (.region p) s = .next (ends s.dev s))
    ∧ (p.mseq = s.dev.pair.applied + 1 → tGet? s.dev.pair.buffer p.mseq = none → tGet? s.dev.pair.buffer (p.mseq + 1) = none →
        tGet? s.dev.pair.regionBuffer (p.mseq + 1) = none → Memory.wf s.dev.mem = true →
        ∃ d mark, exec (.region p) s = .next (ends d s) ∧ d.pair.applied = p.mseq
          ∧ (∀ r, r ∉ regionRun (regionNo p.first) p.count → mirroredAt d (r * 2 ^ 21) = mirroredAt s.dev (r * 2 ^ 21))
          ∧ (∀ r, r ∈ regionRun (regionNo p.first) p.count →
              mirroredAt d (r * 2 ^ 21) = regionMakes p mark (mirroredAt s.dev (r * 2 ^ 21)))
          ∧ (∀ a, memByte d.mem a = if p.op = 1 ∧ p.first / 2 ^ 21 * 2 ^ 21 ≤ a ∧ a < p.first / 2 ^ 21 * 2 ^ 21 + p.count * 2 ^ 21
              then 0#8 else memByte s.dev.mem a)) := by
  refine ⟨fun h => next_onDev (regionIn_of_applied h), fun h hnow hb hr hm => ?_⟩
  obtain ⟨hin, happlied⟩ := regionIn_of_next hl h hnow hb hr
  obtain ⟨f, mark, hf, hview⟩ := applyRegion_spec p (regionNext (regionHeld p s.dev))
  obtain ⟨k, hack, -, -, -⟩ := ackMirror_eq (applyRegion p (regionNext (regionHeld p s.dev)))
  have htbl : mirroredTbl (ackMirror (applyRegion p (regionNext (regionHeld p s.dev))))
      = (regionRun (regionNo p.first) p.count).foldl f (mirroredTbl s.dev) := by
    rw [hack]
    exact (congrArg Prod.fst hview :)
  refine ⟨_, mark, next_onDev hin, ?_, fun r hr => ?_, fun r hr => ?_, fun a => ?_⟩
  · rw [hack]
    exact happlied
  · rw [mirroredAt_region, mirroredAt_region, htbl, tGet?_foldl_out hf _ hr]
  · rw [mirroredAt_region, mirroredAt_region, htbl, tGet?_foldl_in hf _ (nodup_regionRun ..) hr]
  · have hmem : (ackMirror (applyRegion p (regionNext (regionHeld p s.dev)))).mem
        = if p.op = 1 then memClear s.dev.mem (p.first / 2 ^ 21 * 2 ^ 21) (p.count * 2 ^ 21) else s.dev.mem := by
      rw [hack]
      exact (congrArg (fun v => v.2.1) hview :)
    rw [hmem]
    by_cases h1 : p.op = 1
    · rw [if_pos h1]
      by_cases hin : p.first / 2 ^ 21 * 2 ^ 21 ≤ a ∧ a < p.first / 2 ^ 21 * 2 ^ 21 + p.count * 2 ^ 21
      · rw [if_pos ⟨h1, hin⟩]
        exact memByte_memClear_in _ hin.1 hin.2
      · rw [if_neg (fun h => hin h.2)]
        exact memByte_memClear_out _ hm (by omega)
    · rw [if_neg h1, if_neg (fun h => h1 h.1)]

/-! ### MIRROR_ACK -/

/-- Acknowledged changes become home values, one after another. -/
def homeChanges (l : List MirrorWait) (d : Dev) : Dev := l.foldl (fun d w => setLine (lineOf w.addr) w.line d) d

theorem homeChanges_cons (w : MirrorWait) (l : List MirrorWait) (d : Dev) :
    homeChanges (w :: l) d = homeChanges l (setLine (lineOf w.addr) w.line d) := by
  rw [homeChanges, List.foldl_cons, homeChanges]

theorem homeChanges_append (l r : List MirrorWait) (d : Dev) : homeChanges (l ++ r) d = homeChanges r (homeChanges l d) :=
  List.foldl_append

theorem wf_homeChanges (l : List MirrorWait) {d : Dev} (hm : Memory.wf d.mem = true) : Memory.wf (homeChanges l d).mem = true := by
  induction l generalizing d with
  | nil => exact hm
  | cons w l ih =>
    rw [homeChanges_cons]
    exact ih (wf_setLine hm ..)

theorem lineData_setLine_ne {d : Dev} (hm : Memory.wf d.mem = true) {l line : Nat} (b : List Byte) (h : l ≠ line) :
    lineData (setLine l b d) line = lineData d line :=
  lineData_congr fun _ hx => memByte_setLine_ne hm l b (hx ▸ h.symm)

/-- A line that no change names keeps its value. -/
theorem lineData_homeChanges_out (l : List MirrorWait) {d : Dev} (hm : Memory.wf d.mem = true) {line : Nat}
    (h : ∀ w ∈ l, lineOf w.addr ≠ line) : lineData (homeChanges l d) line = lineData d line := by
  induction l generalizing d with
  | nil => rfl
  | cons w l ih =>
    rw [homeChanges_cons, ih (wf_setLine hm ..) fun x hx => h x (List.mem_cons_of_mem _ hx),
      lineData_setLine_ne hm _ (h w List.mem_cons_self)]

/-- A line takes the value of the last change that names it. -/
theorem lineData_homeChanges_last (l r : List MirrorWait) (w : MirrorWait) {d : Dev} (hm : Memory.wf d.mem = true)
    (hw : w.line.length = 128) (h : ∀ x ∈ r, lineOf x.addr ≠ lineOf w.addr) :
    lineData (homeChanges (l ++ w :: r) d) (lineOf w.addr) = w.line := by
  have hwf := wf_homeChanges l hm
  rw [homeChanges_append, homeChanges_cons, lineData_homeChanges_out r (wf_setLine hwf ..) h, lineData_setLine_self hwf, slice_whole hw]

/-- The waits of a member that an acknowledgement of an MSEQ ends. -/
def ackedWaits (m : Nat) (d : Dev) : List MirrorWait := d.pair.waits.filter fun w => decide (w.mseq ≤ m)

/-- The pair's record of what has been acknowledged, and the jobs. -/
def ackNoted (m : Nat) (owed : List Owed) (jobs : Tbl Job) (d : Dev) : Dev := { d with
  pair := { d.pair with acked := max d.pair.acked m, waits := d.pair.waits.filter fun w => decide (m < w.mseq), owed }, jobs }

/-- Where no job waits for the acknowledgement, it changes home values and the pair's record. -/
theorem commitMirror_of_free {m : Nat} {d : Dev}
    (h : ∀ i j, (i, j) ∈ d.jobs → ∀ p ∈ j.parts, p.waitsFor (waitsMirror m) = false) :
    ∃ owed jobs, commitMirror m d = ackNoted m owed jobs (homeChanges (ackedWaits m d) d) := by
  have hjobs : (homeChanges (ackedWaits m d) d).jobs = d.jobs := view_foldl Dev.jobs (fun e w => setLine_jobs _ _ e) _ d
  have hpair : (homeChanges (ackedWaits m d) d).pair = d.pair := view_foldl Dev.pair (fun e w => setLine_pair _ _ e) _ d
  have hnone : ((homeChanges (ackedWaits m d) d).jobs.filter fun j => j.2.parts.any fun p => p.waitsFor (waitsMirror m)) = [] := by
    rw [hjobs]
    refine List.filter_eq_nil_iff.mpr fun j hj => ?_
    simpa using h j.1 j.2 hj
  unfold homeChanges ackedWaits at hnone ⊢
  unfold commitMirror
  dsimp only
  rw [hnone, List.map_nil, List.foldl_nil]
  exact ⟨_, _, rfl⟩

/-- A serving member that neither resynchronises nor switches does nothing more at an acknowledgement. -/
theorem switchAsk_resyncCommit_of_serving {d : Dev} (hst : d.pair.state = 4) (hs : d.pair.switching = false) :
    switchAsk (resyncCommit d) = d := by
  have hresync : resyncCommit d = d := if_neg (by omega)
  rw [hresync]
  exact if_neg (by simp [hs])

theorem homeChanges_pair (l : List MirrorWait) (d : Dev) : (homeChanges l d).pair = d.pair :=
  view_foldl Dev.pair (fun e _ => setLine_pair _ _ e) l d

/-- A serving member that is in no switch takes an acknowledgement for what it has sent (R391). -/
theorem mirrorAck_of_serving {d : Dev} (hst : d.pair.state = 4) (hs : d.pair.switching = false) (n : Nat)
    (h : ∀ i j, (i, j) ∈ d.jobs → ∀ p ∈ j.parts, p.waitsFor (waitsMirror (min n d.pair.mseq)) = false) :
    ∃ owed jobs, mirrorAck n d
      = ackNoted (min n d.pair.mseq) owed jobs (homeChanges (ackedWaits (min n d.pair.mseq) d) d) := by
  obtain ⟨owed, jobs, hcommit⟩ := commitMirror_of_free h
  have hpair := homeChanges_pair (ackedWaits (min n d.pair.mseq) d) d
  refine ⟨owed, jobs, (if_pos (Or.inr hst)).trans ?_⟩
  rw [hcommit]
  exact switchAsk_resyncCommit_of_serving ((congrArg Pair.state hpair).trans hst) ((congrArg Pair.switching hpair).trans hs)

theorem ackNoted_lineData (m : Nat) (owed : List Owed) (jobs : Tbl Job) (d : Dev) (line : Nat) :
    lineData (ackNoted m owed jobs d) line = lineData d line := rfl

theorem ackNoted_pair (m : Nat) (owed : List Owed) (jobs : Tbl Job) (d : Dev) : (ackNoted m owed jobs d).pair =
    { d.pair with acked := max d.pair.acked m, waits := d.pair.waits.filter fun w => decide (m < w.mseq), owed } := rfl

/-- MIRROR_ACK at a serving member (R391). -/
theorem mirrorAck_commits {n : Nat} {s : State} (hst : s.dev.pair.state = 4) (hs : s.dev.pair.switching = false)
    (hm : Memory.wf s.dev.mem = true)
    (h : ∀ i j, (i, j) ∈ s.dev.jobs → ∀ p ∈ j.parts, p.waitsFor (waitsMirror (min n s.dev.pair.mseq)) = false) :
    ∃ d, exec (.mirrorAck n) s = .next (ends d s) ∧ d.pair.acked = max s.dev.pair.acked (min n s.dev.pair.mseq)
      ∧ d.pair.waits = s.dev.pair.waits.filter (fun w => decide (min n s.dev.pair.mseq < w.mseq))
      ∧ (∀ line, (∀ w ∈ s.dev.pair.waits, w.mseq ≤ min n s.dev.pair.mseq → lineOf w.addr ≠ line) →
          lineData d line = lineData s.dev line)
      ∧ ∀ l w r, s.dev.pair.waits = l ++ w :: r → w.mseq ≤ min n s.dev.pair.mseq → w.line.length = 128 →
          (∀ x ∈ r, x.mseq ≤ min n s.dev.pair.mseq → lineOf x.addr ≠ lineOf w.addr) → lineData d (lineOf w.addr) = w.line := by
  obtain ⟨owed, jobs, hack⟩ := mirrorAck_of_serving hst hs n h
  refine ⟨_, next_onDev hack, ?_, ?_, fun line hline => ?_, fun l w r hwaits hw hlen hlast => ?_⟩
  · rw [ackNoted_pair, homeChanges_pair]
  · rw [ackNoted_pair, homeChanges_pair]
  · rw [ackNoted_lineData]
    refine lineData_homeChanges_out _ hm fun w hw => ?_
    obtain ⟨hmem, hdue⟩ := List.mem_filter.mp hw
    exact hline w hmem (of_decide_eq_true hdue)
  · rw [ackNoted_lineData, ackedWaits, hwaits, List.filter_append, List.filter_cons, if_pos (decide_eq_true hw)]
    refine lineData_homeChanges_last _ _ w hm hlen fun x hx => ?_
    obtain ⟨hmem, hdue⟩ := List.mem_filter.mp hx
    exact hlast x hmem (of_decide_eq_true hdue)

/-! ### LINE_REQ, LINE_DATA and CREW_KEY -/

theorem lineReq_of_mirrored {a : Nat} {r : Region} {d : Dev} (hl : mirrorListens d = true) (hr : mirroredAt d a = some r) :
    lineReq a d = sendPair 0x72 (toLe 8 a ++ pairLine r a d) d := by
  simp only [lineReq, hr, hl, if_true]

theorem pairLine_of_open {r : Region} (h : r.prot = false) (a : Nat) (d : Dev) : pairLine r a d = lineData d (lineOf a) := by
  simp only [pairLine, h, Bool.false_eq_true, if_false]

theorem crewKeyIn_of_listening {d : Dev} (hl : mirrorListens d = true) (crew : Nat) (wrapped : List Byte) :
    crewKeyIn crew wrapped d = { d with pair := { d.pair with keys := tSet d.pair.keys crew (Config.unwrapCrewKey wrapped) } } :=
  if_pos hl

/-- The counts of a CE record of a crew (R366). -/
def countCrewCe (crew : Nat) (d : Dev) : Dev :=
  let x := (tGet? d.flt.crews crew).getD {}
  { d with flt := { d.flt with crews := tSet d.flt.crews crew { x with ce := x.ce + 1 } } }

/-- A CE record of a crew, step by step. -/
theorem recordFault_ce {r : FaultRec} (h : r.cls = 1) (crew : Nat) (d : Dev) :
    let x := stampFault { r with crew, crewGen := (crewOf d crew).gen } d
    recordFault r (some crew) d = armFault r.cls (pinPulse r.cls (pulse (8 * 32 + 7 + r.cls) (pulse (9 * 32 + 7 + r.cls)
      (countFault r.cls (countCrewCe crew (deviceRing x.1 x.2)))))) := by
  cases r
  dsimp only at h
  subst h
  rfl

/-- A CE record changes nothing beyond what `Dev.offNote` leaves out. -/
theorem offNote_recordFault_ce {r : FaultRec} (h : r.cls = 1) (owner : Option Nat) (d : Dev) :
    (recordFault r owner d).offNote = d.offNote := by
  cases owner with
  | none => exact offNote_recordFault (Or.inl h) d
  | some crew =>
    have hcount (e : Dev) : (countCrewCe crew e).offNote = e.offNote := rfl
    simp only [recordFault_ce h, offNote_armFault, offNote_pinPulse, offNote_pulse, offNote_countFault, hcount, offNote_deviceRing]
    rfl

/-- The bytes of a repaired line: deciphered where its region is protected (R393). -/
def lineCopy (a : Nat) (data : List Byte) (d : Dev) : List Byte :=
  let r := (regionAt d a).getD {}
  if r.prot then toLe 128 (Config.xtsDecrypt (tGet d.pair.keys r.crew) (lineOf a * 128) r.dgen data).toNat else data

/-- The line written back, its mark cleared and the repair counted and recorded (R367). -/
def lineWritten (a : Nat) (data : List Byte) (d : Dev) : Dev :=
  let e := bumpSat 0x110058 15 0 1 (unpoison (lineOf a) (setLine (lineOf a) (lineCopy a data d) d))
  faultAt 1 0x01 0 (0x2000 + stackOf e a) 0 (lineOf a * 128) e

/-- What waited for a line's repair goes on: the device's own jobs are done, and parts are tried again. -/
def repairEnded (line : Nat) (d : Dev) : Dev :=
  let dead := (d.jobs.filter fun j => j.2.owner == .device && j.2.parts.any (·.waitsFor (waitsRepair line))).map (·.1)
  wakeJobs (waitsRepair line) { d with jobs := d.jobs.filter fun j => !dead.contains j.1 }

theorem lineDataIn_of_awaited {a : Nat} {data : List Byte} {d : Dev} (h : repairing d (lineOf a) = true) :
    lineDataIn a data d = repairEnded (lineOf a) (lineWritten a data d) := if_neg (by rw [h]; decide)

theorem repairEnded_mem (line : Nat) (d : Dev) : (repairEnded line d).mem = d.mem := rfl
theorem repairEnded_poison (line : Nat) (d : Dev) : (repairEnded line d).poison = d.poison := rfl

theorem poison_of_offNote {d e : Dev} (h : e.offNote = d.offNote) : e.poison = d.poison := (congrArg Dev.poison h :)

theorem lineWritten_offNote (a : Nat) (data : List Byte) (d : Dev) : (lineWritten a data d).offNote
    = (bumpSat 0x110058 15 0 1 (unpoison (lineOf a) (setLine (lineOf a) (lineCopy a data d) d))).offNote :=
  offNote_recordFault_ce rfl ..

theorem lineWritten_mem (a : Nat) (data : List Byte) (d : Dev) :
    (lineWritten a data d).mem = (setLine (lineOf a) (lineCopy a data d) d).mem := by
  rw [mem_of_offNote (lineWritten_offNote a data d), bumpSat, setField_mem, unpoison_mem]

theorem lineWritten_poison (a : Nat) (data : List Byte) (d : Dev) :
    (lineWritten a data d).poison = d.poison.filter (· != lineOf a) := by
  rw [poison_of_offNote (lineWritten_offNote a data d), bumpSat, setField_poison, unpoison, setLine_poison]

/-- A part that waits for a line's repair. -/
theorem waitsFor_of_repair {p : Part} {line : Nat} (h : (p.state == .waiting (.repair line)) = true) :
    p.waitsFor (waitsRepair line) = true := by
  rw [Part.waitsFor, beq_iff_eq.mp h]
  exact beq_self_eq_true line

/-- A job whose parts that wait for a line's repair are to be tried again. -/
def woken (line : Nat) (j : Job) : Job :=
  if j.parts.any (·.waitsFor (waitsRepair line)) then
    { j with ready := true, parts := j.parts.map fun p => if p.waitsFor (waitsRepair line) then { p with state := .todo } else p } else j

theorem waitsFor_woken {line : Nat} {j : Job} {p : Part} (hp : p ∈ (woken line j).parts) : p.waitsFor (waitsRepair line) = false := by
  unfold woken at hp
  split at hp
  · obtain ⟨x, -, rfl⟩ := List.mem_map.mp hp
    split
    · rfl
    · next h => exact Bool.eq_false_iff.mpr h
  · next h => exact Bool.eq_false_iff.mpr fun hw => h (List.any_eq_true.mpr ⟨p, hp, hw⟩)

/-- Nothing waits for the repair of a line any longer. -/
theorem repairing_repairEnded (line : Nat) (d : Dev) : repairing (repairEnded line d) line = false := by
  refine List.any_eq_false.mpr fun j hj hwaits => ?_
  obtain ⟨p, hp, hstate⟩ := List.any_eq_true.mp (Bool.and_eq_true_iff.mp hwaits).2
  obtain ⟨x, -, rfl⟩ := List.mem_map.mp hj
  have hnone : p.waitsFor (waitsRepair line) = false := waitsFor_woken (j := x.2) hp
  exact Bool.false_ne_true (hnone.symm.trans (waitsFor_of_repair hstate))

/-- LINE_DATA (R367). -/
theorem lineData_by_repair {a : Nat} {data : List Byte} {s : State} :
    (repairing s.dev (lineOf a) = false → exec (.lineData a data) s = .next (ends s.dev s))
    ∧ (repairing s.dev (lineOf a) = true → Memory.wf s.dev.mem = true → data.length = 128 →
        ∃ d, exec (.lineData a data) s = .next (ends d s) ∧ lineData d (lineOf a) = lineCopy a data s.dev
          ∧ isPoisoned d (lineOf a) = false ∧ repairing d (lineOf a) = false
          ∧ ∀ x, lineOf x ≠ lineOf a → memByte d.mem x = memByte s.dev.mem x) := by
  refine ⟨fun h => next_onDev (if_pos (by rw [h]; rfl)), fun h hm hlen => ?_⟩
  have hcopy : (lineCopy a data s.dev).length = 128 := by
    unfold lineCopy
    dsimp only
    split
    · exact length_toLe ..
    · exact hlen
  have hline := lineData_setLine_self hm (lineOf a) (lineCopy a data s.dev)
  rw [slice_whole hcopy, lineData] at hline
  refine ⟨_, next_onDev (lineDataIn_of_awaited h), ?_, ?_, repairing_repairEnded .., fun x hx => ?_⟩
  · rw [lineData, repairEnded_mem, lineWritten_mem, hline]
  · simp [isPoisoned, repairEnded_poison, lineWritten_poison]
  · rw [repairEnded_mem, lineWritten_mem]
    exact memByte_setLine_ne hm _ _ hx

/-- A repaired line of a region is deciphered where the region is protected, and else taken as it came. -/
theorem lineCopy_eq (a : Nat) (data : List Byte) (d : Dev) : lineCopy a data d = match regionAt d a with
    | some r => if r.prot then toLe 128 (Config.xtsDecrypt (tGet d.pair.keys r.crew) (lineOf a * 128) r.dgen data).toNat else data
    | none => data := by
  unfold lineCopy
  cases regionAt d a <;> rfl

/-- Settles O49: each packet by what the stream, the acknowledgement or the repair makes of the member that takes it. -/
theorem mirrorStream : Obligations.MirrorStream := by
  unfold Obligations.MirrorStream
  refine ⟨fun p s hl => mirror_by_mseq hl, fun p s hl => ?_, fun n s hst hs hm h => mirrorAck_commits hst hs hm h,
    fun a r s hl hr => ⟨next_onDev (lineReq_of_mirrored hl hr), fun hp => pairLine_of_open hp a s.dev⟩, fun a data s => ?_,
    fun crew epoch wrapped s he hl => ?_⟩
  · obtain ⟨hold, hnext⟩ := region_by_mseq (p := p) hl
    refine ⟨hold, fun h hnow hb hr hm => ?_⟩
    obtain ⟨d, mark, hexec, happlied, hout, hrun, hmem⟩ := hnext h hnow hb hr hm
    refine ⟨d, hexec, happlied, hout, fun r hr => ⟨fun h1 => ?_, fun h2 => ?_, fun h3 => ?_⟩, hmem⟩
    · exact (hrun r hr).trans (if_pos h1)
    · exact (hrun r hr).trans ((if_neg (by omega)).trans (if_pos h2))
    · exact (hrun r hr).trans ((if_neg (by omega)).trans ((if_neg (by omega)).trans (if_pos h3)))
  · have hrepair := lineData_by_repair (a := a) (data := data) (s := s)
    rw [lineCopy_eq] at hrepair
    exact hrepair
  · refine ⟨_, next_onDev ((if_pos he).trans (crewKeyIn_of_listening hl crew wrapped)), tGet?_tSet_self .., fun n hn => ?_⟩
    exact tGet?_tSet_ne _ _ hn

end Sys2Proof.Machine
end
